-- ==== Sys2Proof/Word.lean ====
section
/-! DEFINITION. The word types of the G9: 64-bit words, bytes and the word-with-tally that every carrier of
Table 5-2 moves (R136, R139). -/

namespace Sys2Proof

/-- A 64-bit word: every register (R2) and every memory word. -/
abbrev Word := BitVec 64

/-- A byte of memory, and the width of a tally (R136). -/
abbrev Byte := BitVec 8

/-- A 64-bit value together with its tally byte (R136, R139). -/
structure TWord where
  /-- The 64 value bits. -/
  val : Word
  /-- The tally byte. -/
  tal : Byte
  deriving DecidableEq, Repr, Inhabited

/-- Zero with tally 0: what g0 reads as (R93) and what zeroed memory holds (Table 5-1). -/
def TWord.zero : TWord := ⟨0, 0⟩

/-- The eight words of a 64-byte line, word 0 at the lowest address (every cache level, ch. 7). -/
abbrev Line := List TWord

/-- A line of eight zero words with tally 0. -/
def Line.zero : Line := List.replicate 8 TWord.zero

/-- The word positions of a packet that carries no data: tally 0xFF in each (Table 5-2). -/
def Line.unused : Line := List.replicate 8 ⟨0, 0xFF⟩

end Sys2Proof
end

