-- ==== Sys2Proof/Syntax.lean ====
section
/-! DEFINITION. The commands of the G9: one constructor for each row of spec/opcode_table.json, with the row's
operands. An OA64 instruction carries its thread and every field of its format (Table 4-7), reserved fields included;
a message carries the holder and the line it concerns; a command of a requester carries its identity (R216). -/

namespace Sys2Proof

/-- Who issues a register access or a command: the identity that the source interface stamps (R216). -/
inductive Requester where
  /-- A thread, in whichever world it stands. -/
  | thread (t : BitVec 10)
  /-- Cordage on a management core. -/
  | mgmt (c : BitVec 2)
  /-- The Bowline core, in the secure world. -/
  | bowline
  /-- The manager of a host port, through BAR0. -/
  | manager (h : BitVec 1)
  /-- A tenant slice. -/
  | tenant (s : BitVec 12)
  /-- A host that does not hold the manager role, through BAR0 (R395). -/
  | host (h : BitVec 1)
  deriving DecidableEq, Repr, Inhabited

/-- What a TAP instruction register holds (R41). -/
inductive TapInstr where
  | bypass | idcode | other (code : BitVec 8)
  deriving DecidableEq, Repr, Inhabited

/-- The leaky buckets of correctable errors (R213, R276). -/
inductive Bucket where
  | core (q : BitVec 6) | l2 (q : BitVec 6) | llc (s : BitVec 6) | channel (m : BitVec 4)
  deriving DecidableEq, Repr, Inhabited

/-- A window as its exporter announces it (R435): its number, validity and rights, generation, size and aperture offset in
units of 2 MiB, and LOCAL_BASE. -/
structure PeerWin where
  win : BitVec 4
  valid : Bool
  wr : Bool
  rd : Bool
  gen : BitVec 8
  size : BitVec 16
  aper : BitVec 15
  base : BitVec 52
  deriving DecidableEq, Repr, Inhabited


/-- The commands, in the order of the opcode table. -/
inductive Instr where
  /-- PWR_EN_RISE (R21): PWR_EN going high with VIN above 39.0 V begins the start-up sequence. -/
  | pwrEnRise (low100 : Bool)
  /-- PWR_EN_FALL (R36): PWR_EN going low turns all rails off within 10 ms, with no orderly shutdown, as a loss of power. -/
  | pwrEnFall
  /-- HOUSEKEEPING_ON (R19): VIN rising through 39.0 V starts the housekeeping rail, activates the J13 input buffers and pull-ups, and samples the address straps. -/
  | housekeepingOn (maddr : BitVec 2) (commissionHigh : Bool)
  /-- HOUSEKEEPING_OFF (R19): VIN falling through 37.5 V stops the housekeeping rail, and all rails are off. -/
  | housekeepingOff
  /-- SUPPLY_TRIP (R451): VIN stays below 38.5 V or above 62.0 V for 50 µs, and the supply trip sequence starts. -/
  | supplyTrip (high : Bool)
  /-- OVERVOLTAGE_SHUTDOWN (R19): VIN above 64.0 V turns all rails off at once; restart needs PWR_EN low for at least 100 ms. -/
  | overvoltageShutdown
  /-- RESET_N_ASSERT (R35): RESET_N held low for 10 µs or more (or possibly for 1 to 10 µs) is taken as a module reset, and the module is held in reset with its rails on. -/
  | resetNAssert (ns : BitVec 32)
  /-- RESET_N_RELEASE (R35): RESET_N going high resumes start-up at the Bowline ROM step. -/
  | resetNRelease
  /-- MODULE_RESET (R460): A module reset resets every domain, discards dirty lines and restarts start-up at the Bowline ROM step. -/
  | moduleReset
  /-- COMMISSION_PRESS (R39): A high-to-low transition of COMMISSION_N held low for 50 ms registers a press, which completes a commissioning or revocation that waits for presence. -/
  | commissionPress (ms : BitVec 16) (high50 : Bool)
  /-- DEBUG_TAP_INSTRUCTION (R41): A TAP instruction is carried out; until unlock, every instruction other than BYPASS and IDCODE acts as BYPASS. -/
  | debugTapInstruction (tap : TapInstr)
  /-- REFCLK_LOSS (R24): REFCLK stops while the host link is up, and the link goes down with no switch of reference until PERST# cycles. -/
  | refclkLoss (h : BitVec 1)
  /-- PERST_ASSERT (R404): PERST# assertion takes the host link down and starts the host-port reset sequence. -/
  | perstAssert (h : BitVec 1)
  /-- PERST_DEASSERT (R24): PERST# deassertion selects the port's reference clock and starts link training. -/
  | perstDeassert (h : BitVec 1) (toggling : Bool)
  /-- FIELD_IMMUNITY_EVENT (R30): A surge, fast transient or ESD event strikes a field port; the struck port may lose frames for 10 ms, which are counted and recorded. -/
  | fieldImmunityEvent (port : BitVec 9) (lost : BitVec 16) (symbols : BitVec 16)
  /-- STARTUP_RAILS (R463): The rails rise, CLK_ROOT locks and the epoch starts at 0; a failure turns the rails off. -/
  | startupRails (ok : Bool)
  /-- STARTUP_BOWLINE_ROM (R463): The Bowline ROM reads the fuses and the bank record, then verifies a Bowline image. -/
  | startupBowlineRom (locked : Bool)
  /-- STARTUP_BOWLINE_IMAGE (R369): The Bowline image is verified from the active bank, falling back to the other bank, or start-up stops with FAULT_N low. -/
  | startupBowlineImage (bankA : Option (BitVec 7)) (bankB : Option (BitVec 7))
  /-- STARTUP_RIGGING (R80): Bowline verifies and applies the active or fallback rigging image, or completes start-up unrigged. -/
  | startupRigging (marginOk : Bool)
  /-- STARTUP_VIGIL (R465): The start-up Vigil run tests every target in mode BOTH and fences failing quads and bays, or stops start-up. -/
  | startupVigil (sigs : List (BitVec 64))
  /-- STARTUP_DRAM_TRAINING (R463): The DRAM is trained, spare-row maps restored, journals redone, the pattern test run, points written, stoppers started and ports enabled. -/
  | startupDramTraining (ok : Bool) (patFail : BitVec 16)
  /-- STARTUP_CORDAGE_LOAD (R369): Bowline verifies and loads Cordage, and SMBus starts answering. -/
  | startupCordageLoad (bankA : Option (BitVec 7)) (bankB : Option (BitVec 7))
  /-- STARTUP_CORDAGE_INIT (R463): Cordage starts the manager functions and the management snapshot, and AUTORUN partitions enter RUNNING. -/
  | startupCordageInit
  /-- VERIFY (R80): RIG_CMD OP 1 verifies the staged image through the checks of Table 3-15. -/
  | verify (who : Requester)
  /-- REWIRE (R86): RIG_CMD OP 2 verifies a staged partial image and begins its application to the target partition. -/
  | rewire (who : Requester)
  /-- REWIRE_COMPLETE (R87): Application of a partial image completes as one change, and the partition enters RIGGED. -/
  | rewireComplete
  /-- REWIRE_TIMEOUT (R87): A partial re-rig not applied within 200 ms ends TIMEOUT, and the old knots are restored. -/
  | rewireTimeout
  /-- STORE (R466): RIG_CMD OP 3 verifies the staged full image and writes it into a flash slot, clearing VALID until read-back succeeds. -/
  | store (who : Requester) (slot : BitVec 4) (readBackOk : Bool)
  /-- SELECT (R466): RIG_CMD OP 4 verifies a slot's image and makes it active, with the former active slot becoming fallback. -/
  | select (who : Requester) (slot : BitVec 4)
  /-- START (R90): RIG_CMD OP 5 moves a RIGGED partition to RUNNING, with thread 0 of its lowest core starting at BOOT_PC. -/
  | startPart (who : Requester) (p : BitVec 4)
  /-- PARK (R84): RIG_CMD OP 6 requests that the partition park at the end of its current calendar cycle. -/
  | park (who : Requester) (p : BitVec 4)
  /-- PARK_DRAIN_START (R291): At the end of the current cycle after a PARK, the calendar stops, the threads halt and the drain begins. -/
  | parkDrainStart (p : BitVec 4)
  /-- PARK_COMPLETE (R84): The drain completes and the partition enters PARKED, and PARK completes OK. -/
  | parkComplete (p : BitVec 4)
  /-- PARK_DRAIN_TIMEOUT (R84): A drain not complete within 10 ms puts the partition in FAULTED, and PARK completes NOT_PARKED. -/
  | parkDrainTimeout (p : BitVec 4)
  /-- RESUME (R294): RIG_CMD OP 7 returns a PARKED partition to RUNNING, clearing its latches and setting its completion flags. -/
  | resume (who : Requester) (p : BitVec 4)
  /-- RESET (R90): RIG_CMD OP 8 resets a PARKED or FAULTED partition to RIGGED. -/
  | reset (who : Requester) (p : BitVec 4)
  /-- REGISTER_WRITE (R7): A write to a register field with no behaviour of its own sets, clears or ignores it according to its access code and the block's access rule. -/
  | registerWrite (who : Requester) (addr : BitVec 52) (val : Word)
  /-- ADD (R98): ALU ADD writes ga + gb with a predicted and checked tally. -/
  | add (t : BitVec 10) (gd : BitVec 6) (ga : BitVec 6) (gb : BitVec 6)
  /-- SUB (R98): ALU SUB writes ga − gb with a predicted and checked tally. -/
  | sub (t : BitVec 10) (gd : BitVec 6) (ga : BitVec 6) (gb : BitVec 6)
  /-- AND (R98): ALU AND writes ga AND gb under shadow execution. -/
  | and (t : BitVec 10) (gd : BitVec 6) (ga : BitVec 6) (gb : BitVec 6)
  /-- OR (R98): ALU OR writes ga OR gb under shadow execution. -/
  | or (t : BitVec 10) (gd : BitVec 6) (ga : BitVec 6) (gb : BitVec 6)
  /-- XOR (R98): ALU XOR writes ga XOR gb under shadow execution. -/
  | xor (t : BitVec 10) (gd : BitVec 6) (ga : BitVec 6) (gb : BitVec 6)
  /-- ANDN (R98): ALU ANDN writes ga AND NOT gb under shadow execution. -/
  | andn (t : BitVec 10) (gd : BitVec 6) (ga : BitVec 6) (gb : BitVec 6)
  /-- SLL (R146): SLL shifts ga left by gb[5:0] with a predicted tally. -/
  | sll (t : BitVec 10) (gd : BitVec 6) (ga : BitVec 6) (gb : BitVec 6)
  /-- SRL (R98): SRL shifts ga right logically by gb[5:0]. -/
  | srl (t : BitVec 10) (gd : BitVec 6) (ga : BitVec 6) (gb : BitVec 6)
  /-- SRA (R98): SRA shifts ga right arithmetically by gb[5:0]. -/
  | sra (t : BitVec 10) (gd : BitVec 6) (ga : BitVec 6) (gb : BitVec 6)
  /-- CLT (R98): CLT writes 1 when ga is less than gb, signed. -/
  | clt (t : BitVec 10) (gd : BitVec 6) (ga : BitVec 6) (gb : BitVec 6)
  /-- CLTU (R98): CLTU writes 1 when ga is less than gb, unsigned. -/
  | cltu (t : BitVec 10) (gd : BitVec 6) (ga : BitVec 6) (gb : BitVec 6)
  /-- MIN (R98): MIN writes the signed minimum of ga and gb. -/
  | min (t : BitVec 10) (gd : BitVec 6) (ga : BitVec 6) (gb : BitVec 6)
  /-- MAX (R98): MAX writes the signed maximum of ga and gb. -/
  | max (t : BitVec 10) (gd : BitVec 6) (ga : BitVec 6) (gb : BitVec 6)
  /-- MINU (R98): MINU writes the unsigned minimum of ga and gb. -/
  | minu (t : BitVec 10) (gd : BitVec 6) (ga : BitVec 6) (gb : BitVec 6)
  /-- MAXU (R98): MAXU writes the unsigned maximum of ga and gb. -/
  | maxu (t : BitVec 10) (gd : BitVec 6) (ga : BitVec 6) (gb : BitVec 6)
  /-- CLZ (R98): CLZ writes the count of leading zeros of ga, with gb = g0 required. -/
  | clz (t : BitVec 10) (gd : BitVec 6) (ga : BitVec 6) (gb : BitVec 6)
  /-- POPC (R98): POPC writes the population count of ga, with gb = g0 required. -/
  | popc (t : BitVec 10) (gd : BitVec 6) (ga : BitVec 6) (gb : BitVec 6)
  /-- ADDI (R98): ADDI writes ga + sext(imm); with imm 0 it carries a poisoned ga without a trap. -/
  | addi (t : BitVec 10) (gd : BitVec 6) (ga : BitVec 6) (imm : BitVec 14)
  /-- ANDI (R98): ANDI writes ga AND sext(imm). -/
  | andi (t : BitVec 10) (gd : BitVec 6) (ga : BitVec 6) (imm : BitVec 14)
  /-- ORI (R98): ORI writes ga OR sext(imm). -/
  | ori (t : BitVec 10) (gd : BitVec 6) (ga : BitVec 6) (imm : BitVec 14)
  /-- XORI (R98): XORI writes ga XOR sext(imm). -/
  | xori (t : BitVec 10) (gd : BitVec 6) (ga : BitVec 6) (imm : BitVec 14)
  /-- CLTI (R98): CLTI compares ga with sext(imm), signed. -/
  | clti (t : BitVec 10) (gd : BitVec 6) (ga : BitVec 6) (imm : BitVec 14)
  /-- CLTIU (R98): CLTIU compares ga with sext(imm), unsigned. -/
  | cltiu (t : BitVec 10) (gd : BitVec 6) (ga : BitVec 6) (imm : BitVec 14)
  /-- SLLI (R146): SLLI shifts ga left by imm[5:0]. -/
  | slli (t : BitVec 10) (gd : BitVec 6) (ga : BitVec 6) (imm : BitVec 12)
  /-- SRLI (R98): SRLI shifts ga right logically by imm[5:0]. -/
  | srli (t : BitVec 10) (gd : BitVec 6) (ga : BitVec 6) (imm : BitVec 12)
  /-- SRAI (R98): SRAI shifts ga right arithmetically by imm[5:0]. -/
  | srai (t : BitVec 10) (gd : BitVec 6) (ga : BitVec 6) (imm : BitVec 12)
  /-- IMMH (R98): IMMH writes sext(imm) << 12 to gd. -/
  | immh (t : BitVec 10) (gd : BitVec 6) (imm : BitVec 20)
  /-- PCADD (R98): PCADD writes pc + (sext(imm) << 12) to gd. -/
  | pcadd (t : BitVec 10) (gd : BitVec 6) (imm : BitVec 20)
  /-- LUH (R98): LUH writes gd[31:0] OR (sext(imm) << 32) to gd. -/
  | luh (t : BitVec 10) (gd : BitVec 6) (imm : BitVec 20)
  /-- MUL (R146): MUL writes the low 64 bits of ga × gb with a predicted tally. -/
  | mul (t : BitVec 10) (gd : BitVec 6) (ga : BitVec 6) (gb : BitVec 6)
  /-- MULHI (R98): MULHI writes the high 64 bits of the signed × signed product. -/
  | mulhi (t : BitVec 10) (gd : BitVec 6) (ga : BitVec 6) (gb : BitVec 6)
  /-- MULHIU (R98): MULHIU writes the high 64 bits of the unsigned × unsigned product. -/
  | mulhiu (t : BitVec 10) (gd : BitVec 6) (ga : BitVec 6) (gb : BitVec 6)
  /-- MULHIX (R98): MULHIX writes the high 64 bits of signed ga × unsigned gb. -/
  | mulhix (t : BitVec 10) (gd : BitVec 6) (ga : BitVec 6) (gb : BitVec 6)
  /-- MADD (R146): MADD writes gd + ga × gb, low 64 bits, with a predicted tally. -/
  | madd (t : BitVec 10) (gd : BitVec 6) (ga : BitVec 6) (gb : BitVec 6)
  /-- DIV (R129): DIV writes the signed quotient rounded toward zero, with the zero-divisor and overflow rules. -/
  | div (t : BitVec 10) (gd : BitVec 6) (ga : BitVec 6) (gb : BitVec 6)
  /-- DIVU (R129): DIVU writes the unsigned quotient. -/
  | divu (t : BitVec 10) (gd : BitVec 6) (ga : BitVec 6) (gb : BitVec 6)
  /-- REM (R129): REM writes the signed remainder with the sign of the dividend. -/
  | rem (t : BitVec 10) (gd : BitVec 6) (ga : BitVec 6) (gb : BitVec 6)
  /-- REMU (R129): REMU writes the unsigned remainder. -/
  | remu (t : BitVec 10) (gd : BitVec 6) (ga : BitVec 6) (gb : BitVec 6)
  /-- LD (R112): LD loads a naturally aligned 64-bit word with its tally carried and checked. -/
  | ld (t : BitVec 10) (gd : BitVec 6) (ga : BitVec 6) (imm : BitVec 14)
  /-- LW (R152): LW loads a sign-extended 32-bit word, extracted under shadow from the checked containing word. -/
  | lw (t : BitVec 10) (gd : BitVec 6) (ga : BitVec 6) (imm : BitVec 14)
  /-- LWU (R152): LWU loads a zero-extended 32-bit word. -/
  | lwu (t : BitVec 10) (gd : BitVec 6) (ga : BitVec 6) (imm : BitVec 14)
  /-- LH (R152): LH loads a sign-extended halfword. -/
  | lh (t : BitVec 10) (gd : BitVec 6) (ga : BitVec 6) (imm : BitVec 14)
  /-- LHU (R152): LHU loads a zero-extended halfword. -/
  | lhu (t : BitVec 10) (gd : BitVec 6) (ga : BitVec 6) (imm : BitVec 14)
  /-- LB (R152): LB loads a sign-extended byte. -/
  | lb (t : BitVec 10) (gd : BitVec 6) (ga : BitVec 6) (imm : BitVec 14)
  /-- LBU (R152): LBU loads a zero-extended byte. -/
  | lbu (t : BitVec 10) (gd : BitVec 6) (ga : BitVec 6) (imm : BitVec 14)
  /-- LDA (R114): LDA is a 64-bit load-acquire that no later access of the thread passes. -/
  | lda (t : BitVec 10) (gd : BitVec 6) (ga : BitVec 6) (imm : BitVec 14)
  /-- SD (R112): SD stores a 64-bit word with its tally. -/
  | sd (t : BitVec 10) (gs : BitVec 6) (ga : BitVec 6) (imm : BitVec 14)
  /-- SW (R153): SW stores a 32-bit word, merged into the containing word after retirement. -/
  | sw (t : BitVec 10) (gs : BitVec 6) (ga : BitVec 6) (imm : BitVec 14)
  /-- SH (R153): SH stores a halfword, merged after retirement. -/
  | sh (t : BitVec 10) (gs : BitVec 6) (ga : BitVec 6) (imm : BitVec 14)
  /-- SB (R153): SB stores a byte, merged after retirement. -/
  | sb (t : BitVec 10) (gs : BitVec 6) (ga : BitVec 6) (imm : BitVec 14)
  /-- SDR (R114): SDR is a 64-bit store-release performed after every earlier access. -/
  | sdr (t : BitVec 10) (gs : BitVec 6) (ga : BitVec 6) (imm : BitVec 14)
  /-- LL (R116): LL loads a word and reserves its 64-byte line. -/
  | ll (t : BitVec 10) (gd : BitVec 6) (ga : BitVec 6) (gb : BitVec 6) (aq : Bool) (rl : Bool) (w : Bool)
  /-- SC (R116): SC stores gb only while the reservation holds, and writes 0 or 1 to gd. -/
  | sc (t : BitVec 10) (gd : BitVec 6) (ga : BitVec 6) (gb : BitVec 6) (aq : Bool) (rl : Bool) (w : Bool)
  /-- ATOM_SWAP (R117): Atomic SWAP stores gb and returns the old value, as one single-copy atomic access. -/
  | atomSwap (t : BitVec 10) (gd : BitVec 6) (ga : BitVec 6) (gb : BitVec 6) (aq : Bool) (rl : Bool) (w : Bool)
  /-- ATOM_ADD (R117): Atomic ADD adds gb to memory and returns the old value. -/
  | atomAdd (t : BitVec 10) (gd : BitVec 6) (ga : BitVec 6) (gb : BitVec 6) (aq : Bool) (rl : Bool) (w : Bool)
  /-- ATOM_AND (R117): Atomic AND combines memory with gb and returns the old value. -/
  | atomAnd (t : BitVec 10) (gd : BitVec 6) (ga : BitVec 6) (gb : BitVec 6) (aq : Bool) (rl : Bool) (w : Bool)
  /-- ATOM_OR (R117): Atomic OR combines memory with gb and returns the old value. -/
  | atomOr (t : BitVec 10) (gd : BitVec 6) (ga : BitVec 6) (gb : BitVec 6) (aq : Bool) (rl : Bool) (w : Bool)
  /-- ATOM_XOR (R117): Atomic XOR combines memory with gb and returns the old value. -/
  | atomXor (t : BitVec 10) (gd : BitVec 6) (ga : BitVec 6) (gb : BitVec 6) (aq : Bool) (rl : Bool) (w : Bool)
  /-- ATOM_MAX (R117): Atomic MAX stores the signed maximum and returns the old value. -/
  | atomMax (t : BitVec 10) (gd : BitVec 6) (ga : BitVec 6) (gb : BitVec 6) (aq : Bool) (rl : Bool) (w : Bool)
  /-- ATOM_MIN (R117): Atomic MIN stores the signed minimum and returns the old value. -/
  | atomMin (t : BitVec 10) (gd : BitVec 6) (ga : BitVec 6) (gb : BitVec 6) (aq : Bool) (rl : Bool) (w : Bool)
  /-- ATOM_MAXU (R117): Atomic MAXU stores the unsigned maximum and returns the old value. -/
  | atomMaxu (t : BitVec 10) (gd : BitVec 6) (ga : BitVec 6) (gb : BitVec 6) (aq : Bool) (rl : Bool) (w : Bool)
  /-- ATOM_MINU (R117): Atomic MINU stores the unsigned minimum and returns the old value. -/
  | atomMinu (t : BitVec 10) (gd : BitVec 6) (ga : BitVec 6) (gb : BitVec 6) (aq : Bool) (rl : Bool) (w : Bool)
  /-- FENCE (R114): FENCE orders the predecessor-set accesses before the successor-set accesses. -/
  | fence (t : BitVec 10) (gd : BitVec 6) (ga : BitVec 6) (imm : BitVec 14)
  /-- SYNC_I (R118): SYNC.I makes visible stores reach instruction fetch and empties the loop and side buffers. -/
  | syncI (t : BitVec 10) (gd : BitVec 6) (ga : BitVec 6) (gb : BitVec 6)
  /-- XLSYNC (R111): XLSYNC makes page-table stores for an address and ASID take effect in translation. -/
  | xlsync (t : BitVec 10) (gd : BitVec 6) (ga : BitVec 6) (gb : BitVec 6)
  /-- BEQ (R100): BEQ branches when ga equals gb, with a delay slot annulled by A when not taken. -/
  | beq (t : BitVec 10) (ga : BitVec 6) (gb : BitVec 6) (a : Bool) (disp : BitVec 13)
  /-- BNE (R100): BNE branches when ga differs from gb. -/
  | bne (t : BitVec 10) (ga : BitVec 6) (gb : BitVec 6) (a : Bool) (disp : BitVec 13)
  /-- BLT (R100): BLT branches when ga is less than gb, signed. -/
  | blt (t : BitVec 10) (ga : BitVec 6) (gb : BitVec 6) (a : Bool) (disp : BitVec 13)
  /-- BGE (R100): BGE branches when ga is at least gb, signed. -/
  | bge (t : BitVec 10) (ga : BitVec 6) (gb : BitVec 6) (a : Bool) (disp : BitVec 13)
  /-- BLTU (R100): BLTU branches when ga is less than gb, unsigned. -/
  | bltu (t : BitVec 10) (ga : BitVec 6) (gb : BitVec 6) (a : Bool) (disp : BitVec 13)
  /-- BGEU (R100): BGEU branches when ga is at least gb, unsigned. -/
  | bgeu (t : BitVec 10) (ga : BitVec 6) (gb : BitVec 6) (a : Bool) (disp : BitVec 13)
  /-- J (R100): J transfers to pc + sext(disp) × 4 after its delay slot. -/
  | j (t : BitVec 10) (disp : BitVec 26)
  /-- JLNK (R100): JLNK transfers like J and writes the link address + 8 to g63. -/
  | jlnk (t : BitVec 10) (disp : BitVec 26)
  /-- JIND (R102): JIND transfers to ga + sext(imm) and writes the link, trapping on a misaligned target. -/
  | jind (t : BitVec 10) (gd : BitVec 6) (ga : BitVec 6) (imm : BitVec 14)
  /-- FADD (R99): FADD adds two binary64 values. -/
  | fadd (t : BitVec 10) (gd : BitVec 6) (ga : BitVec 6) (gb : BitVec 6)
  /-- FSUB (R99): FSUB subtracts two binary64 values. -/
  | fsub (t : BitVec 10) (gd : BitVec 6) (ga : BitVec 6) (gb : BitVec 6)
  /-- FMUL (R99): FMUL multiplies two binary64 values. -/
  | fmul (t : BitVec 10) (gd : BitVec 6) (ga : BitVec 6) (gb : BitVec 6)
  /-- FDIV (R99): FDIV divides two binary64 values. -/
  | fdiv (t : BitVec 10) (gd : BitVec 6) (ga : BitVec 6) (gb : BitVec 6)
  /-- FSQRT (R99): FSQRT takes the binary64 square root. -/
  | fsqrt (t : BitVec 10) (gd : BitVec 6) (ga : BitVec 6) (gb : BitVec 6)
  /-- FMIN (R99): FMIN writes the binary64 minimum. -/
  | fmin (t : BitVec 10) (gd : BitVec 6) (ga : BitVec 6) (gb : BitVec 6)
  /-- FMAX (R99): FMAX writes the binary64 maximum. -/
  | fmax (t : BitVec 10) (gd : BitVec 6) (ga : BitVec 6) (gb : BitVec 6)
  /-- FEQ (R99): FEQ writes 1 when the two operands are equal. -/
  | feq (t : BitVec 10) (gd : BitVec 6) (ga : BitVec 6) (gb : BitVec 6)
  /-- FLT (R99): FLT writes 1 when ga is less than gb. -/
  | flt (t : BitVec 10) (gd : BitVec 6) (ga : BitVec 6) (gb : BitVec 6)
  /-- FLE (R99): FLE writes 1 when ga is at most gb. -/
  | fle (t : BitVec 10) (gd : BitVec 6) (ga : BitVec 6) (gb : BitVec 6)
  /-- ITOF (R99): ITOF converts a signed 64-bit integer to binary64. -/
  | itof (t : BitVec 10) (gd : BitVec 6) (ga : BitVec 6) (gb : BitVec 6)
  /-- UTOF (R99): UTOF converts an unsigned 64-bit integer to binary64. -/
  | utof (t : BitVec 10) (gd : BitVec 6) (ga : BitVec 6) (gb : BitVec 6)
  /-- FTOI (R99): FTOI converts binary64 to a signed integer, saturating. -/
  | ftoi (t : BitVec 10) (gd : BitVec 6) (ga : BitVec 6) (gb : BitVec 6)
  /-- FTOU (R99): FTOU converts binary64 to an unsigned integer, saturating. -/
  | ftou (t : BitVec 10) (gd : BitVec 6) (ga : BitVec 6) (gb : BitVec 6)
  /-- FCPS (R99): FCPS writes the magnitude of ga with the sign of gb. -/
  | fcps (t : BitVec 10) (gd : BitVec 6) (ga : BitVec 6) (gb : BitVec 6)
  /-- FCPSN (R99): FCPSN writes the magnitude of ga with the inverted sign of gb. -/
  | fcpsn (t : BitVec 10) (gd : BitVec 6) (ga : BitVec 6) (gb : BitVec 6)
  /-- FMADD (R99): Scalar fused multiply-add fn 0 writes a × b + c. -/
  | fmadd (t : BitVec 10) (gd : BitVec 6) (ga : BitVec 6) (gb : BitVec 6) (gc : BitVec 6)
  /-- FMSUB (R99): Scalar fused fn 1 writes a × b − c. -/
  | fmsub (t : BitVec 10) (gd : BitVec 6) (ga : BitVec 6) (gb : BitVec 6) (gc : BitVec 6)
  /-- FNMADD (R99): Scalar fused fn 2 writes −(a × b) − c. -/
  | fnmadd (t : BitVec 10) (gd : BitVec 6) (ga : BitVec 6) (gb : BitVec 6) (gc : BitVec 6)
  /-- FNMSUB (R99): Scalar fused fn 3 writes −(a × b) + c. -/
  | fnmsub (t : BitVec 10) (gd : BitVec 6) (ga : BitVec 6) (gb : BitVec 6) (gc : BitVec 6)
  /-- VADD (R157): VADD adds lane by lane. -/
  | vadd (t : BitVec 10) (vd : BitVec 5) (va : BitVec 5) (vb : BitVec 5) (vc : BitVec 5)
  /-- VSUB (R157): VSUB subtracts lane by lane. -/
  | vsub (t : BitVec 10) (vd : BitVec 5) (va : BitVec 5) (vb : BitVec 5) (vc : BitVec 5)
  /-- VAND (R157): VAND ANDs lane by lane. -/
  | vand (t : BitVec 10) (vd : BitVec 5) (va : BitVec 5) (vb : BitVec 5) (vc : BitVec 5)
  /-- VOR (R157): VOR ORs lane by lane. -/
  | vor (t : BitVec 10) (vd : BitVec 5) (va : BitVec 5) (vb : BitVec 5) (vc : BitVec 5)
  /-- VXOR (R157): VXOR XORs lane by lane. -/
  | vxor (t : BitVec 10) (vd : BitVec 5) (va : BitVec 5) (vb : BitVec 5) (vc : BitVec 5)
  /-- VSLL (R157): VSLL shifts each lane left. -/
  | vsll (t : BitVec 10) (vd : BitVec 5) (va : BitVec 5) (vb : BitVec 5) (vc : BitVec 5)
  /-- VSRL (R157): VSRL shifts each lane right logically. -/
  | vsrl (t : BitVec 10) (vd : BitVec 5) (va : BitVec 5) (vb : BitVec 5) (vc : BitVec 5)
  /-- VSRA (R157): VSRA shifts each lane right arithmetically. -/
  | vsra (t : BitVec 10) (vd : BitVec 5) (va : BitVec 5) (vb : BitVec 5) (vc : BitVec 5)
  /-- VMUL (R157): VMUL multiplies lane by lane, low 64 bits. -/
  | vmul (t : BitVec 10) (vd : BitVec 5) (va : BitVec 5) (vb : BitVec 5) (vc : BitVec 5)
  /-- VFADD (R99): VFADD adds binary64 lane by lane. -/
  | vfadd (t : BitVec 10) (vd : BitVec 5) (va : BitVec 5) (vb : BitVec 5) (vc : BitVec 5)
  /-- VFSUB (R99): VFSUB subtracts binary64 lane by lane. -/
  | vfsub (t : BitVec 10) (vd : BitVec 5) (va : BitVec 5) (vb : BitVec 5) (vc : BitVec 5)
  /-- VFMUL (R99): VFMUL multiplies binary64 lane by lane. -/
  | vfmul (t : BitVec 10) (vd : BitVec 5) (va : BitVec 5) (vb : BitVec 5) (vc : BitVec 5)
  /-- VFDIV (R99): VFDIV divides binary64 lane by lane. -/
  | vfdiv (t : BitVec 10) (vd : BitVec 5) (va : BitVec 5) (vb : BitVec 5) (vc : BitVec 5)
  /-- VFMIN (R99): VFMIN writes the binary64 minimum per lane. -/
  | vfmin (t : BitVec 10) (vd : BitVec 5) (va : BitVec 5) (vb : BitVec 5) (vc : BitVec 5)
  /-- VFMAX (R99): VFMAX writes the binary64 maximum per lane. -/
  | vfmax (t : BitVec 10) (vd : BitVec 5) (va : BitVec 5) (vb : BitVec 5) (vc : BitVec 5)
  /-- VFEQ (R99): VFEQ writes all ones or all zeros per lane for equality. -/
  | vfeq (t : BitVec 10) (vd : BitVec 5) (va : BitVec 5) (vb : BitVec 5) (vc : BitVec 5)
  /-- VFLT (R99): VFLT writes all ones or all zeros per lane for less-than. -/
  | vflt (t : BitVec 10) (vd : BitVec 5) (va : BitVec 5) (vb : BitVec 5) (vc : BitVec 5)
  /-- VFMADD (R99): Vector fused fn 0 writes a × b + c per lane. -/
  | vfmadd (t : BitVec 10) (vd : BitVec 5) (va : BitVec 5) (vb : BitVec 5) (vc : BitVec 5)
  /-- VFMSUB (R99): Vector fused fn 1 writes a × b − c per lane. -/
  | vfmsub (t : BitVec 10) (vd : BitVec 5) (va : BitVec 5) (vb : BitVec 5) (vc : BitVec 5)
  /-- VFNMADD (R99): Vector fused fn 2 writes −(a × b) − c per lane. -/
  | vfnmadd (t : BitVec 10) (vd : BitVec 5) (va : BitVec 5) (vb : BitVec 5) (vc : BitVec 5)
  /-- VFNMSUB (R99): Vector fused fn 3 writes −(a × b) + c per lane. -/
  | vfnmsub (t : BitVec 10) (vd : BitVec 5) (va : BitVec 5) (vb : BitVec 5) (vc : BitVec 5)
  /-- VLD (R158): VLD loads 32 aligned bytes into four lanes, with each lane carried and checked. -/
  | vld (t : BitVec 10) (vd : BitVec 5) (ga : BitVec 6) (imm : BitVec 14)
  /-- VST (R158): VST stores four lanes, single-copy atomic per lane. -/
  | vst (t : BitVec 10) (vd : BitVec 5) (ga : BitVec 6) (imm : BitVec 14)
  /-- VINS (R158): VINS writes g into one lane of vd. -/
  | vins (t : BitVec 10) (vd : BitVec 5) (g : BitVec 6) (lane : BitVec 2)
  /-- VEXT (R158): VEXT copies one lane of vd into g. -/
  | vext (t : BitVec 10) (vd : BitVec 5) (g : BitVec 6) (lane : BitVec 2)
  /-- VBCAST (R158): VBCAST copies g into every lane of vd. -/
  | vbcast (t : BitVec 10) (vd : BitVec 5) (g : BitVec 6) (lane : BitVec 2)
  /-- PSRD (R119): PSRD reads a point's value, and in MODE 1 also its sequence, quality and writer, after a rights check. -/
  | psrd (t : BitVec 10) (gd : BitVec 6) (ga : BitVec 6) (gb : BitVec 6) (gc : BitVec 6)
  /-- PSWR (R119): PSWR writes a point's value and returns the new sequence. -/
  | pswr (t : BitVec 10) (gd : BitVec 6) (ga : BitVec 6) (gb : BitVec 6) (gc : BitVec 6)
  /-- PSCW (R119): PSCW writes gc when the point's value equals gb, and returns the value found. -/
  | pscw (t : BitVec 10) (gd : BitVec 6) (ga : BitVec 6) (gb : BitVec 6) (gc : BitVec 6)
  /-- PSSUB (R119): PSSUB subscribes a point to a notify group or unsubscribes it, returning the previous group. -/
  | pssub (t : BitVec 10) (gd : BitVec 6) (ga : BitVec 6) (gb : BitVec 6) (gc : BitVec 6)
  /-- TALLY_GEN (R121): TALLY.GEN copies ga to gd with a freshly generated tally. -/
  | tallyGen (t : BitVec 10) (gd : BitVec 6) (ga : BitVec 6) (gb : BitVec 6)
  /-- TALLY_CHK (R121): TALLY.CHK writes 0, 1 or 2 for a sound, failed or poisoned ga. -/
  | tallyChk (t : BitVec 10) (gd : BitVec 6) (ga : BitVec 6) (gb : BitVec 6)
  /-- TALLY_PSN (R121): TALLY.PSN copies ga to gd with tally 0xFF. -/
  | tallyPsn (t : BitVec 10) (gd : BitVec 6) (ga : BitVec 6) (gb : BitVec 6)
  /-- L0INV (R211): CACHEOP 0 empties the thread's L0 and side buffer and sets INV_DONE. -/
  | l0inv (t : BitVec 10) (ga : BitVec 6) (imm : BitVec 14)
  /-- L1D_CLEAN (R211): CACHEOP 1 writes a dirty L1D line to the L2, keeping a clean copy. -/
  | l1dClean (t : BitVec 10) (ga : BitVec 6) (imm : BitVec 14)
  /-- L1D_CLEAN_INVALIDATE (R211): CACHEOP 2 cleans a line and removes it from the core's L1D, L0s and side buffers. -/
  | l1dCleanInvalidate (t : BitVec 10) (ga : BitVec 6) (imm : BitVec 14)
  /-- L1D_INVALIDATE (R211): CACHEOP 3 removes a line from the core's L1D without writeback. -/
  | l1dInvalidate (t : BitVec 10) (ga : BitVec 6) (imm : BitVec 14)
  /-- L2_CLEAN (R211): CACHEOP 4 writes a line dirty in the quad to its home, keeping clean copies. -/
  | l2Clean (t : BitVec 10) (ga : BitVec 6) (imm : BitVec 14)
  /-- L2_CLEAN_INVALIDATE (R211): CACHEOP 5 cleans a line and removes it from every cache of the quad. -/
  | l2CleanInvalidate (t : BitVec 10) (ga : BitVec 6) (imm : BitVec 14)
  /-- LLC_CLEAN (R211): CACHEOP 6 writes every dirty copy of a line to DRAM. -/
  | llcClean (t : BitVec 10) (ga : BitVec 6) (imm : BitVec 14)
  /-- L1I_INVALIDATE (R211): CACHEOP 7 removes a line from the core's L1I. -/
  | l1iInvalidate (t : BitVec 10) (ga : BitVec 6) (imm : BitVec 14)
  /-- L1D_CLEAN_INVALIDATE_ALL (R211): CACHEOP 8 cleans and invalidates every line of the core's L1D. -/
  | l1dCleanInvalidateAll (t : BitVec 10) (ga : BitVec 6) (imm : BitVec 14)
  /-- PREFETCH_L1D (R211): CACHEOP 9 requests a line into the core's L1D at commit, never trapping. -/
  | prefetchL1d (t : BitVec 10) (ga : BitVec 6) (imm : BitVec 14)
  /-- PREFETCH_L2 (R211): CACHEOP 10 requests a line into the quad L2 at commit, never trapping. -/
  | prefetchL2 (t : BitVec 10) (ga : BitVec 6) (imm : BitVec 14)
  /-- GUARD_TIGHTEN (R123): GUARD.TIGHTEN asks the stopper to narrow one limit of a guarded output owned by the thread's partition. -/
  | guardTighten (t : BitVec 10) (gd : BitVec 6) (ga : BitVec 6) (gb : BitVec 6) (fn : BitVec 8)
  /-- WAITSLOT (R124): WAITSLOT parks the thread until its next calendar release, or completes at once when the latch is set. -/
  | waitslot (t : BitVec 10) (gd : BitVec 6) (ga : BitVec 6) (gb : BitVec 6) (fn : BitVec 8)
  /-- WCALL (R126): WCALL enters the secure world at a registered entry, saving the caller's return address, level and IE. -/
  | wcall (t : BitVec 10) (ga : BitVec 6) (imm : BitVec 14)
  /-- WRET (R127): WRET clears registers other than g1–g4 and returns to the normal world at W_EPC. -/
  | wret (t : BitVec 10) (ga : BitVec 6) (imm : BitVec 14)
  /-- CRRD (R128): CRRD reads a control register into gd. -/
  | crrd (t : BitVec 10) (gd : BitVec 6) (ga : BitVec 6) (cr : BitVec 12)
  /-- CRWR (R128): CRWR writes a control register and returns its old value. -/
  | crwr (t : BitVec 10) (gd : BitVec 6) (ga : BitVec 6) (cr : BitVec 12)
  /-- CRSET (R128): CRSET sets bits of a control register and returns its old value. -/
  | crset (t : BitVec 10) (gd : BitVec 6) (ga : BitVec 6) (cr : BitVec 12)
  /-- CRCLR (R128): CRCLR clears bits of a control register and returns its old value. -/
  | crclr (t : BitVec 10) (gd : BitVec 6) (ga : BitVec 6) (cr : BitVec 12)
  /-- SYSCALL (R128): SYSCALL raises cause 0x0D. -/
  | syscall (t : BitVec 10) (gd : BitVec 6) (ga : BitVec 6)
  /-- BREAK (R128): BREAK raises cause 0x0E. -/
  | break (t : BitVec 10) (gd : BitVec 6) (ga : BitVec 6)
  /-- RFT_S (R104): RFT.S returns from a trap at S, re-executing a delay slot when PDS is set. -/
  | rftS (t : BitVec 10) (gd : BitVec 6) (ga : BitVec 6)
  /-- RFT_M (R104): RFT.M returns from a trap at M. -/
  | rftM (t : BitVec 10) (gd : BitVec 6) (ga : BitVec 6)
  /-- WFI (R128): WFI stalls the thread until any interrupt is pending. -/
  | wfi (t : BitVec 10) (gd : BitVec 6) (ga : BitVec 6)
  /-- INTERRUPT_TAKEN (R133): An enabled pending interrupt is taken at an instruction boundary, abandoning an abandonable oldest instruction. -/
  | interruptTaken (t : BitVec 10)
  /-- DEADLINE_TRAP (R297): A pending cause 0x06 is taken at the next boundary whatever IE, once the target's TRAP is 0. -/
  | deadlineTrap (t : BitVec 10)
  /-- STORE_DRAIN (R209): A retired store drains into L0 and L1D in program order, merging sub-word stores and invalidating other threads' copies. -/
  | storeDrain (t : BitVec 10)
  /-- LOAD_FILL (R207): A line arrives at the side buffer in two beats and the waiting load restarts on the first beat. -/
  | loadFill (t : BitVec 10)
  /-- WAIT_TABLE_CLEAR (R188): The load wait table is cleared every 2^20 core cycles. -/
  | waitTableClear (c : BitVec 8)
  /-- CORE_CTXID_WRITE (R178): A write of CORE_CTXID flushes or rekeys the predictors and empties the return stack, loop buffer and side buffer. -/
  | coreCtxidWrite (who : Requester) (t : BitVec 10) (val : Word)
  /-- CORE_IPI_WRITE (R193): A write of CORE_IPI sets the inter-thread interrupt bit of the named thread of the same partition. -/
  | coreIpiWrite (who : Requester) (c : BitVec 8) (val : Word)
  /-- CORE_THSTART_GO (R492): A write of CORE_THSTART with GO starts a HELD thread of a RUNNING partition at PC, at M. -/
  | coreThstartGo (who : Requester) (t : BitVec 10) (val : Word)
  /-- CORE_MODE_BOOT_WRITE (R206): A write of CORE_MODE.BOOT resets the L0 replacement state of every thread of the core. -/
  | coreModeBootWrite (who : Requester) (c : BitVec 8) (val : Word)
  /-- CORE_CTL_WRITE (R174): A write of CORE_CTL sets prediction, loop-buffer and run-ahead enables, and a clear of LB_EN ends streaming. -/
  | coreCtlWrite (who : Requester) (c : BitVec 8) (val : Word)
  /-- CORE_L0CTL_WRITE (R202): A write of CORE_L0CTL enables the L0 only after L0INV, and a clear of EN invalidates the L0. -/
  | coreL0ctlWrite (who : Requester) (t : BitVec 10) (val : Word)
  /-- TALLY_INJECT_ARM (R164): A write of 1 to CORE_TALLY_INJ.ARM arms a one-shot injected fault of the selected kind and thread. -/
  | tallyInjectArm (who : Requester) (c : BitVec 8) (val : Word)
  /-- BUCKET_LEAK (R276): Each LEAK interval lowers a non-empty correctable-error bucket by one. -/
  | bucketLeak (b : Bucket)
  /-- FLIT_HCRC_FAIL (R231): A flit failing its HCRC is discarded with later flits and replayed; after 7 failed replays the link is failed. -/
  | flitHcrcFail (stop : BitVec 7) (dir : BitVec 2) (replayed : BitVec 6) (failures : BitVec 3)
  /-- MALFORMED_FLIT (R232): A flit naming nothing, a mismatched VC or a lone second flit is handled as a failed link. -/
  | malformedFlit (stop : BitVec 7) (dir : BitVec 2)
  /-- CREDIT (R226): A CREDIT packet returns general, reserved and snoop end-to-end credits to a source. -/
  | credit (src : BitVec 7) (dst : BitVec 7) (val : Word)
  /-- CREDIT_RETURN_TIMEOUT (R226): 32 MESHCLK cycles after the first unreturned entry, the destination sends a CREDIT packet. -/
  | creditReturnTimeout (src : BitVec 7) (dst : BitVec 7)
  /-- RD_SHARED (R243): The home serves a read for a shared copy, snooping an owner or refusing a speculative read. -/
  | rdShared (h : BitVec 7) (line : BitVec 32) (spec : Bool)
  /-- RD_OWN (R243): The home serves a read with ownership, invalidating other holders. -/
  | rdOwn (h : BitVec 7) (line : BitVec 32)
  /-- UPGRADE (R243): The home grants ownership without data to a listed sharer, or treats it as RD_OWN. -/
  | upgrade (h : BitVec 7) (line : BitVec 32)
  /-- RD_ONCE (R243): The home answers a non-caching read with DATA_ONCE. -/
  | rdOnce (h : BitVec 7) (line : BitVec 32)
  /-- WR_FULL (R251): The home invalidates every copy and allocates the written full line dirty. -/
  | wrFull (h : BitVec 7) (line : BitVec 32) (data : List (BitVec 64)) (ep : Bool)
  /-- WR_PARTIAL (R155): The home invalidates copies and merges a byte-masked write into the line. -/
  | wrPartial (h : BitVec 7) (line : BitVec 32) (data : List (BitVec 64)) (mask : Word) (ep : Bool)
  /-- WR_BACK (R243): The home takes an eviction from M, allocating it dirty, or discards it from an unlisted source. -/
  | wrBack (h : BitVec 7) (line : BitVec 32)
  /-- EVICT_CLEAN (R243): The home takes an eviction from E or S and removes the holder. -/
  | evictClean (h : BitVec 7) (line : BitVec 32)
  /-- CLEAN_LINE (R243): The home allocates the owner's dirty data while the owner keeps E. -/
  | cleanLine (h : BitVec 7) (line : BitVec 32)
  /-- FLUSH_LINE (R243): The home writes every dirty copy of the line to DRAM and acknowledges after MEM_ACK. -/
  | flushLine (h : BitVec 7) (line : BitVec 32)
  /-- SNP_SHARED (R244): A holder answers a downgrade-to-S snoop in one step. -/
  | snpShared (h : BitVec 7) (line : BitVec 32)
  /-- SNP_INV (R244): A holder answers an invalidate snoop in one step. -/
  | snpInv (h : BitVec 7) (line : BitVec 32)
  /-- SNP_READ (R244): A holder returns dirty data and keeps its state. -/
  | snpRead (h : BitVec 7) (line : BitVec 32)
  /-- SNP_CLEAN (R244): A holder returns dirty data, and M becomes E. -/
  | snpClean (h : BitVec 7) (line : BitVec 32)
  /-- MEM_READ (R259): The memory controller reads a line pair, checks the word code, and serves from the pair buffer where it can. -/
  | memRead (line : BitVec 32)
  /-- MEM_WRITE (R259): The memory controller writes one line of a pair and notes the page for rebuild. -/
  | memWrite (line : BitVec 32)
  /-- PC_NOTE (R267): The page master marks a page STALE and queues it for rebuild after REBUILD_DELAY. -/
  | pcNote (src : BitVec 4) (page : BitVec 26)
  /-- PC_GATHER (R268): A controller reads its chunk of the page, holding writes when HOLD is set, and returns DATA transfers. -/
  | pcGather (ch : BitVec 4) (page : BitVec 26)
  /-- PC_DATA (R268): The page master takes one line of a gathered chunk, and on the last one decodes or rebuilds the page code. -/
  | pcData (src : BitVec 4) (page : BitVec 26) (ln : BitVec 2)
  /-- PC_WRITE (R270): A controller writes a corrected line and answers PC_ACK, then re-reads it. -/
  | pcWrite (ch : BitVec 4) (page : BitVec 26) (ln : BitVec 2)
  /-- PC_REPAIR_REQUEST (R271): A REPAIR at the page master starts a gather and decode for a CURRENT page, or fails at once for a STALE one. -/
  | pcRepairRequest (src : BitVec 4) (page : BitVec 26)
  /-- PC_RELEASE (R271): A controller releases writes held for the page, and the requester answers its MEM_READ. -/
  | pcRelease (ch : BitVec 4) (page : BitVec 26)
  /-- PC_ACK (R270): The page master records a completed repair write and releases the page once every write is acknowledged. -/
  | pcAck (src : BitVec 4) (page : BitVec 26)
  /-- PAGE_REBUILD_START (R268): REBUILD_DELAY after a note, the master starts a rebuild of the page by sending GATHER to all controllers. -/
  | pageRebuildStart (m : BitVec 4) (page : BitVec 26)
  /-- NOTE_FILTER_EXPIRE (R267): An entry leaves a controller's note filter 100 µs after its entry. -/
  | noteFilterExpire (m : BitVec 4) (page : BitVec 26)
  /-- ROW_SPARING (R273): A row still uncorrectable after repair is copied to a spare row, or the channel becomes DEGRADED. -/
  | rowSparing (m : BitVec 4) (bank : BitVec 5) (row : BitVec 16) (sameDevice : Bool)
  /-- BACKGROUND_ZEROING (R274): The controller zeroes an unscrubbed chunk with valid codes and marks it. -/
  | backgroundZeroing (m : BitVec 4)
  /-- PATROL_SCRUB (R275): The scrub reads the next line, correcting or repairing it, and queues STALE pages it passes. -/
  | patrolScrub (m : BitVec 4)
  /-- BANK_REFRESH (R279): One bank is refreshed, holding requests to it for at most 190 ns. -/
  | bankRefresh (m : BitVec 4) (bank : BitVec 5)
  /-- CALIBRATION_WINDOW_START (R279): At its epoch tick, a channel enters its calibration window and holds its traffic. -/
  | calibrationWindowStart (m : BitVec 4)
  /-- CALIBRATION_WINDOW_END (R279): The window ends within 100 ticks and held requests are served in order. -/
  | calibrationWindowEnd (m : BitVec 4)
  /-- PATTERN_TEST_START (R277): A write of MCH_DIAG.PATTERN, when allowed, starts the checker pattern test. -/
  | patternTestStart (who : Requester) (m : BitVec 4) (val : Word)
  /-- PATTERN_TEST_DONE (R277): The pattern test completes and sets PAT_DONE, and PAT_FAIL on a wrong result. -/
  | patternTestDone (m : BitVec 4) (ok : Bool)
  /-- SPLIT_WRITE (R278): MCH_SPLIT_ADDR GO with OP 0 writes raw data and side bits without generating the code. -/
  | splitWrite (who : Requester) (m : BitVec 4) (val : Word)
  /-- SPLIT_READ (R278): MCH_SPLIT_ADDR GO with OP 1 reads a raw word into DATA, SIDE and SYNDROME. -/
  | splitRead (who : Requester) (m : BitVec 4) (val : Word)
  /-- REG_READ (R59): A register server answers a register read with REG_DATA. -/
  | regRead (t : BitVec 10)
  /-- REG_WRITE (R59): A register server performs a register write after its tally check and answers REG_ACK. -/
  | regWrite (t : BitVec 10)
  /-- IRQ_SET (R191): A unit interrupt delivery asserts a vector bit at a thread of the owning partition. -/
  | irqSet (t : BitVec 10) (vector : BitVec 6) (on : Bool) (p : BitVec 4)
  /-- GNT_S (R244): The requester receives a shared grant with data and sends COMP_ACK. -/
  | gntS (h : BitVec 7) (line : BitVec 32)
  /-- GNT_E (R244): The requester receives an exclusive grant with data and sends COMP_ACK. -/
  | gntE (h : BitVec 7) (line : BitVec 32)
  /-- GNT_M (R244): The requester receives a modified grant with data and sends COMP_ACK. -/
  | gntM (h : BitVec 7) (line : BitVec 32)
  /-- GNT_UPG (R244): The requester in SM goes to M and sends COMP_ACK. -/
  | gntUpg (h : BitVec 7) (line : BitVec 32)
  /-- GNT_S_UE (R239): A shared grant with words found uncorrectable raises the first-detection outcome for the words used. -/
  | gntSUe (h : BitVec 7) (line : BitVec 32)
  /-- GNT_E_UE (R239): An exclusive grant with uncorrectable words. -/
  | gntEUe (h : BitVec 7) (line : BitVec 32)
  /-- GNT_M_UE (R239): A modified grant with uncorrectable words. -/
  | gntMUe (h : BitVec 7) (line : BitVec 32)
  /-- DATA_ONCE (R243): The requester receives the line answering RD_ONCE. -/
  | dataOnce (h : BitVec 7) (line : BitVec 32)
  /-- DATA_ONCE_UE (R239): RD_ONCE data with uncorrectable words. -/
  | dataOnceUe (h : BitVec 7) (line : BitVec 32)
  /-- REFUSED (R248): A speculative read is refused and the requester reissues it when no longer speculative. -/
  | refused (h : BitVec 7) (line : BitVec 32)
  /-- DENIED (R252): A request failing world or range checks is answered DENIED, and the requester handles it by kind. -/
  | denied (h : BitVec 7) (line : BitVec 32)
  /-- MISS_NOTE (R243): The requester learns that the LLC missed and DRAM was read. -/
  | missNote (h : BitVec 7) (line : BitVec 32)
  /-- COMP_ACK (R242): The home ends a granting transaction, the line leaves BUSY and the next pending request is accepted. -/
  | compAck (h : BitVec 7) (line : BitVec 32)
  /-- WR_ACK (R244): A holder in MI, EI or SI goes to I and frees its writeback buffer. -/
  | wrAck (h : BitVec 7) (line : BitVec 32)
  /-- SNP_RSP_I (R244): The home records that the holder keeps no copy. -/
  | snpRspI (h : BitVec 7) (line : BitVec 32)
  /-- SNP_RSP_S (R244): The home records that the holder keeps a clean copy. -/
  | snpRspS (h : BitVec 7) (line : BitVec 32)
  /-- SNP_RSP_DATA_I (R244): The home takes dirty data from a holder that kept no copy. -/
  | snpRspDataI (h : BitVec 7) (line : BitVec 32)
  /-- SNP_RSP_DATA_KEEP (R244): The home takes dirty data from a holder that kept a copy. -/
  | snpRspDataKeep (h : BitVec 7) (line : BitVec 32)
  /-- SNP_RSP_EVICT_C (R246): The home takes clean data from an evicting holder and removes it from the directory. -/
  | snpRspEvictC (h : BitVec 7) (line : BitVec 32)
  /-- SNP_RSP_EVICT_D (R246): The home takes dirty data from an evicting holder and removes it from the directory. -/
  | snpRspEvictD (h : BitVec 7) (line : BitVec 32)
  /-- MEM_DATA (R243): The home receives DRAM read data and grants or answers the waiting request. -/
  | memData (line : BitVec 32)
  /-- MEM_DATA_UE (R272): The home receives read data with words marked uncorrectable. -/
  | memDataUe (line : BitVec 32)
  /-- MEM_ACK (R243): The home receives a write acceptance and acknowledges a flush. -/
  | memAck (line : BitVec 32)
  /-- REG_DATA (R59): The requester receives register read data with a generated tally. -/
  | regData (t : BitVec 10)
  /-- REG_ACK (R59): The requester receives completion of a register write. -/
  | regAck (t : BitVec 10)
  /-- PS_RSP (R119): The thread receives a Point Store result, or a refusal that traps. -/
  | psRsp (t : BitVec 10)
  /-- TRANSACTION_TIMEOUT (R256): A home transaction not ended within 1 ms is handled as a failed link. -/
  | transactionTimeout (line : BitVec 32)
  /-- ENGINE_READ (R347): A Point Store engine performs a thread PSRD on the entry and returns the value. -/
  | engineRead (t : BitVec 10)
  /-- ENGINE_WRITE (R348): A Point Store engine performs a PSWR from a thread or tenant, stamping the sequence, epoch and writer. -/
  | engineWrite (t : BitVec 10) (genFail : Bool)
  /-- ENGINE_CW (R347): A Point Store engine performs a compare-and-write with duplicated comparators. -/
  | engineCw (t : BitVec 10) (genFail : Bool)
  /-- ENGINE_SUB (R349): A Point Store engine performs a subscribe or unsubscribe under the partition's group checks. -/
  | engineSub (t : BitVec 10)
  /-- EXCHANGE_READ (R309): A Point Store engine returns a point's value and sequence to a bay preparing a CALL. -/
  | exchangeRead (port : BitVec 9) (p : BitVec 24)
  /-- EXCHANGE_WRITE (R312): A Point Store engine writes an input word with the SFD epoch, the REPLY quality and the node's writer id. -/
  | exchangeWrite (port : BitVec 9) (node : BitVec 3) (p : BitVec 24) (val : Word) (epoch : Word) (quality : BitVec 16) (genFail : Bool)
  /-- MIRROR_WRITE (R350): A secondary's engine performs a received mirrored write with the sender's stamps and MIRROR = 1. -/
  | mirrorWrite (p : BitVec 24) (val : Word) (tal : BitVec 8) (epoch : Word) (word2 : Word) (genFail : Bool)
  /-- ENTRY_FETCH_COMPLETE (R357): A point entry that missed its slice arrives, and the operations waiting on it proceed in order. -/
  | entryFetchComplete (p : BitVec 24)
  /-- NOTIFICATION_RECORD (R352): The notification unit writes a record into the group's ring, or drops it when the ring is full or disabled. -/
  | notificationRecord
  /-- SET_DEADBAND (R355): PST_CMD OP 1 sets a point's DEADBAND, FORMAT and NOTIFIED, or is refused. -/
  | setDeadband (who : Requester) (p : BitVec 24) (fmt : Bool)
  /-- PEEK (R355): PST_CMD OP 2 copies a point's eight words into the requester's PST_PEEK. -/
  | peek (who : Requester) (p : BitVec 24)
  /-- NQ_TAIL_WRITE (R352): A write of a notify ring TAIL is taken, or refused when it would pass HEAD. -/
  | nqTailWrite (who : Requester) (g : BitVec 12) (tail : BitVec 16)
  /-- TOD_MESSAGE (R286): A TOD line is received whole and checked, naming the next 1PPS edge, or is discarded. -/
  | todMessage (line : List (BitVec 8))
  /-- TIME_1PPS_EDGE (R286): A TIME_1PPS rising edge forms a time mark with its message, and the epoch is stepped or slewed. -/
  | time1ppsEdge (ns : BitVec 4)
  /-- ALIGNMENT_HOLDOVER (R288): 3 s without an accepted mark moves the alignment state to HOLDOVER. -/
  | alignmentHoldover
  /-- EPOCH_STEP_ARM (R287): A write of 1 to CLK_EPOCH_CTL.STEP permits a step at the next accepted mark. -/
  | epochStepArm (who : Requester)
  /-- TIME_SOURCE_ENABLE (R285): A write of CLK_EPOCH_CTL.TIME_EN re-evaluates the choice of time source. -/
  | timeSourceEnable (who : Requester) (en : Bool)
  /-- SLOT_RELEASE (R293): A due RELEASE slot releases its thread, waking a WAITSLOT or setting or overrunning the latch. -/
  | slotRelease (p : BitVec 4) (i : BitVec 12)
  /-- SLOT_START (R290): A due START slot sends a start event to its DMA channel. -/
  | slotStart (p : BitVec 4) (i : BitVec 12)
  /-- SLOT_EXCHANGE (R290): A due EXCHANGE slot begins its port's Lanyard cycle in cycles where k mod MULTIPLE = 0. -/
  | slotExchange (p : BitVec 4) (i : BitVec 12)
  /-- SLOT_DEADLINE (R296): A due DEADLINE slot finds a miss when the thread's completion flag is 0 and makes cause 0x06 pending. -/
  | slotDeadline (p : BitVec 4) (i : BitVec 12)
  /-- CALENDAR_START_RUNNING (R291): At the first cycle start 100 ticks or more after RUNNING, the calendar starts running. -/
  | calendarStartRunning (p : BitVec 4)
  /-- LANYARD_CYCLE_START (R309): A Lanyard cycle begins: a late CALL is discarded, misses are counted, the stoppers step and the new CALL is prepared. -/
  | lanyardCycleStart (port : BitVec 9) (gens : List (BitVec 15)) (lost : List (BitVec 15))
  /-- CALL_TRANSMIT (R311): At the G9's transmit opportunity the queued CALL is sent. -/
  | callTransmit (port : BitVec 9)
  /-- REPLY_FRAME (R312): A received Lanyard frame is checked and, when accepted, its bound words are written to their points. -/
  | replyFrame (port : BitVec 9) (fcsOk : Bool) (frame : List (BitVec 8)) (sfd : Word)
  /-- PLCA_BEACON (R305): A received BEACON makes the port PLCA active. -/
  | plcaBeacon (port : BitVec 9)
  /-- PLCA_LOST (R305): 4 ms without a BEACON clears PLCA and falls back to CSMA/CD. -/
  | plcaLost (port : BitVec 9)
  /-- RAW_RX_FRAME (R318): A received raw-mode frame is filtered and written to the receive ring, or discarded. -/
  | rawRxFrame (port : BitVec 9) (fcsOk : Bool) (frame : List (BitVec 8)) (sfd : Word)
  /-- RAW_TX_FRAME (R319): At a transmit opportunity the next raw frame is read, checked and sent, and its descriptor completed. -/
  | rawTxFrame (port : BitVec 9)
  /-- RAW_TAIL_WRITE (R317): A write of a raw ring tail is taken, or refused when it would overfill the ring. -/
  | rawTailWrite (who : Requester) (port : BitVec 9) (tx : Bool) (tail : BitVec 16)
  /-- RAW_RESUME (R320): A write of 1 to FBAY_RAW_CTL.HALTED resumes both rings from their heads. -/
  | rawResume (who : Requester) (port : BitVec 9)
  /-- RAW_ENABLE (R321): A write of FBAY_RAW_CTL.EN starts the rings, or stops them after the frame in progress. -/
  | rawEnable (who : Requester) (port : BitVec 9) (en : Bool)
  /-- TIGHTEN_REQUEST (R335): The stopper checks a GUARD.TIGHTEN request against the limits in force and accepts or refuses it. -/
  | tightenRequest (o : BitVec 15)
  /-- SPLICE_ACQUIRE (R375): A service call takes an UNOWNED block for a permitted owner. -/
  | spliceAcquire (who : Requester)
  /-- SPLICE_RELEASE (R376): A service call starts the release of a block, naming an optional next owner. -/
  | spliceRelease (who : Requester)
  /-- SPLICE_DEMAND (R374): A service call demands an OWNED block, notifying its owner and starting the timeout. -/
  | spliceDemand (who : Requester)
  /-- SPLICE_REVOKE (R374): A demanded block not released within its TIMEOUT is revoked. -/
  | spliceRevoke (b : BitVec 5)
  /-- SPLICE_DRAIN_COMPLETE (R376): A RELEASING block's drain completes, and the block enters RESETTING. -/
  | spliceDrainComplete (b : BitVec 5)
  /-- SPLICE_DRAIN_TIMEOUT (R376): A drain not complete within 10 ms is cut short and the block enters RESETTING. -/
  | spliceDrainTimeout (b : BitVec 5)
  /-- SPLICE_RESET_COMPLETE (R376): The block's reset completes, and it becomes UNOWNED or OWNED by the named next owner. -/
  | spliceResetComplete (b : BitVec 5)
  /-- COMMISSION (R385): A service call checks an owner key and, once accepted, waits for a press to program an owner slot. -/
  | commission (who : Requester)
  /-- REVOKE_OWNER (R385): A service call checks a revocation signature and waits for a press to revoke an owner slot. -/
  | revokeOwner (who : Requester)
  /-- PRESENCE_TIMEOUT (R385): No press within 60 s ends the waiting call with NO_PRESENCE. -/
  | presenceTimeout
  /-- SLOT_PROGRAMMING_COMPLETE (R385): Fuse programming of an owner slot completes with OK or FUSE_FAIL. -/
  | slotProgrammingComplete (ok : Bool)
  /-- ADVANCE_ROLLBACK (R386): A service call blows fuses to raise a rollback counter to the running image's value. -/
  | advanceRollback (who : Requester)
  /-- DEBUG_NONCE (R387): A service call returns a fresh debug NONCE. -/
  | debugNonce (who : Requester)
  /-- DEBUG_UNLOCK (R387): A service call verifies a debug token and unlocks the debug port. -/
  | debugUnlock (who : Requester)
  /-- FW_INSTALL (R467): A service call verifies new firmware images and writes them into the inactive bank. -/
  | fwInstall (who : Requester) (sigOk : Bool) (rbBowl : BitVec 7) (rbCord : BitVec 7)
  /-- FW_INSTALL_COMPLETE (R467): The install completes, the bank record makes the new bank active from the next reset, and DONE is set with OK. -/
  | fwInstallComplete
  /-- SPDM_RELAY (R388): A service call passes an SPDM request to Bowline and returns its signed response. -/
  | spdmRelay (who : Requester) (resp : List (BitVec 8))
  /-- SECURE_CALL_LIMIT (R366): A secure call running past BOWL_CALL_LIMIT ends as a secure-world double trap. -/
  | secureCallLimit (t : BitVec 10)
  /-- HOST_CONFIG_REQUEST (R403): A configuration request is answered with Retry Status until rigging is verified, then completed. -/
  | hostConfigRequest (h : BitVec 1) (write : Bool) (dw : BitVec 10) (be : BitVec 4) (val : BitVec 32)
  /-- BME_CLEAR (R407): Clearing Bus Master Enable stops upstream requests and holds channels on the port with HELD_BME. -/
  | bmeClear (h : BitVec 1)
  /-- FLR (R404): Initiate Function Level Reset starts a host-port reset while the link stays up. -/
  | flr (h : BitVec 1)
  /-- HOT_RESET (R404): A hot reset starts a host-port reset and retrains the link. -/
  | hotReset (h : BitVec 1)
  /-- HOST_RESET_COMPLETE (R405): Within 10 ms of the reset event every item of Table 16-8 is complete and configuration requests succeed. -/
  | hostResetComplete (h : BitVec 1)
  /-- HOST_BAR0_ACCESS (R396): A BAR0 request reaches a register block with the manager's identity. -/
  | hostBar0Access (h : BitVec 1) (write : Bool) (off : BitVec 26) (size : BitVec 4) (val : Word) (ep : Bool) (hdr0 : Word) (hdr1 : Word)
  /-- HOST_BAR2_ACCESS (R397): A BAR2 request reaches a slice page when the slice is bound with a matching PASID, or is not accepted. -/
  | hostBar2Access (h : BitVec 1) (write : Bool) (off : BitVec 28) (size : BitVec 4) (val : Word) (pasid : Option (BitVec 20)) (ep : Bool) (hdr0 : Word) (hdr1 : Word)
  /-- HOST_ROM_READ (R398): A read of the expansion ROM window returns the boot image or the manifest. -/
  | hostRomRead (h : BitVec 1) (off : BitVec 20) (len : BitVec 13)
  /-- HOST_MEMORY_WRITE (R251): A posted inbound write generates tallies and writes device memory coherently. -/
  | hostMemoryWrite (h : BitVec 1) (addr : Word) (bytes : List (BitVec 8)) (ep : Bool) (ecrcOk : Bool) (replays : BitVec 8) (hdr0 : Word) (hdr1 : Word)
  /-- HOST_MEMORY_READ (R250): An inbound read reads device memory coherently and returns a checked completion. -/
  | hostMemoryRead (h : BitVec 1) (addr : Word) (len : BitVec 13) (ecrcOk : Bool) (hdr0 : Word) (hdr1 : Word)
  /-- HOST_UNSUPPORTED_REQUEST (R392): An AtomicOp, I/O, locked or Type 1 request, or one outside every BAR, is completed with Unsupported Request. -/
  | hostUnsupportedRequest (h : BitVec 1) (posted : Bool) (hdr0 : Word) (hdr1 : Word)
  /-- HOST_COMPLETION (R426): A completion to one of the G9's host reads arrives and its words receive generated tallies. -/
  | hostCompletion (h : BitVec 1) (ch : BitVec 8) (status : BitVec 3) (ep : Bool) (ecrcOk : Bool) (data : List (BitVec 64)) (hdr0 : Word) (hdr1 : Word)
  /-- COMPLETION_TIMEOUT (R410): A G9 request to the host times out and is handled as a bus error. -/
  | completionTimeout (h : BitVec 1) (sq : Bool) (n : BitVec 12) (q : BitVec 2) (hdr0 : Word) (hdr1 : Word)
  /-- MSIX_SEND (R402): An asserted, unblocked MSI-X source sends its message, or sets its Pending bit. -/
  | msixSend (h : BitVec 1) (e : BitVec 13)
  /-- DOE_REQUEST (R409): A DOE request object is taken and passed to the responder, or discarded with DOE Error. -/
  | doeRequest (h : BitVec 1) (vendor : BitVec 16) (ty : BitVec 8) (obj : List (BitVec 8))
  /-- DOE_ABORT (R409): DOE Abort discards any object in progress. -/
  | doeAbort (h : BitVec 1)
  /-- DOE_RESPONSE (R409): The SPDM response object becomes ready in the mailbox. -/
  | doeResponse (h : BitVec 1) (obj : List (BitVec 8))
  /-- L0S_ENTRY (R408): After L0S_IDLE × 64 ns with nothing to send, the transmitter enters L0s. -/
  | l0sEntry (h : BitVec 1)
  /-- L1_ENTRY (R408): After L1_IDLE µs with no traffic, the port requests L1. -/
  | l1Entry (h : BitVec 1)
  /-- SLICE_BIND (R412): A write of SLCE_BIND with VALID = 1 binds a slice after the checks of Table 17-1. -/
  | sliceBind (who : Requester) (n : BitVec 12) (val : Word)
  /-- SLICE_UNBIND (R423): A write of VALID = 0 to a quiesced slice unbinds it and revokes its blocks. -/
  | sliceUnbind (who : Requester) (n : BitVec 12)
  /-- SLICE_GRANT (R414): A write of SLCE_PT grants points to a slice, or is refused. -/
  | sliceGrant (who : Requester) (n : BitVec 12) (val : Word)
  /-- WINDOW_WRITE (R415): A write of SLCE_WIN by the serving partition sets the slice's exchange window, or is refused. -/
  | windowWrite (who : Requester) (n : BitVec 12) (val : Word)
  /-- SLICE_POST (R420): A write of SLCE_POST places an event entry into the slice's queue pair, or drops it. -/
  | slicePost (who : Requester) (n : BitVec 12) (val : Word)
  /-- SLICE_QUIESCE (R422): A write of SLCE_CTL.QUIESCE = 1 stops new work of the slice and drains it. -/
  | sliceQuiesce (who : Requester) (n : BitVec 12)
  /-- SLICE_QUIESCED (R422): Nothing of the slice remains in flight, and QUIESCED and the manager event set. -/
  | sliceQuiesced (n : BitVec 12)
  /-- SLICE_RESET (R423): A write of SLCE_CTL.RESET to a quiesced slice returns its page registers to reset. -/
  | sliceReset (who : Requester) (n : BitVec 12)
  /-- SQ_TAIL_WRITE (R416): A write of a submission-queue tail doorbell makes entries fetchable. -/
  | sqTailWrite (n : BitVec 12) (q : BitVec 2) (tail : BitVec 16)
  /-- CQ_HEAD_WRITE (R419): A write of a completion-queue head may deassert the slice's MSI-X source. -/
  | cqHeadWrite (n : BitVec 12) (q : BitVec 2) (head : BitVec 16)
  /-- QP_RESUME (R421): SLCE_QP_CTL RESUME sets a stopped queue pair RUN and resumes held COPYs. -/
  | qpResume (n : BitVec 12) (q : BitVec 2)
  /-- QP_ABORT (R421): SLCE_QP_CTL ABORT ends every incomplete command of the queue pair with ABORTED. -/
  | qpAbort (n : BitVec 12) (q : BitVec 2)
  /-- SQ_FETCH (R416): A fetched submission entry arrives and its command begins when its CQ has room. -/
  | sqFetch (n : BitVec 12) (q : BitVec 2) (status : BitVec 3) (ep : Bool) (data : List (BitVec 64)) (hdr0 : Word) (hdr1 : Word)
  /-- COPY_IN (R418): A tenant command copies LEN bytes from host memory to the window on one channel. -/
  | copyIn (n : BitVec 12) (q : BitVec 2)
  /-- COPY_OUT (R418): A tenant command copies LEN bytes from the window to host memory on one channel. -/
  | copyOut (n : BitVec 12) (q : BitVec 2)
  /-- PS_READ (R417): A tenant command reads up to 256 points to host memory. -/
  | psRead (n : BitVec 12) (q : BitVec 2)
  /-- PS_WRITE (R417): A tenant command writes one point. -/
  | psWrite (n : BitVec 12) (q : BitVec 2) (genFail : Bool)
  /-- PS_CW (R417): A tenant command compares and writes one point. -/
  | psCw (n : BitVec 12) (q : BitVec 2) (genFail : Bool)
  /-- DMA_GO (R427): A doorbell write of DMA_CH_CTL.GO starts a channel or sets PEND. -/
  | dmaGo (who : Requester) (ch : BitVec 8)
  /-- DMA_RESUME (R427): DMA_CH_CTL.RESUME continues a held or halted channel at its residue. -/
  | dmaResume (who : Requester) (ch : BitVec 8)
  /-- DMA_ABORT (R427): DMA_CH_CTL.ABORT ends a channel ABORTED at its burst boundary, or at once. -/
  | dmaAbort (who : Requester) (ch : BitVec 8)
  /-- DESCRIPTOR_FETCH (R425): A channel's descriptor arrives and is checked before its bursts begin. -/
  | descriptorFetch (ch : BitVec 8)
  /-- DMA_BURST_BOUNDARY (R428): A burst's writes complete and the channel continues, or ends with the first status that applies. -/
  | dmaBurstBoundary (ch : BitVec 8)
  /-- DMA_RETRY (R428): 1 µs after a bus error the burst is retried, up to RETRY times. -/
  | dmaRetry (ch : BitVec 8)
  /-- HCPRS_CHANGE (R431): A change of a cable-present input starts training or takes the Hawser port DOWN. -/
  | hcprsChange (k : BitVec 2) (absent : Bool)
  /-- HAWSER_TRAINED (R431): Lanes align and FEC locks, and the port enters HELLO. -/
  | hawserTrained (k : BitVec 2)
  /-- HAWSER_TRAINING_TIMEOUT (R431): 500 ms without lock returns the port to DOWN for a retry. -/
  | hawserTrainingTimeout (k : BitVec 2)
  /-- HAWSER_HELLO (R432): The peer's HELLO is checked for identity, roles and time loop, and the port enters UP or HELD. -/
  | hawserHello (k : BitVec 2) (peerId : Word) (sigOk : Bool) (role : BitVec 2) (flags : BitVec 3) (wins : List PeerWin)
  /-- HAWSER_LINK_LOSS (R431): Loss of the link takes the port DOWN and ends outstanding requests. -/
  | hawserLinkLoss (k : BitVec 2)
  /-- HAWSER_REPLAY (R430): A packet failing its CRC is replayed, and the 7th failure takes the link down. -/
  | hawserReplay (k : BitVec 2) (again : Bool)
  /-- HAWSER_INBOUND_REQUEST (R434): An exporter checks an inbound request's window, generation and rights, and issues or refuses it. -/
  | hawserInboundRequest (k : BitVec 2) (win : BitVec 4) (gen : BitVec 8) (addr : BitVec 52) (write : Bool) (mask : Word) (data : List (BitVec 64)) (tals : List (BitVec 8)) (psn : BitVec 8)
  /-- HAWSER_RESPONSE (R433): A peer's response or WRITE_ACK completes an outbound aperture access. -/
  | hawserResponse (k : BitVec 2) (req : BitVec 11) (addr : BitVec 52) (refused : Bool) (data : List (BitVec 64)) (tals : List (BitVec 8)) (psn : BitVec 8)
  /-- STALE_WINDOW (R436): A STALE_WINDOW refusal makes the port wait for ANNOUNCE and retry the request up to 4 times. -/
  | staleWindow (k : BitVec 2) (req : BitVec 11) (addr : BitVec 52)
  /-- WINDOW_COMMIT (R435): A write of HAWS_WIN_COMMIT commits shadow windows, increments generations and sends ANNOUNCE. -/
  | windowCommit (who : Requester) (k : BitVec 2) (mask : BitVec 16)
  /-- ANNOUNCE (R435): A peer's ANNOUNCE updates the peer table, and the acknowledgement waits for old-generation requests. -/
  | announce (k : BitVec 2) (wins : List PeerWin)
  /-- ANNOUNCE_ACK (R435): The peer's acknowledgement arrives and the commit completes once old requests are done. -/
  | announceAck (k : BitVec 2)
  /-- ANNOUNCE_TIMEOUT (R435): No acknowledgement within 10 ms takes the link DOWN and completes the commit. -/
  | announceTimeout (k : BitVec 2)
  /-- HAWSER_TIME_REQUEST (R439): Each 1 ms the epoch-source port sends a TIME request to its peer. -/
  | hawserTimeRequest (k : BitVec 2)
  /-- HAWSER_TIME_ANSWER (R439): The peer's timestamps arrive and form a time mark for the epoch. -/
  | hawserTimeAnswer (k : BitVec 2) (t1 : Word) (t2 : Word) (t3 : Word) (t4 : Word)
  /-- MIRRORED_WRITE (R440): A mirrored point write arrives at the secondary and is performed, or dropped on overflow. -/
  | mirroredWrite (k : BitVec 2) (p : BitVec 24) (val : Word) (tal : BitVec 8) (epoch : Word) (word2 : Word) (genFail : Bool)
  /-- DOMAIN_ON (R446): PWR_DOM_REQ OP 1 switches a domain on after the checks of Table 19-4. -/
  | domainOn (who : Requester) (exp : Option (BitVec 16)) (dom : BitVec 9)
  /-- DOMAIN_OFF (R446): PWR_DOM_REQ OP 2 switches a domain off after writeback and the checks of Table 19-4. -/
  | domainOff (who : Requester) (exp : Option (BitVec 16)) (dom : BitVec 9)
  /-- CLK_STOP (R446): PWR_DOM_REQ OP 3 stops a domain's clock, keeping state. -/
  | clkStop (who : Requester) (exp : Option (BitVec 16)) (dom : BitVec 9)
  /-- CLK_RUN (R446): PWR_DOM_REQ OP 4 restarts a domain's clock. -/
  | clkRun (who : Requester) (exp : Option (BitVec 16)) (dom : BitVec 9)
  /-- STEP (R443): PWR_DOM_REQ OP 5 requests a quad clock divider. -/
  | step (who : Requester) (exp : Option (BitVec 16)) (dom : BitVec 9) (div : BitVec 4)
  /-- DOMAIN_SWITCH_COMPLETE (R447): An accepted power request completes and the domain's CHG increments. -/
  | domainSwitchComplete (dom : BitVec 9)
  /-- CORE_GATE (R448): A core under IDLE_GATE whose threads all wait for 10 µs is gated. -/
  | coreGate (c : BitVec 8)
  /-- CORE_UNGATE (R448): A pending interrupt or a release ungates a gated core within 2 µs. -/
  | coreUngate (c : BitVec 8)
  /-- SENSOR_SAMPLE (R449): Every 1 ms the sensors are sampled and WARN, THROTTLE or a thermal trip is entered or ended. -/
  | sensorSample (temps : List (BitVec 8)) (inlet : BitVec 16) (outlet : BitVec 16) (vin : BitVec 16) (iin : BitVec 16) (pin : BitVec 16)
  /-- THROTTLE_STEP (R450): Every 10 ms in THROTTLE one quad's THR_DIV rises, or falls after THROTTLE ends. -/
  | throttleStep
  /-- TRIP_DOMAINS_OFF (R451): At the trip deadline the compute and I/O domains switch off. -/
  | tripDomainsOff
  /-- TRIP_FLUSH_COMPLETE (R451): After the Almanac flush, the hub domains and all rails except housekeeping switch off. -/
  | tripFlushComplete
  /-- CLK_ROOT_LOCK_LOSS (R442): CLK_ROOT losing lock records a fatal event and performs a module reset held until relock. -/
  | clkRootLockLoss
  /-- CLK_ROOT_RELOCK_TIMEOUT (R442): No relock within 20 ms turns the rails off. -/
  | clkRootRelockTimeout
  /-- SOLSTICE_PASS_START (R452): INTERVAL days after the last pass, a Solstice pass starts. -/
  | solsticePassStart
  /-- SOL_CMD_START (R452): A write of SOL_CMD.START starts a Solstice pass unless one runs. -/
  | solCmdStart (who : Requester)
  /-- SOLSTICE_HOLD (R453): Solstice holds a domain in an allowed span and measures its margin. -/
  | solsticeHold (d : BitVec 9)
  /-- SOLSTICE_MEASURE (R454): A measurement ends and Solstice commits the offset, raises SOL_DIV, or marks FAIL. -/
  | solsticeMeasure (need : BitVec 8)
  /-- SOLSTICE_SKIP (R453): A domain with no hold span within 24 hours is skipped. -/
  | solsticeSkip (d : BitVec 9)
  /-- MANAGEMENT_SNAPSHOT (R457): Every 100 ms Cordage takes a management snapshot with a new GEN. -/
  | managementSnapshot
  /-- MCTP_MESSAGE (R456): An MCTP control or PLDM base or monitoring message over SMBus is answered by Cordage. -/
  | mctpMessage (bytes : List (BitVec 8))
  /-- GET_VIEW (R456): The Kelhild PLDM command returns the current management snapshot. -/
  | getView (gen : BitVec 32)
  /-- POWER_REQUEST (R457): The Kelhild PLDM command is executed as an in-band power request checked against snapshot GEN. -/
  | powerRequest (gen : BitVec 32) (op : BitVec 4) (dom : BitVec 9) (div : BitVec 4)
  /-- SOLSTICE_START (R457): The Kelhild PLDM command starts a pass unless snapshot GEN is stale. -/
  | solsticeStart (gen : BitVec 32)
  /-- VIGIL_START (R469): VIG_CMD OP 1 starts a test run of the selected targets after the checks of R469. -/
  | vigilStart (who : Requester) (mode : BitVec 2)
  /-- VIGIL_ABORT (R470): VIG_CMD OP 2 ends the run within 1 ms as ABORTED. -/
  | vigilAbort (who : Requester)
  /-- VIGIL_RUN_COMPLETE (R471): A run ends, signatures are compared, failing targets are fenced and tested quads are reset. -/
  | vigilRunComplete (sigs : List (BitVec 64))
  /-- RECORD_ACCEPT (R479): Almanac accepts a record, gives it a SEQ and places it in the ring, overwriting or dropping as needed. -/
  | recordAccept (code : BitVec 16) (sev : BitVec 3) (cls : BitVec 8) (src : BitVec 16) (p0 : BitVec 32) (p1 : BitVec 32) (p2 : BitVec 32)
  /-- ALMANAC_MIRROR_RECORD (R481): A due record is written to the flash mirror in SEQ order, erasing the oldest block when full. -/
  | almanacMirrorRecord (slotOk : Bool) (ok : Bool)
  /-- ALM_SEEK_WRITE (R485): A write of ALM_SEEK finds the ring record with the smallest SEQ at or above the value. -/
  | almSeekWrite (who : Requester) (seq : BitVec 32)
  /-- EPOCH_COMPARE_MATCH (R95): The epoch reaches a level's ECMP value, making the epoch-compare interrupt pending and waking a thread in WFI whether or not it is enabled. -/
  | epochCompareMatch (t : BitVec 10)
  /-- HOST_LINK_UP (R403): Host link training completes, the link comes up, HOST_STS.UP sets and manager MSI-X entry 0 is asserted. -/
  | hostLinkUp (h : BitVec 1) (width : BitVec 5) (speed : BitVec 3)
  /-- ELECTRICAL_IDLE_EXIT (R408): The link partner's electrical-idle exit brings the port out of L1 or L1.1 back to L0. -/
  | electricalIdleExit (h : BitVec 1)
  /-- SMBUS_ALERT_RESPONSE (R37): The alert is serviced over SMBus and the module releases ALERT_N. -/
  | smbusAlertResponse
  /-- PEER_TIME_REQUEST (R439): A TIME request from the peer that takes its epoch from this module is answered with the PCS timestamps. -/
  | peerTimeRequest (k : BitVec 2) (t1 : Word) (t2 : Word) (t3 : Word)
  deriving DecidableEq, Repr

end Sys2Proof
end

