-- ==== Sys2Proof/Machine/Bits.lean ====
section
/-! DEFINITION. Bit-field, byte-order and list helpers that the meanings share. -/

namespace Sys2Proof.Machine

/-- The field [hi:lo] of a word, as a number. -/
def fieldN (w : Word) (hi lo : Nat) : Nat := (w.toNat / 2 ^ lo) % 2 ^ (hi + 1 - lo)

/-- Bit `i` of a word. -/
def bit (w : Word) (i : Nat) : Bool := w.getLsbD i

/-- The word with field [hi:lo] replaced by `v` (taken modulo the field's width). -/
def setField (w : Word) (hi lo v : Nat) : Word :=
  let m : Word := BitVec.ofNat 64 ((2 ^ (hi + 1 - lo) - 1) * 2 ^ lo)
  (w &&& ~~~m) ||| (BitVec.ofNat 64 ((v % 2 ^ (hi + 1 - lo)) * 2 ^ lo))

/-- The word with bit `i` set to `b`. -/
def setBit (w : Word) (i : Nat) (b : Bool) : Word := setField w i i (if b then 1 else 0)

/-- 1 for true. -/
def b2n (b : Bool) : Nat := if b then 1 else 0

/-- A word from a number, modulo 2^64. -/
def w64 (n : Nat) : Word := BitVec.ofNat 64 n

/-- The mask with ones in [hi:lo]. -/
def maskBits (hi lo : Nat) : Word := w64 ((2 ^ (hi + 1 - lo) - 1) * 2 ^ lo)

/-- A saturating increment of field [hi:lo]. -/
def satInc (w : Word) (hi lo : Nat) : Word :=
  let v := fieldN w hi lo
  if v + 1 < 2 ^ (hi + 1 - lo) then setField w hi lo (v + 1) else w

/-- A saturating addition of `n` to field [hi:lo]. -/
def satAdd (w : Word) (hi lo n : Nat) : Word :=
  setField w hi lo (min (fieldN w hi lo + n) (2 ^ (hi + 1 - lo) - 1))

/-- Byte `i` of a word, byte 0 the least significant (little-endian, R2). -/
def byteOf (w : Word) (i : Nat) : Byte := BitVec.ofNat 8 (w.toNat / 2 ^ (8 * i))

/-- A little-endian byte list as a number. -/
def leNat : List Byte → Nat
  | [] => 0
  | b :: r => b.toNat + 256 * leNat r

/-- A big-endian byte list as a number (R62: digests and signature integers). -/
def beNat (l : List Byte) : Nat := l.foldl (fun a b => a * 256 + b.toNat) 0

/-- `n` little-endian bytes of a number. -/
def leBytes : Nat → Nat → List Byte
  | 0, _ => []
  | n + 1, v => BitVec.ofNat 8 v :: leBytes n (v / 256)

/-- `n` big-endian bytes of a number. -/
def beBytes (n v : Nat) : List Byte := (leBytes n v).reverse

/-- `n` bytes of a list from offset `o`, padded with zero bytes past its end. -/
def slice (l : List Byte) (o n : Nat) : List Byte :=
  let x := (l.drop o).take n
  x ++ List.replicate (n - x.length) 0

/-- The little-endian number in bytes [o, o+n). -/
def leAt (l : List Byte) (o n : Nat) : Nat := leNat (slice l o n)

/-- The number of bits of the binary form of n (0 for 0). -/
def bitLen (n : Nat) : Nat := if n = 0 then 0 else Nat.log2 n + 1

/-- The list with element `i` replaced; unchanged when `i` is past its end. -/
def setAt {α : Type} (l : List α) (i : Nat) (v : α) : List α := l.set i v

/-- Word `i` of a line (past the line: zero). -/
def lineWord (l : Line) (i : Nat) : TWord := l.getD i TWord.zero

/-- Line address (address / 64) of a byte address. -/
def lineOf (pa : Nat) : Nat := pa / 64

/-- Index within its line of the word that holds a byte address. -/
def wordInLine (pa : Nat) : Nat := (pa / 8) % 8

/-- Ones among the low `n` bits of a number, as their indexes, rising. -/
def onesBelow (n v : Nat) : List Nat := (List.range n).filter (fun i => v.testBit i)

/-- Applies `f` to each element in order, threading the state. -/
def foldS {σ α : Type} (f : σ → α → σ) (s : σ) (l : List α) : σ := l.foldl f s

/-- True when `l` holds some element twice. -/
def hasDup {α : Type} [DecidableEq α] : List α → Bool
  | [] => false
  | a :: r => r.contains a || hasDup r

end Sys2Proof.Machine
end

