-- ==== Sys2Proof/Machine/RegMap.lean ====
section
/-! DEFINITION. The memory-mapped registers of the G9: names, places and fields, from the register tables of every
chapter (R2-R9, R59). A field with access RO that another part of State drives is overlaid when it is read. -/

namespace Sys2Proof.Machine

/-- Access codes (Table 0-5). -/
inductive Acc where
  | rw | ro | wo | w1c | w1s | rc | rwl | so
  deriving DecidableEq, Repr, Inhabited

/-- One field of a register: its bits, access code and reset value. Bits in no field are reserved (R9). -/
structure RField where
  hi : Nat
  lo : Nat
  acc : Acc
  rst : Nat
  deriving DecidableEq, Repr, Inhabited

/-- Register blocks (Table 2-6); `page` is a tenant slice's page in BAR2 (R397). -/
inductive Blk where
  | core | quad | slc | mch | mesh | fbay | pst | host | dma | page | haws | pwr | alm | vig | rig | bowl
  deriving DecidableEq, Repr, Inhabited

/-- Every named register, one constructor for each description line of the spec. -/
inductive Reg where
  | RIG_STS
  | RIG_CMD
  | RIG_IMAGE_ID
  | RIG_SLOTS
  | RIG_PART_STS
  | RIG_SVC_CMD
  | RIG_SVC_STS
  | RIG_SVC_ARG
  | RIG_SEC_STS
  | RIG_SPLICE
  | RIG_SPLICE_IRQ
  | CORE_ID
  | CORE_MODE
  | CORE_CTL
  | CORE_IPI
  | CORE_CACHE_ERR
  | CORE_TALLY_STS
  | CORE_TALLY_INJ
  | CORE_CTXID
  | CORE_THCFG
  | CORE_THSTART
  | CORE_THSTS
  | CORE_STMIRROR
  | CORE_IRQ_PEND
  | CORE_L0CTL
  | CORE_PMC_SEL
  | CORE_PMC
  | QUAD_CERR
  | QUAD_CERR_DEST
  | QUAD_CERR_ADDR
  | QUAD_COH
  | SLC_CERR
  | SLC_CERR_DEST
  | SLC_CERR_ADDR
  | SLC_COH_CNT
  | SLC_DIR_ERR
  | SLC_HOME
  | MESH_ERR
  | MESH_ERR_ADDR
  | MESH_LINK
  | MESH_CNT
  | MESH_ROUTE
  | MCH_STS
  | MCH_ECC_CTL
  | MCH_CE_BUCKET
  | MCH_ERR_CNT
  | MCH_ERR_ADDR
  | MCH_SCRUB
  | MCH_PC_STS
  | MCH_CAL_STS
  | MCH_DIAG
  | MCH_SPLIT_ADDR
  | MCH_SPLIT_DATA
  | MCH_SPLIT_SIDE
  | CLK_EPOCH
  | CLK_EPOCH_STS
  | CLK_EPOCH_CTL
  | CLK_EPOCH_RATE
  | CLK_TOD_LAST
  | CLK_CAL_CFG
  | CLK_CAL_STS
  | CLK_CAL_START
  | CLK_CAL_MISS
  | CLK_CAL_SLOT
  | FBAY_ID
  | FBAY_ERR
  | FBAY_PORT_CFG
  | FBAY_PORT_CTL
  | FBAY_PORT_STS
  | FBAY_NODE_STS
  | FBAY_PORT_IRQ
  | FBAY_RAW_RX
  | FBAY_RAW_TX
  | FBAY_RAW_IDX
  | FBAY_RAW_CTL
  | FBAY_PORT_CNT
  | FBAY_CTX
  | FBAY_CTX_STS
  | STOP_TIME
  | STOP_MIN
  | STOP_MAX
  | STOP_SLEW
  | STOP_SAFE
  | STOP_OUT
  | STOP_TARGET
  | STOP_STS
  | STOP_CNT
  | STOP_EVT
  | PST_ENG_CNT
  | PST_REGION
  | PST_CLASS
  | PST_ARG
  | PST_CMD
  | PST_PEEK
  | PST_ERR
  | PST_NQ_CFG
  | PST_NQ_IDX
  | PST_NQ_IRQ
  | BOWL_ENTRY
  | BOWL_STVEC
  | BOWL_CALL_LIMIT
  | HOST_STS
  | HOST_CTL
  | HOST_APER
  | HOST_ERR
  | HOST_ERR_HDR
  | HOST_CNT
  | DMA_CH_CFG
  | DMA_CH_DESC
  | DMA_CH_CTL
  | DMA_CH_STS
  | DMA_CH_IRQ
  | DMA_GRP_CTL
  | DMA_MGR_EVT
  | SLCE_BIND
  | SLCE_PT
  | SLCE_CTL
  | SLCE_STS
  | SLCE_WIN
  | SLCE_POST
  | SLCE_SQ_BASE
  | SLCE_CQ_BASE
  | SLCE_QP_CFG
  | SLCE_SQ_TAIL
  | SLCE_CQ_HEAD
  | SLCE_QP_STS
  | SLCE_QP_CTL
  | HAWS_STS
  | HAWS_PEER_ID
  | HAWS_WIN_COMMIT
  | HAWS_TIME
  | HAWS_CNT
  | HAWS_WIN_LOC
  | HAWS_WIN_PEER
  | HAWS_WIN_ACT
  | HAWS_PEER_WIN
  | PWR_DOM_STS
  | PWR_DOM_REQ
  | PWR_REQ_STS
  | PWR_IN
  | PWR_COOLANT
  | PWR_THERM
  | CLK_QUAD
  | SOL_STS
  | SOL_CMD
  | SOL_DOM
  | VIG_CMD
  | VIG_STS
  | VIG_MASK_QUAD
  | VIG_MASK_SLICE
  | VIG_MASK_IO
  | VIG_PASS_QUAD
  | VIG_PASS_SLICE
  | VIG_PASS_IO
  | VIG_FENCE_QUAD
  | VIG_FENCE_BAY
  | VIG_SIG
  | VIG_EXP
  | ALM_STS
  | ALM_SEEK
  | ALM_DROP
  | ALM_MIRROR
  | ALM_MPAGE
  deriving DecidableEq, Repr, Inhabited

/-- The fields of each register. -/
def Reg.fields : Reg → List RField
  | .RIG_STS => [⟨63, 48, .ro, 0⟩, ⟨47, 24, .ro, 0⟩, ⟨23, 16, .ro, 0⟩, ⟨5, 4, .ro, 0⟩, ⟨3, 2, .ro, 0⟩, ⟨1, 1, .ro, 0⟩, ⟨0, 0, .w1c, 0⟩]
  | .RIG_CMD => [⟨15, 12, .wo, 0⟩, ⟨11, 8, .wo, 0⟩, ⟨3, 0, .wo, 0⟩]
  | .RIG_IMAGE_ID => [⟨63, 0, .ro, 0⟩]
  | .RIG_SLOTS => [⟨15, 8, .ro, 0⟩, ⟨6, 4, .ro, 0⟩, ⟨2, 0, .ro, 0⟩]
  | .RIG_PART_STS => [⟨63, 32, .ro, 0⟩, ⟨31, 16, .ro, 0⟩, ⟨3, 3, .ro, 0⟩, ⟨2, 0, .ro, 0⟩]
  | .RIG_SVC_CMD => [⟨7, 0, .wo, 0⟩]
  | .RIG_SVC_STS => [⟨15, 8, .ro, 0⟩, ⟨1, 1, .ro, 0⟩, ⟨0, 0, .w1c, 0⟩]
  | .RIG_SVC_ARG => [⟨63, 0, .rw, 0⟩]
  | .RIG_SEC_STS => [⟨50, 50, .ro, 0⟩, ⟨49, 49, .ro, 0⟩, ⟨48, 48, .ro, 0⟩, ⟨46, 40, .ro, 0⟩, ⟨38, 32, .ro, 0⟩, ⟨30, 24, .ro, 0⟩, ⟨23, 8, .ro, 0⟩, ⟨7, 0, .ro, 0⟩]
  | .RIG_SPLICE => [⟨63, 48, .ro, 0⟩, ⟨47, 32, .ro, 0⟩, ⟨27, 16, .ro, 0⟩, ⟨10, 8, .ro, 0⟩, ⟨3, 3, .ro, 0⟩, ⟨2, 0, .ro, 0⟩]
  | .RIG_SPLICE_IRQ => [⟨17, 17, .w1c, 0⟩, ⟨16, 16, .rw, 0⟩, ⟨15, 10, .rw, 0⟩, ⟨9, 0, .rw, 0⟩]
  | .CORE_ID => [⟨31, 24, .ro, 176⟩, ⟨20, 20, .ro, 0⟩, ⟨19, 16, .ro, 0⟩, ⟨7, 0, .ro, 0⟩]
  | .CORE_MODE => [⟨1, 1, .ro, 0⟩, ⟨0, 0, .rw, 1⟩]
  | .CORE_CTL => [⟨2, 2, .rw, 0⟩, ⟨1, 1, .rw, 1⟩, ⟨0, 0, .rw, 1⟩]
  | .CORE_IPI => [⟨9, 0, .wo, 0⟩]
  | .CORE_CACHE_ERR => [⟨63, 48, .rc, 0⟩, ⟨47, 32, .rc, 0⟩, ⟨31, 16, .rc, 0⟩, ⟨15, 8, .rc, 0⟩]
  | .CORE_TALLY_STS => [⟨63, 48, .rc, 0⟩, ⟨47, 32, .rc, 0⟩, ⟨31, 16, .rc, 0⟩, ⟨15, 8, .rc, 0⟩, ⟨0, 0, .ro, 0⟩]
  | .CORE_TALLY_INJ => [⟨9, 9, .w1c, 0⟩, ⟨8, 8, .w1s, 0⟩, ⟨3, 2, .rwl, 0⟩, ⟨1, 0, .rwl, 0⟩]
  | .CORE_CTXID => [⟨31, 0, .rw, 0⟩]
  | .CORE_THCFG => [⟨2, 2, .rw, 1⟩, ⟨1, 1, .ro, 0⟩, ⟨0, 0, .rw, 0⟩]
  | .CORE_THSTART => [⟨63, 2, .wo, 0⟩, ⟨0, 0, .wo, 0⟩]
  | .CORE_THSTS => [⟨11, 11, .ro, 0⟩, ⟨10, 9, .ro, 3⟩, ⟨8, 8, .ro, 0⟩, ⟨7, 7, .ro, 0⟩, ⟨6, 6, .ro, 0⟩, ⟨5, 5, .ro, 0⟩, ⟨4, 4, .ro, 0⟩, ⟨2, 0, .ro, 0⟩]
  | .CORE_STMIRROR => [⟨51, 48, .so, 0⟩, ⟨40, 32, .so, 0⟩, ⟨24, 16, .ro, 0⟩, ⟨8, 0, .ro, 0⟩]
  | .CORE_IRQ_PEND => [⟨63, 2, .ro, 0⟩, ⟨1, 1, .ro, 0⟩, ⟨0, 0, .w1c, 0⟩]
  | .CORE_L0CTL => [⟨2, 2, .ro, 0⟩, ⟨1, 1, .rw, 1⟩, ⟨0, 0, .rw, 0⟩]
  | .CORE_PMC_SEL => [⟨11, 11, .rw, 0⟩, ⟨10, 10, .rw, 0⟩, ⟨9, 9, .rw, 0⟩, ⟨8, 8, .rw, 0⟩, ⟨7, 0, .rw, 0⟩]
  | .CORE_PMC => [⟨63, 63, .w1c, 0⟩, ⟨47, 0, .rw, 0⟩]
  | .QUAD_CERR => [⟨63, 48, .rc, 0⟩, ⟨47, 40, .rc, 0⟩, ⟨39, 32, .rc, 0⟩, ⟨1, 1, .w1c, 0⟩, ⟨0, 0, .w1c, 0⟩]
  | .QUAD_CERR_DEST => [⟨16, 16, .rw, 0⟩, ⟨15, 10, .rw, 0⟩, ⟨9, 0, .rw, 0⟩]
  | .QUAD_CERR_ADDR => [⟨63, 63, .w1c, 0⟩, ⟨62, 61, .ro, 0⟩, ⟨51, 6, .ro, 0⟩]
  | .QUAD_COH => [⟨40, 32, .ro, 0⟩, ⟨23, 0, .rc, 0⟩]
  | .SLC_CERR => [⟨63, 48, .rc, 0⟩, ⟨47, 40, .rc, 0⟩, ⟨39, 32, .rc, 0⟩, ⟨0, 0, .w1c, 0⟩]
  | .SLC_CERR_DEST => [⟨16, 16, .rw, 0⟩, ⟨15, 10, .rw, 0⟩, ⟨9, 0, .rw, 0⟩]
  | .SLC_CERR_ADDR => [⟨63, 63, .w1c, 0⟩, ⟨51, 6, .ro, 0⟩]
  | .SLC_COH_CNT => [⟨63, 63, .w1c, 0⟩, ⟨47, 0, .rw, 0⟩]
  | .SLC_DIR_ERR => [⟨63, 63, .w1c, 0⟩, ⟨47, 40, .rc, 0⟩, ⟨15, 4, .ro, 0⟩, ⟨3, 0, .ro, 0⟩]
  | .SLC_HOME => [⟨40, 24, .ro, 0⟩, ⟨23, 16, .ro, 0⟩, ⟨5, 5, .ro, 0⟩, ⟨4, 4, .ro, 0⟩, ⟨3, 0, .ro, 0⟩]
  | .MESH_ERR => [⟨63, 63, .w1c, 0⟩, ⟨47, 32, .rc, 0⟩, ⟨23, 17, .ro, 0⟩, ⟨16, 14, .ro, 0⟩, ⟨13, 13, .ro, 0⟩, ⟨7, 4, .ro, 0⟩, ⟨3, 0, .ro, 0⟩]
  | .MESH_ERR_ADDR => [⟨63, 0, .ro, 0⟩]
  | .MESH_LINK => [⟨63, 32, .rc, 0⟩]
  | .MESH_CNT => [⟨63, 63, .w1c, 0⟩, ⟨47, 0, .rw, 0⟩]
  | .MESH_ROUTE => [⟨63, 0, .ro, 0⟩]
  | .MCH_STS => [⟨63, 32, .ro, 0⟩, ⟨19, 16, .ro, 0⟩, ⟨3, 3, .ro, 0⟩, ⟨2, 2, .ro, 0⟩, ⟨1, 1, .ro, 0⟩, ⟨0, 0, .ro, 0⟩]
  | .MCH_ECC_CTL => [⟨63, 48, .ro, 0⟩, ⟨47, 16, .ro, 0⟩, ⟨15, 0, .rw, 50⟩]
  | .MCH_CE_BUCKET => [⟨63, 63, .w1c, 0⟩, ⟨15, 0, .ro, 0⟩]
  | .MCH_ERR_CNT => [⟨63, 32, .rc, 0⟩, ⟨31, 16, .rc, 0⟩, ⟨15, 8, .rc, 0⟩, ⟨7, 0, .rc, 0⟩]
  | .MCH_ERR_ADDR => [⟨63, 63, .w1c, 0⟩, ⟨62, 61, .ro, 0⟩, ⟨37, 3, .ro, 0⟩]
  | .MCH_SCRUB => [⟨63, 48, .ro, 0⟩, ⟨47, 34, .ro, 0⟩, ⟨33, 0, .ro, 0⟩]
  | .MCH_PC_STS => [⟨63, 32, .rc, 0⟩, ⟨31, 16, .rc, 0⟩, ⟨10, 0, .ro, 0⟩]
  | .MCH_CAL_STS => [⟨63, 32, .ro, 0⟩, ⟨7, 0, .ro, 0⟩]
  | .MCH_DIAG => [⟨23, 16, .ro, 0⟩, ⟨5, 5, .w1c, 0⟩, ⟨4, 4, .w1c, 0⟩, ⟨3, 3, .w1c, 0⟩, ⟨2, 2, .w1c, 0⟩, ⟨1, 1, .wo, 0⟩, ⟨0, 0, .rwl, 0⟩]
  | .MCH_SPLIT_ADDR => [⟨63, 63, .wo, 0⟩, ⟨62, 62, .wo, 0⟩, ⟨61, 61, .so, 0⟩, ⟨37, 3, .rw, 0⟩]
  | .MCH_SPLIT_DATA => [⟨63, 0, .rw, 0⟩]
  | .MCH_SPLIT_SIDE => [⟨15, 8, .rw, 0⟩, ⟨7, 0, .rw, 0⟩]
  | .CLK_EPOCH => [⟨63, 0, .ro, 0⟩]
  | .CLK_EPOCH_STS => [⟨63, 48, .ro, 0⟩, ⟨47, 32, .ro, 0⟩, ⟨11, 10, .ro, 0⟩, ⟨9, 8, .ro, 0⟩, ⟨2, 0, .ro, 0⟩]
  | .CLK_EPOCH_CTL => [⟨47, 32, .rw, 0⟩, ⟨1, 1, .w1s, 0⟩, ⟨0, 0, .rw, 1⟩]
  | .CLK_EPOCH_RATE => [⟨31, 0, .ro, 0⟩]
  | .CLK_TOD_LAST => [⟨63, 62, .ro, 0⟩, ⟨57, 48, .ro, 0⟩, ⟨39, 0, .ro, 0⟩]
  | .CLK_CAL_CFG => [⟨55, 32, .ro, 0⟩, ⟨24, 0, .ro, 0⟩]
  | .CLK_CAL_STS => [⟨63, 32, .ro, 0⟩, ⟨28, 16, .ro, 0⟩, ⟨2, 2, .ro, 0⟩, ⟨1, 1, .ro, 0⟩, ⟨0, 0, .ro, 0⟩]
  | .CLK_CAL_START => [⟨63, 0, .ro, 0⟩]
  | .CLK_CAL_MISS => [⟨63, 63, .w1c, 0⟩, ⟨57, 48, .ro, 0⟩, ⟨47, 32, .rc, 0⟩, ⟨31, 16, .rc, 0⟩, ⟨11, 0, .ro, 0⟩]
  | .CLK_CAL_SLOT => [⟨63, 48, .ro, 0⟩, ⟨41, 40, .ro, 0⟩, ⟨31, 0, .ro, 0⟩]
  | .FBAY_ID => [⟨55, 8, .ro, 0⟩, ⟨3, 3, .ro, 0⟩, ⟨2, 0, .ro, 0⟩]
  | .FBAY_ERR => [⟨63, 63, .w1c, 0⟩, ⟨47, 32, .rc, 0⟩, ⟨11, 6, .ro, 0⟩, ⟨3, 0, .ro, 0⟩]
  | .FBAY_PORT_CFG => [⟨63, 48, .ro, 0⟩, ⟨47, 32, .ro, 0⟩, ⟨23, 20, .ro, 0⟩, ⟨19, 16, .ro, 0⟩, ⟨1, 0, .ro, 0⟩]
  | .FBAY_PORT_CTL => [⟨22, 16, .rw, 3⟩, ⟨1, 1, .rw, 0⟩, ⟨0, 0, .rw, 0⟩]
  | .FBAY_PORT_STS => [⟨63, 32, .ro, 0⟩, ⟨8, 8, .ro, 0⟩, ⟨1, 0, .ro, 0⟩]
  | .FBAY_NODE_STS => []
  | .FBAY_PORT_IRQ => [⟨44, 44, .w1c, 0⟩, ⟨43, 43, .w1c, 0⟩, ⟨42, 42, .w1c, 0⟩, ⟨41, 41, .w1c, 0⟩, ⟨40, 40, .w1c, 0⟩, ⟨16, 16, .rw, 0⟩, ⟨15, 10, .rw, 0⟩, ⟨9, 0, .rw, 0⟩]
  | .FBAY_RAW_RX => [⟨51, 6, .rw, 0⟩, ⟨3, 0, .rw, 4⟩]
  | .FBAY_RAW_TX => [⟨51, 6, .rw, 0⟩, ⟨3, 0, .rw, 4⟩]
  | .FBAY_RAW_IDX => [⟨63, 48, .rw, 0⟩, ⟨47, 32, .ro, 0⟩, ⟨31, 16, .rw, 0⟩, ⟨15, 0, .ro, 0⟩]
  | .FBAY_RAW_CTL => [⟨1, 1, .w1c, 0⟩, ⟨0, 0, .rw, 0⟩]
  | .FBAY_PORT_CNT => [⟨31, 0, .rc, 0⟩]
  | .FBAY_CTX => [⟨63, 63, .ro, 0⟩, ⟨62, 62, .ro, 0⟩, ⟨61, 56, .ro, 0⟩, ⟨55, 53, .ro, 0⟩, ⟨52, 45, .ro, 0⟩, ⟨44, 41, .ro, 0⟩, ⟨35, 12, .ro, 0⟩, ⟨11, 0, .ro, 0⟩]
  | .FBAY_CTX_STS => [⟨63, 32, .ro, 0⟩, ⟨31, 16, .rc, 0⟩, ⟨15, 0, .rc, 0⟩]
  | .STOP_TIME => [⟨63, 32, .ro, 0⟩, ⟨31, 0, .ro, 0⟩]
  | .STOP_MIN => [⟨63, 0, .ro, 0⟩]
  | .STOP_MAX => [⟨63, 0, .ro, 0⟩]
  | .STOP_SLEW => [⟨63, 0, .ro, 0⟩]
  | .STOP_SAFE => [⟨63, 0, .ro, 0⟩]
  | .STOP_OUT => [⟨63, 0, .ro, 0⟩]
  | .STOP_TARGET => [⟨63, 0, .ro, 0⟩]
  | .STOP_STS => [⟨63, 32, .ro, 0⟩, ⟨15, 12, .ro, 0⟩, ⟨11, 11, .ro, 0⟩, ⟨10, 10, .ro, 0⟩, ⟨2, 0, .ro, 0⟩]
  | .STOP_CNT => [⟨63, 48, .rc, 0⟩, ⟨47, 32, .rc, 0⟩, ⟨31, 16, .rc, 0⟩, ⟨15, 8, .rc, 0⟩, ⟨7, 0, .rc, 0⟩]
  | .STOP_EVT => [⟨63, 63, .w1c, 0⟩, ⟨47, 32, .rc, 0⟩, ⟨15, 4, .ro, 0⟩, ⟨3, 0, .ro, 0⟩]
  | .PST_ENG_CNT => [⟨63, 63, .w1c, 0⟩, ⟨47, 0, .rw, 0⟩]
  | .PST_REGION => [⟨51, 30, .ro, 0⟩, ⟨4, 0, .ro, 0⟩]
  | .PST_CLASS => [⟨63, 0, .rw, 0x5555555555555555⟩]
  | .PST_ARG => [⟨63, 0, .rw, 0⟩]
  | .PST_CMD => [⟨63, 56, .ro, 0⟩, ⟨49, 49, .ro, 0⟩, ⟨48, 48, .wo, 0⟩, ⟨39, 32, .wo, 0⟩, ⟨23, 0, .wo, 0⟩]
  | .PST_PEEK => [⟨63, 0, .ro, 0⟩]
  | .PST_ERR => [⟨63, 63, .w1c, 0⟩, ⟨62, 48, .rc, 0⟩, ⟨47, 32, .rc, 0⟩, ⟨26, 24, .ro, 0⟩, ⟨23, 0, .ro, 0⟩]
  | .PST_NQ_CFG => [⟨51, 6, .rw, 0⟩, ⟨5, 5, .w1c, 0⟩, ⟨4, 4, .rw, 0⟩, ⟨3, 0, .rw, 4⟩]
  | .PST_NQ_IDX => [⟨63, 32, .rc, 0⟩, ⟨31, 16, .rw, 0⟩, ⟨15, 0, .ro, 0⟩]
  | .PST_NQ_IRQ => [⟨17, 17, .w1c, 0⟩, ⟨16, 16, .rw, 0⟩, ⟨15, 10, .rw, 0⟩, ⟨9, 0, .rw, 0⟩]
  | .BOWL_ENTRY => [⟨63, 48, .rw, 0⟩, ⟨37, 2, .rw, 0⟩, ⟨0, 0, .rw, 0⟩]
  | .BOWL_STVEC => [⟨63, 8, .rw, 0⟩, ⟨0, 0, .rw, 0⟩]
  | .BOWL_CALL_LIMIT => [⟨19, 0, .rw, 100⟩]
  | .HOST_STS => [⟨20, 20, .ro, 0⟩, ⟨19, 19, .ro, 0⟩, ⟨18, 18, .ro, 0⟩, ⟨17, 16, .ro, 0⟩, ⟨15, 14, .ro, 0⟩, ⟨12, 8, .ro, 0⟩, ⟨7, 5, .ro, 0⟩, ⟨4, 4, .ro, 0⟩, ⟨3, 3, .ro, 0⟩, ⟨2, 2, .ro, 0⟩, ⟨1, 1, .ro, 0⟩, ⟨0, 0, .ro, 0⟩]
  | .HOST_CTL => [⟨31, 16, .rw, 32⟩, ⟨15, 8, .rw, 16⟩, ⟨0, 0, .rw, 0⟩]
  | .HOST_APER => [⟨7, 0, .rw, 225⟩]
  | .HOST_ERR => [⟨63, 63, .w1c, 0⟩, ⟨3, 0, .ro, 0⟩]
  | .HOST_ERR_HDR => [⟨63, 0, .ro, 0⟩]
  | .HOST_CNT => [⟨31, 0, .rc, 0⟩]
  | .DMA_CH_CFG => [⟨31, 24, .rw, 0⟩, ⟨16, 16, .rw, 0⟩, ⟨10, 8, .rw, 0⟩, ⟨2, 0, .rw, 0⟩]
  | .DMA_CH_DESC => [⟨51, 5, .rw, 0⟩]
  | .DMA_CH_CTL => [⟨2, 2, .wo, 0⟩, ⟨1, 1, .wo, 0⟩, ⟨0, 0, .wo, 0⟩]
  | .DMA_CH_STS => [⟨63, 32, .ro, 0⟩, ⟨31, 16, .ro, 0⟩, ⟨15, 8, .ro, 0⟩, ⟨5, 5, .ro, 0⟩, ⟨4, 4, .ro, 0⟩, ⟨2, 0, .ro, 0⟩]
  | .DMA_CH_IRQ => [⟨18, 18, .w1c, 0⟩, ⟨17, 17, .w1c, 0⟩, ⟨16, 16, .rw, 0⟩, ⟨15, 10, .rw, 0⟩, ⟨9, 0, .rw, 0⟩]
  | .DMA_GRP_CTL => [⟨0, 0, .rw, 0⟩]
  | .DMA_MGR_EVT => [⟨1, 1, .w1c, 0⟩, ⟨0, 0, .w1c, 0⟩]
  | .SLCE_BIND => [⟨63, 63, .rw, 0⟩, ⟨59, 40, .rw, 0⟩, ⟨39, 39, .rw, 0⟩, ⟨38, 36, .rw, 0⟩, ⟨34, 32, .rw, 0⟩, ⟨12, 0, .rw, 0⟩]
  | .SLCE_PT => [⟨56, 32, .rw, 0⟩, ⟨25, 25, .rw, 0⟩, ⟨24, 24, .rw, 0⟩, ⟨23, 0, .rw, 0⟩]
  | .SLCE_CTL => [⟨1, 1, .wo, 0⟩, ⟨0, 0, .rw, 0⟩]
  | .SLCE_STS => [⟨63, 48, .rc, 0⟩, ⟨37, 32, .ro, 0⟩, ⟨11, 8, .ro, 0⟩, ⟨1, 1, .ro, 0⟩, ⟨0, 0, .ro, 0⟩]
  | .SLCE_WIN => [⟨51, 20, .rw, 0⟩, ⟨11, 0, .rw, 0⟩]
  | .SLCE_POST => [⟨63, 32, .wo, 0⟩, ⟨1, 0, .wo, 0⟩]
  | .SLCE_SQ_BASE => [⟨63, 6, .rw, 0⟩]
  | .SLCE_CQ_BASE => [⟨63, 6, .rw, 0⟩]
  | .SLCE_QP_CFG => [⟨19, 16, .rw, 4⟩, ⟨11, 8, .rw, 4⟩, ⟨1, 1, .rw, 0⟩, ⟨0, 0, .rw, 0⟩]
  | .SLCE_SQ_TAIL => [⟨15, 0, .rw, 0⟩]
  | .SLCE_CQ_HEAD => [⟨15, 0, .rw, 0⟩]
  | .SLCE_QP_STS => [⟨43, 40, .ro, 0⟩, ⟨33, 32, .ro, 0⟩, ⟨31, 16, .ro, 0⟩, ⟨15, 0, .ro, 0⟩]
  | .SLCE_QP_CTL => [⟨1, 1, .wo, 0⟩, ⟨0, 0, .wo, 0⟩]
  | .HAWS_STS => [⟨23, 22, .ro, 0⟩, ⟨21, 21, .ro, 0⟩, ⟨20, 20, .w1c, 0⟩, ⟨19, 19, .ro, 0⟩, ⟨18, 18, .ro, 0⟩, ⟨17, 17, .ro, 0⟩, ⟨16, 14, .ro, 0⟩, ⟨13, 12, .ro, 0⟩, ⟨11, 10, .ro, 0⟩, ⟨2, 0, .ro, 0⟩]
  | .HAWS_PEER_ID => [⟨63, 0, .ro, 0⟩]
  | .HAWS_WIN_COMMIT => [⟨15, 0, .wo, 0⟩]
  | .HAWS_TIME => [⟨63, 48, .ro, 0⟩, ⟨47, 32, .ro, 0⟩, ⟨15, 0, .rw, 0⟩]
  | .HAWS_CNT => [⟨31, 0, .rc, 0⟩]
  | .HAWS_WIN_LOC => [⟨51, 21, .rw, 0⟩, ⟨15, 0, .rw, 0⟩]
  | .HAWS_WIN_PEER => [⟨63, 63, .rw, 0⟩, ⟨62, 62, .rw, 0⟩, ⟨61, 61, .rw, 0⟩, ⟨14, 0, .rw, 0⟩]
  | .HAWS_WIN_ACT => [⟨63, 56, .ro, 0⟩, ⟨55, 55, .ro, 0⟩, ⟨54, 54, .ro, 0⟩]
  | .HAWS_PEER_WIN => [⟨63, 63, .ro, 0⟩, ⟨62, 62, .ro, 0⟩, ⟨61, 61, .ro, 0⟩, ⟨55, 48, .ro, 0⟩, ⟨47, 32, .ro, 0⟩, ⟨14, 0, .ro, 0⟩]
  | .PWR_DOM_STS => [⟨63, 48, .ro, 0⟩, ⟨39, 32, .ro, 0⟩, ⟨15, 8, .ro, 0⟩, ⟨5, 4, .ro, 0⟩, ⟨2, 0, .ro, 0⟩]
  | .PWR_DOM_REQ => [⟨63, 63, .wo, 0⟩, ⟨47, 32, .wo, 0⟩, ⟨24, 16, .wo, 0⟩, ⟨7, 4, .wo, 0⟩, ⟨3, 0, .wo, 0⟩]
  | .PWR_REQ_STS => [⟨15, 8, .ro, 0⟩, ⟨1, 1, .ro, 0⟩, ⟨0, 0, .w1c, 0⟩]
  | .PWR_IN => [⟨63, 48, .ro, 0⟩, ⟨47, 32, .ro, 0⟩, ⟨31, 16, .ro, 0⟩, ⟨15, 0, .ro, 0⟩]
  | .PWR_COOLANT => [⟨63, 48, .ro, 0⟩, ⟨47, 32, .ro, 0⟩, ⟨31, 16, .ro, 0⟩]
  | .PWR_THERM => [⟨56, 48, .ro, 0⟩, ⟨47, 40, .ro, 0⟩, ⟨7, 4, .ro, 0⟩, ⟨1, 0, .ro, 0⟩]
  | .CLK_QUAD => [⟨26, 24, .ro, 0⟩, ⟨22, 20, .ro, 0⟩, ⟨18, 16, .ro, 0⟩, ⟨14, 12, .ro, 2⟩, ⟨10, 8, .ro, 0⟩]
  | .SOL_STS => [⟨63, 48, .ro, 0⟩, ⟨47, 32, .ro, 0⟩, ⟨22, 14, .ro, 0⟩, ⟨1, 0, .ro, 0⟩]
  | .SOL_CMD => [⟨0, 0, .wo, 0⟩]
  | .SOL_DOM => [⟨63, 56, .ro, 0⟩, ⟨55, 48, .ro, 0⟩, ⟨47, 40, .ro, 0⟩, ⟨31, 16, .ro, 0⟩, ⟨1, 1, .w1c, 0⟩, ⟨0, 0, .ro, 0⟩]
  | .VIG_CMD => [⟨5, 4, .wo, 0⟩, ⟨1, 0, .wo, 0⟩]
  | .VIG_STS => [⟨55, 48, .ro, 0⟩, ⟨42, 40, .ro, 0⟩, ⟨23, 8, .ro, 0⟩, ⟨3, 3, .w1c, 0⟩, ⟨2, 0, .ro, 0⟩]
  | .VIG_MASK_QUAD => [⟨63, 0, .rw, 0⟩]
  | .VIG_MASK_SLICE => [⟨63, 0, .rw, 0⟩]
  | .VIG_MASK_IO => [⟨23, 16, .rw, 0⟩, ⟨15, 0, .rw, 0⟩]
  | .VIG_PASS_QUAD => [⟨63, 0, .ro, 0⟩]
  | .VIG_PASS_SLICE => [⟨63, 0, .ro, 0⟩]
  | .VIG_PASS_IO => [⟨23, 16, .ro, 0⟩, ⟨15, 0, .ro, 0⟩]
  | .VIG_FENCE_QUAD => [⟨63, 0, .ro, 0⟩]
  | .VIG_FENCE_BAY => [⟨7, 0, .ro, 0⟩]
  | .VIG_SIG => [⟨63, 0, .ro, 0⟩]
  | .VIG_EXP => [⟨63, 0, .ro, 0⟩]
  | .ALM_STS => [⟨63, 32, .ro, 0⟩, ⟨31, 16, .ro, 0⟩, ⟨0, 0, .ro, 0⟩]
  | .ALM_SEEK => [⟨63, 32, .rw, 0⟩, ⟨31, 31, .ro, 1⟩, ⟨15, 0, .ro, 0⟩]
  | .ALM_DROP => [⟨31, 0, .rc, 0⟩]
  | .ALM_MIRROR => [⟨63, 32, .ro, 0⟩, ⟨22, 12, .ro, 0⟩, ⟨11, 0, .ro, 0⟩]
  | .ALM_MPAGE => [⟨7, 0, .rw, 0⟩]

/-- The place of a register: block, first offset, and two strides with their counts. -/
structure RegPlace where
  reg : Reg
  blk : Blk
  off : Nat
  s1 : Nat
  c1 : Nat
  s2 : Nat
  c2 : Nat
  deriving DecidableEq, Repr, Inhabited

/-- The registers of the rig block. -/
def regPlacesRig : List RegPlace := [
  ⟨.RIG_STS, .rig, 0x0, 0x0, 1, 0x0, 1⟩,
  ⟨.RIG_CMD, .rig, 0x8, 0x0, 1, 0x0, 1⟩,
  ⟨.RIG_IMAGE_ID, .rig, 0x10, 0x0, 1, 0x0, 1⟩,
  ⟨.RIG_SLOTS, .rig, 0x18, 0x0, 1, 0x0, 1⟩,
  ⟨.RIG_PART_STS, .rig, 0x100, 0x8, 16, 0x0, 1⟩,
  ⟨.RIG_SVC_CMD, .rig, 0x1000, 0x0, 1, 0x0, 1⟩,
  ⟨.RIG_SVC_STS, .rig, 0x1008, 0x0, 1, 0x0, 1⟩,
  ⟨.RIG_SVC_ARG, .rig, 0x1010, 0x8, 4, 0x0, 1⟩,
  ⟨.RIG_SEC_STS, .rig, 0x1800, 0x0, 1, 0x0, 1⟩,
  ⟨.RIG_SPLICE, .rig, 0x2000, 0x8, 31, 0x0, 1⟩,
  ⟨.RIG_SPLICE_IRQ, .rig, 0x3000, 0x8, 16, 0x0, 1⟩]

/-- The registers of the core block. -/
def regPlacesCore : List RegPlace := [
  ⟨.CORE_ID, .core, 0x0, 0x0, 1, 0x0, 1⟩,
  ⟨.CORE_MODE, .core, 0x8, 0x0, 1, 0x0, 1⟩,
  ⟨.CORE_CTL, .core, 0x10, 0x0, 1, 0x0, 1⟩,
  ⟨.CORE_IPI, .core, 0x18, 0x0, 1, 0x0, 1⟩,
  ⟨.CORE_CACHE_ERR, .core, 0x20, 0x0, 1, 0x0, 1⟩,
  ⟨.CORE_TALLY_STS, .core, 0x18000, 0x0, 1, 0x0, 1⟩,
  ⟨.CORE_TALLY_INJ, .core, 0x18008, 0x0, 1, 0x0, 1⟩,
  ⟨.CORE_CTXID, .core, 0x1000, 0x100, 4, 0x0, 1⟩,
  ⟨.CORE_THCFG, .core, 0x1008, 0x100, 4, 0x0, 1⟩,
  ⟨.CORE_THSTART, .core, 0x1010, 0x100, 4, 0x0, 1⟩,
  ⟨.CORE_THSTS, .core, 0x1018, 0x100, 4, 0x0, 1⟩,
  ⟨.CORE_STMIRROR, .core, 0x1020, 0x100, 4, 0x0, 1⟩,
  ⟨.CORE_IRQ_PEND, .core, 0x1028, 0x100, 4, 0x0, 1⟩,
  ⟨.CORE_L0CTL, .core, 0x1030, 0x100, 4, 0x0, 1⟩,
  ⟨.CORE_PMC_SEL, .core, 0x1040, 0x100, 4, 0x8, 6⟩,
  ⟨.CORE_PMC, .core, 0x1080, 0x100, 4, 0x8, 6⟩]

/-- The registers of the quad block. -/
def regPlacesQuad : List RegPlace := [
  ⟨.QUAD_CERR, .quad, 0x801000, 0x0, 1, 0x0, 1⟩,
  ⟨.QUAD_CERR_DEST, .quad, 0x801008, 0x0, 1, 0x0, 1⟩,
  ⟨.QUAD_CERR_ADDR, .quad, 0x801010, 0x0, 1, 0x0, 1⟩,
  ⟨.QUAD_COH, .quad, 0x802000, 0x0, 1, 0x0, 1⟩]

/-- The registers of the slc block. -/
def regPlacesSlc : List RegPlace := [
  ⟨.SLC_CERR, .slc, 0x1000, 0x0, 1, 0x0, 1⟩,
  ⟨.SLC_CERR_DEST, .slc, 0x1008, 0x0, 1, 0x0, 1⟩,
  ⟨.SLC_CERR_ADDR, .slc, 0x1010, 0x0, 1, 0x0, 1⟩,
  ⟨.SLC_COH_CNT, .slc, 0x2000, 0x8, 8, 0x0, 1⟩,
  ⟨.SLC_DIR_ERR, .slc, 0x2040, 0x0, 1, 0x0, 1⟩,
  ⟨.SLC_HOME, .slc, 0x2048, 0x0, 1, 0x0, 1⟩]

/-- The registers of the mesh block. -/
def regPlacesMesh : List RegPlace := [
  ⟨.MESH_ERR, .mesh, 0x0, 0x0, 1, 0x0, 1⟩,
  ⟨.MESH_ERR_ADDR, .mesh, 0x8, 0x0, 1, 0x0, 1⟩,
  ⟨.MESH_LINK, .mesh, 0x10000, 0x40, 84, 0x8, 4⟩,
  ⟨.MESH_CNT, .mesh, 0x20000, 0x20, 84, 0x8, 4⟩,
  ⟨.MESH_ROUTE, .mesh, 0x100000, 0x400, 84, 0x8, 128⟩]

/-- The registers of the mch block. -/
def regPlacesMch : List RegPlace := [
  ⟨.MCH_STS, .mch, 0x0, 0x0, 1, 0x0, 1⟩,
  ⟨.MCH_ECC_CTL, .mch, 0x8, 0x0, 1, 0x0, 1⟩,
  ⟨.MCH_CE_BUCKET, .mch, 0x10, 0x0, 1, 0x0, 1⟩,
  ⟨.MCH_ERR_CNT, .mch, 0x18, 0x0, 1, 0x0, 1⟩,
  ⟨.MCH_ERR_ADDR, .mch, 0x20, 0x0, 1, 0x0, 1⟩,
  ⟨.MCH_SCRUB, .mch, 0x28, 0x0, 1, 0x0, 1⟩,
  ⟨.MCH_PC_STS, .mch, 0x30, 0x0, 1, 0x0, 1⟩,
  ⟨.MCH_CAL_STS, .mch, 0x38, 0x0, 1, 0x0, 1⟩,
  ⟨.MCH_DIAG, .mch, 0x40, 0x0, 1, 0x0, 1⟩,
  ⟨.MCH_SPLIT_ADDR, .mch, 0x48, 0x0, 1, 0x0, 1⟩,
  ⟨.MCH_SPLIT_DATA, .mch, 0x50, 0x0, 1, 0x0, 1⟩,
  ⟨.MCH_SPLIT_SIDE, .mch, 0x58, 0x0, 1, 0x0, 1⟩]

/-- The registers of the pwr block. -/
def regPlacesPwr : List RegPlace := [
  ⟨.CLK_EPOCH, .pwr, 0x1000000, 0x0, 1, 0x0, 1⟩,
  ⟨.CLK_EPOCH_STS, .pwr, 0x1000008, 0x0, 1, 0x0, 1⟩,
  ⟨.CLK_EPOCH_CTL, .pwr, 0x1000010, 0x0, 1, 0x0, 1⟩,
  ⟨.CLK_EPOCH_RATE, .pwr, 0x1000018, 0x0, 1, 0x0, 1⟩,
  ⟨.CLK_TOD_LAST, .pwr, 0x1000020, 0x0, 1, 0x0, 1⟩,
  ⟨.CLK_CAL_CFG, .pwr, 0x1100000, 0x40, 16, 0x0, 1⟩,
  ⟨.CLK_CAL_STS, .pwr, 0x1100008, 0x40, 16, 0x0, 1⟩,
  ⟨.CLK_CAL_START, .pwr, 0x1100010, 0x40, 16, 0x0, 1⟩,
  ⟨.CLK_CAL_MISS, .pwr, 0x1100018, 0x40, 16, 0x0, 1⟩,
  ⟨.CLK_CAL_SLOT, .pwr, 0x2000000, 0x8000, 16, 0x8, 4096⟩,
  ⟨.PWR_DOM_STS, .pwr, 0x0, 0x8, 420, 0x0, 1⟩,
  ⟨.PWR_DOM_REQ, .pwr, 0x10000, 0x0, 1, 0x0, 1⟩,
  ⟨.PWR_REQ_STS, .pwr, 0x10008, 0x0, 1, 0x0, 1⟩,
  ⟨.PWR_IN, .pwr, 0x20000, 0x0, 1, 0x0, 1⟩,
  ⟨.PWR_COOLANT, .pwr, 0x20008, 0x0, 1, 0x0, 1⟩,
  ⟨.PWR_THERM, .pwr, 0x20010, 0x0, 1, 0x0, 1⟩,
  ⟨.CLK_QUAD, .pwr, 0x800000, 0x8, 64, 0x0, 1⟩,
  ⟨.SOL_STS, .pwr, 0x3000000, 0x0, 1, 0x0, 1⟩,
  ⟨.SOL_CMD, .pwr, 0x3000008, 0x0, 1, 0x0, 1⟩,
  ⟨.SOL_DOM, .pwr, 0x3001000, 0x8, 420, 0x0, 1⟩]

/-- The registers of the fbay block. -/
def regPlacesFbay : List RegPlace := [
  ⟨.FBAY_ID, .fbay, 0x0, 0x0, 1, 0x0, 1⟩,
  ⟨.FBAY_ERR, .fbay, 0x8, 0x0, 1, 0x0, 1⟩,
  ⟨.FBAY_PORT_CFG, .fbay, 0x10000, 0x100, 64, 0x0, 1⟩,
  ⟨.FBAY_PORT_CTL, .fbay, 0x10008, 0x100, 64, 0x0, 1⟩,
  ⟨.FBAY_PORT_STS, .fbay, 0x10010, 0x100, 64, 0x0, 1⟩,
  ⟨.FBAY_NODE_STS, .fbay, 0x10018, 0x100, 64, 0x0, 1⟩,
  ⟨.FBAY_PORT_IRQ, .fbay, 0x10020, 0x100, 64, 0x0, 1⟩,
  ⟨.FBAY_RAW_RX, .fbay, 0x10028, 0x100, 64, 0x0, 1⟩,
  ⟨.FBAY_RAW_TX, .fbay, 0x10030, 0x100, 64, 0x0, 1⟩,
  ⟨.FBAY_RAW_IDX, .fbay, 0x10038, 0x100, 64, 0x0, 1⟩,
  ⟨.FBAY_RAW_CTL, .fbay, 0x10040, 0x100, 64, 0x0, 1⟩,
  ⟨.FBAY_PORT_CNT, .fbay, 0x10080, 0x100, 64, 0x8, 12⟩,
  ⟨.FBAY_CTX, .fbay, 0x100000, 0x10, 8192, 0x0, 1⟩,
  ⟨.FBAY_CTX_STS, .fbay, 0x100008, 0x10, 8192, 0x0, 1⟩,
  ⟨.STOP_TIME, .fbay, 0x800000, 0x40, 4096, 0x0, 1⟩,
  ⟨.STOP_MIN, .fbay, 0x800008, 0x40, 4096, 0x0, 1⟩,
  ⟨.STOP_MAX, .fbay, 0x800010, 0x40, 4096, 0x0, 1⟩,
  ⟨.STOP_SLEW, .fbay, 0x800018, 0x40, 4096, 0x0, 1⟩,
  ⟨.STOP_SAFE, .fbay, 0x800020, 0x40, 4096, 0x0, 1⟩,
  ⟨.STOP_OUT, .fbay, 0x800028, 0x40, 4096, 0x0, 1⟩,
  ⟨.STOP_TARGET, .fbay, 0x800030, 0x40, 4096, 0x0, 1⟩,
  ⟨.STOP_STS, .fbay, 0x800038, 0x40, 4096, 0x0, 1⟩,
  ⟨.STOP_CNT, .fbay, 0x900000, 0x8, 4096, 0x0, 1⟩,
  ⟨.STOP_EVT, .fbay, 0xa00000, 0x0, 1, 0x0, 1⟩]

/-- The registers of the pst block. -/
def regPlacesPst : List RegPlace := [
  ⟨.PST_ENG_CNT, .pst, 0x0, 0x100000, 64, 0x8, 4⟩,
  ⟨.PST_REGION, .pst, 0x4000000, 0x0, 1, 0x0, 1⟩,
  ⟨.PST_CLASS, .pst, 0x4000100, 0x8, 16, 0x0, 1⟩,
  ⟨.PST_ARG, .pst, 0x4000200, 0x0, 1, 0x0, 1⟩,
  ⟨.PST_CMD, .pst, 0x4000208, 0x0, 1, 0x0, 1⟩,
  ⟨.PST_PEEK, .pst, 0x4000240, 0x8, 8, 0x0, 1⟩,
  ⟨.PST_ERR, .pst, 0x4000300, 0x0, 1, 0x0, 1⟩,
  ⟨.PST_NQ_CFG, .pst, 0x4100000, 0x20, 4096, 0x0, 1⟩,
  ⟨.PST_NQ_IDX, .pst, 0x4100008, 0x20, 4096, 0x0, 1⟩,
  ⟨.PST_NQ_IRQ, .pst, 0x4100010, 0x20, 4096, 0x0, 1⟩]

/-- The registers of the bowl block. -/
def regPlacesBowl : List RegPlace := [
  ⟨.BOWL_ENTRY, .bowl, 0x0, 0x8, 256, 0x0, 1⟩,
  ⟨.BOWL_STVEC, .bowl, 0x800, 0x0, 1, 0x0, 1⟩,
  ⟨.BOWL_CALL_LIMIT, .bowl, 0x808, 0x0, 1, 0x0, 1⟩]

/-- The registers of the host block. -/
def regPlacesHost : List RegPlace := [
  ⟨.HOST_STS, .host, 0x0, 0x0, 1, 0x0, 1⟩,
  ⟨.HOST_CTL, .host, 0x8, 0x0, 1, 0x0, 1⟩,
  ⟨.HOST_APER, .host, 0x10, 0x0, 1, 0x0, 1⟩,
  ⟨.HOST_ERR, .host, 0x18, 0x0, 1, 0x0, 1⟩,
  ⟨.HOST_ERR_HDR, .host, 0x20, 0x8, 2, 0x0, 1⟩,
  ⟨.HOST_CNT, .host, 0x100, 0x8, 8, 0x0, 1⟩]

/-- The registers of the dma block. -/
def regPlacesDma : List RegPlace := [
  ⟨.DMA_CH_CFG, .dma, 0x0, 0x40, 256, 0x0, 1⟩,
  ⟨.DMA_CH_DESC, .dma, 0x8, 0x40, 256, 0x0, 1⟩,
  ⟨.DMA_CH_CTL, .dma, 0x10, 0x40, 256, 0x0, 1⟩,
  ⟨.DMA_CH_STS, .dma, 0x18, 0x40, 256, 0x0, 1⟩,
  ⟨.DMA_CH_IRQ, .dma, 0x20, 0x40, 256, 0x0, 1⟩,
  ⟨.DMA_GRP_CTL, .dma, 0x10000, 0x8, 16, 0x0, 1⟩,
  ⟨.DMA_MGR_EVT, .dma, 0x10100, 0x8, 2, 0x0, 1⟩,
  ⟨.SLCE_BIND, .dma, 0x800000, 0x40, 4096, 0x0, 1⟩,
  ⟨.SLCE_PT, .dma, 0x800008, 0x40, 4096, 0x0, 1⟩,
  ⟨.SLCE_CTL, .dma, 0x800010, 0x40, 4096, 0x0, 1⟩,
  ⟨.SLCE_STS, .dma, 0x800018, 0x40, 4096, 0x0, 1⟩,
  ⟨.SLCE_WIN, .dma, 0x800020, 0x40, 4096, 0x0, 1⟩,
  ⟨.SLCE_POST, .dma, 0x800028, 0x40, 4096, 0x0, 1⟩]

/-- The registers of the page block. -/
def regPlacesPage : List RegPlace := [
  ⟨.SLCE_SQ_BASE, .page, 0x0, 0x40, 4, 0x0, 1⟩,
  ⟨.SLCE_CQ_BASE, .page, 0x8, 0x40, 4, 0x0, 1⟩,
  ⟨.SLCE_QP_CFG, .page, 0x10, 0x40, 4, 0x0, 1⟩,
  ⟨.SLCE_SQ_TAIL, .page, 0x18, 0x40, 4, 0x0, 1⟩,
  ⟨.SLCE_CQ_HEAD, .page, 0x20, 0x40, 4, 0x0, 1⟩,
  ⟨.SLCE_QP_STS, .page, 0x28, 0x40, 4, 0x0, 1⟩,
  ⟨.SLCE_QP_CTL, .page, 0x30, 0x40, 4, 0x0, 1⟩]

/-- The registers of the haws block. -/
def regPlacesHaws : List RegPlace := [
  ⟨.HAWS_STS, .haws, 0x0, 0x0, 1, 0x0, 1⟩,
  ⟨.HAWS_PEER_ID, .haws, 0x8, 0x0, 1, 0x0, 1⟩,
  ⟨.HAWS_WIN_COMMIT, .haws, 0x10, 0x0, 1, 0x0, 1⟩,
  ⟨.HAWS_TIME, .haws, 0x18, 0x0, 1, 0x0, 1⟩,
  ⟨.HAWS_CNT, .haws, 0x40, 0x8, 8, 0x0, 1⟩,
  ⟨.HAWS_WIN_LOC, .haws, 0x100, 0x20, 16, 0x0, 1⟩,
  ⟨.HAWS_WIN_PEER, .haws, 0x108, 0x20, 16, 0x0, 1⟩,
  ⟨.HAWS_WIN_ACT, .haws, 0x110, 0x20, 16, 0x0, 1⟩,
  ⟨.HAWS_PEER_WIN, .haws, 0x400, 0x8, 16, 0x0, 1⟩]

/-- The registers of the vig block. -/
def regPlacesVig : List RegPlace := [
  ⟨.VIG_CMD, .vig, 0x0, 0x0, 1, 0x0, 1⟩,
  ⟨.VIG_STS, .vig, 0x8, 0x0, 1, 0x0, 1⟩,
  ⟨.VIG_MASK_QUAD, .vig, 0x10, 0x0, 1, 0x0, 1⟩,
  ⟨.VIG_MASK_SLICE, .vig, 0x18, 0x0, 1, 0x0, 1⟩,
  ⟨.VIG_MASK_IO, .vig, 0x20, 0x0, 1, 0x0, 1⟩,
  ⟨.VIG_PASS_QUAD, .vig, 0x30, 0x0, 1, 0x0, 1⟩,
  ⟨.VIG_PASS_SLICE, .vig, 0x38, 0x0, 1, 0x0, 1⟩,
  ⟨.VIG_PASS_IO, .vig, 0x40, 0x0, 1, 0x0, 1⟩,
  ⟨.VIG_FENCE_QUAD, .vig, 0x50, 0x0, 1, 0x0, 1⟩,
  ⟨.VIG_FENCE_BAY, .vig, 0x58, 0x0, 1, 0x0, 1⟩,
  ⟨.VIG_SIG, .vig, 0x1000, 0x8, 152, 0x0, 1⟩,
  ⟨.VIG_EXP, .vig, 0x2000, 0x8, 152, 0x0, 1⟩]

/-- The registers of the alm block. -/
def regPlacesAlm : List RegPlace := [
  ⟨.ALM_STS, .alm, 0x0, 0x0, 1, 0x0, 1⟩,
  ⟨.ALM_SEEK, .alm, 0x8, 0x0, 1, 0x0, 1⟩,
  ⟨.ALM_DROP, .alm, 0x10, 0x8, 7, 0x0, 1⟩,
  ⟨.ALM_MIRROR, .alm, 0x50, 0x0, 1, 0x0, 1⟩,
  ⟨.ALM_MPAGE, .alm, 0x58, 0x0, 1, 0x0, 1⟩]

/-- The registers of a block. -/
def regPlaces : Blk → List RegPlace
  | .rig => regPlacesRig
  | .core => regPlacesCore
  | .quad => regPlacesQuad
  | .slc => regPlacesSlc
  | .mesh => regPlacesMesh
  | .mch => regPlacesMch
  | .pwr => regPlacesPwr
  | .fbay => regPlacesFbay
  | .pst => regPlacesPst
  | .bowl => regPlacesBowl
  | .host => regPlacesHost
  | .dma => regPlacesDma
  | .page => regPlacesPage
  | .haws => regPlacesHaws
  | .vig => regPlacesVig
  | .alm => regPlacesAlm

end Sys2Proof.Machine
end

