-- ==== Sys2Proof/Config.lean ====
section
/-! DEFINITION. What one G9 module fixes outside its State: the values that the spec leaves open (free values, no
body, so that no proof can see what they are) and the constants fused into the part. -/

namespace Sys2Proof

/-- FREE VALUE (log 2): the n-th choice that the spec leaves between two outcomes (R12); `n` is `State.free`. -/
opaque Config.freeBool : Nat → Bool

/-- FREE VALUE (log 2): the n-th 64-bit value that the spec leaves open (R12); `n` is `State.free`. -/
opaque Config.freeWord : Nat → Word

/-- FREE VALUE (log 20): whether tininess is detected after rounding (true) or before it; R99 names IEEE 754,
which leaves it to the implementation. -/
opaque Config.tinyAfterRounding : Bool

/-- FREE VALUE (log 20): whether FMIN/FMAX of a NaN and a number gives the number (true) or the quiet NaN. -/
opaque Config.minMaxNumber : Word → Word → Bool

/-- FREE VALUE (log 20): whether FMIN/FMAX orders −0 below +0 for these two zeros (true) or answers its first
operand. -/
opaque Config.minMaxZeroOrdered : Word → Word → Bool

/-- FREE VALUE (log 20): whether FLT and FLE set NV for a quiet NaN operand. -/
opaque Config.orderedQuietInvalid : Bool

/-- FREE VALUE (log 20): whether a fused multiply-add of 0 × ∞ with a quiet NaN addend sets NV. -/
opaque Config.fmaZeroInfQuietInvalid : Bool

/-- OFFSET of a failure located in a knot of this number that holds no one field found wrong: R488 gives no value (log 65). -/
opaque Config.rigOffset : Nat → Nat

/-- Which knot of a partial image locates a failure that no knot of the image takes part in: R488 gives none (log 65). -/
opaque Config.rigKnot : Nat

/-- FUSED (R46): the grade; false is KG9-M256-S, true is KG9-M256-H. -/
opaque Config.gradeH : Bool

/-- FUSED (R304): the first of the module's 512 MAC addresses. -/
opaque Config.macBase : BitVec 48

/-- FUSED (R382): DEVICE_DIGEST, its first byte the most significant. -/
opaque Config.deviceDigest : BitVec 384

/-- FUSED (R471): the expected Vigil signature of a target in a mode (1 LOGIC, 2 MEMORY, 3 BOTH). -/
opaque Config.vigilExp : Nat → Nat → Word

/-- FIXED PART (R398): the bytes of the host boot driver's image that the spec does not state, and the image's size in
units of 512 bytes, less one. -/
opaque Config.romByte : Nat → Byte

/-- FIXED PART (R398): see `romByte`. -/
opaque Config.romSize : BitVec 10

/-- FREE VALUE (log 2): the byte of the ROM window at an offset past the end of the manifest. -/
opaque Config.romTail : Nat → Byte

/-- FIXED PART (R456): the records of the PLDM PDR repository, by record handle. -/
opaque Config.pdr : Nat → List Byte

/-- FIXED PART (R369, R389): the bytes of the Bowline boot ROM. -/
opaque Config.bootRom : List Byte

/-- FIXED PART (R369, R467): the firmware that a bank holds until one is installed in it. -/
opaque Config.fwFactory : Nat → List Byte

/-- FREE VALUE (log 115): where in a bank's bytes the Bowline image (0) and the Cordage image (1) lie, as the bytes taken. -/
opaque Config.fwPart : Nat → List Byte → List Byte

/-- FREE VALUE (log 115): the bytes whose SHA-384 is the measurement of an index (R389), from the values that Table 15-10 names. -/
opaque Config.measBytes : Nat → List Byte → List Byte

/-- FREE VALUE (log 116): the DMTF value type that SPDM reports for a measurement index. -/
opaque Config.measType : Nat → Byte

/-- FUSED (R41): the answer of the TAP to IDCODE. -/
opaque Config.idcode : BitVec 32

end Sys2Proof
end

