-- ==== Sys2Proof/Machine/SMap.lean ====
section
/-! DEFINITION. Sparse data by key: a list of (key, value) pairs with strictly rising keys and no entry equal to what
an unlisted key reads as, so that equal contents are equal lists. -/

namespace Sys2Proof.Machine

/-- A sparse table from Nat keys: memory, register files, per-unit records. -/
abbrev SMap (α : Type) := List (Nat × α)

/-- The value at key `k`; an unlisted key reads as `d k`. -/
def SMap.get {α : Type} (d : Nat → α) (m : SMap α) (k : Nat) : α :=
  match m with
  | [] => d k
  | (j, v) :: r => if j = k then v else SMap.get d r k

/-- The table without key `k`. -/
def SMap.drop {α : Type} (m : SMap α) (k : Nat) : SMap α :=
  match m with
  | [] => []
  | (j, v) :: r => if j = k then SMap.drop r k else (j, v) :: SMap.drop r k

/-- The table with an entry put before the first greater key. -/
def SMap.put {α : Type} (m : SMap α) (k : Nat) (v : α) : SMap α :=
  match m with
  | [] => [(k, v)]
  | (j, w) :: r => if k < j then (k, v) :: (j, w) :: r else (j, w) :: SMap.put r k v

/-- Writes `v` at key `k`, keeping the canonical form: writing what an unlisted key reads as removes the entry. -/
def SMap.set {α : Type} [DecidableEq α] (d : Nat → α) (m : SMap α) (k : Nat) (v : α) : SMap α :=
  if v = d k then SMap.drop m k else SMap.put (SMap.drop m k) k v

/-- Every key listed lies above `b`. -/
def SMap.above {α : Type} (b : Nat) (m : SMap α) : Bool := m.all (fun e => decide (b < e.1))

/-- The canonical form: keys strictly rising, no entry equal to its unlisted reading. -/
def SMap.wf {α : Type} [DecidableEq α] (d : Nat → α) (m : SMap α) : Bool :=
  match m with
  | [] => true
  | (j, v) :: r => decide (v ≠ d j) && SMap.above j r && SMap.wf d r

/-- The listed keys, rising. -/
def SMap.keys {α : Type} (m : SMap α) : List Nat := m.map Prod.fst

end Sys2Proof.Machine
end

