-- ==== Sys2Proof/Machine/State.lean ====
section
/-! DEFINITION. The state of the G9: every register, buffer, queue, counter, mode and pin that the spec gives the
module, as plain data, and its value at reset. INVENTORY.md lists each with the rule that names it. -/

namespace Sys2Proof.Machine

/-! ## Rigging: the structure that a verified image sets (ch. 3) -/

/-- PARTITION knot (Table 3-4). -/
structure PartKnot where
  quads : Word := 0
  slices : Word := 0
  credits : Nat := 0
  isolated : Bool := false
  autorun : Bool := false
  selfParkOnly : Bool := false
  secureEntry : Bool := false
  bootPc : Word := 0
  deriving DecidableEq, Repr, Inhabited

/-- ROUTE record (Table 3-5). -/
structure RouteRec where
  x : Nat
  y : Nat
  index : Nat
  entry : Word
  deriving DecidableEq, Repr, Inhabited

/-- Calendar slot actions (R73). -/
inductive SlotAct where
  | release | start | exchange | deadline
  deriving DecidableEq, Repr, Inhabited

/-- One slot of a CALENDAR knot. -/
structure Slot where
  offset : Nat
  act : SlotAct
  target : Nat
  deriving DecidableEq, Repr, Inhabited

/-- CALENDAR knot, its APPEND knots joined (R73, R486). -/
structure Cal where
  cycle : Nat
  phase : Nat
  slots : List Slot
  deriving DecidableEq, Repr, Inhabited

/-- FIELD_PORT record (Table 3-7). -/
structure PortRec where
  port : Nat
  raw : Bool
  nodes : Nat
  ethertype : Nat
  multiple : Nat
  deriving DecidableEq, Repr, Inhabited

/-- EXCHANGE record (Table 3-8). -/
structure ExchRec where
  ctx : Nat
  port : Nat
  node : Nat
  output : Bool
  word : Nat
  point : Nat
  guard : Nat
  count : Nat
  deriving DecidableEq, Repr, Inhabited

/-- GUARD record (Table 3-9). -/
structure GuardRec where
  output : Nat
  float : Bool
  stale : Nat
  min : Word
  max : Word
  slew : Word
  safe : Word
  ramp : Nat
  deriving DecidableEq, Repr, Inhabited

/-- Per-partition POINT_REGION record (Table 3-10). -/
structure PointRange where
  first : Nat
  count : Nat
  cls : Nat
  read : Bool
  write : Bool
  sub : Bool
  deriving DecidableEq, Repr, Inhabited

/-- SLICE_RANGE record (Table 3-11). -/
structure SliceRange where
  first : Nat
  count : Nat
  ports : Nat
  qpairs : Nat
  priority : Nat
  ptFirst : Nat
  ptCount : Nat
  deriving DecidableEq, Repr, Inhabited

/-- The per-partition knots in force for one partition (Table 3-3). -/
structure PartKnots where
  part : PartKnot := {}
  routes : List RouteRec := []
  colourMask : Nat := 0
  ranges : List (Nat × Nat) := []
  cal : Option Cal := none
  ports : List PortRec := []
  exch : List ExchRec := []
  guards : List GuardRec := []
  points : List PointRange := []
  slices : List SliceRange := []
  lax : Bool := false
  deriving DecidableEq, Repr, Inhabited

/-- A splice default or owner kind (Table 3-14). -/
inductive OwnerKind where
  | unowned | partition | cordage | secure | slice
  deriving DecidableEq, Repr, Inhabited

/-- SPLICE_DEFAULTS record (Table 3-14). -/
structure SpliceRec where
  kind : Nat
  index : Nat
  owner : OwnerKind
  ownerNo : Nat
  timeout : Nat
  deriving DecidableEq, Repr, Inhabited

/-- HAWSER record of one port (Table 3-14). -/
structure HawsKnot where
  role : Nat := 0
  acceptTallies : Bool := false
  epochSource : Bool := false
  mirror : Bool := false
  peerId : Word := 0
  deriving DecidableEq, Repr, Inhabited

/-- The device-wide knots in force, each at its absent default where the image carries none (Table 3-3). -/
structure DevKnots where
  routes : List RouteRec := []
  secWm : Nat := 0x100000000
  colours : Nat := 0
  ptBase : Nat := 0x3FC0000000
  ptSize : Nat := 0x40000000
  /-- CLOCK: per quad (STEPS, INITIAL); empty: every step allowed, initial ÷2. -/
  clock : List (Nat × Nat) := []
  /-- POWER: policies by domain; empty: every domain SOFTWARE. -/
  power : List Nat := []
  cap : Nat := 800
  patternAllowed : Bool := true
  splitAllowed : Bool := false
  scrub : Nat := 1440
  /-- ERROR_POLICY bucket records: (source class, depth, leak ms). -/
  buckets : List (Nat × Nat × Nat) := []
  hawser : List HawsKnot := []
  splice : List SpliceRec := []
  mirrorSev : Nat := 4
  trace : Bool := false
  clampRate : Nat := 1
  ageInterval : Nat := 182
  ageBand : Nat := 40
  ageOverride : List (Nat × Nat) := []
  deriving DecidableEq, Repr, Inhabited

/-- The structure in force: R81 for a rigged start-up, R82 for an unrigged one. -/
structure Rig where
  unrigged : Bool := true
  imageId : Word := 0
  /-- BODY_DIGEST of the running full image (R389); empty when unrigged. -/
  bodyDigest : List Byte := []
  dev : DevKnots := {}
  /-- Partitions by number; an unlisted one is ABSENT. -/
  parts : SMap (Option PartKnots) := []
  /-- The shared-pool home set (R237), fixed until the next full rigging. -/
  pool : Word := 0xFFFFFFFFFFFFFFFF#64
  deriving DecidableEq, Repr, Inhabited

/-- Partition states (Table 3-16a). -/
inductive PState where
  | absent | rigged | running | parked | faulted
  deriving DecidableEq, Repr, Inhabited

/-- What a partition is doing beyond its state: a PARK that waits for its cycle end or drains (R84), and a re-rig
(R87). -/
inductive ParkPhase where
  | none | waiting | draining
  deriving DecidableEq, Repr, Inhabited

/-- The run state of one partition (R83–R90, R291–R297). -/
structure PartRun where
  st : PState := .absent
  park : ParkPhase := .none
  rewiring : Bool := false
  partialId : Nat := 0
  /-- BODY_DIGEST of the last partial image (R389); empty for none. -/
  partialDigest : List Byte := []
  rewires : Nat := 0
  /-- LAX taken when the partition last entered RUNNING from RIGGED (R163). -/
  laxInForce : Bool := false
  /-- The calendar is running (R291). -/
  calRunning : Bool := false
  /-- The epoch tick at which the partition entered RUNNING (R291). -/
  runAt : Nat := 0
  /-- The epoch value from which slots act after a start or an epoch step (R287, R291). -/
  calFrom : Nat := 0
  /-- For each slot index: one more than the scheduled epoch of its last action; 0 when it has not acted. -/
  slotLast : SMap Nat := []
  /-- Slots that have acted in this EPOCHCLK cycle (R289). -/
  acted : Nat := 0
  /-- The cycle start at which a waiting PARK stops the calendar (R84, R291). -/
  parkAt : Nat := 0
  /-- The epoch at which a drain began (R84). -/
  drainAt : Nat := 0
  /-- The calendar before the last partial re-rig, whose EXCHANGE slots act until `gridFrom` (R292). -/
  oldCal : Option Cal := none
  gridFrom : Nat := 0
  deriving DecidableEq, Repr, Inhabited

/-! ## Threads, cores and quads (ch. 4–7) -/

/-- The two worlds. -/
inductive World where
  | normal | secure
  deriving DecidableEq, Repr, Inhabited

/-- Privilege levels (R92). -/
inductive Level where
  | U | S | M
  deriving DecidableEq, Repr, Inhabited

/-- One bank of level control registers (Table 4-1, 0x100–0x111; the M bank has no PTBASE and ASID). -/
structure CrBank where
  status : Word := 0
  tvec : Word := 0
  epc : Word := 0
  cause : Word := 0
  tval : Word := 0
  etgt : Word := 0
  scratch : Word := 0
  ie : Word := 0
  /-- Bit 1 is the software interrupt; bits 2 and 3 are read from their sources (R490). -/
  ip : Word := 0
  ecmp : Word := 0xFFFFFFFFFFFFFFFF#64
  ptbase : Word := 0
  asid : Word := 0
  deriving DecidableEq, Repr, Inhabited

/-- Where the next instruction stands relative to a control transfer (R100). -/
inductive SlotSt where
  /-- No delay slot. -/
  | none
  /-- The delay slot of a conditional branch not taken with A = 0: execution goes on at transfer + 8. -/
  | notTaken
  /-- The delay slot of a taken transfer with this target. -/
  | taken (target : Word)
  deriving DecidableEq, Repr, Inhabited

/-- CORE_THSTS.STATE. -/
inductive RunSt where
  | held | run | waitslot | wfi | halted
  deriving DecidableEq, Repr, Inhabited

/-- What a thread's oldest instruction waits for. -/
inductive Wait where
  /-- A line on its way to the side buffer (R207); the instruction restarts. -/
  | fill (i : Instr) (line : Nat)
  /-- Ownership of a line for an atomic, LL or SC. -/
  | own (i : Instr) (line : Nat)
  /-- The store buffer must drain first (R114, R187, R209, R211). -/
  | drain (i : Instr)
  /-- A register read; the word lands in gd (R59); with the instruction word for its traps. -/
  | regRead (gd : Nat) (iw : Word)
  /-- A register write's acknowledgement (R59). -/
  | regWrite
  /-- A Point Store result (R119); gd2 is set for PSRD MODE 1. -/
  | point (gd : Nat) (mode1 : Bool)
  /-- A non-cacheable load answered by DATA_ONCE (R251): gd, address, size, signed, with the virtual address and the
  instruction word for its traps. -/
  | once (gd : Nat) (pa : Nat) (size : Nat) (signed : Bool) (va iw : Word)
  /-- A non-cacheable store, CACHEOP or flush answered by WR_ACK. -/
  | wrAck (line : Nat)
  /-- A read or write of a Hawser aperture (ch. 18): gd, address, size, signed, and as for a non-cacheable load. -/
  | hawser (gd : Nat) (pa : Nat) (size : Nat) (signed : Bool) (va iw : Word)
  /-- GUARD.TIGHTEN at the stopper (R123). -/
  | guard (gd : Nat)
  /-- Parked in WAITSLOT: the release writes its time to gd (R124, R293). -/
  | slot (gd : Nat)
  /-- What it waited for is there: the instruction runs again in this step. -/
  | again
  deriving DecidableEq, Repr, Inhabited

/-- One line held in a cache. `wr` is L1D write permission; `inArr` says that an L2 line stands in the data array
(R182); `age` is the replacement field of its level; `err` lists words whose stored code is wrong (1 correctable, 2 not)
and `tagErr` counts bad tag copies (R212): no command sets them, an upset of the array does. -/
structure CLine where
  data : Line := Line.zero
  dirty : Bool := false
  wr : Bool := false
  inArr : Bool := true
  way : Nat := 0
  age : Nat := 0
  err : SMap Nat := []
  tagErr : Nat := 0
  deriving DecidableEq, Repr, Inhabited

/-- One line of L0 with its line address. -/
structure L0Line where
  line : Nat
  data : Line
  age : Nat
  parityErr : Bool := false
  deriving DecidableEq, Repr, Inhabited

/-- One side-buffer entry (R203); filled entries stand in the order of their fills. An entry is held while its fill is in
flight: a load reads and commits in one step (log 9). -/
structure SideEntry where
  line : Nat
  filled : Bool
  stride : Bool
  /-- Asked for by wrong-path or run-ahead work (R185). -/
  spec : Bool := false
  /-- Invalidated while its fill was in flight (R205). -/
  dead : Bool := false
  data : Line := Line.zero
  parityErr : Bool := false
  deriving DecidableEq, Repr, Inhabited

/-- One retired store waiting to drain (R153, R209): word address, byte mask, and the stored bytes zero-extended, with the
tally of that value. -/
structure StoreEnt where
  word : Nat
  mask : Nat
  val : TWord
  full : Bool
  /-- A lane of a VST (R186). -/
  vec : Bool := false
  /-- The entry of a store-release (R114). -/
  rel : Bool := false
  deriving DecidableEq, Repr, Inhabited

/-- A cached translation (R111). -/
structure TlbEnt where
  world : World
  /-- The root table that the walk began from (R111). -/
  root : Nat
  asid : Nat
  global : Bool
  vpn : Nat
  level : Nat
  pte : Word
  deriving DecidableEq, Repr, Inhabited

/-- One stream of the stride prefetcher (R208). -/
structure Stride where
  pc : Word
  last : Nat
  step : Int
  count : Nat
  deriving DecidableEq, Repr, Inhabited

/-- One hardware thread (R92) with the buffers private to it. -/
structure Thread where
  pc : Word := 0
  /-- g1–g63; an unlisted register is zero with tally 0 (R492). -/
  g : SMap TWord := []
  /-- Lane i of vector register r at key 4r + i. -/
  v : SMap TWord := []
  flags : Word := 0
  sN : CrBank := {}
  sS : CrBank := {}
  m : CrBank := {}
  wEpc : Word := 0
  wStatus : Word := 0
  wEntry : Word := 0
  xroute : Word := 0
  iroute : Word := 0
  level : Level := .M
  world : World := .normal
  run : RunSt := .held
  /-- The epoch at which the thread last came to stand in WFI, WAITSLOT, HELD or HALTED (R448). -/
  stoodAt : Nat := 0
  slot : SlotSt := .none
  /-- The thread's oldest instruction waits for this. -/
  wait : Option Wait := none
  /-- Pending-release latch (R124) and the scheduled time it holds. -/
  latch : Option Word := none
  /-- Completion flag (R294–R296). -/
  complete : Bool := true
  /-- Pending asynchronous cause 0x06 with its slot index (R297). -/
  pend06 : Option Nat := none
  /-- LL reservation: the reserved line (R116). -/
  resv : Option Nat := none
  stores : List StoreEnt := []
  side : List SideEntry := []
  /-- L0 lines by line number 0–47 (R196). -/
  l0 : SMap (Option L0Line) := []
  /-- Boot-mode replacement: the three group trees (15 bits each) and the group order, least recent first (R206). -/
  l0Tree : List Nat := [0, 0, 0]
  l0Order : List Nat := [0, 1, 2]
  /-- Last line filled, step and run length, for the streaming rule of R206. -/
  l0Run : Option (Nat × Int × Nat) := none
  tlb : List TlbEnt := []
  /-- Return stack, top first, at most 32 (R177). -/
  rstack : List Word := []
  /-- The loop buffer is streaming (R172). -/
  loop : Bool := false
  /-- The loop's closing branch and the times it was taken in a row (R172). -/
  loopCand : Option (Word × Nat) := none
  /-- µops committed since the last backward taken transfer, and whether the path held an instruction that R172
  excludes. -/
  loopUops : Nat := 0
  loopBad : Bool := false
  /-- Directions of the conditional branches on the path, and those captured (R172, R173). -/
  loopPath : List (Word × Bool) := []
  loopDirs : List (Word × Bool) := []
  strides : List Stride := []
  /-- In run-ahead (R184). -/
  runAhead : Bool := false
  /-- A MISS_NOTE arrived for the waiting load (R184). -/
  missNoted : Bool := false
  /-- Counter events that count when the waiting instruction commits (R195). -/
  owed : List Nat := []
  /-- The epoch at which the running secure call was entered (R366). -/
  callStart : Option Nat := none
  deriving DecidableEq, Repr, Inhabited

/-- A direction entry (R175). -/
structure DirPred where
  ctr : Nat
  writer : Nat
  k : Bool
  deriving DecidableEq, Repr, Inhabited

/-- A BTB entry (R177). -/
structure BtbEnt where
  tag : Nat
  target : Word
  writer : Nat
  key : Nat
  deriving DecidableEq, Repr, Inhabited

/-- A key-table entry (R179). -/
structure KeyEnt where
  thread : Nat
  world : World
  ctxid : Nat
  key : Nat
  deriving DecidableEq, Repr, Inhabited

/-- What one core holds beyond its threads and registers. -/
structure Core where
  l1d : SMap (Option CLine) := []
  /-- L1D replacement per set: group order and the three trees (Table 7-1). -/
  l1dRepl : SMap (List Nat) := []
  l1i : SMap (Option CLine) := []
  l1iRepl : SMap Nat := []
  dirPred : SMap (Option DirPred) := []
  /-- BTB ways by set, most recently written first. -/
  btb : SMap (List BtbEnt) := []
  keys : List KeyEnt := []
  waitTable : SMap Bool := []
  /-- The core is clock- and power-gated under IDLE_GATE (R448). -/
  gated : Bool := false
  deriving DecidableEq, Repr, Inhabited

/-- L2 line states (R235, Table 9-1). -/
inductive LSt where
  | M | E | S | I | IS | IM | SM | MI | EI | SI
  deriving DecidableEq, Repr, Inhabited

/-- A miss-tracking entry (R253): a request outstanding or a writeback buffer line. -/
structure Track where
  st : LSt
  data : Line := Line.zero
  deriving DecidableEq, Repr, Inhabited

/-- The L2 of one quad, also used for I/O agent 7, which follows every rule of an L2 (R235). -/
structure QuadSt where
  /-- Lines held with their stable state; a line in SM keeps its S copy here. -/
  l2 : SMap (Option (LSt × CLine)) := []
  track : SMap (Option Track) := []
  /-- Leaky buckets: core caches and L2 (R213), and the epochs of their last leaks. -/
  bucketCore : Nat := 0
  bucketL2 : Nat := 0
  leakCore : Nat := 0
  leakL2 : Nat := 0
  /-- Lines that CACHEOP 9 and 10 asked for: with the core whose L1D takes the line, or none for the L2 alone. -/
  pref : List (Nat × Option Nat) := []
  deriving DecidableEq, Repr, Inhabited

/-! ## Mesh and coherence (ch. 8, 9) -/

/-- The credit sets of R224. -/
inductive CreditSet where
  | none | general | quad | slice | snoop
  deriving DecidableEq, Repr, Inhabited

/-- A packet as the mesh carries it (R215, R221, R225). -/
structure Pkt where
  /-- The header of its first flit (Table 8-1). -/
  hdr : Word := 0
  /-- Its place in the order of sending (R227). -/
  seq : Nat := 0
  /-- False while it waits at its source for end-to-end credits. -/
  sent : Bool := true
  /-- The set that its credits came from, and its flits. -/
  set : CreditSet := .none
  flits : Nat := 1
  /-- The tiles whose routers it passes. -/
  path : List Nat := []
  deriving DecidableEq, Repr, Inhabited

/-- A coherence message in flight, between a holder and the home of its line, or a home and a memory controller
(Table 9-2). -/
structure Msg where
  op : BitVec 6
  /-- The holder or requester: quad 0–63 or 64 + I/O agent. For a core's own non-caching request, its quad. -/
  holder : Nat
  line : Nat
  /-- Its payload; unused word positions carry tally 0xFF (Table 5-2). -/
  data : Line := Line.unused
  /-- Byte mask of WR_PARTIAL. -/
  mask : Word := 0
  spec : Bool := false
  part : Nat := 0
  sec : Bool := false
  /-- The thread of a core's own request (RD_ONCE, WR_PARTIAL, FLUSH_LINE), else none. -/
  thread : Option Nat := none
  /-- Words found uncorrectable (the _UE forms). -/
  ue : Bool := false
  /-- MEMBER of I/O agent 7 (Table 8-1). -/
  member : Nat := 0
  pkt : Pkt := {}
  deriving DecidableEq, Repr, Inhabited

/-- Phases of a home transaction; `rebuild` is that of an uncorrectable directory entry (R255). -/
inductive TPhase where
  | snoop | mem | grant | flush | backInv | rebuild
  deriving DecidableEq, Repr, Inhabited

/-- A transaction table entry (R241). -/
structure Txn where
  req : Msg
  phase : TPhase
  /-- Holders whose snoop response is awaited. -/
  await : List Nat := []
  /-- Dirty or evicting data collected from responses. -/
  data : Option Line := none
  dataDirty : Bool := false
  ue : Bool := false
  /-- The directory listed another holder when the request was accepted (Table 9-4). -/
  listed : Bool := false
  /-- The epoch of its acceptance (R256). -/
  since : Nat := 0
  deriving DecidableEq, Repr, Inhabited

/-- A directory entry: X or S, and the 72 holder bits (Table 9-3). `err` is 1 for a correctable and 2 for an
uncorrectable stored entry, 3 for STATE = 3. -/
structure DirEnt where
  x : Bool
  holders : BitVec 72
  way : Nat
  err : Nat := 0
  deriving DecidableEq, Repr, Inhabited

/-- One LLC slice with its directory slice and transaction table. -/
structure SliceSt where
  llc : SMap (Option CLine) := []
  dir : SMap (Option DirEnt) := []
  txns : List Txn := []
  /-- Requests not yet accepted, in arrival order (R241). -/
  waitq : List Msg := []
  ptr : Nat := 0
  bucket : Nat := 0
  /-- The epoch of its bucket's last leak (R213). -/
  leak : Nat := 0
  deriving DecidableEq, Repr, Inhabited

/-- End-to-end credits of one source stop for one destination stop: those spent, and those freed at the destination
and not yet returned (R224–R226). -/
structure Credit where
  general : Nat := 0
  quadRes : Nat := 0
  sliceRes : Nat := 0
  snoop : Nat := 0
  freedGeneral : Nat := 0
  freedQuad : Nat := 0
  freedSlice : Nat := 0
  freedSnoop : Nat := 0
  deriving DecidableEq, Repr, Inhabited

/-- A register access in flight or its answer (R59). -/
structure RegMsg where
  thread : Nat
  addr : Nat
  write : Bool
  answer : Bool
  word : TWord := ⟨0, 0⟩
  pkt : Pkt := {}
  deriving DecidableEq, Repr, Inhabited

/-- Kinds of Point Store operation. -/
inductive PsKind where
  | read | write | cw | sub
  deriving DecidableEq, Repr, Inhabited

/-- Outcome of a Point Store operation on its way back. -/
inductive PsResult where
  | ok (val : TWord) (extra : Option TWord)
  | denied
  | shadow
  deriving DecidableEq, Repr, Inhabited

/-- A Point Store operation in flight from a thread, or its response (R119, R347). -/
structure PsMsg where
  thread : Nat
  kind : PsKind
  point : Nat
  mode1 : Bool := false
  b : TWord := ⟨0, 0⟩
  c : TWord := ⟨0, 0⟩
  unsub : Bool := false
  /-- The instruction word, for its trap value. -/
  iw : Word := 0
  answer : Option PsResult := none
  pkt : Pkt := {}
  deriving DecidableEq, Repr, Inhabited

/-- A GUARD.TIGHTEN request in flight to its stopper (R335). -/
structure TightenMsg where
  thread : Nat
  output : Nat
  fn : Nat
  val : Word
  word : Word
  pkt : Pkt := {}
  deriving DecidableEq, Repr, Inhabited

/-! ## Memory channels (ch. 10) -/

/-- A page-code repair transfer kind (Table 10-4). -/
inductive PcKind where
  | note | gather | data | write | repair | release
  deriving DecidableEq, Repr, Inhabited

/-- A PC_REPAIR or PC_ACK transfer in flight. -/
structure PcMsg where
  kind : PcKind
  ack : Bool := false
  page : Nat
  /-- The channel it goes to and the channel it comes from. -/
  dst : Nat
  src : Nat
  line : Nat := 0
  hold : Bool := false
  fail : Bool := false
  flags : Nat := 0
  data : Line := Line.unused
  /-- Payload word 0 of its second flit (Table 10-4). -/
  word : Word := 0
  pkt : Pkt := {}
  deriving DecidableEq, Repr, Inhabited

/-- A repair or rebuild that a page master runs (R268, R271). -/
structure PcJob where
  page : Nat
  repair : Bool
  requesters : List Nat
  got : List (Nat × Nat × Nat × Line)
  acksLeft : Nat := 0
  /-- A NOTE for the page arrived after its GATHER was sent (R268). -/
  noted : Bool := false
  deriving DecidableEq, Repr, Inhabited

/-- One memory channel beyond its registers. -/
structure ChanSt where
  /-- Pair-buffer lines with their data, oldest first, at most 64 (R259). -/
  pairBuf : List (Nat × Line) := []
  /-- Note filter: pages with the epochs of their entry, oldest first, at most 256 (R267). -/
  noteFilter : List (Nat × Nat) := []
  /-- Rebuild queue: pages with the epochs from which they are rebuilt, at most 1,024 (R267, R268). -/
  rebuildQ : List (Nat × Nat) := []
  jobs : List PcJob := []
  /-- Repairs waiting for one of the four running slots (R271). -/
  repairQ : List (Nat × Nat) := []
  /-- Pages whose writes are held (R271). -/
  holdPages : List Nat := []
  heldWrites : List Msg := []
  /-- Requests held by the calibration window (R279). -/
  calHeld : List Msg := []
  /-- Split operations held by the calibration window. -/
  calSplit : List (Requester × Word) := []
  inCal : Bool := false
  calStart : Nat := 0
  /-- Reads that wait for a repair. -/
  repairReads : List Msg := []
  /-- Journal slots: (page, its 256 check bytes as 32 words) (R268). -/
  journal : List (Nat × List Word) := []
  bucket : Nat := 0
  /-- The epoch of its bucket's last leak (R276). -/
  leak : Nat := 0
  splitLock : Bool := false
  /-- Rows redirected to spare rows (bank, row), the spare rows used, and DEGRADED, which lasts until the module is replaced
  (R273). -/
  spared : List (Nat × Nat) := []
  spares : Nat := 0
  degraded : Bool := false
  /-- Rows with a line that was written after a repair and read again (R273). -/
  reread : List (Nat × Nat) := []
  patternRunning : Bool := false
  deriving DecidableEq, Repr, Inhabited

/-! ## Almanac (ch. 21) -/

/-- One record of the ring (Table 21-1); the CRC is computed when a slot is read (R474). `due` records wait for the
mirror (R481). -/
structure AlmRec where
  epoch : Word
  seq : Nat
  code : Nat
  sev : Nat
  afterDrop : Bool
  trip : Bool
  start : Bool
  cls : Nat
  src : Nat
  p0 : Nat
  p1 : Nat
  p2 : Nat
  /-- It waits for the mirror (R481); it has been mirrored. -/
  due : Bool
  mirrored : Bool := false
  deriving DecidableEq, Repr, Inhabited

/-- Almanac beyond its registers (R475–R483). -/
structure Alm where
  /-- The ring's slots; an unlisted slot holds no record. -/
  ring : SMap (Option AlmRec) := []
  /-- The SEQ the next accepted record takes. -/
  nextSeq : Nat := 0
  newestSlot : Nat := 0
  /-- A record of severity n was dropped since the last accepted one (bit n). -/
  dropped : Nat := 0
  /-- The next record is the first of a start-up. -/
  startNext : Bool := false
  /-- Flash: the mirror's records by mirror slot. -/
  mirror : SMap (Option AlmRec) := []
  /-- Flash: next mirror slot to write, retired blocks, whether mirroring stopped, whether it holds any record. -/
  mNext : Nat := 0
  mRetired : List Nat := []
  mStop : Bool := false
  mSeq : Nat := 0
  mAny : Bool := false
  /-- Mirroring waits for the Bowline image after a module reset (R481). -/
  mWait : Bool := true
  /-- A trip's flush takes every record of severity error or above (R482). -/
  flushing : Bool := false
  deriving DecidableEq, Repr, Inhabited

/-! ## Hawser (ch. 18) -/

/-- An outbound aperture access of a thread (R433): the peer address it is for, the stamp it carries and its word. -/
structure HawsReq where
  port : Nat
  thread : Nat
  write : Bool
  pa : Nat
  win : Nat
  gen : Nat
  peer : Nat
  data : Line := Line.zero
  mask : Word := 0
  retries : Nat := 0
  /-- Refused with STALE_WINDOW: it waits for the peer's ANNOUNCE (R436). -/
  stale : Bool := false
  deriving DecidableEq, Repr, Inhabited

/-- A mirrored point write in a port's queue (R350, R440). -/
structure MirrorMsg where
  point : Nat
  val : TWord
  epoch : Word
  word2 : Word
  deriving DecidableEq, Repr, Inhabited

/-- One Hawser port beyond its registers. -/
structure HawsPort where
  /-- LOCAL_BASE of each peer-table entry. -/
  peerBase : SMap Nat := []
  /-- The committed form of each window: its HAWS_WIN_LOC and HAWS_WIN_PEER words. -/
  active : SMap (Word × Word) := []
  /-- A commit waits for the peer's acknowledgement since this epoch. -/
  annSent : Option Nat := none
  /-- An ANNOUNCE of the peer is not yet acknowledged. -/
  annAck : Bool := false
  /-- Mirrored writes not yet sent, at most 4,096 (R440). -/
  mirrorQ : List MirrorMsg := []
  /-- The last mirrored write that left the port, its value as it crossed the link (R438, R440). -/
  mirrorTx : Option MirrorMsg := none
  /-- The cable-present input says that a cable is there (HCPRS_N low, R26). -/
  cable : Bool := false
  /-- Failed replays of the packet being replayed (R430). -/
  replays : Nat := 0
  /-- A TIME request is not yet answered (R439). -/
  timeOut : Bool := false
  /-- Epoch of the last TIME request. -/
  timeAt : Nat := 0
  /-- Epoch at which TRAINING began (R431). -/
  trainAt : Nat := 0
  /-- The last TIME answer given to the peer: t1, t2 and t3. -/
  timeTx : Option (Word × Word × Word) := none
  /-- The last answer to an inbound request: 0 data, 1 WRITE_ACK, 2 STALE_WINDOW, 3 NO_WINDOW, 4 NO_RIGHT, 5 refused by
  the home; with its data. -/
  lastResp : Option (Nat × Line) := none
  /-- One more than the epoch second of the last lost-mirror record. -/
  gapSecond : Nat := 0
  deriving DecidableEq, Repr, Inhabited

/-! ## Epoch source (ch. 11) -/

/-- A TOD message that waits for its edge (R286): seconds, offset, quality, and the epoch at which it ended. -/
structure TodMsg where
  sec : Nat
  off : Nat
  q : Nat
  ended : Nat
  /-- The checksum was valid. -/
  ok : Bool
  deriving DecidableEq, Repr, Inhabited

/-- What time alignment holds beyond its registers. -/
structure TimeSt where
  tod : Option TodMsg := none
  /-- The stamp of the previous edge in ns, none before the first edge since the TIME inputs became the source. -/
  lastEdge : Option Nat := none
  /-- The epoch of the last accepted mark, and whether one was accepted since module reset. -/
  lastMark : Nat := 0
  marked : Bool := false
  /-- Consecutive marks within ±100 ns. -/
  good : Nat := 0
  deriving DecidableEq, Repr, Inhabited

/-! ## Stoppers and field bays (ch. 12, 13) -/

/-- One stopper (R325). `st` is STOP_STS.STATE: 0 UNRIGGED, 1 SAFE, 2 TRACK, 3 RAMP, 4 ORPHAN. -/
structure Stopper where
  st : Nat := 0
  part : Nat := 0
  float : Bool := false
  min : Word := 0
  max : Word := 0
  slew : Word := 0
  stale : Nat := 0
  safe : Word := 0
  ramp : Nat := 0
  out : Word := 0
  target : Word := 0
  age : Nat := 0
  lastSeq : Nat := 0
  rstep : Word := 0
  first : Bool := false
  /-- The limits accepted by GUARD.TIGHTEN and not yet applied by a step: (fn, value), in acceptance order (R335). -/
  accepted : List (Nat × Word) := []
  tightened : Bool := false
  /-- A record that a re-rig sets at the next Lanyard cycle boundary (R89). -/
  newRec : Option GuardRec := none
  /-- Where its word stands in the CALL: port, node, word (R338). -/
  place : Option (Nat × Nat × Nat) := none
  /-- Clamp records made in the epoch second given first (R331). -/
  clampSec : Nat := 0
  clampN : Nat := 0
  deriving DecidableEq, Repr, Inhabited

/-- A CALL ready to be sent (Table 12-1): the cycle number, the epoch, and the sections of the nodes. -/
structure CallMsg where
  cycle : Nat
  epoch : Word
  nodes : Nat
  sections : List (List Word)
  deriving DecidableEq, Repr, Inhabited

/-- One field port beyond its registers. -/
structure FieldPort where
  /-- A Lanyard cycle has begun since the port became active. -/
  active : Bool := false
  cycle : Nat := 0
  call : Option CallMsg := none
  /-- The CALL of the current cycle was discarded or not sent (R311, R314). -/
  discarded : Bool := false
  sent : Bool := false
  /-- Nodes whose REPLY was accepted in this cycle. -/
  replied : List Nat := []
  /-- The settings and contexts in force when the cycle began (R315). -/
  cfg : Option PortRec := none
  owner : Nat := 0
  exch : List ExchRec := []
  /-- The words of the previous CALL, by node × 256 + word (R310). -/
  prev : SMap TWord := []
  /-- The CALL last sent, and the last frame put on the wire, from the destination to the FCS. -/
  wire : Option CallMsg := none
  frame : List Byte := []
  /-- The calendar cycle start that began the last Lanyard cycle, one more; 0 for none. -/
  lastT : Nat := 0
  /-- The epoch of the last BEACON, or of the moment the port became enabled (R305). -/
  beacon : Nat := 0
  lostOnce : Bool := false
  /-- For each counter kind, one more than the epoch second of its last 0x5010 record (R322). -/
  errSec : SMap Nat := []
  /-- The value and sequence that the last exchange read returned (R309). -/
  lastRead : Option (Nat × TWord × Nat) := none
  deriving DecidableEq, Repr, Inhabited

/-! ## Point Store (ch. 14) -/

/-- A notification on its way to the notification unit (R352). -/
structure Note where
  group : Nat
  point : Nat
  seq : Nat
  val : TWord
  epoch : Word
  writer : Nat
  quality : Nat
  deriving DecidableEq, Repr, Inhabited

/-- The Point Store beyond its registers. -/
structure PsSt where
  /-- Entries as DRAM holds them, by point; an unlisted one is as rigging wrote it (R346). -/
  mem : SMap (Option Line) := []
  /-- Points whose entries are being fetched (R357), and the threads whose operations wait for them, in order. -/
  fetch : List Nat := []
  wait : List (Nat × Nat) := []
  notes : List Note := []
  /-- Groups whose next record carries LOST (R353). -/
  lost : SMap Bool := []
  /-- For each group, one more than the epoch second of its last drop record. -/
  dropSec : SMap Nat := []
  deriving DecidableEq, Repr, Inhabited

/-! ## Splice, services and keys (ch. 15) -/

/-- What a splice-able block holds beyond RIG_SPLICE: the next owner named by a release, and the epochs at which its demand
and its release began (R374, R376). -/
structure SpliceSt where
  nextKind : Nat := 0
  nextNo : Nat := 0
  demandAt : Nat := 0
  relAt : Nat := 0
  deriving DecidableEq, Repr, Inhabited

/-- An owner key slot (R383): 0 EMPTY, 1 ACTIVE, 2 REVOKED; the SHA-384 digest of its key, and the key as x then y. -/
structure OwnerSlot where
  st : Nat := 0
  digest : Nat := 0
  keyX : Nat := 0
  keyY : Nat := 0
  deriving DecidableEq, Repr, Inhabited

/-- A COMMISSION or REVOKE_OWNER call that waits for a press, or whose programming has begun (R385). -/
structure SvcPend where
  who : Requester
  revoke : Bool
  slot : Nat
  keyX : Nat := 0
  keyY : Nat := 0
  since : Nat
  pressed : Bool := false
  /-- The caller's bank was reset: the results are discarded (R370). -/
  drop : Bool := false
  deriving DecidableEq, Repr, Inhabited

/-- Bowline's service calls (R370–R371, R385–R387). -/
structure SvcSt where
  pend : List SvcPend := []
  /-- The latest debug nonce. -/
  nonce : Option (Word × Word) := none
  /-- The FW_INSTALL calls in progress (R467), the oldest first: caller and the firmware that it writes. -/
  fw : List (Requester × List Byte) := []
  deriving DecidableEq, Repr, Inhabited

/-! ## Host ports (ch. 16) -/

/-- One MSI-X table entry with its Pending bit; `due` says that an assertion has yet to send its message (R402). -/
structure MsixEnt where
  addr : Word := 0
  data : Nat := 0
  masked : Bool := true
  pending : Bool := false
  due : Bool := false
  deriving DecidableEq, Repr, Inhabited

/-- A TLP that the G9 sends. Completion status: 0 successful, 1 Unsupported Request, 2 Configuration Request Retry,
4 Completer Abort. -/
inductive HostTlp where
  | write (port : Nat) (pasid : Option Nat) (addr : Nat) (words : List Word)
  | read (port : Nat) (pasid : Option Nat) (addr len : Nat)
  | msg (port : Nat) (addr : Word) (data : Nat)
  | cpl (port : Nat) (status : Nat) (ep : Bool) (bytes : List Byte)
  deriving DecidableEq, Repr, Inhabited

/-- A read of host memory by a DMA channel that is not yet answered. -/
structure HostReq where
  port : Nat
  ch : Nat
  len : Nat
  pasid : Option Nat := none
  addr : Nat := 0
  /-- Bytes requested so far: each request asks for at most Max Read Request Size, `chunk` (R391). -/
  asked : Nat := 0
  chunk : Nat := 4096
  deriving DecidableEq, Repr, Inhabited

/-- One host port beyond its HOST_ registers. -/
structure HostSt where
  msix : SMap MsixEnt := []
  /-- Asserted MSI-X sources: (entry, source). -/
  src : List (Nat × Nat) := []
  /-- Writable configuration dwords by offset / 4 (R393). -/
  cfg : SMap Nat := []
  doeBusy : Bool := false
  doeErr : Bool := false
  doeReady : Bool := false
  doeReq : List Byte := []
  doeResp : List Byte := []
  /-- A reset event is in progress, and which one: 0 none, 1 PERST#, 2 hot reset, 3 FLR (R405); 4 when
  every item is complete and PERST# is still held. -/
  resetBy : Nat := 0
  /-- REFCLK stopped: no switch until PERST# cycles (R24). -/
  refLost : Bool := false
  /-- The device manifest (R399), as last built. -/
  manifest : List Byte := []
  manGen : Nat := 0
  /-- For each error kind, one more than the epoch second of its last record (R410). -/
  errSec : SMap Nat := []
  /-- Sticky AER status bits. -/
  aer : Nat := 0
  deriving DecidableEq, Repr, Inhabited

/-! ## Tenant slices and the DMA engine (ch. 17) -/

/-- A fetched submission entry (Table 17-2). -/
structure SqCmd where
  op : Nat
  resv : Nat
  cid : Nat
  len : Nat
  w1 : Word
  w2 : Word
  w3 : Word
  bad : Bool
  deriving DecidableEq, Repr, Inhabited

/-- A completion entry not yet written: CID, STATUS, KIND, RESULT. -/
structure CqEnt where
  cid : Nat
  status : Nat
  kind : Nat
  result : Word
  deriving DecidableEq, Repr, Inhabited

/-- One queue pair of a slice (R416–R421). -/
structure QpSt where
  stopped : Bool := false
  head : Nat := 0
  tail : Nat := 0
  /-- Fetched commands that have not begun, and commands that have begun and are not carried out. -/
  queue : List SqCmd := []
  begun : List SqCmd := []
  done : List CqEnt := []
  deriving DecidableEq, Repr, Inhabited

/-- One tenant slice beyond its registers. -/
structure TenantSt where
  qps : SMap QpSt := []
  /-- A quiesce drains (R422). -/
  draining : Bool := false
  /-- One more than the epoch second of the last tail notice and of the last BAR2 notice (R397, R422). -/
  tailSec : Nat := 0
  barSec : Nat := 0
  deriving DecidableEq, Repr, Inhabited

/-- One DMA channel beyond its registers (R424–R428). `st`: 0 IDLE, 1 ACTIVE, 2 HELD, 3 HALTED. -/
structure DmaChan where
  st : Nat := 0
  status : Nat := 0
  pend : Bool := false
  desc : Nat := 0
  residue : Nat := 0
  /-- Address of the current descriptor, and whether it is loaded. -/
  ptr : Nat := 0
  loaded : Bool := false
  src : Nat := 0
  dst : Nat := 0
  len : Nat := 0
  srcSp : Nat := 0
  dstSp : Nat := 0
  slice : Nat := 0
  int : Bool := false
  next : Nat := 0
  last : Bool := false
  retries : Nat := 0
  /-- It waits for a burst slot, or holds one (R426). -/
  ready : Bool := false
  slot : Bool := false
  /-- A retry is pending since this epoch. -/
  retryAt : Option Nat := none
  /-- Requests for the next boundary: ABORT, the hold status, PARK, and quiesce. -/
  abort : Bool := false
  hold : Nat := 0
  park : Bool := false
  quiesce : Bool := false
  /-- Words of the burst that a host or a Hawser peer returned; the error it returned instead. -/
  got : Option (List TWord) := none
  bad : Nat := 0
  /-- Hawser requests of the burst not yet answered, the lines returned, and whether the writes are out. -/
  hawsOut : Nat := 0
  hawsGot : List (Nat × Line) := []
  wrote : Bool := false
  /-- The tenant command it runs: slice, queue pair and command; the window's base as the burst began (R415); and that a
  COPY ended here in error, so that nothing is left to resume. -/
  cmd : Option (Nat × Nat × SqCmd) := none
  win : Nat := 0
  finished : Bool := false
  deriving DecidableEq, Repr, Inhabited

/-- What the DMA engine remembers of turns taken: by agent × 8 + PRIO the channel last given a burst slot (R426), and by PRIO one more than
the slice whose queue was last fetched from (R416). -/
structure DmaTurns where
  chan : SMap Nat := []
  fetch : SMap Nat := []
  deriving DecidableEq, Repr, Inhabited

/-! ## Power, ageing and management (ch. 19) -/

/-- A power request in arrival order (R446, R447): its EXPECT, whether its checks have passed and it is in progress, STATE of
its domain before it, and whether the management path made it. -/
structure PowReq where
  who : Requester
  dom : Nat
  op : Nat
  div : Nat
  exp : Option Nat := none
  taken : Bool := false
  before : Nat := 0
  mgmt : Bool := false
  deriving DecidableEq, Repr, Inhabited

/-- The power controller beyond its registers. -/
structure PowSt where
  reqs : List PowReq := []
  /-- WARN and THROTTLE last (R449). -/
  warn : Bool := false
  thr : Bool := false
  /-- Consecutive 1 ms samples: power above CAP; outlet at the trip level; the end conditions of WARN and THROTTLE. -/
  overCap : Nat := 0
  outletTrip : Nat := 0
  warnOk : Nat := 0
  thrOk : Nat := 0
  /-- The epoch of the last throttle step, and whether the over-CAP record was made. -/
  thrAt : Nat := 0
  capNoted : Bool := false
  /-- A trip: 0 none, 1 thermal, 2 supply; when it began; whether its domains are off. -/
  trip : Nat := 0
  tripAt : Nat := 0
  /-- Secure-owned blocks at the trip (R381). -/
  tripSec : List Nat := []
  tripOff : Bool := false
  /-- A Solstice pass: the domains still to measure, and the domain held. -/
  solTodo : List Nat := []
  solHold : Option Nat := none
  solSince : Nat := 0
  deriving DecidableEq, Repr, Inhabited

/-- A domain's entry in the margin table (R455). -/
structure Margin where
  offset : Nat := 0
  need : Nat := 0
  fail : Bool := false
  age : Nat := 0
  deriving DecidableEq, Repr, Inhabited

/-- A management snapshot (R457). -/
structure Snapshot where
  gen : Nat
  chg : SMap Nat
  passes : Nat
  solState : Nat
  parts : List PState
  splice : List Word
  deriving DecidableEq, Repr, Inhabited

/-- The management endpoint (R456, R457). -/
structure MgmtSt where
  snaps : List Snapshot := []
  gen : Nat := 0
  eid : Nat := 0
  /-- ALERT_N; false is low (R37). -/
  alertN : Bool := true
  /-- The last response sent over SMBus. -/
  resp : List Byte := []
  /-- SMBus answers (R34). -/
  smbus : Bool := false
  /-- The epoch of the last periodic snapshot (R457). -/
  snapAt : Nat := 0
  deriving DecidableEq, Repr, Inhabited

/-! ## Flash, fuses, start-up (ch. 1, 3, 20) -/

/-- Module flash and fuses: what outlives a reset and a loss of power. -/
structure Flash where
  /-- Image slots 0–7, their VALID bits, and the slot record (R80, R466). -/
  slots : SMap (List Byte) := []
  valid : Nat := 0
  active : Nat := 0
  fallback : Nat := 0
  /-- The bank record (R467), and the firmware installed in each bank; an unlisted bank holds its factory firmware. -/
  bank : Nat := 0
  fw : SMap (List Byte) := []
  updating : Bool := false
  /-- Owner key slots (R383) and anti-rollback counters (R386). -/
  keys : SMap OwnerSlot := []
  rbBowl : Nat := 0
  rbCord : Nat := 0
  rbRig : Nat := 0
  /-- The margin table (R455) and what Solstice counts. -/
  margins : SMap Margin := []
  solDiv : SMap Nat := []
  passes : Nat := 0
  days : Nat := 0
  deriving DecidableEq, Repr, Inhabited

/-- Start-up and the housekeeping rail (R19–R41, R463, R464). -/
structure Boot where
  /-- The housekeeping rail runs; the straps and the COMMISSION_N level it sampled (R34, R39). -/
  hk : Bool := false
  maddr : Nat := 0
  commOk : Bool := false
  pwrEn : Bool := false
  /-- The rails are on, with CLK_ROOT locked once the Rails step has ended. -/
  rails : Bool := false
  /-- The step of Table 20-4 to run next, from 1; 9 when start-up has ended; 0 while off. -/
  step : Nat := 0
  /-- Start-up stopped at the step before `step` (R464). -/
  stopped : Bool := false
  /-- RESET_N is held low; CLK_ROOT has lost lock since this epoch. -/
  heldReset : Bool := false
  lockLost : Bool := false
  /-- PWR_EN must be low for 100 ms before the next start (R19, R451). -/
  needLow : Bool := false
  /-- The reset kind of the running start-up: the row of Table 20-2. -/
  kind : Nat := 0
  /-- The image slot whose full image runs, and rollback values of the running images. -/
  imgRoll : Nat := 0
  bowlRoll : Nat := 0
  cordRoll : Nat := 0
  bank : Nat := 0
  /-- The Bowline and Cordage images that run, and the bank of Cordage's (R389). -/
  bowlImage : List Byte := []
  cordImage : List Byte := []
  cordBank : Nat := 0
  /-- The debug port is unlocked (R387), and the instruction that its TAP carries out (R41). -/
  debug : Bool := false
  tap : TapInstr := .bypass
  /-- The RWL fields of CORE_TALLY_INJ are locked, in every core (R164). -/
  injLock : Bool := false
  deriving DecidableEq, Repr, Inhabited

/-- A partial re-rig under way (R86, R87): the partition, the image and the epoch of its command. -/
structure Rewire where
  part : Nat
  image : List Byte
  since : Nat
  deriving DecidableEq, Repr, Inhabited

/-! ## The whole state -/

/-- Reasons a step stops with a fault. -/
inductive Fault where
  /-- An operand names no unit of the G9 (a power domain above 419, a mesh stop above 83, a splice block above 30, a
  Vigil target above 151, a line with other than eight words). Raised by every command with such an operand. Safe:
  no sender can name such a unit. -/
  | noSuchUnit
  deriving DecidableEq, Repr

/-- Reasons a step is refused. -/
inductive Refusal where
  /-- A command without a meaning yet: raised by its arm in Dispatch alone. Safe. -/
  | notModelled (mnemonic : String)
  deriving DecidableEq, Repr

/-- The state of the G9. -/
structure State where
  /-- The commands that wait, first in first out. -/
  pending : List Instr := []
  /-- MODEL'S OWN FIELD (log 2): how many open choices have been taken; `Config.freeBool` and `Config.freeWord`
  are applied to it. -/
  free : Nat := 0
  /-- Memory-mapped registers by `regKey`; an unlisted one is at its reset value. -/
  regs : SMap Word := []
  /-- Registers banked per requester (R216), by `bankKey`. -/
  banked : SMap Word := []
  /-- DRAM, one byte per physical address (R53); an unlisted byte is 0 (R274). -/
  mem : List Host.Cell := []
  /-- The stored tally byte of each memory word, by word address (R257). -/
  memTally : SMap Byte := []
  /-- The stored check byte of each word XOR the byte the word code gives (R263): 0 is a valid code. -/
  memSyn : SMap Byte := []
  /-- Chunks (256 bytes) not yet scrubbed, as (first chunk, count) (R274). -/
  unscrubbed : List (Nat × Nat) := []
  /-- Pages marked STALE (R267). -/
  stale : SMap Bool := []
  /-- The page-code region: check word k of page P at key 32 P + k, with its tally and the syndrome of its word code (R265). -/
  pageCode : SMap (TWord × Byte) := []
  /-- Test rows of the reserve areas: (data, side bits) of word w of channel m at key 1024 m + w (R278). -/
  testRows : SMap (Word × Nat) := []
  rig : Rig := {}
  partRun : SMap PartRun := []
  threads : SMap Thread := []
  cores : SMap Core := []
  /-- The 64 L2s by quad; key 71 is I/O agent 7 (R235). -/
  quads : SMap QuadSt := []
  slices : SMap SliceSt := []
  net : List Msg := []
  regNet : List RegMsg := []
  psNet : List PsMsg := []
  tightNet : List TightenMsg := []
  pcNet : List PcMsg := []
  /-- End-to-end credits by source stop × 128 + destination stop. -/
  credits : SMap Credit := []
  /-- MODEL'S OWN FIELD (log 104): the number of packets sent, which orders them (R227). -/
  meshSeq : Nat := 0
  chans : SMap ChanSt := []
  /-- Asserted unit interrupt sources: (source, thread, vector) (R191). -/
  irq : List (Nat × Nat × Nat) := []
  alm : Alm := {}
  /-- FAULT_N; false is low (R37). -/
  faultN : Bool := true
  /-- CLK_EPOCH and its fraction in units of 2^−32 tick (R281–R287). -/
  epoch : Nat := 0
  epochFrac : Nat := 0
  /-- Interrupt sources asserted at the management cores, and at the Bowline core (R276, R374). -/
  mgmtIrq : List Nat := []
  bowlIrq : List Nat := []
  /-- Lines in the read buffers of I/O agents 0–6: (holder number, line, data) (R235, R250). -/
  agentBuf : List (Nat × Nat × Line) := []
  /-- Hawser ports by number, and their outbound requests. -/
  haws : SMap HawsPort := []
  hawsNet : List HawsReq := []
  time : TimeSt := {}
  stoppers : SMap Stopper := []
  ports : SMap FieldPort := []
  ps : PsSt := {}
  /-- Splice-able blocks by number (R372). -/
  splice : SMap SpliceSt := []
  svc : SvcSt := {}
  hosts : SMap HostSt := []
  hostNet : List HostReq := []
  /-- The TLPs that the last command with upstream traffic sent, oldest first. -/
  hostTx : List HostTlp := []
  dma : SMap DmaChan := []
  dmaTurns : DmaTurns := {}
  tenants : SMap TenantSt := []
  pow : PowSt := {}
  mgmt : MgmtSt := {}
  flash : Flash := {}
  boot : Boot := {}
  /-- RIG_STAGE, one byte per offset; an unlisted byte is 0. -/
  stage : SMap Byte := []
  rewire : Option Rewire := none
  /-- The epoch at which the running Vigil run began, its mode, and its targets (R469). -/
  vigil : Option (Nat × Nat × List Nat) := none
  /-- Quads that were tested while their partition was PARKED (R470). -/
  vigilTested : List Nat := []
  deriving DecidableEq, Repr, Inhabited

/-- The machine before power is applied: every field at the value its reset gives, or at the value the log names.
Nothing is loaded: commands come from outside (log 4). -/
def State.reset : State := {}

end Sys2Proof.Machine
end

