-- ==== Sys2Proof/Machine/TallyOps.lean ====
section
/-! DEFINITION. The tally value, its soundness and the predicted tallies of Table 5-5 (R136, R137, R146). -/

namespace Sys2Proof.Machine

/-- t(v) = v mod 251 (R136). -/
def tallyOf (v : Word) : Byte := BitVec.ofNat 8 (v.toNat % 251)

/-- A word with a freshly generated tally (a generating point, R138). -/
def gen (v : Word) : TWord := ⟨v, tallyOf v⟩

/-- The tally byte of a poisoned word (R136). -/
def poisonTally : Byte := 0xFF

/-- A value marked as poisoned (R136). -/
def poison (v : Word) : TWord := ⟨v, poisonTally⟩

/-- Poisoned: the tally byte is 0xFF (R136). -/
def isPoisoned (w : TWord) : Bool := w.tal == poisonTally

/-- Sound: the tally byte equals the value mod 251 (R137). -/
def isSound (w : TWord) : Bool := w.tal == tallyOf w.val

/-- Failed: neither sound nor poisoned (R137). -/
def isFailed (w : TWord) : Bool := !isSound w && !isPoisoned w

/-- Residues mod 251 of a difference, kept in 0–250. -/
def mod251Sub (a b : Nat) : Nat := (a % 251 + 251 - b % 251) % 251

/-- Predicted tally of an addition (Table 5-5): t(a) + t(b) − 69 c. -/
def predAdd (a b : TWord) : Byte :=
  let c := (a.val.toNat + b.val.toNat) / 2 ^ 64
  BitVec.ofNat 8 (mod251Sub (a.tal.toNat + b.tal.toNat) (69 * c))

/-- Predicted tally of a subtraction (Table 5-5): t(a) − t(b) + 69 w. -/
def predSub (a b : TWord) : Byte :=
  let w := if a.val.toNat < b.val.toNat then 1 else 0
  BitVec.ofNat 8 (mod251Sub (a.tal.toNat + 69 * w) b.tal.toNat)

/-- Predicted tally of a left shift by `s` (Table 5-5): t(a) × p_s − 69 t(h). -/
def predShl (a : TWord) (s : Nat) : Byte :=
  let h := a.val.toNat * 2 ^ s / 2 ^ 64
  BitVec.ofNat 8 (mod251Sub (a.tal.toNat * (2 ^ s % 251)) (69 * (h % 251)))

/-- Predicted tally of d + a × b (Table 5-5); MUL has d = 0. -/
def predMadd (d a b : TWord) : Byte :=
  let h := (d.val.toNat + a.val.toNat * b.val.toNat) / 2 ^ 64
  BitVec.ofNat 8 (mod251Sub (d.tal.toNat + a.tal.toNat * b.tal.toNat) (69 * (h % 251)))

/-- The outcome of the merge of Table 5-6 (R154): the word written and whether Almanac records an error.
`mask` has a one for each stored byte; `src` is the store-buffer word, its bytes already in place; `disagree` is the
outcome of the duplicated generator. -/
def mergeWord (old : TWord) (srcVal : Word) (srcPoisoned : Bool) (mask : Nat) (disagree : Bool) : TWord × Bool :=
  let bitsMask : Word := (List.range 8).foldl
    (fun m i => if mask.testBit i then m ||| maskBits (8 * i + 7) (8 * i) else m) 0
  let v := (old.val &&& ~~~bitsMask) ||| (srcVal &&& bitsMask)
  if isPoisoned old then (poison v, false)
  else if isFailed old then (poison v, true)
  else if srcPoisoned then (poison v, false)
  else if disagree then (poison v, true)
  else (gen v, false)

end Sys2Proof.Machine
end

