-- ==== Sys2Proof/Machine/Ops.lean ====
section
/-! DEFINITION. Named operations over the state: free values, threads and units, registers, partitions, Almanac and
interrupt sources. -/

namespace Sys2Proof.Machine

/-! ### Free values (R12) -/

/-- Takes the next open two-way choice. -/
def freeB (s : State) : Bool × State := (Config.freeBool s.free, { s with free := s.free + 1 })

/-- Takes the next open 64-bit value. -/
def freeW (s : State) : Word × State := (Config.freeWord s.free, { s with free := s.free + 1 })

/-! ### Units -/

/-- Thread `t` (0–1023). -/
def thr (s : State) (t : Nat) : Thread := SMap.get (fun _ => {}) s.threads t
/-- Replaces thread `t`. -/
def setThr (s : State) (t : Nat) (x : Thread) : State := { s with threads := SMap.set (fun _ => {}) s.threads t x }
/-- Updates thread `t`. -/
def updThr (s : State) (t : Nat) (f : Thread → Thread) : State := setThr s t (f (thr s t))

/-- Core `c` (0–255). -/
def coreOf (s : State) (c : Nat) : Core := SMap.get (fun _ => {}) s.cores c
/-- Updates core `c`. -/
def updCore (s : State) (c : Nat) (f : Core → Core) : State :=
  { s with cores := SMap.set (fun _ => {}) s.cores c (f (coreOf s c)) }

/-- The L2 of quad `q`, or of I/O agent 7 at key 71. -/
def quadOf (s : State) (q : Nat) : QuadSt := SMap.get (fun _ => {}) s.quads q
/-- Updates the L2 of quad `q`. -/
def updQuad (s : State) (q : Nat) (f : QuadSt → QuadSt) : State :=
  { s with quads := SMap.set (fun _ => {}) s.quads q (f (quadOf s q)) }

/-- LLC slice `n`. -/
def sliceOf (s : State) (n : Nat) : SliceSt := SMap.get (fun _ => {}) s.slices n
/-- Updates LLC slice `n`. -/
def updSlice (s : State) (n : Nat) (f : SliceSt → SliceSt) : State :=
  { s with slices := SMap.set (fun _ => {}) s.slices n (f (sliceOf s n)) }

/-- Memory channel `m`. -/
def chanOf (s : State) (m : Nat) : ChanSt := SMap.get (fun _ => {}) s.chans m
/-- Updates memory channel `m`. -/
def updChan (s : State) (m : Nat) (f : ChanSt → ChanSt) : State :=
  { s with chans := SMap.set (fun _ => {}) s.chans m (f (chanOf s m)) }

/-- Run state of partition `p`. -/
def prun (s : State) (p : Nat) : PartRun := SMap.get (fun _ => {}) s.partRun p
/-- Updates the run state of partition `p`. -/
def updPrun (s : State) (p : Nat) (f : PartRun → PartRun) : State :=
  { s with partRun := SMap.set (fun _ => {}) s.partRun p (f (prun s p)) }

/-- Hawser port `k`. -/
def hawsOf (s : State) (k : Nat) : HawsPort := SMap.get (fun _ => {}) s.haws k
/-- Updates a Hawser port. -/
def updHaws (s : State) (k : Nat) (f : HawsPort → HawsPort) : State :=
  { s with haws := SMap.set (fun _ => {}) s.haws k (f (hawsOf s k)) }

/-- Field port `l` (0–511). -/
def portOf (s : State) (l : Nat) : FieldPort := SMap.get (fun _ => {}) s.ports l
/-- Updates a field port. -/
def updPort (s : State) (l : Nat) (f : FieldPort → FieldPort) : State :=
  { s with ports := SMap.set (fun _ => {}) s.ports l (f (portOf s l)) }

/-- Stopper `o` (guarded output 0–32767). -/
def stopOf (s : State) (o : Nat) : Stopper := SMap.get (fun _ => {}) s.stoppers o
/-- Updates a stopper. -/
def updStop (s : State) (o : Nat) (f : Stopper → Stopper) : State :=
  { s with stoppers := SMap.set (fun _ => {}) s.stoppers o (f (stopOf s o)) }

/-- Host port `h`. -/
def hostOf (s : State) (h : Nat) : HostSt := SMap.get (fun _ => {}) s.hosts h
/-- Updates a host port. -/
def updHost (s : State) (h : Nat) (f : HostSt → HostSt) : State :=
  { s with hosts := SMap.set (fun _ => {}) s.hosts h (f (hostOf s h)) }

/-- DMA channel `n` (0–255). -/
def dmaOf (s : State) (n : Nat) : DmaChan := SMap.get (fun _ => {}) s.dma n
/-- Updates a DMA channel. -/
def updDma (s : State) (n : Nat) (f : DmaChan → DmaChan) : State :=
  { s with dma := SMap.set (fun _ => {}) s.dma n (f (dmaOf s n)) }

/-- Tenant slice `n` (0–4095). -/
def tenantOf (s : State) (n : Nat) : TenantSt := SMap.get (fun _ => {}) s.tenants n
/-- Updates a tenant slice. -/
def updTenant (s : State) (n : Nat) (f : TenantSt → TenantSt) : State :=
  { s with tenants := SMap.set (fun _ => {}) s.tenants n (f (tenantOf s n)) }

/-- Splice-able block `b` (0–30). -/
def spliceOf (s : State) (b : Nat) : SpliceSt := SMap.get (fun _ => {}) s.splice b
/-- Updates a splice-able block. -/
def updSplice (s : State) (b : Nat) (f : SpliceSt → SpliceSt) : State :=
  { s with splice := SMap.set (fun _ => {}) s.splice b (f (spliceOf s b)) }

/-! ### Stored register fields -/

/-- The key of register `r` of unit `u` with indexes `i` and `j`. -/
def regKey (r : Reg) (u i j : Nat) : Nat := ((r.ctorIdx * 4096 + u) * 16384 + i) * 8192 + j

/-- The reset value of a register's stored fields (R6). -/
def regReset (r : Reg) : Word :=
  r.fields.foldl (fun w f => setField w f.hi f.lo f.rst) 0

/-- The value with every bit outside the register's fields cleared (R9). -/
def fieldMask (r : Reg) : Word := r.fields.foldl (fun w f => w ||| maskBits f.hi f.lo) 0

/-- The reset value at a register key; the reset value depends on the register alone, but for the fixed event codes of
CORE_PMC_SEL[0] and [1] and the reset route entry (R222). -/
def regDefault (r : Reg) (i j : Nat) : Word :=
  match r with
  | .CORE_PMC_SEL => if j = 0 then 0x01 else if j = 1 then 0x03 else 0
  | .MESH_ROUTE => if j = 127 then 0x8E98000098000000#64 else 0
  | r => regReset r

/-- The register that a key names, from the position of its constructor. -/
def regOfIdx (n : Nat) : Reg :=
  let all : List Reg := [regPlacesRig, regPlacesCore, regPlacesQuad, regPlacesSlc, regPlacesMesh, regPlacesMch,
    regPlacesPwr, regPlacesFbay, regPlacesPst, regPlacesBowl, regPlacesHost, regPlacesDma, regPlacesPage,
    regPlacesHaws, regPlacesVig, regPlacesAlm].flatten.map RegPlace.reg
  match all.find? (fun r => r.ctorIdx == n) with
  | some r => r
  | none => .RIG_STS

/-- What an unlisted register key reads as. -/
def regDefaultKey (k : Nat) : Word :=
  regDefault (regOfIdx (k / (4096 * 16384 * 8192))) (k / 8192 % 16384) (k % 8192)

/-- The stored value of a register: what its plain fields hold. -/
def getR (s : State) (r : Reg) (u : Nat) (i : Nat := 0) (j : Nat := 0) : Word :=
  SMap.get (fun _ => regDefault r i j) s.regs (regKey r u i j)

/-- Stores a register's plain fields. -/
def setR (s : State) (r : Reg) (v : Word) (u : Nat) (i : Nat := 0) (j : Nat := 0) : State :=
  { s with regs := SMap.set (fun _ => regDefault r i j) s.regs (regKey r u i j) v }

/-- Updates a register's plain fields. -/
def updR (s : State) (r : Reg) (f : Word → Word) (u : Nat) (i : Nat := 0) (j : Nat := 0) : State :=
  setR s r (f (getR s r u i j)) u i j

/-- The number of a requester's bank (R216, R370): threads, management cores, managers, then Bowline. -/
def bankNo : Requester → Nat
  | .thread t => t.toNat
  | .mgmt c => 1024 + c.toNat
  | .manager h => 1028 + h.toNat
  | .bowline => 1030
  | .tenant _ => 1031
  | .host h => 1032 + h.toNat

/-- The value of a register banked per requester. -/
def getB (s : State) (r : Reg) (who : Requester) (i : Nat := 0) : Word :=
  SMap.get (fun _ => regDefault r i 0) s.banked (regKey r (bankNo who) i 0)

/-- Stores a register banked per requester. -/
def setB (s : State) (r : Reg) (who : Requester) (v : Word) (i : Nat := 0) : State :=
  { s with banked := SMap.set (fun _ => regDefault r i 0) s.banked (regKey r (bankNo who) i 0) v }

/-! ### Rigging lookups (R69–R79) -/

/-- The knots of partition `p`, if it is not ABSENT. -/
def knots? (s : State) (p : Nat) : Option PartKnots := SMap.get (fun _ => none) s.rig.parts p

/-- The knots of partition `p`; empty for an ABSENT one. -/
def knots (s : State) (p : Nat) : PartKnots := (knots? s p).getD {}

/-- The rigged partitions, rising. -/
def partIds (s : State) : List Nat := (List.range 16).filter (fun p => (knots? s p).isSome)

/-- The partition that quad `q` belongs to. -/
def quadPart (s : State) (q : Nat) : Option Nat := (partIds s).find? (fun p => (knots s p).part.quads.getLsbD q)

/-- The partition that slice `n` is dedicated to. -/
def slicePart (s : State) (n : Nat) : Option Nat := (partIds s).find? (fun p => (knots s p).part.slices.getLsbD n)

/-- The partition of thread `t` (R52: quad = t div 16). -/
def threadPart (s : State) (t : Nat) : Option Nat := quadPart s (t / 16)

/-- The threads of partition `p`. -/
def partThreads (s : State) (p : Nat) : List Nat :=
  (List.range 64).flatMap (fun q => if (knots s p).part.quads.getLsbD q then (List.range 16).map (fun i => 16 * q + i) else [])

/-- Whether thread `t` runs under LAX (R162, R163): its partition's policy in force, STRICT in the secure world. -/
def isLax (s : State) (t : Nat) : Bool :=
  match threadPart s t with
  | some p => (prun s p).laxInForce && (thr s t).world == .normal
  | none => false

/-- The address lies in one of the partition's MEMORY ranges. -/
def inRanges (s : State) (p : Nat) (pa : Nat) : Bool :=
  (knots s p).ranges.any (fun r => r.1 ≤ pa && pa < r.1 + r.2)

/-- SEC_WM (R360). -/
def secWm (s : State) : Nat := s.rig.dev.secWm

/-- What a physical address is (Table 2-5). -/
inductive AddrCls where
  | dram | point | register | hawser (k : Nat) | unmapped
  deriving DecidableEq, Repr

/-- An offset of register space lies in a block's window (Table 2-6); any other is unmapped. -/
def regWindow (o : Nat) : Bool :=
  o < 0x44000000 || (0x50000000 ≤ o && o < 0x51000000) || (0x60000000 ≤ o && o < 0x78000000)
    || (0x80000000 ≤ o && o < 0x92000000) || (0xA0000000 ≤ o && o < 0xB0400000)
    || (0xC0000000 ≤ o && o < 0xD2000000) || (0xE0000000 ≤ o && o < 0x100000000)

/-- Classifies a physical address; the address may have bits above 51 set, which makes it unmapped (R53). -/
def addrCls (s : State) (pa : Nat) : AddrCls :=
  if pa < 0x4000000000 then
    if s.rig.dev.ptBase ≤ pa && pa < s.rig.dev.ptBase + s.rig.dev.ptSize then .point else .dram
  else if 0xFE00000000 ≤ pa && pa < 0xFF00000000 && regWindow (pa - 0xFE00000000) then .register
  else if 0x10000000000 ≤ pa && pa < 0x20000000000 && (pa - 0x10000000000) % 0x4000000000 < 0x1000000000 then
    .hawser ((pa - 0x10000000000) / 0x4000000000)
  else .unmapped

/-! ### FAULT_N and Almanac (R37, R473–R479) -/

/-- The lowest-numbered ring slot that holds no record, if one remains. -/
def firstFree (ring : SMap (Option AlmRec)) (n : Nat) (fuel : Nat) : Option Nat :=
  match fuel with
  | 0 => none
  | fuel + 1 =>
    match ring with
    | [] => if n < 65536 then some n else none
    | (k, some _) :: r => if k = n then firstFree r (n + 1) fuel else some n
    | (_, none) :: r => firstFree r n fuel

/-- The ring slot to overwrite: the lowest SEQ among records of severity at or below `sev` that are not held for the
mirror (R479). -/
def victimSlot (ring : SMap (Option AlmRec)) (sev : Nat) : Option Nat :=
  (ring.foldl (fun (best : Option (Nat × Nat)) e =>
    match e with
    | (k, some r) =>
      if r.sev ≤ sev && !r.due then
        match best with
        | some (_, q) => if r.seq < q then some (k, r.seq) else best
        | none => some (k, r.seq)
      else best
    | (_, none) => best) none).map Prod.fst

/-- The SEQ after `n` (R475): 0xFFFF_FFFF is never given. -/
def seqNext (n : Nat) : Nat := if n + 1 ≥ 0xFFFFFFFF then 0 else n + 1

/-- Almanac accepts a record (R475–R479): a SEQ, its flags, and a ring slot, or the record is dropped and counted.
A fatal event drives FAULT_N either way (R37). `trip` marks a trip record. -/
def recordAcceptOp (s : State) (code sev cls src p0 p1 p2 : Nat) (trip : Bool) : State :=
  let s := if sev = 6 then { s with faultN := false } else s
  let a := s.alm
  let r : AlmRec := { epoch := w64 s.epoch, seq := a.nextSeq, code := code, sev := sev, afterDrop := a.dropped.testBit sev, trip := trip, start := a.startNext, cls := cls, src := src, p0 := p0 % 2 ^ 32, p1 := p1 % 2 ^ 32, p2 := p2 % 2 ^ 32, due := decide (s.rig.dev.mirrorSev ≤ sev) && !a.mStop }
  let a' := { a with nextSeq := seqNext a.nextSeq, startNext := false }
  let place : Option Nat := match firstFree a.ring 0 65537 with
    | some k => some k
    | none => victimSlot a.ring sev
  match place with
  | some k =>
    { s with alm := { a' with ring := SMap.set (fun _ => none) a.ring k (some r), newestSlot := k, dropped := (w64 a.dropped &&& ~~~ (maskBits sev sev)).toNat } }
  | none =>
    let s := updR s .ALM_DROP (fun w => satInc w 31 0) 0 sev
    { s with alm := { a' with dropped := (w64 a.dropped ||| maskBits sev sev).toNat } }

/-- Hands a record to Almanac; a trace record exists only while TRACE = 1 (R478). -/
def alm (s : State) (code sev cls src : Nat) (p0 p1 p2 : Nat := 0) : State :=
  if sev = 0 && !s.rig.dev.trace then s else recordAcceptOp s code sev cls src p0 p1 p2 false

/-- The low and high halves of a number as record parameters. -/
def lo32 (n : Nat) : Nat := n % 2 ^ 32
/-- The bits above the low half. -/
def hi32 (n : Nat) : Nat := n / 2 ^ 32

/-! ### Interrupt sources (R191, R192) -/

/-- Asserts source `src` at vector `v` of thread `t`, for a unit owned by partition `p`: delivered only to a thread of
that partition, otherwise a notice (R191). Run-ahead of that thread ends (R184). -/
def irqAssert (s : State) (src : Nat) (p : Option Nat) (t v : Nat) : State :=
  if v < 2 then s
  else if p.isSome && threadPart s t == p then
    (if s.irq.contains (src, t, v) then s
     else updThr { s with irq := s.irq ++ [(src, t, v)] } t (fun x => if x.runAhead then { x with runAhead := false } else x))
  else alm s 0x0014 2 0 0 t v

/-- Deasserts source `src` (R192). -/
def irqClear (s : State) (src : Nat) : State := { s with irq := s.irq.filter (fun e => e.1 != src) }

/-- A destination register of the common form (EN bit 16, VECTOR [15:10], THREAD [9:0]): asserts or deasserts its
source as `on` says. -/
def irqByDest (s : State) (src : Nat) (dest : Word) (p : Option Nat) (on : Bool) : State :=
  let s' := irqClear s src
  if on && bit dest 16 then irqAssert s' src p (fieldN dest 9 0) (fieldN dest 15 10) else s'

/-- Source number of instance `n` of register `r`. -/
def irqSrc (r : Reg) (u : Nat) (i : Nat := 0) : Nat := regKey r u i 0

/-! ### Home selection (R236, R237) -/

/-- The 6-bit address hash of R236. -/
def homeHash (pa : Nat) : Nat :=
  (List.range 8).foldl (fun h i => Nat.xor h (pa / 2 ^ (6 + 6 * i) % 64)) 0

/-- The partition with dedicated slices whose ranges hold an address. -/
def dedicatedPart (s : State) (pa : Nat) : Option Nat :=
  (partIds s).find? (fun p => (knots s p).part.slices != 0 && inRanges s p pa)

/-- The home slice of a line (R236). -/
def homeOf (s : State) (line : Nat) : Nat :=
  let pa := 64 * line
  let list := match dedicatedPart s pa with
    | some p => onesBelow 64 (knots s p).part.slices.toNat
    | none => onesBelow 64 s.rig.pool.toNat
  if list.isEmpty then 0 else list.getD (homeHash pa % list.length) 0

/-- The stop of a holder: a quad's tile, or the bridge stop of an I/O agent (Table 8-2). -/
def holderStop (h : Nat) : Nat := if h < 64 then h else 80 + (h - 64) / 2

/-! ### Mesh counters -/

/-- One event more in a 48-bit counter with OVF in bit 63. -/
def cnt48 (w : Word) : Word :=
  let v := fieldN w 47 0 + 1
  if v ≥ 2 ^ 48 then setBit (setField w 47 0 0) 63 true else setField w 47 0 v

end Sys2Proof.Machine
end

