-- ==== Sys2Proof/Machine/Operands.lean ====
section
/-! DEFINITION. Operand forms of OA64: the instruction word of each format (Table 4-7), immediates (R97), and reading
and writing registers (R93). -/

namespace Sys2Proof.Machine

/-- A 32-bit instruction word. -/
abbrev IWord := BitVec 32

/-- A word from (value, lowest bit) fields. -/
def packI (op : Nat) (fs : List (Nat × Nat)) : IWord :=
  BitVec.ofNat 32 (fs.foldl (fun a f => a + f.1 * 2 ^ f.2) (op * 2 ^ 26))

/-- Format R. -/
def encR (op : Nat) (gd ga gb : BitVec 6) (fn : Nat) : IWord := packI op [(gd.toNat, 20), (ga.toNat, 14), (gb.toNat, 8), (fn, 0)]
/-- Format Q. -/
def encQ (op : Nat) (gd ga gb gc : BitVec 6) (fn : Nat) : IWord :=
  packI op [(gd.toNat, 20), (ga.toNat, 14), (gb.toNat, 8), (gc.toNat, 2), (fn, 0)]
/-- Formats I and S. -/
def encI (op : Nat) (gd ga : BitVec 6) (imm : BitVec 14) : IWord := packI op [(gd.toNat, 20), (ga.toNat, 14), (imm.toNat, 0)]
/-- Format B. -/
def encB (op : Nat) (ga gb : BitVec 6) (a : Bool) (disp : BitVec 13) : IWord :=
  packI op [(ga.toNat, 20), (gb.toNat, 14), (b2n a, 13), (disp.toNat, 0)]
/-- Format U. -/
def encU (op : Nat) (gd : BitVec 6) (imm : BitVec 20) : IWord := packI op [(gd.toNat, 20), (imm.toNat, 0)]
/-- Format J. -/
def encJ (op : Nat) (disp : BitVec 26) : IWord := packI op [(disp.toNat, 0)]
/-- Format V. -/
def encV (op : Nat) (vd va vb vc : BitVec 5) (fn : Nat) : IWord :=
  packI op [(vd.toNat, 21), (va.toNat, 16), (vb.toNat, 11), (vc.toNat, 6), (fn, 0)]
/-- Format VM. -/
def encVM (vd : BitVec 5) (ga : BitVec 6) (st : Bool) (imm : BitVec 14) : IWord :=
  packI 0x34 [(vd.toNat, 21), (ga.toNat, 15), (b2n st, 14), (imm.toNat, 0)]
/-- Format VG. -/
def encVG (vd : BitVec 5) (g : BitVec 6) (lane : BitVec 2) (fn : Nat) : IWord :=
  packI 0x35 [(vd.toNat, 21), (g.toNat, 15), (lane.toNat, 13), (fn, 0)]

/-- The function field of an ATOM-group instruction (Table 4-9). -/
def atomFn (aq rl w : Bool) (op : Nat) : Nat := b2n aq * 128 + b2n rl * 64 + b2n w * 32 + op

/-- An instruction word as a trap value. -/
def iwVal (w : IWord) : Word := BitVec.zeroExtend 64 w

/-- A sign-extended immediate (R97). -/
def sx {n : Nat} (imm : BitVec n) : Word := BitVec.signExtend 64 imm

/-- General register `r` of thread `t`; g0 reads as zero with tally 0 (R93). -/
def rg (s : State) (t : Nat) (r : BitVec 6) : TWord :=
  if r = 0 then TWord.zero else SMap.get (fun _ => TWord.zero) (thr s t).g r.toNat

/-- Writes a general register; a write of g0 is discarded (R93). -/
def wg (s : State) (t : Nat) (r : BitVec 6) (v : TWord) : State :=
  if r = 0 then s
  else updThr s t (fun x => { x with g := SMap.set (fun _ => TWord.zero) x.g r.toNat v })

/-- Lane `i` of vector register `r`. -/
def rv (s : State) (t : Nat) (r : BitVec 5) (i : Nat) : TWord :=
  SMap.get (fun _ => TWord.zero) (thr s t).v (4 * r.toNat + i)

/-- Writes one lane of a vector register. -/
def wv (s : State) (t : Nat) (r : BitVec 5) (i : Nat) (v : TWord) : State :=
  updThr s t (fun x => { x with v := SMap.set (fun _ => TWord.zero) x.v (4 * r.toNat + i) v })

/-- Writes all four lanes. -/
def wvAll (s : State) (t : Nat) (r : BitVec 5) (l : List TWord) : State :=
  foldS (fun s i => wv s t r i (l.getD i TWord.zero)) s (List.range 4)

/-- What an instruction does when it is the thread's oldest. -/
inductive Act where
  /-- It completes, and the thread goes on at the next instruction. -/
  | done (s : State)
  /-- It raises an exception. -/
  | trap (s : State) (cause : Nat) (tval : Word)
  /-- A branch or jump: its target when taken, and whether a slot not to be executed follows (R100). -/
  | xfer (s : State) (target : Option Word) (annul : Bool)
  /-- RFT, WCALL or WRET: the thread's pc and slot stand as set, and it is counted. -/
  | jump (s : State)
  /-- It waits; it is not complete. -/
  | wait (s : State) (w : Wait)
  /-- WAITSLOT or WFI parks the thread at its own address. -/
  | park (s : State) (r : RunSt) (w : Option Wait)

/-- The index of the first poisoned source (R160, Table 4-14). -/
def firstPoisoned (l : List (Nat × TWord)) : Option Nat := (l.find? (fun e => isPoisoned e.2)).map Prod.fst

/-- Some source is failed (R143). -/
def anyFailed (l : List (Nat × TWord)) : Bool := l.any (fun e => isFailed e.2)

end Sys2Proof.Machine
end

