-- ==== Sys2Proof/Machine/Flags.lean ====
section
/-! DEFINITION. The FLAGS register (Table 4-2): rounding mode, accrued floating-point flags, divide-by-zero trap. -/

namespace Sys2Proof.Machine

/-- FLAGS.RM. -/
def flagsRM (s : State) (t : Nat) : Nat := fieldN (thr s t).flags 7 5

/-- FLAGS.DZT. -/
def flagsDZT (s : State) (t : Nat) : Bool := bit (thr s t).flags 8

/-- Accrues floating-point flags (R99). -/
def accrue (s : State) (t : Nat) (fl : Word) : State := updThr s t (fun x => { x with flags := x.flags ||| (fl &&& 31) })

/-- A reserved rounding mode makes every rounding instruction raise cause 0x08 (Table 4-2). -/
def badRM (s : State) (t : Nat) : Bool := flagsRM s t > 4

end Sys2Proof.Machine
end

