-- ==== Sys2Proof/Machine/Codes.lean ====
section
/-! DEFINITION. The stored-data codes: the (80,72) word code (R262, R263), the Reed-Solomon page code (R264, R266), and
the CRCs of flits (R215) and Almanac records (R474). -/

namespace Sys2Proof.Machine

/-! ### Word code -/

/-- Number of ones of an 8-bit value. -/
def ones8 (n : Nat) : Nat := ((List.range 8).filter (fun i => n.testBit i)).length

/-- The columns of word bits 0–71: the 56 weight-3 values, then the 16 smallest weight-5 values (R262). -/
def wordColumns : List Nat :=
  (List.range 256).filter (fun n => ones8 n == 3) ++ ((List.range 256).filter (fun n => ones8 n == 5)).take 16

/-- The check byte of a 72-bit word: the XOR of the columns of its set bits (R262). -/
def wordCheck (v : Word) (tally : Byte) : Byte :=
  let bits : Nat := v.toNat + tally.toNat * 2 ^ 64
  let rec go : List Nat → Nat → Nat → Nat
    | [], _, acc => acc
    | c :: r, i, acc => go r (i + 1) (if bits.testBit i then Nat.xor acc c else acc)
  BitVec.ofNat 8 (go wordColumns 0 0)

/-- What decoding a stored word finds (Table 10-3). -/
inductive WordOutcome where
  | sound
  | corrected (w : TWord)
  | uncorrectable
  deriving DecidableEq, Repr

/-- Decodes a stored word from its syndrome (Table 10-3). -/
def wordDecode (w : TWord) (syn : Byte) : WordOutcome :=
  if syn = 0 then .sound
  else if ones8 syn.toNat = 1 then .corrected w
  else match wordColumns.findIdx? (fun c => c == syn.toNat) with
    | some i =>
      if i < 64 then .corrected ⟨w.val ^^^ maskBits i i, w.tal⟩
      else .corrected ⟨w.val, w.tal ^^^ BitVec.ofNat 8 (2 ^ (i - 64))⟩
    | none => .uncorrectable

/-! ### The field GF(2^8) of the page code (R264) -/

/-- Multiplication modulo x^8 + x^4 + x^3 + x^2 + 1. -/
def gfMul (a b : Nat) : Nat :=
  let rec go : Nat → Nat → Nat → Nat → Nat
    | 0, _, _, acc => acc
    | n + 1, a, b, acc =>
      let acc := if b % 2 = 1 then Nat.xor acc a else acc
      let a2 := 2 * a
      go n (if a2 ≥ 256 then Nat.xor a2 0x11D else a2) (b / 2) acc
  go 8 a b 0

/-- a^n. -/
def gfPow (a : Nat) : Nat → Nat
  | 0 => 1
  | n + 1 => gfMul a (gfPow a n)

/-- The inverse of a nonzero element (a^254). -/
def gfInv (a : Nat) : Nat :=
  let a2 := gfMul a a
  let a4 := gfMul a2 a2
  let a8 := gfMul a4 a4
  let a16 := gfMul a8 a8
  let a32 := gfMul a16 a16
  let a64 := gfMul a32 a32
  let a128 := gfMul a64 a64
  gfMul a128 (gfMul a64 (gfMul a32 (gfMul a16 (gfMul a8 (gfMul a4 a2)))))

/-- Sum of two polynomials, lowest coefficient first. -/
def polyAdd : List Nat → List Nat → List Nat
  | [], b => b
  | a, [] => a
  | x :: a, y :: b => Nat.xor x y :: polyAdd a b

/-- A polynomial times a constant. -/
def polyScale (c : Nat) (p : List Nat) : List Nat := p.map (gfMul c)

/-- Product of two polynomials. -/
def polyMul : List Nat → List Nat → List Nat
  | [], _ => []
  | x :: a, b => polyAdd (polyScale x b) (0 :: polyMul a b)

/-- Value of a polynomial (lowest coefficient first) at x. -/
def polyEval (p : List Nat) (x : Nat) : Nat := p.foldr (fun c acc => Nat.xor c (gfMul acc x)) 0

/-- Degree, after leading zeros are dropped. -/
def polyDeg (p : List Nat) : Nat := ((p.reverse.dropWhile (· == 0)).length) - 1

/-- The generator (x − α^0)…(x − α^7), lowest coefficient first. -/
def rsGen : List Nat := (List.range 8).foldl (fun g i => polyMul g [gfPow 2 i, 1]) [1]

/-- The 8 check symbols of 144 information symbols (highest degree first): the remainder of x^8 m(x) by g(x), the x^7
coefficient first. -/
def rsCheck (info : List Nat) : List Nat :=
  let g := (rsGen.reverse).drop 1
  info.foldl (fun (reg : List Nat) m =>
    let f := Nat.xor m (reg.headD 0)
    let shifted := reg.drop 1 ++ [0]
    polyAdd shifted (polyScale f g)) (List.replicate 8 0)

/-- The locator of position `i` of a 152-symbol codeword, highest degree first. -/
def rsLoc (i : Nat) : Nat := gfPow 2 (151 - i)

/-- Syndromes S_0 … S_7 of a codeword, highest degree first. -/
def rsSyndromes (cw : List Nat) : List Nat := (List.range 8).map (fun j => polyEval cw.reverse (gfPow 2 j))

/-- One pass of the errors-and-erasures key-equation solver. -/
def rsSolve (syn : List Nat) (f : Nat) (start : List Nat) : List Nat :=
  let rec go : Nat → Nat → List Nat → List Nat → Nat → List Nat
    | 0, _, lam, _, _ => lam
    | n + 1, r, lam, b, l =>
      let d := (List.range (lam.length)).foldl
        (fun acc i => if i < r then Nat.xor acc (gfMul (lam.getD i 0) (syn.getD (r - 1 - i) 0)) else acc) 0
      let xb := 0 :: b
      if d = 0 then go n (r + 1) lam xb l
      else
        let t := polyAdd lam (polyScale d xb)
        if 2 * l ≤ r + f - 1 then go n (r + 1) t (polyScale (gfInv d) lam) (r + f - l)
        else go n (r + 1) t xb l
  go (8 - f) (f + 1) start start f

/-- Decodes a 152-symbol codeword with these erasure positions: the corrected codeword when 2e + f ≤ 8, with at most
`maxErr` errors (R266). -/
def rsDecode (cw : List Nat) (erasures : List Nat) : Option (List Nat) :=
  let syn := rsSyndromes cw
  if syn.all (· == 0) then some cw
  else if erasures.length > 8 then none
  else
    let gamma := erasures.foldl (fun p i => polyMul p [1, rsLoc i]) [1]
    let lam := rsSolve syn erasures.length gamma
    let pos := (List.range 152).filter (fun i => polyEval lam (gfInv (rsLoc i)) == 0)
    if pos.length ≠ polyDeg lam then none
    else
      let omega := (polyMul syn lam).take 8
      let dlam := (List.range (lam.length - 1)).map (fun i => if i % 2 = 0 then lam.getD (i + 1) 0 else 0)
      let fix := pos.foldl (fun (c : List Nat) i =>
        let x := rsLoc i
        let xi := gfInv x
        let y := gfMul x (gfMul (polyEval omega xi) (gfInv (polyEval dlam xi)))
        c.set i (Nat.xor (c.getD i 0) y)) cw
      if (rsSyndromes fix).all (· == 0) && 2 * (pos.filter (fun i => !erasures.contains i)).length + erasures.length ≤ 8
      then some fix else none

/-! ### CRCs -/

/-- One byte through an MSB-first CRC of `w` bits. -/
def crcByte (w poly crc b : Nat) : Nat :=
  let rec go : Nat → Nat → Nat
    | 0, c => c
    | n + 1, c =>
      let c2 := 2 * c
      go n (if c2 ≥ 2 ^ w then Nat.xor (c2 % 2 ^ w) poly else c2)
  go 8 (Nat.xor crc (b * 2 ^ (w - 8)))

/-- CRC-16 of Almanac records (R474). -/
def crc16 (l : List Byte) : Nat := l.foldl (fun c b => crcByte 16 0x1021 c b.toNat) 0xFFFF

/-- CRC-8 of flit headers (R215). -/
def crc8 (l : List Byte) : Nat := l.foldl (fun c b => crcByte 8 0x07 c b.toNat) 0

/-- One byte through the reflected CRC-32 of IEEE 802.3. -/
def crc32Byte (crc b : Nat) : Nat :=
  let rec go : Nat → Nat → Nat
    | 0, c => c
    | n + 1, c => go n (if c % 2 = 1 then Nat.xor (c / 2) 0xEDB88320 else c / 2)
  go 8 (Nat.xor crc b)

/-- CRC-32 with the IEEE 802.3 polynomial (R399). -/
def crc32 (l : List Byte) : Nat := Nat.xor (l.foldl (fun c b => crc32Byte c b.toNat) 0xFFFFFFFF) 0xFFFFFFFF

end Sys2Proof.Machine
end

