-- ==== Sys2Proof/Machine/Packet.lean ====
section
/-! DEFINITION. Packets of the mesh: the flit header (Table 8-1), route selection (R221), end-to-end credits (R224–R226), order
(R227), and the counters of a stop (R233). -/

namespace Sys2Proof.Machine

/-! ### Stops and links (Tables 2-1, 8-2, R48) -/

/-- Coordinates of a stop (Table 2-1). -/
def stopXY (n : Nat) : Nat × Nat :=
  if n < 64 then (n % 8, n / 8 + 1) else if n < 72 then (n - 64, 0) else if n < 80 then (n - 72, 9)
  else (8, if n = 80 then 2 else if n = 81 then 3 else if n = 82 then 6 else 7)

/-- The stop at a position. -/
def stopAt (x y : Nat) : Option Nat := (List.range 84).find? (fun n => stopXY n == (x, y))

/-- The quad tile that a stop's link leads to; a tile is its own (R48). -/
def linkTile (n : Nat) : Nat :=
  if n < 64 then n else if n < 72 then n - 64 else if n < 80 then 56 + (n - 72) else 8 * ((stopXY n).2 - 1) + 7

/-- A link leaves stop `n` in direction `d` (0 +x, 1 −x, 2 +y, 3 −y; a memory or bridge stop's one link is direction 0) (R48). -/
def linkOk (n d : Nat) : Bool :=
  if n ≥ 84 then false
  else if n ≥ 64 then d = 0
  else
    let (x, y) := stopXY n
    match d with
    | 0 => (stopAt (x + 1) y).isSome
    | 1 => x ≥ 1
    | 2 => (stopAt x (y + 1)).isSome
    | _ => (stopAt x (y - 1)).isSome

/-- The numbers from `a` to `b`, rising or falling. -/
def runTo (a b : Nat) : List Nat := if a ≤ b then (List.range (b - a + 1)).map (a + ·) else (List.range (a - b + 1)).map (a - ·)

/-- The tiles whose routers a packet passes (R221): from the source's tile to the destination's, X then Y or Y then X; none within
one stop. -/
def routeTiles (src dst : Nat) (yx : Bool) : List Nat :=
  if src = dst then []
  else
    let (x, y) := stopXY (linkTile src)
    let (x', y') := stopXY (linkTile dst)
    let cells := if yx then (runTo y y').map (fun v => (x, v)) ++ ((runTo x x').drop 1).map (fun v => (v, y'))
      else (runTo x x').map (fun v => (v, y)) ++ ((runTo y y').drop 1).map (fun v => (x', v))
    cells.map (fun c => 8 * (c.2 - 1) + c.1)

/-! ### The flit header (Table 8-1, R215–R218) -/

/-- The identity of the unit that issues a packet, from which the source interface writes SRC, SUNIT, MEMBER, PART and SEC
(R216, R217). -/
structure MeshUnit where
  stop : Nat
  unit : Nat
  member : Nat := 0
  part : Nat := 0
  sec : Bool := false
  deriving DecidableEq, Repr

/-- A header with its HCRC over bits [63:8], the highest first (R215). -/
def withCrc (w : Word) : Word := setField w 7 0 (crc8 ((List.range 7).map (fun i => byteOf w (7 - i))))

/-- The header of a packet's first flit; `two` says that a second flit follows. -/
def hdrWord (u : MeshUnit) (vc dst dunit op txn : Nat) (spec two iso : Bool) : Word :=
  let w := setField (setField (setField (setField 0 63 62 vc) 61 55 dst) 54 52 dunit) 51 45 u.stop
  let w := setField (setField (setField (setField w 44 42 u.unit) 41 36 op) 35 24 txn) 23 20 u.part
  withCrc (setField (setBit (setBit (setBit (setBit w 19 u.sec) 18 spec) 16 two) 15 iso) 10 8 u.member)

/-- The header of the second flit: SEQ = 1, MORE = 0 (R215). -/
def hdrSecond (w : Word) : Word := withCrc (setBit (setBit w 17 true) 16 false)

/-- Header fields of a packet. -/
def Pkt.src (p : Pkt) : Nat := fieldN p.hdr 51 45
/-- SUNIT. -/
def Pkt.sunit (p : Pkt) : Nat := fieldN p.hdr 44 42
/-- DST. -/
def Pkt.dst (p : Pkt) : Nat := fieldN p.hdr 61 55
/-- OP. -/
def Pkt.op (p : Pkt) : Nat := fieldN p.hdr 41 36
/-- The response class (OP[5]). -/
def Pkt.resp (p : Pkt) : Bool := bit p.hdr 41
/-- A snoop. -/
def Pkt.snoop (p : Pkt) : Bool := 0x10 ≤ p.op && p.op ≤ 0x13

/-- The entry of the source stop's route table that a packet uses (R221): the lowest VALID one of its class that covers DST. -/
def routeEntry (s : State) (src dst : Nat) (resp : Bool) : Word :=
  let e (i : Nat) : Word := getR s .MESH_ROUTE 0 src i
  e (((List.range 127).find? (fun i =>
    bit (e i) 63 && bit (e i) (if resp then 59 else 58) && fieldN (e i) 50 44 ≤ dst && dst ≤ fieldN (e i) 57 51)).getD 127)

/-! ### Counters of a stop (R233) -/

/-- `n` flits counted in MESH_CNT[stop][k]. -/
def flitCount (s : State) (stop k n : Nat) : State := foldS (fun s _ => updR s .MESH_CNT cnt48 0 stop k) s (List.range n)

/-- A packet of `n` flits goes from stop `src` to stop `dst` within one event: MESH_CNT counts its flits at both, and a packet that
enters no router at its stop. -/
def meshCount (s : State) (src dst n : Nat) : State :=
  let s := flitCount (flitCount s src 0 n) dst 1 n
  if src = dst then updR s .MESH_CNT cnt48 0 src 3 else s

/-! ### End-to-end credits (R224–R226) -/

/-- The reserved credits that a stop's quad set or slice set holds for each destination (R224). -/
def reservedCap (s : State) (src : Nat) (slice : Bool) : Nat :=
  if src ≥ 64 then 0
  else match if slice then slicePart s src else quadPart s src with
    | some p => (knots s p).part.credits
    | none => 0

/-- The credit record of a source stop for a destination stop. -/
def creditOf (s : State) (src dst : Nat) : Credit := SMap.get (fun _ => {}) s.credits (src * 128 + dst)

/-- Replaces a credit record. -/
def setCredit (s : State) (src dst : Nat) (c : Credit) : State :=
  { s with credits := SMap.set (fun _ => {}) s.credits (src * 128 + dst) c }

/-- The set from which a waiting request packet can spend one credit for each of its flits (R225): a snoop the snoop set; any other
its unit's reserved set where that has them, else the general set; none: it waits at its source. -/
def creditPick (s : State) (p : Pkt) : Option CreditSet :=
  let c := creditOf s p.src p.dst
  if p.snoop then (if c.snoop < 1 then some .snoop else none)
  else
    let slice := p.sunit ≥ 5
    let used := if slice then c.sliceRes else c.quadRes
    if used + p.flits ≤ reservedCap s p.src slice then some (if slice then .slice else .quad)
    else if c.general + p.flits ≤ 2 then some .general
    else none

/-- Spends `n` credits of a set. -/
def creditSpend (s : State) (src dst n : Nat) (k : CreditSet) : State :=
  let c := creditOf s src dst
  setCredit s src dst (match k with
    | .none => c
    | .general => { c with general := c.general + n }
    | .quad => { c with quadRes := c.quadRes + n }
    | .slice => { c with sliceRes := c.sliceRes + n }
    | .snoop => { c with snoop := c.snoop + n })

/-- A packet enters the mesh: its credits are spent, ISO says whether they are reserved ones (a snoop's says whether its slice holds a
slice reserved set), and it takes its place in the order of its class (R225, R227). -/
def injectPkt (s : State) (p : Pkt) (k : CreditSet) : Pkt × State :=
  let iso := match k with
    | .quad => true
    | .slice => true
    | .snoop => reservedCap s p.src true != 0
    | _ => false
  let s := creditSpend (flitCount s p.src 0 p.flits) p.src p.dst p.flits k
  ({ p with hdr := withCrc (setBit p.hdr 15 iso), seq := s.meshSeq + 1, sent := true, set := k }, { s with meshSeq := s.meshSeq + 1 })

/-- Every packet that the mesh or a source interface holds. -/
def flying (s : State) : List Pkt :=
  s.net.map Msg.pkt ++ s.regNet.map RegMsg.pkt
    ++ (s.psNet.filter (fun m => m.answer.isSome || !s.ps.wait.contains (m.point, m.thread))).map PsMsg.pkt
    ++ s.tightNet.map TightenMsg.pkt ++ s.pcNet.map PcMsg.pkt

/-- An earlier packet of the same kind waits at the same source for the same destination. -/
def waitsBefore (s : State) (p : Pkt) : Bool :=
  (flying s).any (fun q => !q.sent && q.src = p.src && q.dst = p.dst && q.snoop == p.snoop)

/-- A source interface issues a packet (R215–R221, R225): its header, its route, and its entry into the mesh; a request without
credits waits at the source. The transaction tag is its source's choice (log 104). -/
def mkPkt (s : State) (u : MeshUnit) (dst dunit op : Nat) (spec : Bool) (flits : Nat) : Pkt × State :=
  let resp := decide (32 ≤ op)
  let yx := bit (routeEntry s u.stop dst resp) 60
  let p : Pkt := { hdr := hdrWord u ((if resp then 2 else 0) + b2n yx) dst dunit op (s.meshSeq % 4096) spec (flits = 2) false, flits := flits, sent := false, path := routeTiles u.stop dst yx }
  if resp then injectPkt s p .none
  else if waitsBefore s p then (p, s)
  else match creditPick s p with
    | some k => injectPkt s p k
    | none => (p, s)

/-- The packet has arrived where it is going: it was sent, and every earlier packet of its class between its two stops has been taken
(R227). -/
def arrivedPkt (s : State) (p : Pkt) : Bool :=
  p.sent && !(flying s).any (fun q => q.sent && q.resp == p.resp && q.src = p.src && q.dst = p.dst && q.seq < p.seq)

/-- A packet leaves the mesh at its destination: its flits are counted, and a packet that entered no router. -/
def ejectPkt (s : State) (p : Pkt) : State :=
  let s := flitCount s p.dst 1 p.flits
  if p.src = p.dst then updR s .MESH_CNT cnt48 0 p.src 3 else s

/-- Sends what waits in one list for credits from `src` to `dst`, in order. -/
def retryList {α : Type} (get : α → Pkt) (put : α → Pkt → α) (src dst : Nat) (l : List α) (s : State) : List α × State :=
  l.foldl (fun acc x =>
    let p := get x
    if p.sent || p.src ≠ src || p.dst ≠ dst then (acc.1 ++ [x], acc.2)
    else match creditPick acc.2 p with
      | some k =>
        let (p, s) := injectPkt acc.2 p k
        (acc.1 ++ [put x p], s)
      | none => (acc.1 ++ [x], acc.2)) ([], s)

/-- Credits have come back to `src` for `dst`: what waits there is sent (R225). -/
def retryPkts (s : State) (src dst : Nat) : State :=
  if !(flying s).any (fun p => !p.sent && p.src = src && p.dst = dst) then s
  else
    let (l, s) := retryList Msg.pkt (fun m p => { m with pkt := p }) src dst s.net s
    let s := { s with net := l }
    let (l, s) := retryList RegMsg.pkt (fun m p => { m with pkt := p }) src dst s.regNet s
    let s := { s with regNet := l }
    let (l, s) := retryList PsMsg.pkt (fun m p => { m with pkt := p }) src dst s.psNet s
    let s := { s with psNet := l }
    let (l, s) := retryList TightenMsg.pkt (fun m p => { m with pkt := p }) src dst s.tightNet s
    let s := { s with tightNet := l }
    let (l, s) := retryList PcMsg.pkt (fun m p => { m with pkt := p }) src dst s.pcNet s
    { s with pcNet := l }

/-- A CREDIT packet returns these numbers of credits, at most those freed (R226). -/
def creditReturn (s : State) (src dst g q l n : Nat) : State :=
  let c := creditOf s src dst
  let g := min g c.freedGeneral
  let q := min q c.freedQuad
  let l := min l c.freedSlice
  let n := min n c.freedSnoop
  if g + q + l + n = 0 then s
  else retryPkts (setCredit (meshCount s dst src 1) src dst { general := c.general - g, quadRes := c.quadRes - q, sliceRes := c.sliceRes - l, snoop := c.snoop - n, freedGeneral := c.freedGeneral - g, freedQuad := c.freedQuad - q, freedSlice := c.freedSlice - l, freedSnoop := c.freedSnoop - n }) src dst

/-- Returns every freed credit (R226). -/
def creditReturnAll (s : State) (src dst : Nat) : State :=
  let c := creditOf s src dst
  creditReturn s src dst c.freedGeneral c.freedQuad c.freedSlice c.freedSnoop

/-- The destination has finished with a request: its entries are freed (R225), in the set that its credits came from, and four freed
entries make a CREDIT packet (R226). -/
def creditDone (s : State) (p : Pkt) : State :=
  if p.set == .none then s
  else
    let c := creditOf s p.src p.dst
    let c := match p.set with
      | .none => c
      | .general => { c with freedGeneral := c.freedGeneral + p.flits }
      | .quad => { c with freedQuad := c.freedQuad + p.flits }
      | .slice => { c with freedSlice := c.freedSlice + p.flits }
      | .snoop => { c with freedSnoop := c.freedSnoop + p.flits }
    let s := setCredit s p.src p.dst c
    if c.freedGeneral + c.freedQuad + c.freedSlice + c.freedSnoop ≥ 4 then creditReturnAll s p.src p.dst else s

/-- Packets that leave the mesh unused, as a reset of their sender has it: their entries are freed. -/
def dropPkts (s : State) (l : List Pkt) : State := foldS creditDone s l

/-! ### Identities (R216, R217) -/

/-- A thread as the unit that issues register and Point Store requests. -/
def threadUnit (s : State) (t : Nat) : MeshUnit :=
  { stop := t / 16, unit := t / 4 % 4, member := t % 4, part := (threadPart s t).getD 0, sec := (thr s t).world == .secure }

/-- A register server: unit 7 of its stop. -/
def serverUnit (stop : Nat) : MeshUnit := { stop := stop, unit := 7 }

/-- The slice of a tile, unit 5, or its Point Store engine, unit 6. -/
def sliceUnit (s : State) (n unit : Nat) : MeshUnit := { stop := n, unit := unit, part := (slicePart s n).getD 0 }

end Sys2Proof.Machine
end

