-- ==== Sys2Proof/Machine/Mem.lean ====
section
/-! DEFINITION. The DRAM behind the memory channels: bytes, tallies, stored codes, initialisation, page states, and the
repair of a page (ch. 10). -/

namespace Sys2Proof.Machine

/-! ### Location (R260, R265) -/

/-- The channel of a DRAM address: A[11:8] XOR A[15:12] (Table 10-2). -/
def channelOf (pa : Nat) : Nat := Nat.xor (pa / 256 % 16) (pa / 4096 % 16)

/-- Page number A[37:12]. -/
def pageOf (pa : Nat) : Nat := pa / 4096

/-- The page master of page P: A[15:12] (R265). -/
def masterOf (page : Nat) : Nat := page % 16

/-- log2 of the number of bank colours. -/
def colourBits (s : State) : Nat := if s.rig.dev.colours ≤ 1 then 0 else Nat.log2 s.rig.dev.colours

/-- Bank and row of a DRAM address (Table 10-2). -/
def bankRow (s : State) (pa : Nat) : Nat × Nat :=
  let n := colourBits s
  let hiBits := pa / 2 ^ (38 - n) % 2 ^ n
  let loBits := pa / 2 ^ 12 % 2 ^ (5 - n)
  let q := pa / 2 ^ (17 - n) % 2 ^ 21
  (hiBits * 2 ^ (5 - n) + loBits, q / 32)

/-! ### Stored bytes and words -/

/-- The canonical form of the stored bytes: addresses strictly rising, and no entry equal to 0, which an unlisted address reads
as. -/
def Memory.wf (m : List Host.Cell) : Bool := SMap.wf (fun _ => 0) m

/-- The stored byte at a DRAM address. -/
def memByte (s : State) (a : Nat) : Byte := SMap.get (fun _ => 0) s.mem a

/-- Writes one stored byte. -/
def setMemByte (s : State) (a : Nat) (b : Byte) : State := { s with mem := SMap.set (fun _ => 0) s.mem a b }

/-- The eight stored bytes of word `w` (address 8 w), little-endian. -/
def memBytes8 (s : State) (w : Nat) : Word :=
  w64 (leNat ((List.range 8).map (fun i => memByte s (8 * w + i))))

/-- Chunk `c` (address 256 c) is unscrubbed (R274). -/
def isUnscrubbed (s : State) (c : Nat) : Bool := s.unscrubbed.any (fun r => r.1 ≤ c && c < r.1 + r.2)

/-- The ranges with chunk `c` removed. -/
def dropChunk (l : List (Nat × Nat)) (c : Nat) : List (Nat × Nat) :=
  l.flatMap (fun r =>
    if r.1 ≤ c && c < r.1 + r.2 then
      (if r.1 < c then [(r.1, c - r.1)] else []) ++ (if c + 1 < r.1 + r.2 then [(c + 1, r.1 + r.2 - (c + 1))] else [])
    else [r])

/-! ### The Point Store region (R342, R345, R346) -/

/-- The point whose entry a line holds. -/
def ptOfLine (s : State) (line : Nat) : Option Nat :=
  if s.rig.dev.ptBase ≤ 64 * line && 64 * line < s.rig.dev.ptBase + s.rig.dev.ptSize then
    some (line - s.rig.dev.ptBase / 64)
  else none

/-- The line of a point's entry. -/
def ptLine (s : State) (p : Nat) : Nat := s.rig.dev.ptBase / 64 + p

/-- Word 6 as rigging gives it (R346): no group, FORMAT and MIRROR 0, CLASS, OWNER and OWNED from the record that grants
the write right. -/
def rigWord6 (s : State) (p : Nat) : Word :=
  let own := (partIds s).findSome? (fun q =>
    ((knots s q).points.find? (fun r => r.write && r.first ≤ p && p < r.first + r.count)).map (fun r => (q, r.cls)))
  match own with
  | some (q, c) => setBit (setField (setField (maskBits 63 48) 47 44 c) 43 40 q) 39 true
  | none => maskBits 63 48

/-- Word 7 as rigging gives it (R346): the exchange context that binds the point, and its guarded output. -/
def rigWord7 (s : State) (p : Nat) : Word :=
  let bound := (partIds s).findSome? (fun q => (knots s q).exch.find? (fun e => e.point ≤ p && p < e.point + e.count))
  match bound with
  | some e =>
    let w := setField (setBit (maskBits 63 63) 62 e.output) 47 32 e.ctx
    if e.output && e.guard ≠ 0xFFFF then setField (setBit w 15 true) 14 0 (e.guard + (p - e.point)) else w
  | none => 0

/-- A point's entry as Bowline writes it (R346). -/
def riggedEntry (s : State) (p : Nat) : Line :=
  List.replicate 6 TWord.zero ++ [gen (rigWord6 s p), gen (rigWord7 s p)]

/-- A point's entry as DRAM holds it. -/
def pointLine (s : State) (p : Nat) : Line := (SMap.get (fun _ => none) s.ps.mem p).getD (riggedEntry s p)

/-- Stores a point's entry in DRAM. -/
def setPointLine (s : State) (p : Nat) (d : Line) : State :=
  { s with ps := { s.ps with mem := SMap.set (fun _ => none) s.ps.mem p (if d == riggedEntry s p then none else some d) } }

/-- A word as stored, with its tally; an unscrubbed chunk reads as zeros with tally 0 (R274). -/
def memWord (s : State) (w : Nat) : TWord :=
  match ptOfLine s (w / 8) with
  | some p => lineWord (pointLine s p) (w % 8)
  | none =>
    if isUnscrubbed s (w / 32) then TWord.zero else ⟨memBytes8 s w, SMap.get (fun _ => 0) s.memTally w⟩

/-- The syndrome of a stored word (R263); an unscrubbed chunk has valid codes. -/
def memSyndrome (s : State) (w : Nat) : Byte :=
  if isUnscrubbed s (w / 32) then 0 else SMap.get (fun _ => 0) s.memSyn w

/-- Writes word `w` with this syndrome. -/
def putWord (s : State) (w : Nat) (x : TWord) (syn : Byte) : State :=
  let s := { s with memSyn := SMap.set (fun _ => 0) s.memSyn w syn }
  match ptOfLine s (w / 8) with
  | some p => setPointLine s p ((pointLine s p).set (w % 8) x)
  | none =>
    let s := (List.range 8).foldl (fun s i => setMemByte s (8 * w + i) (byteOf x.val i)) s
    { s with memTally := SMap.set (fun _ => 0) s.memTally w x.tal }

/-- Writes zeros with valid codes over chunk `c` and marks it initialised (R274). -/
def zeroChunk (s : State) (c : Nat) : State :=
  let s := (List.range 32).foldl (fun s i => putWord s (32 * c + i) TWord.zero 0) s
  { s with unscrubbed := dropChunk s.unscrubbed c }

/-- Writes a line with valid codes; a write into an unscrubbed chunk first zeroes the chunk (R274). -/
def putLine (s : State) (line : Nat) (d : Line) : State :=
  let s := if isUnscrubbed s (line / 4) then zeroChunk s (line / 4) else s
  (List.range 8).foldl (fun s i => putWord s (8 * line + i) (lineWord d i) 0) s

/-- The line as stored, undecoded. -/
def rawLine (s : State) (line : Nat) : Line := (List.range 8).map (fun i => memWord s (8 * line + i))

/-! ### Correctable errors (R213, R276) -/

/-- Bucket depth and leak interval of a source class (R489). -/
def bucketCfg (s : State) (cls : Nat) : Nat × Nat :=
  match s.rig.dev.buckets.find? (fun b => b.1 == cls) with
  | some b => b.2
  | none => (16, 1000)

/-- An event of channel `m`'s bucket at `addr` (R276): a correctable error or a successful repair. -/
def chanBucket (s : State) (m addr : Nat) : State :=
  let n := (chanOf s m).bucket + 1
  if n ≥ (bucketCfg s 5).1 then
    let s := updChan s m (fun c => { c with bucket := 0 })
    let s := updR s .MCH_CE_BUCKET (fun w => setBit w 63 true) m
    let s := alm s 0x3012 3 5 m (lo32 addr) (hi32 addr)
    { s with mgmtIrq := irqSrc .MCH_CE_BUCKET m :: s.mgmtIrq.filter (· != irqSrc .MCH_CE_BUCKET m) }
  else updChan s m (fun c => { c with bucket := n })

/-- A word of channel `m` corrected by the word code: counted, and the bucket of R276. -/
def chanCE (s : State) (m addr : Nat) : State := chanBucket (updR s .MCH_ERR_CNT (fun w => satInc w 63 32) m) m addr

/-- Decodes the words of a line (Table 10-3): the line with single-bit errors corrected, and the uncorrectable words;
corrections are counted. -/
def readDecode (s : State) (line : Nat) : Line × List Nat × State :=
  let m := channelOf (64 * line)
  (List.range 8).foldl (fun (acc : Line × List Nat × State) i =>
    let (l, bad, s) := acc
    let w := memWord s (8 * line + i)
    match wordDecode w (memSyndrome s (8 * line + i)) with
    | .sound => (l ++ [w], bad, s)
    | .corrected c => (l ++ [c], bad, chanCE s m (8 * (8 * line + i)))
    | .uncorrectable => (l ++ [w], bad ++ [i], s)) ([], [], s)

/-! ### Page code (R264–R272) -/

/-- The page is STALE (R267). -/
def isStale (s : State) (page : Nat) : Bool := SMap.get (fun _ => false) s.stale page

/-- Marks a page STALE or CURRENT. -/
def markStale (s : State) (page : Nat) (b : Bool) : State := { s with stale := SMap.set (fun _ => false) s.stale page b }

/-- Word `w` (0–511) of a page as stored. -/
def pageWord (s : State) (page w : Nat) : TWord := memWord s (512 * page + w)

/-- The information symbols of codeword `k`: data bytes in ascending order, then tally bytes (R264). -/
def pageInfo (words : List TWord) (k : Nat) : List Nat :=
  let data := (List.range 4096).filter (fun b => (b / 8 + 4 * (b % 8)) % 32 == k)
  let tal := (List.range 512).filter (fun w => (w + 16) % 32 == k)
  data.map (fun b => (byteOf (words.getD (b / 8) TWord.zero).val (b % 8)).toNat) ++
    tal.map (fun w => (words.getD w TWord.zero).tal.toNat)

/-- The 32 check words of a page from its words: word k holds codeword k's check symbols, x^7 in byte 0 (R265). -/
def pageCheckWords (words : List TWord) : List Word :=
  (List.range 32).map (fun k => w64 (leNat ((rsCheck (pageInfo words k)).map (fun n => BitVec.ofNat 8 n))))

/-- The words of a page as stored, single-bit errors corrected, with the indexes of uncorrectable words. -/
def pageWords (s : State) (page : Nat) : List TWord × List Nat :=
  (List.range 512).foldl (fun (acc : List TWord × List Nat) w =>
    let x := pageWord s page w
    match wordDecode x (memSyndrome s (512 * page + w)) with
    | .sound => (acc.1 ++ [x], acc.2)
    | .corrected c => (acc.1 ++ [c], acc.2)
    | .uncorrectable => (acc.1 ++ [x], acc.2 ++ [w])) ([], [])

/-- Check word `k` of a page as decoded by its word code: the word, and whether it is uncorrectable (R265). -/
def checkWord (s : State) (page k : Nat) : TWord × Bool :=
  let x := SMap.get (fun _ => (TWord.zero, 0)) s.pageCode (32 * page + k)
  match wordDecode x.1 x.2 with
  | .sound => (x.1, false)
  | .corrected c => (c, false)
  | .uncorrectable => (x.1, true)

/-- The erasure positions of codeword `k` when these words are uncorrectable; `chk` says that its check word is (R265, R266). -/
def pageErasures (bad : List Nat) (chk : Bool) (k : Nat) : List Nat :=
  let data := (List.range 4096).filter (fun b => (b / 8 + 4 * (b % 8)) % 32 == k)
  let tal := (List.range 512).filter (fun w => (w + 16) % 32 == k)
  let pos := data.map (fun b => b / 8) ++ tal
  (List.range 144).filter (fun i => bad.contains (pos.getD i 512)) ++ (if chk then (List.range 8).map (144 + ·) else [])

/-- One attempt of R266 over all 32 codewords: the corrected information symbols of each, or none. -/
def pageAttempt (s : State) (page : Nat) (words : List TWord) (erase : Nat → List Nat) : Option (List (List Nat)) :=
  (List.range 32).foldl (fun acc k =>
    match acc with
    | none => none
    | some l =>
      let chk := (List.range 8).map (fun i => (byteOf (checkWord s page k).1.val i).toNat)
      match rsDecode (pageInfo words k ++ chk) (erase k) with
      | some cw => some (l ++ [cw.take 144])
      | none => none) (some [])

/-- The words of a page put together from the information symbols of its codewords. -/
def pageFromInfo (info : List (List Nat)) : List TWord :=
  let place (k : Nat) : List (Nat × Nat) :=
    let data := (List.range 4096).filter (fun b => (b / 8 + 4 * (b % 8)) % 32 == k)
    let tal := (List.range 512).filter (fun w => (w + 16) % 32 == k)
    (data ++ tal.map (· + 4096)).zip (info.getD k [])
  let all := (List.range 32).flatMap place
  (List.range 512).map (fun w =>
    let b (i : Nat) : Nat := ((all.find? (fun e => e.1 == i)).map Prod.snd).getD 0
    ⟨w64 (leNat ((List.range 8).map (fun j => BitVec.ofNat 8 (b (8 * w + j))))), BitVec.ofNat 8 (b (4096 + w))⟩)

/-- Decodes a page, given its words and the indexes of the uncorrectable ones, by the first of the two attempts of R266 that succeeds;
the result is accepted only when every corrected word's tally agrees. -/
def pageDecode (s : State) (page : Nat) (words : List TWord) (bad : List Nat) : Option (List TWord) :=
  let ok (info : List (List Nat)) : Option (List TWord) :=
    let r := pageFromInfo info
    if (List.range 512).all (fun w => r.getD w TWord.zero == words.getD w TWord.zero && !bad.contains w
        || isSound (r.getD w TWord.zero)) then some r else none
  let erase (k : Nat) : List Nat := pageErasures bad (checkWord s page k).2 k
  let first := if (List.range 32).all (fun k => (erase k).length ≤ 8) then pageAttempt s page words erase else none
  match first with
  | some info => ok info
  | none => (pageAttempt s page words (fun _ => [])).bind ok

/-- Writes the check words of a page with valid codes and tallies (R265). -/
def putCheck (s : State) (page : Nat) (chk : List Word) : State :=
  { s with pageCode := (List.range 32).foldl (fun pc k => SMap.set (fun _ => (TWord.zero, 0)) pc (32 * page + k) (gen (chk.getD k 0), 0)) s.pageCode }

/-- Writes the page code of a page from its words and marks it CURRENT (R268). -/
def rebuildPage (s : State) (page : Nat) (words : List TWord) : State :=
  let chk := pageCheckWords words
  let s := putCheck s page chk
  updR (markStale s page false) .MCH_PC_STS (fun w => satInc w 63 32) (masterOf page)

/-- Records the first uncorrectable word of a channel (MCH_ERR_ADDR); KIND 3 gives the page of a check word. -/
def noteUncorrectable (s : State) (m addr kind : Nat) : State :=
  if bit (getR s .MCH_ERR_ADDR m) 63 then s
  else setR s .MCH_ERR_ADDR (setBit (setField (setField 0 62 61 kind) 37 3 (addr / 8)) 63 true) m

/-- Queues a page for rebuild from epoch `due` on. -/
def queuePage (s : State) (m page due : Nat) : State := updChan s m (fun c => { c with rebuildQ := c.rebuildQ ++ [(page, due)] })

/-- A note for a write to a page: the page master marks it STALE and queues it for rebuild, REBUILD_DELAY after the note; a full queue
leaves it to the scrub, and a gather under way for it has missed the write (R267, R268). -/
def masterNote (s : State) (page : Nat) : State :=
  let m := masterOf page
  let s := markStale s page true
  let s := updChan s m (fun c => { c with jobs := c.jobs.map (fun j => if j.page = page then { j with noted := true } else j) })
  if ((chanOf s m).rebuildQ.any (fun e => e.1 == page)) then s
  else if (chanOf s m).rebuildQ.length < 1024 then queuePage s m page (s.epoch + 100 * fieldN (getR s .MCH_ECC_CTL m) 15 0)
  else updR s .MCH_PC_STS (fun w => satInc w 31 16) m

/-- KIND codes of Table 10-4. -/
def pcKindNo : PcKind → Nat
  | .note => 0
  | .gather => 1
  | .data => 2
  | .write => 3
  | .repair => 4
  | .release => 5

/-- The transfer that a KIND code names; 6 and 7 are reserved. -/
def pcKindOf (n : Nat) : Option PcKind :=
  match n with
  | 0 => some .note
  | 1 => some .gather
  | 2 => some .data
  | 3 => some .write
  | 4 => some .repair
  | 5 => some .release
  | _ => none

/-- Payload word 0 of a transfer's second flit (Table 10-4, R270). -/
def pcWord (m : PcMsg) : Word :=
  let w := setField (setField (setField (setField 0 39 32 m.flags) 31 30 m.line) 29 4 m.page) 2 0 (pcKindNo m.kind)
  setBit w 3 m.hold

/-- The controls of a transfer as its receiver reads them from that word. -/
def pcRead (m : PcMsg) : PcMsg :=
  let w := m.word
  { m with kind := (pcKindOf (fieldN w 2 0)).getD m.kind, hold := bit w 3, page := fieldN w 29 4, line := fieldN w 31 30, flags := fieldN w 39 32, fail := m.kind == .release && bit w 32 }

/-- Sends a page-code repair transfer; PC_REPAIR has two flits (Table 9-2). -/
def sendPc (s : State) (m : PcMsg) : State :=
  let (p, s) := mkPkt s { stop := 64 + m.src, unit := 0 } (64 + m.dst) 0 (if m.ack then 0x32 else 0x16) false (if m.ack then 1 else 2)
  { s with pcNet := s.pcNet ++ [{ m with word := pcWord m, pkt := p }] }

/-- A write of a line by its controller (R259, R267, R274): the pair buffer loses both lines of the pair, and a page not
in the note filter is entered and noted at once. -/
def ctlWrite (s : State) (line : Nat) (d : Line) : State :=
  let m := channelOf (64 * line)
  let page := line / 64
  let s := putLine s line d
  let s := updChan s m (fun c => { c with pairBuf := c.pairBuf.filter (fun l => l.1 / 2 != line / 2) })
  if (chanOf s m).noteFilter.any (fun e => e.1 == page) then s
  else
    let s := updChan s m (fun c =>
      let f := c.noteFilter ++ [(page, s.epoch)]
      { c with noteFilter := if f.length > 256 then f.drop 1 else f })
    sendPc s { kind := .note, page := page, dst := masterOf page, src := m }

/-- The line after a repair that failed: uncorrectable words take tally 0xFF (R272). -/
def poisonWords (d : Line) (bad : List Nat) : Line :=
  (List.range 8).map (fun i => if bad.contains i then poison (lineWord d i).val else lineWord d i)

/-- A line written after a repair is read again: its row may prove bad (R273). -/
def rereadRow (s : State) (m line : Nat) : State :=
  let k := bankRow s (64 * line)
  updChan s m (fun c => { c with reread := if c.reread.contains k then c.reread else c.reread ++ [k] })

/-- Repairs or fails the page of a line at once (R271, R272): the line to answer with and whether it carries words
found uncorrectable. The whole exchange of PC_REPAIR transfers takes place inside the request that needed it. -/
def repairNow (s : State) (line : Nat) (bad : List Nat) (d : Line) : Line × Bool × State :=
  let m := channelOf (64 * line)
  let page := line / 64
  let addr := 64 * line + 8 * bad.headD 0
  let fail (s : State) : Line × Bool × State :=
    let l := poisonWords d bad
    (l, true, ctlWrite s line l)
  if isStale s page then
    let s := noteUncorrectable s m addr 2
    let s := updR s .MCH_ERR_CNT (fun w => satInc w 7 0) m
    fail (alm s 0x3011 4 5 m (lo32 addr) (hi32 addr) 1)
  else
    let pw := pageWords s page
    match pageDecode s page pw.1 pw.2 with
    | some words =>
      let s := noteUncorrectable s m addr 0
      let s := (List.range 64).foldl (fun s i =>
        let l := (List.range 8).map (fun j => words.getD (8 * i + j) TWord.zero)
        if l == rawLine s (64 * page + i) && (List.range 8).all (fun j => memSyndrome s (8 * (64 * page + i) + j) == 0)
        then s else putLine s (64 * page + i) l) s
      let s := rereadRow (updR s .MCH_ERR_CNT (fun w => satInc w 31 16) m) m line
      let s := chanBucket (alm s 0x3010 2 5 m (lo32 addr) (hi32 addr)) m addr
      (rawLine s line, false, s)
    | none =>
      let s := noteUncorrectable s m addr 1
      let s := updR s .MCH_ERR_CNT (fun w => satInc w 15 8) m
      fail (alm s 0x3011 4 5 m (lo32 addr) (hi32 addr) 0)

/-- A controller's read with its repair (R263, R271, R272): the line, whether it carries words found uncorrectable. -/
def memReadLine (s : State) (line : Nat) : Line × Bool × State :=
  let (d, bad, s) := readDecode s line
  if bad.isEmpty then (d, false, s) else repairNow s line bad d

end Sys2Proof.Machine
end

