-- ==== Sys2Proof/Machine/Reset.lean ====
section
/-! DEFINITION. Resets of the whole module (R459-R461): a module reset, and the loss of power. -/

namespace Sys2Proof.Machine

/-- What a memory channel keeps through a module reset: the journal of its reserve area and its spare-row map (R461), with DEGRADED
(R273). -/
def chanKept (c : ChanSt) : ChanSt := { journal := c.journal, spared := c.spared, spares := c.spares, degraded := c.degraded }

/-- Flash and fuses as an interruption leaves them: a slot whose programming had begun reads REVOKED (R383, R466). -/
def flashCut (s : State) : Flash :=
  let slot (k : Nat) : OwnerSlot := SMap.get (fun _ => {}) s.flash.keys k
  match s.svc.pend.find? (fun p => p.pressed) with
  | some p =>
    let k := if p.revoke then some p.slot else (List.range 8).find? (fun k => (slot k).st = 0)
    match k with
    | some k => { s.flash with keys := SMap.set (fun _ => {}) s.flash.keys k { slot k with st := 2 } }
    | none => s.flash
  | none => s.flash

/-- What the TAP carries out once the debug port is locked again (R41, R387). -/
def lockTap : TapInstr → TapInstr
  | .idcode => .idcode
  | _ => .bypass

/-- The levels of input pins as last seen, which no reset of the module changes: PERST# and the reference clock of a host
port, and the cable-present inputs. -/
def keepPins (old r : State) : State :=
  let r := foldS (fun r h =>
    let p := hostOf old h
    let r := updHost r h (fun q => { q with refLost := p.refLost })
    let w := getR old .HOST_STS h
    updR r .HOST_STS (fun v => setBit (setBit v 4 (bit w 4)) 1 (bit w 1)) h) r [0, 1]
  foldS (fun r k => updHaws r k (fun q => { q with cable := (hawsOf old k).cable })) r [0, 1, 2, 3]

/-- A module reset (R460, R461): every domain resets, dirty lines are lost, the rails stay on, and start-up goes on from the
Bowline ROM step; the Almanac ring, the reserve area, fuses and flash are kept. `kind` is the row of Table 20-2. -/
def moduleReset (s : State) (kind : Nat) : State :=
  let z : State := {}
  let r : State := { z with pending := s.pending, free := s.free, testRows := s.testRows, alm := { s.alm with mWait := true, flushing := false }, flash := flashCut s, boot := { s.boot with step := if s.boot.rails then 2 else 0, stopped := false, kind := kind, debug := false, tap := lockTap s.boot.tap, injLock := false } }
  keepPins s (foldS (fun s' m => updChan s' m (fun _ => chanKept (chanOf s m))) r (SMap.keys s.chans))

/-- Every rail is off (R36, R451, R464): all that is outside the housekeeping rail, fuses and flash is lost, with the
Almanac ring (R461), SEQ going on after the highest in the mirror (R475). Start-up ends. -/
def powerOff (s : State) : State :=
  let z : State := {}
  let high : Nat := s.alm.mirror.foldl (fun m e => match e.2 with | some r => max m r.seq | none => m) 0
  let a : Alm := { mirror := s.alm.mirror, mNext := s.alm.mNext, mRetired := s.alm.mRetired, mStop := s.alm.mStop, mSeq := s.alm.mSeq, mAny := s.alm.mAny, nextSeq := if s.alm.mirror.any (fun e => e.2.isSome) then seqNext high else 0 }
  let r : State := { z with pending := s.pending, free := s.free, alm := a, flash := flashCut s, boot := { hk := s.boot.hk, maddr := s.boot.maddr, commOk := s.boot.commOk, pwrEn := s.boot.pwrEn, needLow := s.boot.needLow, heldReset := s.boot.heldReset } }
  keepPins s (foldS (fun s' m => updChan s' m (fun _ => { chanKept (chanOf s m) with journal := [] })) r (SMap.keys s.chans))

end Sys2Proof.Machine
end

