-- ==== Sys2Proof/Machine/Caches.lean ====
section
/-! DEFINITION. The caches of a quad: L0 and side buffer of each thread, L1D and L1I of each core, and the L2, with
their replacement and the removals that keep them inclusive (ch. 7, R244). -/

namespace Sys2Proof.Machine

/-! ### Binary trees of replacement bits (Table 7-1, R206) -/

/-- The way that a tree of 2^depth ways points to, walking along the bits; node n (from 1) is bit n − 1. -/
def treeVictim (depth bits : Nat) : Nat :=
  let rec go : Nat → Nat → Nat → Nat
    | 0, _, way => way
    | d + 1, node, way =>
      let b := b2n (bits.testBit (node - 1))
      go d (2 * node + b) (2 * way + b)
  go depth 1 0

/-- The bits after a use of `way`: every bit on its path points away from it. -/
def treeTouch (depth bits way : Nat) : Nat :=
  let rec go : Nat → Nat → Nat → Nat
    | 0, _, bits => bits
    | d + 1, node, bits =>
      let b := b2n (way.testBit d)
      let bits := if b = 1 then (w64 bits &&& ~~~ (maskBits (node - 1) (node - 1))).toNat
        else (w64 bits ||| maskBits (node - 1) (node - 1)).toNat
      go d (2 * node + b) bits
  go depth 1 bits

/-- An order of groups with group `g` made the most recently used. -/
def mru (order : List Nat) (g : Nat) : List Nat := order.filter (· != g) ++ [g]

/-! ### Access -/

/-- The L1D line of core `c`. -/
def l1d (s : State) (c line : Nat) : Option CLine := SMap.get (fun _ => none) (coreOf s c).l1d line
/-- Replaces an L1D line. -/
def setL1d (s : State) (c line : Nat) (x : Option CLine) : State :=
  updCore s c (fun k => { k with l1d := SMap.set (fun _ => none) k.l1d line x })
/-- The L1I line of core `c`. -/
def l1i (s : State) (c line : Nat) : Option CLine := SMap.get (fun _ => none) (coreOf s c).l1i line
/-- Replaces an L1I line. -/
def setL1i (s : State) (c line : Nat) (x : Option CLine) : State :=
  updCore s c (fun k => { k with l1i := SMap.set (fun _ => none) k.l1i line x })
/-- The L2 line of holder `q`: its stable state and contents. -/
def l2 (s : State) (q line : Nat) : Option (LSt × CLine) := SMap.get (fun _ => none) (quadOf s q).l2 line
/-- Replaces an L2 line. -/
def setL2 (s : State) (q line : Nat) (x : Option (LSt × CLine)) : State :=
  updQuad s q (fun k => { k with l2 := SMap.set (fun _ => none) k.l2 line x })
/-- The miss-tracking entry of a line. -/
def track (s : State) (q line : Nat) : Option Track := SMap.get (fun _ => none) (quadOf s q).track line
/-- Replaces a miss-tracking entry. -/
def setTrack (s : State) (q line : Nat) (x : Option Track) : State :=
  updQuad s q (fun k => { k with track := SMap.set (fun _ => none) k.track line x })

/-- The four cores of a quad. -/
def coresOf (q : Nat) : List Nat := if q < 64 then (List.range 4).map (4 * q + ·) else []
/-- The four threads of a core. -/
def threadsOf (c : Nat) : List Nat := (List.range 4).map (4 * c + ·)
/-- The sixteen threads of a quad. -/
def quadThreads (q : Nat) : List Nat := if q < 64 then (List.range 16).map (16 * q + ·) else []

/-! ### L0 and side buffer (R202–R206) -/

/-- CORE_L0CTL.EN of a thread. -/
def l0En (s : State) (t : Nat) : Bool := bit (getR s .CORE_L0CTL (t / 4) (t % 4)) 0

/-- CORE_MODE.BOOT of a core; it reads 1 while Vigil owns the core. -/
def coreBoot (s : State) (c : Nat) : Bool := bit (getR s .CORE_MODE c) 0 || bit (getR s .CORE_MODE c) 1

/-- The L0 slot that holds a line. -/
def l0Find (x : Thread) (line : Nat) : Option (Nat × L0Line) :=
  x.l0.findSome? (fun e => match e.2 with
    | some l => if l.line = line then some (e.1, l) else none
    | none => none)

/-- Removes a line from a thread's L0. -/
def l0Drop (x : Thread) (line : Nat) : Thread :=
  match l0Find x line with
  | some (k, _) => { x with l0 := SMap.set (fun _ => none) x.l0 k none }
  | none => x

/-- Ages every L0 line by one. -/
def l0AgeAll (l : SMap (Option L0Line)) : SMap (Option L0Line) :=
  l.map (fun e => (e.1, e.2.map (fun x => { x with age := x.age + 1 })))

/-- The lowest L0 line whose age is 3. -/
def l0Oldest (l : SMap (Option L0Line)) : Option Nat :=
  (l.find? (fun e => match e.2 with | some x => decide (x.age ≥ 3) | none => false)).map Prod.fst

/-- l0_victim of R206: the line to fill, and the L0 with its ages advanced. -/
def l0Victim (l : SMap (Option L0Line)) (fuel : Nat) : Nat × SMap (Option L0Line) :=
  match (List.range 48).find? (fun k => (SMap.get (fun _ => none) l k).isNone) with
  | some k => (k, l)
  | none =>
    match fuel with
    | 0 => (0, l)
    | fuel + 1 =>
      match l0Oldest l with
      | some k => (k, l)
      | none => l0Victim (l0AgeAll l) fuel

/-- The line to fill while BOOT = 1: the lowest invalid line, else the tree walk within the least recent group. -/
def l0VictimBoot (x : Thread) : Nat :=
  match (List.range 48).find? (fun k => (SMap.get (fun _ => none) x.l0 k).isNone) with
  | some k => k
  | none =>
    let g := x.l0Order.headD 0
    16 * g + treeVictim 4 (x.l0Tree.getD g 0)

/-- A committed use of L0 line `k` (R206): age 0; while BOOT = 1 its group and its tree bits. -/
def l0Touch (x : Thread) (boot : Bool) (k : Nat) : Thread :=
  let x := match SMap.get (fun _ => none) x.l0 k with
    | some l => { x with l0 := SMap.set (fun _ => none) x.l0 k (some { l with age := 0 }) }
    | none => x
  if boot then
    { x with l0Order := mru x.l0Order (k / 16), l0Tree := x.l0Tree.set (k / 16) (treeTouch 4 (x.l0Tree.getD (k / 16) 0) (k % 16)) }
  else x

/-- Whether the next fill of `line` continues an unbroken run of ±64-byte steps as its third or later, and the run kept
for the fill after it (R206). -/
def l0RunNext (x : Thread) (line : Nat) : Bool × Option (Nat × Int × Nat) :=
  match x.l0Run with
  | none => (false, some (line, 0, 1))
  | some (last, step, n) =>
    let d : Int := (line : Int) - last
    if d = 1 || d = -1 then
      let n' := if step = d then n + 1 else 2
      (decide (n' ≥ 3), some (line, d, n'))
    else (false, some (line, 0, 1))

/-- Fills a line into L0 (R206). -/
def l0Fill (s : State) (t line : Nat) (d : Line) (stride : Bool) : State :=
  if !l0En s t then s
  else
    let boot := coreBoot s (t / 4)
    updThr s t (fun x =>
      let x := l0Drop x line
      let (streaming, run) := l0RunNext x line
      let x := { x with l0Run := run }
      if boot then
        let k := l0VictimBoot x
        let x := { x with l0 := SMap.set (fun _ => none) x.l0 k (some { line := line, data := d, age := 0 }) }
        l0Touch x true k
      else
        let (k, l) := l0Victim x.l0 5
        let age := if streaming || stride then 2 else 0
        { x with l0 := SMap.set (fun _ => none) l k (some { line := line, data := d, age := age }) })

/-- Removes a line from a thread's side buffer; a fill in flight is marked and later discarded (R205). -/
def sideDrop (x : Thread) (line : Nat) : Thread :=
  { x with side := (x.side.filter (fun e => !(e.line == line && e.filled))).map (fun e => if e.line = line then { e with dead := true } else e) }

/-- Empties a thread's side buffer; fills in flight are discarded when they arrive (R205). -/
def sideEmpty (x : Thread) : Thread :=
  { x with side := (x.side.filter (fun e => !e.filled)).map (fun e => { e with dead := true }) }

/-- Empties a thread's L0. -/
def l0Empty (x : Thread) : Thread := { x with l0 := [] }

/-! ### Injection (R164) -/

/-- An armed injection of kind `k` selects this thread and takes effect at a normal-world operation. -/
def injArmed (s : State) (t k : Nat) : Bool :=
  let w := getR s .CORE_TALLY_INJ (t / 4)
  bit w 8 && fieldN w 3 2 = k && fieldN w 1 0 = t % 4 && (thr s t).world == .normal

/-- The injection takes effect: FIRED sets and ARM clears. -/
def injFire (s : State) (t : Nat) : State :=
  updR s .CORE_TALLY_INJ (fun w => setBit (setBit w 9 true) 8 false) (t / 4)

/-! ### Errors of the arrays (R212, R213) -/

/-- Events of a word that the array's code found wrong (Table 7-3) go to the quad's two buckets and counters. -/
def quadCE (s : State) (q : Nat) (isL2 : Bool) : State :=
  let cls := if isL2 then 3 else 2
  let k := quadOf s q
  let n := (if isL2 then k.bucketL2 else k.bucketCore) + 1
  if n ≥ (bucketCfg s cls).1 then
    let s := updQuad s q (fun k => if isL2 then { k with bucketL2 := 0 } else { k with bucketCore := 0 })
    let s := updR s .QUAD_CERR (fun w => setBit w (if isL2 then 1 else 0) true) q
    let s := alm s 0x1011 3 cls q n
    irqByDest s (irqSrc .QUAD_CERR q) (getR s .QUAD_CERR_DEST q) (quadPart s q) true
  else updQuad s q (fun k => if isL2 then { k with bucketL2 := n } else { k with bucketCore := n })

/-- Records a word with no good copy (R212): the error, QUAD_CERR_ADDR and the count of its level. -/
def quadUE (s : State) (c line level : Nat) : State :=
  let q := c / 4
  let s := alm s 0x1010 4 (if level = 2 then 3 else 2) q (lo32 (64 * line)) (hi32 (64 * line)) level
  let s := if level = 2 then updR s .QUAD_CERR (fun w => satInc w 47 40) q else updR s .CORE_CACHE_ERR (fun w => satInc w 15 8) c
  if bit (getR s .QUAD_CERR_ADDR q) 63 then s
  else setR s .QUAD_CERR_ADDR (setBit (setField (setField 0 62 61 level) 51 6 line) 63 true) q

/-- A correctable error of core `c`'s L1D or of its quad's L2: counted, and its bucket filled (R213). -/
def countCE (s : State) (c : Nat) (isL2 : Bool) : State :=
  quadCE (if isL2 then updR s .QUAD_CERR (fun w => satInc w 63 48) (c / 4)
    else updR s .CORE_CACHE_ERR (fun w => satInc w 63 48) c) (c / 4) isL2

/-- The tags of a line before it is used: a copy with an uncorrectable error is rebuilt from the other and counted in TAG_FIX;
`none`: both copies are bad (Table 7-3). -/
def tagCheck (s : State) (c : Nat) (k : CLine) : Option State :=
  if k.tagErr = 0 then some s
  else if k.tagErr = 1 then some (updR s .QUAD_CERR (fun w => satInc w 39 32) (c / 4))
  else none

/-- The fatal outcome of a line whose two tag copies are bad (Table 7-3). -/
def tagFatal (s : State) (c level set : Nat) (k : CLine) : State :=
  moduleReset (alm s 0x1012 6 (if level = 2 then 3 else 2) (c / 4) set k.way level) 2

/-- A good copy of a line that is clean in the L2: the slice's, else memory's (R212). -/
def cleanCopy (s : State) (line : Nat) : Line × State :=
  match SMap.get (fun _ => none) (sliceOf s (homeOf s line)).llc line with
  | some x => (x.data, s)
  | none =>
    let (d, _, s) := memReadLine s line
    (d, s)

/-- Resolves the errors stored with an L2 line before its data is used (Table 7-3): single-bit errors are corrected; the
uncorrectable words of a clean line are read again from the good copy; those of a line in M are poisoned in place, and
their first use by a load or fetch raises the first-detection outcome (mark 3). -/
def l2Resolve (s : State) (q line : Nat) : State :=
  match l2 s q line with
  | none => s
  | some (st, y) =>
    if y.tagErr = 0 && y.err.all (fun e => e.2 = 3) then s
    else match tagCheck s (4 * q) y with
      | none => tagFatal s (4 * q) 2 (line % 2048) y
      | some s =>
        let ce := (y.err.filter (fun e => e.2 = 1)).length
        let bad := (y.err.filter (fun e => e.2 = 2)).map Prod.fst
        let old := y.err.filter (fun e => e.2 = 3)
        let s := foldS (fun s _ => countCE s (4 * q) true) s (List.range ce)
        if bad.isEmpty then setL2 s q line (some (st, { y with err := old, tagErr := 0 }))
        else if st == .M then
          let s := foldS (fun s _ => quadUE s (4 * q) line 2) s bad
          setL2 s q line (some (st, { y with data := poisonWords y.data bad, err := bad.foldl (fun m i => SMap.set (fun _ => 0) m i 3) old, tagErr := 0 }))
        else
          let (d, s) := cleanCopy (countCE s (4 * q) true) line
          setL2 s q line (some (st, { y with data := d, err := old, tagErr := 0 }))

/-- Resolves the errors stored with an L1D line before word `wi` is used (Table 7-3): single-bit errors are corrected;
an uncorrectable word is read again from the L2 where the line is clean, and otherwise poisoned in place; a word that was
granted as uncorrectable (3) raises the first-detection outcome once. The answer says whether that outcome is due. -/
def l1dErrors (s : State) (c line wi : Nat) : Bool × State :=
  match l1d s c line with
  | none => (false, s)
  | some k =>
    match tagCheck s c k with
    | none => (false, tagFatal s c 1 (line % 64) k)
    | some s =>
      let put (k : CLine) : State := setL1d s c line (some { k with tagErr := 0 })
      match SMap.get (fun _ => 0) k.err wi with
      | 0 => (false, if k.tagErr = 0 then s else put k)
      | 3 => (true, put { k with err := SMap.set (fun _ => 0) k.err wi 0 })
      | 1 => (false, countCE (put { k with err := SMap.set (fun _ => 0) k.err wi 0 }) c false)
      | _ =>
        if !k.dirty then
          let s := l2Resolve (put k) (c / 4) line
          let d := match l2 s (c / 4) line with | some (_, y) => y.data | none => k.data
          (false, countCE (setL1d s c line (some { k with tagErr := 0, data := d, err := [] })) c false)
        else
          (true, quadUE (put { k with data := k.data.set wi (poison (lineWord k.data wi).val), err := SMap.set (fun _ => 0) k.err wi 0 }) c line 1)

/-- Removes a line from the L0 and side buffer of every thread of core `c`. -/
def coreDrop0 (s : State) (c line : Nat) : State :=
  foldS (fun s t => updThr s t (fun x => sideDrop (l0Drop x line) line)) s (threadsOf c)

/-- Ends the LL reservations of core `c`'s threads on a line (R116, R211). -/
def resvDrop (s : State) (c line : Nat) : State :=
  foldS (fun s t => updThr s t (fun x => if x.resv = some line then { x with resv := none } else x)) s (threadsOf c)

/-! ### L1D -/

/-- Writes the data of a dirty L1D line into the L2 copy (R197), its stored errors resolved first (Table 7-3): a word with no
good copy goes back poisoned. Words granted as uncorrectable and not yet used keep their mark there. -/
def l1dMerge (s : State) (c line : Nat) : State :=
  match l1d s c line with
  | some x =>
    let ue := x.err.filter (fun e => e.2 = 3)
    let s := if x.dirty then foldS (fun s i => if SMap.get (fun _ => 0) x.err i = 3 then s else (l1dErrors s c line i).2) s (List.range 8) else s
    match l1d s c line, l2 s (c / 4) line with
    | some x, some (st, y) =>
      if x.dirty then
        setL2 (setL1d s c line (some { x with dirty := false, err := [] })) (c / 4) line
          (some (if st = .E then .M else st, { y with data := x.data, err := ue }))
      else if ue.isEmpty then s
      else setL2 (setL1d s c line (some { x with err := x.err.filter (fun e => e.2 ≠ 3) })) (c / 4) line (some (st, { y with err := ue }))
    | _, _ => s
  | none => s

/-- Removes a line from core `c`'s L1D, L0s and side buffers, with its dirty data merged first when `wb`; the
reservations on it end (R116). -/
def l1dRemove (s : State) (c line : Nat) (wb : Bool) : State :=
  let s := if wb then l1dMerge s c line else s
  match l1d s c line with
  | some _ => resvDrop (coreDrop0 (setL1d s c line none) c line) c line
  | none => coreDrop0 s c line

/-- L1D lines of core `c` in the set of `line`: (way, line). -/
def l1dSet (s : State) (c line : Nat) : List (Nat × Nat) :=
  (coreOf s c).l1d.filterMap (fun e => match e.2 with
    | some x => if e.1 % 64 = line % 64 then some (x.way, e.1) else none
    | none => none)

/-- Replacement state of an L1D set: group order, then the three trees. -/
def l1dRepl (s : State) (c set : Nat) : List Nat := SMap.get (fun _ => [0, 1, 2, 0, 0, 0]) (coreOf s c).l1dRepl set

/-- A use of way `w` of an L1D set (Table 7-1). -/
def l1dTouch (s : State) (c set w : Nat) : State :=
  let r := l1dRepl s c set
  let order := mru (r.take 3) (w / 4)
  let trees := (r.drop 3).set (w / 4) (treeTouch 2 ((r.drop 3).getD (w / 4) 0) (w % 4))
  updCore s c (fun k => { k with l1dRepl := SMap.set (fun _ => [0, 1, 2, 0, 0, 0]) k.l1dRepl set (order ++ trees) })

/-- Installs a line into core `c`'s L1D, evicting into the L2 where its set is full. -/
def l1dInstall (s : State) (c line : Nat) (x : CLine) : State :=
  match l1d s c line with
  | some y => l1dTouch (setL1d s c line (some { x with way := y.way })) c (line % 64) y.way
  | none =>
    let used := l1dSet s c line
    match (List.range 12).find? (fun w => !used.any (fun e => e.1 == w)) with
    | some w => l1dTouch (setL1d s c line (some { x with way := w })) c (line % 64) w
    | none =>
      let r := l1dRepl s c (line % 64)
      let g := r.headD 0
      let w := 4 * g + treeVictim 2 ((r.drop 3).getD g 0)
      let victim := (used.find? (fun e => e.1 == w)).map Prod.snd
      let s := match victim with | some v => l1dRemove s c v true | none => s
      l1dTouch (setL1d s c line (some { x with way := w })) c (line % 64) w

/-! ### L2 and the whole quad -/

/-- Merges every dirty L1D copy of the quad into the L2 (R197). -/
def quadMerge (s : State) (q line : Nat) : State := foldS (fun s c => l1dMerge s c line) s (coresOf q)

/-- Removes a line from every L1D, L1I, L0 and side buffer of the quad, without writing anything back. -/
def quadPurge (s : State) (q line : Nat) : State :=
  foldS (fun s c => setL1i (l1dRemove s c line false) c line none) s (coresOf q)

/-- Takes write permission for a line from core `c`, whose copy stays clean. -/
def coreDowngrade (s : State) (c line : Nat) : State :=
  let s := l1dMerge s c line
  match l1d s c line with
  | some x => if x.wr then setL1d s c line (some { x with wr := false }) else s
  | none => s

/-- Takes write permission from every L1D of the quad, keeping clean copies. -/
def quadDowngrade (s : State) (q line : Nat) : State := foldS (fun s c => coreDowngrade s c line) s (coresOf q)

/-- A copy of the line is about to stand in core `c`: no other core of the quad keeps write permission, so that its next store
takes the copy away first (R197, R198). -/
def shareLine (s : State) (c line : Nat) : State :=
  foldS (fun s k => if k = c then s else coreDowngrade s k line) s (coresOf (c / 4))

/-- The newest data of a line that the quad's L2 holds, its L1D copies taken into account and the errors stored with the L2
resolved. -/
def quadData (s : State) (q line : Nat) : Option Line × State :=
  let s := l2Resolve s q line
  match l2 s q line with
  | some (_, y) =>
    match (coresOf q).findSome? (fun c => match l1d s c line with
      | some x => if x.dirty then some x.data else none
      | none => none) with
    | some d => (some d, s)
    | none => (some y.data, s)
  | none => (none, s)

/-- Some L1 or L0 of the quad holds the line. -/
def heldAbove (s : State) (q line : Nat) : Bool :=
  (coresOf q).any (fun c => (l1d s c line).isSome || (l1i s c line).isSome) ||
    (quadThreads q).any (fun t => (l0Find (thr s t) line).isSome)

/-- The unit of a holder at its stop (Table 8-2): unit 4 of a quad's tile, or one of a bridge stop's two I/O agents. -/
def holderUnit (h : Nat) : Nat := if h < 64 then 4 else h % 2

/-- The unit that issues a coherence message, and the stop and unit that it goes to (Table 9-2, R216, R217). A core's own RD_ONCE,
WR_PARTIAL or FLUSH_LINE goes out through its quad's unit 4, since units 0–3 carry register and Point Store traffic (log 105). -/
def msgEnds (s : State) (m : Msg) : MeshUnit × Nat × Nat :=
  let n := homeOf s m.line
  let c := 64 + channelOf (64 * m.line)
  let op := m.op.toNat
  let holder : MeshUnit := { stop := holderStop m.holder, unit := holderUnit m.holder, member := if m.holder = 71 then m.member else 0, part := m.part, sec := m.sec }
  if op < 0x10 || op = 0x28 || (0x2A ≤ op && op ≤ 0x2F) then (holder, n, 5)
  else if op = 0x14 || op = 0x15 then (sliceUnit s n 5, c, 0)
  else if op = 0x30 || op = 0x31 || op = 0x3B then ({ stop := c, unit := 0 }, n, 5)
  else (sliceUnit s n 5, holderStop m.holder, holderUnit m.holder)

/-- Sends a coherence message as a packet of the mesh; WR_PARTIAL has two flits (R219). -/
def sendMsg (s : State) (m : Msg) : State :=
  let e := msgEnds s m
  let r := mkPkt s e.1 e.2.1 e.2.2 m.op.toNat m.spec (if m.op = 0x06 then 2 else 1)
  { r.2 with net := r.2.net ++ [{ m with pkt := r.1 }] }

/-- Miss-tracking entries in use (R253): requests outstanding and lines in the writeback buffer. -/
def trackCount (s : State) (q : Nat) : Nat := (quadOf s q).track.length

/-- Evicts a line from the L2 (R244): its copies leave the quad, its data waits in the writeback buffer, and the eviction
message goes to the home. A line whose only copy is in a side buffer is dropped silently (R245). A line with a request
outstanding stays. -/
def l2EvictNow (s : State) (q line : Nat) : State :=
  if (track s q line).isSome then s
  else
    let s := l2Resolve (quadMerge s q line) q line
    match l2 s q line with
    | some (st, y) =>
      let s := setL2 (quadPurge s q line) q line none
      if st = .S && !y.inArr then s
      else
        let (t, op) : LSt × BitVec 6 := match st with
          | .M => (.MI, 0x07)
          | .E => (.EI, 0x08)
          | _ => (.SI, 0x08)
        let s := setTrack s q line (some { st := t, data := y.data })
        sendMsg s { op := op, holder := q, line := line, data := y.data, part := (quadPart s q).getD 0, sec := decide (64 * line < secWm s) }
    | none => s

/-- Evicts a line where one of the quad's 256 miss-tracking entries is free (R253); otherwise the line stays. -/
def l2Evict (s : State) (q line : Nat) : State := if trackCount s q ≥ 256 then s else l2EvictNow s q line

/-- A side-buffer entry of the quad names the line. -/
def sideNamed (s : State) (q line : Nat) : Bool :=
  (quadThreads q).any (fun t => (thr s t).side.any (fun e => e.line == line && !(e.dead && e.filled)))

/-- A side-buffer entry for the line was freed (R245): a copy that stands in no array and in no side buffer leaves the quad,
an S copy without a message. -/
def sideGone (s : State) (q line : Nat) : State :=
  match l2 s q line with
  | some (_, y) => if y.inArr || sideNamed s q line then s else l2Evict s q line
  | none => s

/-- Changes a thread's side buffer and lets go of the lines that it no longer names. -/
def sideUpd (s : State) (t : Nat) (f : Thread → Thread) : State :=
  let old := (thr s t).side.map SideEntry.line
  foldS (fun s line => sideGone s (t / 16) line) (updThr s t f) old

/-- Empties a thread's side buffer (R205). -/
def sideClear (s : State) (t : Nat) : State := sideUpd s t sideEmpty

/-- Lines of the L2 array in the set of `line`: (line, reference bit). -/
def l2Set (s : State) (q line : Nat) : List (Nat × Nat) :=
  (quadOf s q).l2.filterMap (fun e => match e.2 with
    | some (_, x) => if x.inArr && e.1 % 2048 = line % 2048 && e.1 ≠ line then some (e.1, x.age) else none
    | none => none)

/-- Places a line in the L2 data array, evicting from a full set: not recently used lines first, and of them those that
no L1 or L0 of the quad holds (Table 7-1); the choice among equals is open. -/
def l2Array (s : State) (q line : Nat) : State :=
  match l2 s q line with
  | some (st, x) =>
    let set := l2Set s q line
    let s := if x.inArr || set.length < 16 then s
      else
        let movable := set.filter (fun e => (track s q e.1).isNone)
        let cold := movable.filter (fun e => e.2 = 0)
        let pool := if cold.isEmpty then movable else cold
        let s := if cold.isEmpty then
            foldS (fun s e => match l2 s q e.1 with
              | some (t, y) => setL2 s q e.1 (some (t, { y with age := 0 }))
              | none => s) s set
          else s
        let free := pool.filter (fun e => !heldAbove s q e.1)
        let cand := if free.isEmpty then pool else free
        match cand with
        | [] => s
        | e :: _ =>
          let (w, s) := freeW s
          l2Evict s q ((cand.getD (w.toNat % cand.length) e).1)
    setL2 s q line (some (st, { x with inArr := true, age := 1 }))
  | none => s

/-! ### L1I (R196, R199) -/

/-- L1I lines of core `c` in the set of `line`: (way, line). -/
def l1iSet (s : State) (c line : Nat) : List (Nat × Nat) :=
  (coreOf s c).l1i.filterMap (fun e => match e.2 with
    | some x => if e.1 % 128 = line % 128 then some (x.way, e.1) else none
    | none => none)

/-- A use of way `w` of an L1I set: tree pseudo-LRU over its eight ways (Table 7-1). -/
def l1iTouch (s : State) (c set w : Nat) : State :=
  updCore s c (fun k => { k with l1iRepl := SMap.set (fun _ => 0) k.l1iRepl set (treeTouch 3 (SMap.get (fun _ => 0) k.l1iRepl set) w) })

/-- Installs a line into core `c`'s L1I; no core of the quad keeps write permission for it, so that a store to it first takes
the copy away (R199). -/
def l1iInstall (s : State) (c line : Nat) (d : Line) : State :=
  let s := quadDowngrade s (c / 4) line
  let used := (l1iSet s c line).filter (fun e => e.2 != line)
  let set := line % 128
  let w := ((List.range 8).find? (fun w => !used.any (fun e => e.1 == w))).getD
    (treeVictim 3 (SMap.get (fun _ => 0) (coreOf s c).l1iRepl set))
  let s := match used.find? (fun e => e.1 == w) with
    | some e => setL1i s c e.2 none
    | none => s
  l1iTouch (setL1i s c line (some { data := d, way := w })) c set w

/-! ### Promotion, permission and requests -/

/-- Copies a line that the quad's L2 holds into core `c`'s L1D, clean; words granted as uncorrectable and not yet used take
their mark with them. -/
def l1dCopy (s : State) (c line : Nat) (d : Line) : State :=
  match l2 s (c / 4) line with
  | some (st, y) =>
    let s := setL2 s (c / 4) line (some (st, { y with err := y.err.filter (fun e => e.2 ≠ 3) }))
    l1dInstall (shareLine s c line) c line { data := d, err := y.err.filter (fun e => e.2 = 3) }
  | none => s

/-- Promotes a side-buffer line at a committed use (R204): into L0, into the L1D and L2 arrays, and out of the side
buffer. -/
def promote (s : State) (t line : Nat) : State :=
  match (thr s t).side.find? (fun e => e.line == line && e.filled && !e.dead) with
  | some e =>
    let s := updThr s t (fun x => { x with side := x.side.filter (fun e => e.line != line) })
    if (l2 s (t / 16) line).isNone then s
    else
      let s := l2Array (shareLine s (t / 4) line) (t / 16) line
      let s := match l1d s (t / 4) line with
        | some y => l1dTouch s (t / 4) (line % 64) y.way
        | none => l1dCopy s (t / 4) line e.data
      l0Fill s t line e.data e.stride
  | none => s

/-- A line that core `c` may write: the L2 in M, the L1D with permission, every other L1D and every L1I of the quad
without the line (R197, R199). Needs the L2 in M or E. -/
def takeWrite (s : State) (c line : Nat) : State :=
  let q := c / 4
  let s := l2Resolve (quadMerge s q line) q line
  let s := foldS (fun s k => if k = c then s else l1dRemove s k line false) s (coresOf q)
  let s := foldS (fun s k => setL1i s k line none) s (coresOf q)
  match l2 s q line with
  | some (_, y) =>
    let s := l2Array (setL2 s q line (some (.M, y))) q line
    match l1d s c line with
    | some x => setL1d s c line (some { x with wr := true })
    | none =>
      l1dInstall (setL2 s q line (some (.M, { y with inArr := true, age := 1, err := y.err.filter (fun e => e.2 ≠ 3) }))) c line
        { data := y.data, wr := true, err := y.err.filter (fun e => e.2 = 3) }
  | none => s

/-- Core `c` has write permission for the line in its L1D. -/
def canWrite (s : State) (c line : Nat) : Bool :=
  match l1d s c line with
  | some x => x.wr
  | none => false

/-- A request for a line that the quad does not hold well enough: RD_SHARED, RD_OWN or UPGRADE, unless one is already
outstanding, the line is being evicted (R244, R245), or all 256 miss-tracking entries are in use (R253). A request for a line
below the watermark carries SEC = 1: only a secure-world access gets this far for one (R201, R216); `who` is the member of agent 7
that asks, and whether it is in the secure world. -/
def l2Request (s : State) (q line : Nat) (own spec : Bool) (who : Nat × Bool := (0, true)) : State :=
  match track s q line with
  | some _ => s
  | none =>
    let msg (op : BitVec 6) (sp : Bool) : Msg := { op := op, holder := q, line := line, spec := sp, part := (quadPart s q).getD 0, sec := who.2 && decide (64 * line < secWm s), member := who.1 }
    if trackCount s q ≥ 256 then s
    else if own then
      match l2 s q line with
      | some (.S, _) => sendMsg (setTrack s q line (some { st := .SM })) (msg 0x03 false)
      | some _ => s
      | none => sendMsg (setTrack s q line (some { st := .IM })) (msg 0x02 false)
    else
      match l2 s q line with
      | some _ => s
      | none => sendMsg (setTrack s q line (some { st := .IS })) (msg 0x01 spec)

/-- Who asks for a side-buffer line: the thread's oldest load, its stride prefetcher (R208), or wrong-path and run-ahead work
(R185). -/
inductive SideWho where
  | load | stride | ahead
  deriving DecidableEq, Repr

/-- Room for one more entry in a thread's side buffer (R203): the oldest-filled entry goes; when all eight are in flight, the
thread's oldest load takes the youngest entry that younger work of the thread asked for, and any other request waits. -/
def sideRoom (x : Thread) (who : SideWho) : Option (List SideEntry) :=
  if x.side.length < 8 then some x.side
  else match x.side.find? (fun e => e.filled) with
    | some e => some (x.side.erase e)
    | none =>
      if who == .load then (x.side.reverse.find? (fun e => e.spec)).map (fun e => x.side.erase e) else none

/-- Allocates a side-buffer entry for a line and asks the L2 for it (R203); a prefetch or run-ahead request reaches the home as
a speculative read (R182). -/
def sideRequest (s : State) (t line : Nat) (who : SideWho) : State :=
  let x := thr s t
  let spec := who != .load
  if x.side.any (fun e => e.line == line && !e.dead) then l2Request s (t / 16) line false spec
  else match sideRoom x who with
    | some l =>
      let s := sideUpd s t (fun x => { x with side := l ++ [{ line := line, filled := false, stride := who == .stride, spec := who == .ahead }] })
      l2Request s (t / 16) line false spec
    | none => s

/-- The whole quad gives up every line it holds (R247): dirty data goes to the homes. The rounds of 256 writebacks are taken
as one event (log 95). -/
def quadEvictAll (s : State) (q : Nat) : State :=
  foldS (fun s e => l2EvictNow s q e.1) s (quadOf s q).l2

end Sys2Proof.Machine
end

