-- ==== Sys2Proof/Machine/Home.lean ====
section
/-! DEFINITION. The homes: home selection, LLC slices, directory and home transactions (ch. 9), and the coherent view of
memory that composite accesses use. -/

namespace Sys2Proof.Machine

/-! ### LLC slice contents (R210) -/

/-- Directory and LLC set of a line: A[17:6] xor A[29:18] (R238). -/
def setOf (line : Nat) : Nat := Nat.xor (line % 4096) (line / 4096 % 4096)

/-- The slice's copy of a line. -/
def llc (s : State) (n line : Nat) : Option CLine := SMap.get (fun _ => none) (sliceOf s n).llc line
/-- Replaces the slice's copy. -/
def setLlc (s : State) (n line : Nat) (x : Option CLine) : State :=
  updSlice s n (fun k => { k with llc := SMap.set (fun _ => none) k.llc line x })

/-- Lines of the slice in the set of `line`: (line, re-reference value). -/
def llcSet (s : State) (n line : Nat) : List (Nat × Nat) :=
  (sliceOf s n).llc.filterMap (fun e => match e.2 with
    | some x => if setOf e.1 = setOf line && e.1 ≠ line then some (e.1, x.age) else none
    | none => none)

/-- A correctable error of a slice: counted, and its bucket filled (R213). A shared-pool slice is owned by no partition, so
nothing is delivered for it. -/
def sliceCE (s : State) (n : Nat) : State :=
  let s := updR s .SLC_CERR (fun w => satInc w 63 48) n
  let k := (sliceOf s n).bucket + 1
  if k ≥ (bucketCfg s 4).1 then
    let s := updSlice s n (fun x => { x with bucket := 0 })
    let s := alm (updR s .SLC_CERR (fun w => setBit w 0 true) n) 0x1011 3 4 n k
    irqByDest s (irqSrc .SLC_CERR n) (getR s .SLC_CERR_DEST n) (slicePart s n) (slicePart s n).isSome
  else updSlice s n (fun x => { x with bucket := k })

/-- A word of a slice's line with no good copy (R212). -/
def sliceUE (s : State) (n line : Nat) : State :=
  let s := alm s 0x1010 4 4 n (lo32 (64 * line)) (hi32 (64 * line)) 3
  let s := updR s .SLC_CERR (fun w => satInc w 47 40) n
  if bit (getR s .SLC_CERR_ADDR n) 63 then s
  else setR s .SLC_CERR_ADDR (setBit (setField 0 51 6 line) 63 true) n

/-- The data of a slice's copy `x` after the errors stored with it are resolved (Table 7-3): single-bit errors are corrected,
a clean line is read again from DRAM, and the uncorrectable words of a dirty one are poisoned; with whether they are
found now. -/
def llcRead (s : State) (n line : Nat) (x : CLine) : Line × Bool × State :=
  if x.err.isEmpty && x.tagErr = 0 then (x.data, false, s)
  else if x.tagErr ≥ 2 then (x.data, false, moduleReset (alm s 0x1012 6 4 n (setOf line) x.way 3) 2)
  else
    let s := if x.tagErr = 1 then updR s .SLC_CERR (fun w => satInc w 39 32) n else s
    let bad := (x.err.filter (fun e => 2 ≤ e.2)).map Prod.fst
    let s := foldS (fun s _ => sliceCE s n) s (x.err.filter (fun e => e.2 = 1))
    if bad.isEmpty then (x.data, false, setLlc s n line (some { x with err := [], tagErr := 0 }))
    else if !x.dirty then memReadLine (sliceCE (setLlc s n line none) n) line
    else
      let d := poisonWords x.data bad
      (d, true, foldS (fun s _ => sliceUE s n line) (setLlc s n line (some { x with data := d, err := [], tagErr := 0 })) bad)

/-- A read of the slice's copy: its data with the errors stored with it resolved, and its re-reference value 0 (Table 7-1). -/
def llcHit (s : State) (n line : Nat) (x : CLine) : Line × Bool × State :=
  let r := llcRead s n line x
  match llc r.2.2 n line with
  | some y => (r.1, r.2.1, setLlc r.2.2 n line (some { y with age := 0 }))
  | none => r

/-- Allocates a line in its slice. A full set gives up a line with the highest re-reference value (2 bits; the choice among equals
and the values given at fills are open, log 30); a dirty victim is written to DRAM by MEM_WRITE. -/
def llcAlloc (s : State) (n line : Nat) (d : Line) (dirty : Bool) : State :=
  match llc s n line with
  | some x => setLlc s n line (some { x with data := d, dirty := dirty, age := 0, err := [], tagErr := 0 })
  | none =>
    let set := llcSet s n line
    let s := if set.length < 16 then s
      else
        let top := set.foldl (fun m e => max m e.2) 0
        let cand := set.filter (fun e => e.2 = top)
        let (w, s) := freeW s
        let v := (cand.getD (w.toNat % cand.length) (line, 0)).1
        let s := foldS (fun s e => match llc s n e.1 with
          | some x => setLlc s n e.1 (some { x with age := x.age + (3 - top) })
          | none => s) s set
        match llc s n v with
        | some x =>
          let (d, _, s) := if x.dirty then llcRead s n v x else (x.data, false, s)
          setLlc (if x.dirty then sendMsg s { op := 0x15, holder := 72, line := v, data := d } else s) n v none
        | none => s
    setLlc s n line (some { data := d, dirty := dirty, age := 2 })

/-! ### Directory -/

/-- The directory entry of a line. -/
def dirEnt (s : State) (n line : Nat) : Option DirEnt := SMap.get (fun _ => none) (sliceOf s n).dir line
/-- Replaces a directory entry. -/
def setDirEnt (s : State) (n line : Nat) (x : Option DirEnt) : State :=
  updSlice s n (fun k => { k with dir := SMap.set (fun _ => none) k.dir line x })

/-- Holders named by 72 sharer bits, rising. -/
def holdersOf (h : BitVec 72) : List Nat := onesBelow 72 h.toNat

/-- The sharer bit of a holder. -/
def holderBit (h : Nat) : BitVec 72 := BitVec.ofNat 72 (2 ^ h)

/-- Entries in the directory set of a line: (line, entry). -/
def dirSet (s : State) (n line : Nat) : List (Nat × DirEnt) :=
  (sliceOf s n).dir.filterMap (fun e => match e.2 with
    | some x => if setOf e.1 = setOf line then some (e.1, x) else none
    | none => none)

/-- Writes the directory state of a line: no holder means no entry; a new entry takes the lowest free way. -/
def dirSetHolders (s : State) (n line : Nat) (x : Bool) (h : BitVec 72) : State :=
  if h = 0 then setDirEnt s n line none
  else match dirEnt s n line with
    | some e => setDirEnt s n line (some { e with x := x, holders := h })
    | none =>
      let used := dirSet s n line
      let way := ((List.range 16).find? (fun w => !used.any (fun e => e.2.way == w))).getD 0
      setDirEnt s n line (some { x := x, holders := h, way := way })

/-- Counts an event of SLC_COH_CNT[n]. -/
def cohCount (s : State) (slice n : Nat) : State :=
  updR s .SLC_COH_CNT cnt48 slice n

/-- A protocol breach is handled as a failed link (R256, R231): fatal record, FAULT_N low, module reset. -/
def protocolBreach (s : State) (line op : Nat) : State :=
  moduleReset (alm s 0x1021 6 4 (homeOf s line) (lo32 (64 * line)) (hi32 (64 * line)) op) 2

/-- Removes a holder from the directory entry of a line. -/
def dirRemove (s : State) (n line h : Nat) : State :=
  match dirEnt s n line with
  | some e => dirSetHolders s n line e.x (e.holders &&& ~~~ holderBit h)
  | none => s

/-! ### Messages and transactions -/

/-- Takes the first message that has arrived and satisfies `f` (R227). -/
def takeMsg (s : State) (f : Msg → Bool) : Option (Msg × State) :=
  match s.net.find? (fun m => f m && arrivedPkt s m.pkt) with
  | some m => some (m, ejectPkt { s with net := s.net.erase m } m.pkt)
  | none => none

/-- A message that satisfies `f` is on its way, behind an earlier packet of its class or still at its source. -/
def onWay (s : State) (f : Msg → Bool) : Bool := s.net.any f

/-- The transaction that holds a line BUSY. -/
def txnOf (s : State) (n line : Nat) : Option Txn := (sliceOf s n).txns.find? (fun t => t.req.line == line)
/-- Replaces the transaction of its line. -/
def putTxn (s : State) (n : Nat) (t : Txn) : State :=
  updSlice s n (fun k => { k with txns := (k.txns.filter (fun u => u.req.line != t.req.line)) ++ [t] })
/-- Ends the transaction of a line; the ingress entry of its request is freed (R225, R242). -/
def dropTxn (s : State) (n line : Nat) : State :=
  let old := txnOf s n line
  let s := updSlice s n (fun k => { k with txns := k.txns.filter (fun u => u.req.line != line) })
  match old with
  | some t => creditDone s t.req.pkt
  | none => s

/-- Snoops a list of holders for the transaction `t`. -/
def snoop (s : State) (n : Nat) (t : Txn) (op : BitVec 6) (hs : List Nat) : State :=
  let s := foldS (fun s h => cohCount (sendMsg s { op := op, holder := h, line := t.req.line }) n 1) s hs
  putTxn s n { t with await := hs }

/-- Sends a grant or an answer and moves the transaction to its end (R242): a grant waits for COMP_ACK. -/
def grant (s : State) (n : Nat) (t : Txn) (op : BitVec 6) (d : Line) (ue : Bool) : State :=
  let op' : BitVec 6 := if !ue then op
    else if op = 0x20 then 0x37 else if op = 0x21 then 0x38 else if op = 0x22 then 0x39 else if op = 0x24 then 0x3A else op
  let s := sendMsg s { op := op', holder := t.req.holder, line := t.req.line, data := d, thread := t.req.thread, ue := ue }
  if op = 0x24 || op = 0x29 || op = 0x25 || op = 0x26 then dropTxn s n t.req.line
  else putTxn s n { t with phase := .grant, await := [] }

/-- The request needs a directory entry for its line. -/
def needsDir (op : BitVec 6) : Bool := op = 0x01 || op = 0x02 || op = 0x03

/-- The requester is an L2, or agent 7, which follows the rules of one (R235). -/
def isL2 (h : Nat) : Bool := h < 64 || h = 71

/-! ### Masked writes (R155) -/

/-- Merges a masked write into a line as the home does (R155, Table 5-6); an armed KIND 3 injection of the storing thread makes the
generators of its first partly written word disagree (R164). -/
def mergeLine (s : State) (n line : Nat) (d new : Line) (mask : Word) (thread : Option Nat) : Line × State :=
  (List.range 8).foldl (fun (acc : Line × State) i =>
    let m := fieldN mask (8 * i + 7) (8 * i)
    if m = 255 then (acc.1 ++ [lineWord new i], acc.2)
    else if m = 0 then (acc.1 ++ [lineWord d i], acc.2)
    else
      let s := acc.2
      let inj := match thread with | some t => injArmed s t 3 | none => false
      let s := match thread with | some t => if inj then injFire s t else s | none => s
      let (x, bad) := mergeWord (lineWord d i) (lineWord new i).val (isPoisoned (lineWord new i)) m inj
      (acc.1 ++ [x], if bad then alm s 0x0012 4 4 n (lo32 (64 * line + 8 * i)) (hi32 (64 * line + 8 * i)) else s)) ([], s)

/-- Every byte of the line is written. -/
def wholeLine (mask : Word) : Bool := mask == 0xFFFFFFFFFFFFFFFF#64

/-! ### What the home does (R243) -/

/-- Acts on a request once its data is at hand: `d` from a holder or memory, `fromMem` when it came from DRAM, `dirty` when it is an
owner's dirty data (Table 9-4). A line that another holder had at acceptance is granted S alone. -/
def homeAnswer (s : State) (n : Nat) (t : Txn) (d : Line) (fromMem dirty ue : Bool) : State :=
  let line := t.req.line
  let h := t.req.holder
  let others : BitVec 72 := match dirEnt s n line with | some x => x.holders &&& ~~~ holderBit h | none => 0
  -- an owner's dirty data counts as a writeback (R210), except where the new owner or a write takes it
  let s := if dirty && (t.req.op = 0x01 || t.req.op = 0x04) then llcAlloc s n line d true else s
  match t.req.op with
  | 0x01 =>
    if !t.listed && !t.req.spec && isL2 h then
      match llc s n line with
      | some x =>
        if x.dirty then grant (dirSetHolders s n line false (holderBit h)) n t 0x20 d ue
        else grant (dirSetHolders (setLlc s n line none) n line true (holderBit h)) n t 0x21 d ue
      | none => grant (dirSetHolders s n line true (holderBit h)) n t 0x21 d ue
    else grant (dirSetHolders s n line false (others ||| holderBit h)) n t 0x20 d ue
  | 0x02 => grant (dirSetHolders (setLlc s n line none) n line true (holderBit h)) n t 0x22 d ue
  | 0x03 => grant (dirSetHolders (setLlc s n line none) n line true (holderBit h)) n t 0x22 d ue
  | 0x04 => grant s n t 0x24 d ue
  | 0x06 =>
    let (d', s) := mergeLine s n line d t.req.data t.req.mask t.req.thread
    let s := if fromMem && !dirty then sendMsg s { op := 0x15, holder := 72, line := line, data := d' } else llcAlloc s n line d' true
    grant (dirSetHolders s n line false 0) n t 0x29 Line.unused false
  | _ => grant s n t 0x29 Line.unused false

/-- Goes on with a transaction from its data: what snoops returned, the slice's copy, or a DRAM read, with MISS_NOTE where Table 9-4
gives one. -/
def homeData (s : State) (n : Nat) (t : Txn) : State :=
  let line := t.req.line
  match t.data with
  | some d => homeAnswer s n t d false t.dataDirty t.ue
  | none =>
    match llc s n line with
    | some x =>
      let (d, ue, s) := llcHit s n line x
      homeAnswer s n t d false false ue
    | none =>
      let note := (t.req.op = 0x01 && !t.req.spec && isL2 t.req.holder) || t.req.op = 0x02
      let s := if note then sendMsg s { op := 0x27, holder := t.req.holder, line := line } else s
      sendMsg (putTxn s n { t with phase := .mem }) { op := 0x14, holder := t.req.holder, line := line, spec := t.req.spec }

/-- Dirty data that came back with the snoops is allocated in the slice. -/
def keepDirty (s : State) (n : Nat) (t : Txn) : State :=
  match t.data with
  | some d => if t.dataDirty then llcAlloc s n t.req.line d true else s
  | none => s

/-- Continues a transaction whose snoops are answered (Table 9-4). -/
def homeAfterSnoop (s : State) (n : Nat) (t : Txn) : State :=
  let line := t.req.line
  match t.req.op with
  | 0x03 =>
    let listed := match dirEnt s n line with | some e => e.holders.getLsbD t.req.holder | none => false
    if listed then grant (dirSetHolders s n line true (holderBit t.req.holder)) n t 0x23 Line.unused false
    else homeData s n t
  | 0x05 => grant (dirSetHolders (llcAlloc s n line t.req.data true) n line false 0) n t 0x29 Line.unused false
  | 0x0A =>
    let s := keepDirty s n t
    match llc s n line with
    | some x =>
      if x.dirty then
        let (d, _, s) := llcRead s n line x
        let s := setLlc s n line (some { x with data := d, dirty := false, err := [], tagErr := 0 })
        sendMsg (putTxn s n { t with phase := .flush }) { op := 0x15, holder := t.req.holder, line := line, data := d }
      else grant s n t 0x29 Line.unused false
    | none => grant s n t 0x29 Line.unused false
  | _ => if t.phase = .backInv then dropTxn (setDirEnt (keepDirty s n t) n line none) n line else homeData s n t

/-- An eviction that reaches its home: from a listed holder it leaves the directory and is allocated (Table 9-4); from any other its
data is discarded (R246). -/
def homeEvict (s : State) (n : Nat) (t : Txn) : State :=
  let m := t.req
  let held := match dirEnt s n m.line with | some x => x.holders &&& holderBit m.holder != 0 | none => false
  if !held then grant (cohCount s n 4) n t 0x29 Line.unused false
  else
    let left : BitVec 72 := match dirEnt s n m.line with | some x => x.holders &&& ~~~ holderBit m.holder | none => 0
    let s := if m.op = 0x07 then llcAlloc s n m.line m.data true
      else if left = 0 && (llc s n m.line).isNone then llcAlloc s n m.line m.data false else s
    grant (dirSetHolders s n m.line false left) n t 0x29 Line.unused false

/-- Starts the action of an accepted request (Table 9-4): the snoops it needs first. -/
def homeAct (s : State) (n : Nat) (m : Msg) : State :=
  let e := dirEnt s n m.line
  let all : List Nat := match e with | some x => holdersOf x.holders | none => []
  let others := all.filter (· != m.holder)
  let isX : Bool := match e with | some x => x.x | none => false
  let t : Txn := { req := m, phase := .snoop, listed := !others.isEmpty, since := s.epoch }
  let s := putTxn s n t
  let after (op : BitVec 6) (hs : List Nat) : State := if hs.isEmpty then homeAfterSnoop s n t else snoop s n t op hs
  match m.op with
  | 0x01 => after 0x10 (if isX then others else [])
  | 0x02 => after 0x11 others
  | 0x03 => after 0x11 others
  | 0x04 => after 0x12 (if isX then all else [])
  | 0x05 => after 0x11 all
  | 0x06 => after 0x11 all
  | 0x07 => homeEvict s n t
  | 0x08 => homeEvict s n t
  | 0x09 => grant (if isX && all == [m.holder] then llcAlloc s n m.line m.data true else s) n t 0x29 Line.unused false
  | _ => after 0x13 (if isX then all else [])

/-- Every holder of Table 9-3. -/
def allHolders : List Nat := List.range 72

/-- Accepts a request into the transaction table (R241). A directory entry with a correctable error is corrected; one with an
uncorrectable error is rebuilt first, every holder giving up the line (R255). -/
def homeStart (s : State) (n : Nat) (m : Msg) : State :=
  let s := cohCount s n 0
  match dirEnt s n m.line with
  | some e =>
    if e.err = 2 then snoop s n { req := m, phase := .rebuild, since := s.epoch } 0x11 allHolders
    else if e.err = 1 then homeAct (cohCount (setDirEnt s n m.line (some { e with err := 0 })) n 7) n m
    else homeAct s n m
  | none => homeAct s n m

/-- Every holder has answered for an uncorrectable entry (R255): dirty data is kept, the entry is rebuilt as invalid and recorded, and
the transaction goes on. -/
def rebuildDone (s : State) (n : Nat) (t : Txn) : State :=
  let line := t.req.line
  let way := match dirEnt s n line with | some e => e.way | none => 0
  let s := setDirEnt (keepDirty s n t) n line none
  let s := updR s .SLC_DIR_ERR (fun w =>
    let w := satInc w 47 40
    if bit w 63 then w else setBit (setField (setField w 15 4 (setOf line)) 3 0 way) 63 true) n
  homeAct (alm s 0x1020 4 4 n (setOf line) way) n t.req

/-! ### Acceptance (R241, R248, R249) -/

/-- Directory entries of the set of a line, with those owed to accepted requests. -/
def dirUsed (s : State) (n line : Nat) : Nat :=
  (dirSet s n line).length + ((sliceOf s n).txns.filter (fun t =>
    needsDir t.req.op && setOf t.req.line = setOf line && t.req.line != line && (dirEnt s n t.req.line).isNone)).length

/-- A directory entry is there, free, or not needed for a request (R241). -/
def dirRoom (s : State) (n : Nat) (m : Msg) : Bool := !needsDir m.op || (dirEnt s n m.line).isSome || dirUsed s n m.line < 16

/-- A speculative read that its home refuses (R248). -/
def specRefused (s : State) (n : Nat) (m : Msg) : Bool :=
  let others : Bool := match dirEnt s n m.line with | some x => x.x && (x.holders &&& ~~~ holderBit m.holder) != 0 | none => false
  m.op = 0x01 && m.spec && ((txnOf s n m.line).isSome || others || dirUsed s n m.line ≥ 16)

/-- Refuses a speculative read. -/
def refuseSpec (s : State) (n : Nat) (m : Msg) : State :=
  creditDone (sendMsg (cohCount s n 3) { op := 0x25, holder := m.holder, line := m.line, thread := m.thread }) m.pkt

/-- An eviction, which the home takes ahead of every other request for its line. -/
def isEvict (m : Msg) : Bool := m.op = 0x07 || m.op = 0x08

/-- The requests that stand first for their line among those waiting, in arrival order (R241). -/
def lineHeads (l : List Msg) : List Msg :=
  (l.foldl (fun (acc : List Msg × List Nat) m =>
    if acc.2.contains m.line then acc else (acc.1 ++ [(l.find? (fun x => isEvict x && x.line == m.line)).getD m], m.line :: acc.2)) ([], [])).1

/-- The victim of R249: not BUSY, fewest holder bits, lowest way. -/
def backInvVictim (s : State) (n line : Nat) : Option Nat :=
  ((dirSet s n line).filter (fun e => (txnOf s n e.1).isNone)).foldl (fun best e =>
    match best with
    | none => some e.1
    | some b =>
      match dirEnt s n b with
      | some x =>
        let a := (holdersOf e.2.holders).length
        let c := (holdersOf x.holders).length
        if a < c || (a = c && e.2.way < x.way) then some e.1 else best
      | none => some e.1) none

/-- Back-invalidates the entry of a line (R249). -/
def backInvStart (s : State) (n v : Nat) : State :=
  let hs := match dirEnt s n v with | some e => holdersOf e.holders | none => []
  snoop (cohCount s n 2) n { req := { op := 0x00, holder := 72, line := v }, phase := .backInv, since := s.epoch } 0x11 hs

/-- Accepts waiting requests, and begins back-invalidations, while one can be (R241, R249). -/
def homePump (s : State) (n : Nat) (fuel : Nat) : State :=
  match fuel with
  | 0 => s
  | fuel + 1 =>
    let k := sliceOf s n
    if k.txns.length ≥ 128 then s
    else
      let idle := (lineHeads k.waitq).filter (fun m => (txnOf s n m.line).isNone)
      let take (m : Msg) : State := updSlice s n (fun k => { k with waitq := k.waitq.erase m })
      match idle.find? (fun m => dirRoom s n m || specRefused s n m) with
      | some m => homePump (if specRefused s n m then refuseSpec (take m) n m else homeStart (take m) n m) n fuel
      | none =>
        let asked := idle.filter (fun m => !k.txns.any (fun t => t.phase = .backInv && setOf t.req.line = setOf m.line))
        match asked.findSome? (fun m => backInvVictim s n m.line) with
        | some v => homePump (backInvStart s n v) n fuel
        | none => s

/-- Accepts what can be accepted at home `n`. -/
def homeRun (s : State) (n : Nat) : State := homePump s n (2 * (sliceOf s n).waitq.length + 1)

/-- Ends what a finished transaction held back. -/
def homeNext (s : State) (line : Nat) : State := homeRun s (homeOf s line)

/-- A request fails the world or range checks of its home (R252, R361, R362, R491), made on its header fields: a normal-world request
for secure memory, a partition's quad outside its ranges, or a line that is no DRAM line. An eviction or a clean returns what was granted. -/
def homeDenies (s : State) (m : Msg) : Bool :=
  let pa := 64 * m.line
  if m.op = 0x07 || m.op = 0x08 || m.op = 0x09 then false
  else if addrCls s pa != .dram then true
  else if pa < secWm s then !m.sec
  else match (if m.holder < 64 then quadPart s m.holder else none) with
    | some p => !inRanges s p pa
    | none => false

/-- A request is denied: it changes nothing, and a world refusal is recorded with its stop, unit and partition (R252, R361). -/
def denyMsg (s : State) (n : Nat) (m : Msg) : State :=
  let pa := 64 * m.line
  let stop := holderStop m.holder
  let s := if addrCls s pa == .dram && decide (pa < secWm s) then
      alm s 0x8010 4 6 stop (lo32 pa) (hi32 pa) (stop * 2 ^ 17 + holderUnit m.holder * 2 ^ 14 + m.part * 16) else s
  creditDone (sendMsg (updSlice s n id) { op := 0x26, holder := m.holder, line := m.line, thread := m.thread }) m.pkt

/-- A request arrives at its home (R241, R248, R252): it is denied or refused at once, or waits its turn. -/
def homeArrive (s : State) (m : Msg) : State :=
  let n := homeOf s m.line
  if (match dirEnt s n m.line with | some e => e.err == 3 | none => false) then protocolBreach s m.line m.op.toNat
  else if homeDenies s m then denyMsg s n m
  else if specRefused s n m then refuseSpec s n m
  else homeRun (updSlice s n (fun k => { k with waitq := k.waitq ++ [m] })) n

/-! ### Snoops at a holder (R244, Table 9-5) -/

/-- What a snoop asks for. -/
inductive Snoop where
  | shared | inv | read | clean
  deriving DecidableEq, Repr

/-- The quad's L2 is off (R247); before the rails are up nothing is. -/
def tileDown (s : State) (q : Nat) : Bool := q < 64 && s.boot.rails && fieldN (getR s .PWR_DOM_STS 0 (256 + q)) 2 0 = 0

/-- The answer of an L2 to a snoop: the response code, its data, and the state after. -/
def l2Snoop (s : State) (q line : Nat) (k : Snoop) : BitVec 6 × Line × State :=
  if tileDown s q then (0x2A, Line.unused, s)
  else
    let s := l2Resolve (quadMerge s q line) q line
    match track s q line with
    | some tr =>
      if tr.st == .MI then (0x2F, tr.data, s)
      else if tr.st == .EI || tr.st == .SI then (0x2E, tr.data, s)
      else if tr.st == .SM then
        match k with
        | .inv => (0x2A, Line.unused, setTrack (setL2 (quadPurge s q line) q line none) q line (some { tr with st := .IM }))
        | _ => (0x2B, Line.unused, s)
      else (0x2A, Line.unused, s)
    | none =>
      match l2 s q line with
      | some (st, y) =>
        let d := y.data
        let clear (s : State) : State := setL2 (quadPurge s q line) q line none
        if st == .M then
          match k with
          | .shared => (0x2D, d, setL2 (quadDowngrade s q line) q line (some (.S, y)))
          | .inv => (0x2C, d, clear s)
          | .read => (0x2D, d, s)
          | .clean => (0x2D, d, setL2 (quadDowngrade s q line) q line (some (.E, y)))
        else if st == .E then
          match k with
          | .shared => (0x2B, Line.unused, setL2 (quadDowngrade s q line) q line (some (.S, y)))
          | .inv => (0x2A, Line.unused, clear s)
          | _ => (0x2B, Line.unused, s)
        else
          match k with
          | .inv => (0x2A, Line.unused, clear s)
          | _ => (0x2B, Line.unused, s)
      | none => (0x2A, Line.unused, s)

/-- The copy of a line in an agent's read buffer. -/
def agentHas (s : State) (h line : Nat) : Option Line :=
  (s.agentBuf.find? (fun e => e.1 == h && e.2.1 == line)).map (fun e => e.2.2)

/-- A copy leaves an agent's read buffer. -/
def agentDrop (s : State) (h line : Nat) : State :=
  { s with agentBuf := s.agentBuf.filter (fun e => !(e.1 == h && e.2.1 == line)) }

/-- The answer of I/O agents 0–6, which hold lines only in S (R235, R244); a line taken away before its words have left is read again
(R250). -/
def agentSnoop (s : State) (h line : Nat) (k : Snoop) : BitVec 6 × Line × State :=
  if (agentHas s h line).isSome then
    match k with
    | .inv => (0x2A, Line.unused, sendMsg (agentDrop s h line) { op := 0x01, holder := h, line := line })
    | _ => (0x2B, Line.unused, s)
  else (0x2A, Line.unused, s)

/-- The answer of a holder to a snoop. -/
def holderSnoop (s : State) (h line : Nat) (k : Snoop) : BitVec 6 × Line × State :=
  if isL2 h then l2Snoop s h line k else agentSnoop s h line k

/-! ### The coherent value of a line, for accesses taken as one event (log 31) -/

/-- Writes accepted or waiting at the home, oldest first. -/
def homeWrites (s : State) (n line : Nat) : List Msg :=
  let w (m : Msg) : Bool := m.line == line && (m.op = 0x05 || m.op = 0x06)
  ((sliceOf s n).txns.map Txn.req).filter w ++ (sliceOf s n).waitq.filter w

/-- Writes of the line on their way to DRAM, oldest first: at a controller that holds them, then in flight. -/
def memWrites (s : State) (line : Nat) : List Msg :=
  let c := chanOf s (channelOf (64 * line))
  let w (m : Msg) : Bool := m.line == line && m.op = 0x15
  (c.heldWrites.filter w ++ c.calHeld.filter w) ++ s.net.filter w

/-- The data of a line that a cache owns, or that a message or a transaction carries away from one. -/
def ownedData (s : State) (line : Nat) : Option Line × State :=
  let n := homeOf s line
  match (List.range 64 ++ [71]).find? (fun q => match l2 s q line with | some (st, _) => st == LSt.M || st == LSt.E | none => false) with
  | some q => quadData s q line
  | none =>
    let carried := (s.net.find? (fun m => m.line == line && (m.op = 0x21 || m.op = 0x22 || m.op = 0x38 || m.op = 0x39 || m.op = 0x2C || m.op = 0x2D || m.op = 0x2F))).map Msg.data
    let held := match txnOf s n line with | some t => (if t.dataDirty then t.data else none) | none => none
    let wb := (List.range 64 ++ [71]).findSome? (fun q => match track s q line with
      | some tr => if tr.st == LSt.MI && (match dirEnt s n line with | some e => e.holders.getLsbD q | none => false) then some tr.data else none
      | none => none)
    (match carried, held, wb with
      | some d, _, _ => some d
      | none, some d, _ => some d
      | none, none, d => d, s)

/-- The value of a line before the writes that wait at its home. -/
def basePeek (s : State) (line : Nat) : Line × Bool × State :=
  let n := homeOf s line
  match ownedData s line with
  | (some d, s) => (d, false, s)
  | (none, s) =>
    match llc s n line with
    | some x => llcRead s n line x
    | none =>
      match (memWrites s line).getLast? with
      | some m => (m.data, false, s)
      | none => memReadLine s line

/-- The newest value of a line, with whether it carries words found uncorrectable now. -/
def cohPeek (s : State) (line : Nat) : Line × Bool × State :=
  let n := homeOf s line
  let r := basePeek s line
  match homeWrites r.2.2 n line with
  | [] => r
  | ws => ((ws.foldl (fun (d : Line) m => if m.op = 0x05 then m.data else (mergeLine s n line d m.data m.mask none).1) r.1), r.2.1, r.2.2)

/-- The coherent value of one word. -/
def cohWord (s : State) (w : Nat) : TWord × Bool × State :=
  let (d, ue, s) := cohPeek s (w / 8)
  let x := lineWord d (w % 8)
  (x, ue && isPoisoned x, s)

/-! ### Composite accesses of I/O agents (R51, R250, R251; log 31) -/

/-- The home can take a request for the line at once: nothing holds or waits for it. -/
def homeFree (s : State) (n line : Nat) : Bool :=
  (txnOf s n line).isNone && !(sliceOf s n).waitq.any (fun m => m.line == line) && decide ((sliceOf s n).txns.length < 128)

/-- A snoop and its response taken within one event: the answer reaches the directory and the slice (Table 9-4). -/
def snoopNow (s : State) (n line : Nat) (k : Snoop) (keep : Bool) (h : Nat) : Option Line × State :=
  let (r, d, s) := holderSnoop (cohCount (meshCount s n (holderStop h) 1) n 1) h line k
  let s := meshCount s (holderStop h) n 1
  let s := if keep && (r = 0x2B || r = 0x2D) then s else dirRemove s n line h
  (if r = 0x2C || r = 0x2D || r = 0x2F then some d else none, s)

/-- The holders of a line. -/
def holdersAt (s : State) (n line : Nat) : List Nat := match dirEnt s n line with | some x => holdersOf x.holders | none => []

/-- An agent reads a line as one event (R250): a copy in its read buffer gives the line for this use; otherwise RD_SHARED is served at
once where the home can take it, the owner gives up its ownership and the agent is entered in the directory, its copy gone when it is
used (R245); otherwise the value is the newest one. Agent 7 reads without a copy. The flits pass its bridge stop (R51, R233). -/
def agentLine (s : State) (line h : Nat) : Line × Bool × State :=
  match agentHas s h line with
  | some d => (d, false, agentDrop s h line)
  | none =>
    let n := homeOf s line
    let s := meshCount (meshCount s (holderStop h) n 1) n (holderStop h) 1
    let m : Msg := { op := 0x01, holder := h, line := line }
    if h = 71 || !homeFree s n line || !dirRoom s n m then cohPeek s line
    else
      let s := cohCount s n 0
      let isX : Bool := match dirEnt s n line with | some x => x.x | none => false
      let owners := if isX then (holdersAt s n line).filter (· != h) else []
      let s := owners.foldl (fun s o =>
        let r := snoopNow s n line .shared true o
        match r.1 with
        | some d => llcAlloc r.2 n line d true
        | none => r.2) s
      let left : BitVec 72 := match dirEnt s n line with | some x => x.holders | none => 0
      cohPeek (dirSetHolders s n line false (left ||| holderBit h)) line

/-- An agent writes bytes of a line as one event (R251): WR_FULL or WR_PARTIAL, which the home takes at once where it can, every cached
copy removed first; at a line that is BUSY, it waits there for its turn. The flits pass the agent's bridge stop (R51, R233). -/
def agentWrite (s : State) (line : Nat) (d : Line) (mask : Word) (h : Nat) : State :=
  let n := homeOf s line
  let full := wholeLine mask
  let m : Msg := { op := if full then 0x05 else 0x06, holder := h, line := line, data := d, mask := mask }
  let s := meshCount s (holderStop h) n (if full then 1 else 2)
  if !homeFree s n line then updSlice s n (fun k => { k with waitq := k.waitq ++ [m] })
  else
    let s := meshCount (cohCount s n 0) n (holderStop h) 1
    let r := (holdersAt s n line).foldl (fun (acc : Option Line × State) o =>
      let r := snoopNow acc.2 n line .inv false o
      (match r.1 with | some d => some d | none => acc.1, r.2)) ((none : Option Line), s)
    let s := r.2
    if full then llcAlloc s n line d true
    else match r.1, llc s n line with
      | some old, _ =>
        let (x, s) := mergeLine s n line old d mask none
        llcAlloc s n line x true
      | none, some k =>
        let (old, _, s) := llcHit s n line k
        let (x, s) := mergeLine s n line old d mask none
        llcAlloc s n line x true
      | none, none =>
        let (old, _, s) := basePeek s line
        let (x, s) := mergeLine s n line old d mask none
        let c := chanOf s (channelOf (64 * line))
        if c.holdPages.contains (line / 64) || (c.inCal && decide (s.epoch < c.calStart + 100)) || !(memWrites s line).isEmpty then sendMsg s { op := 0x15, holder := 72, line := line, data := x }
        else ctlWrite s line x

/-- The lines of `n` words from word `w` on. -/
def wordLines (w n : Nat) : List Nat := if n = 0 then [] else (List.range ((w + n - 1) / 8 - w / 8 + 1)).map (w / 8 + ·)

/-- An agent reads `n` words from word `w` on, one RD_SHARED for each line (R250): each word, and whether it is found uncorrectable
now. -/
def agentWords (s : State) (w n h : Nat) : List (TWord × Bool) × State :=
  let r := (wordLines w n).foldl (fun (acc : List (TWord × Bool) × State) line =>
    let (d, ue, s) := agentLine acc.2 line h
    (acc.1 ++ d.map (fun x => (x, ue && isPoisoned x)), s)) ([], s)
  ((r.1.drop (w % 8)).take n, r.2)

/-- An agent writes words with their byte masks, (word, byte mask, value): one WR_FULL or WR_PARTIAL for each line (R251). -/
def agentPut (s : State) (ws : List (Nat × Nat × TWord)) (h : Nat) : State :=
  foldS (fun s line =>
    let mine := ws.filter (fun e => e.1 / 8 == line)
    let d := mine.foldl (fun (d : Line) e => d.set (e.1 % 8) e.2.2) Line.unused
    agentWrite s line d (w64 (mine.foldl (fun a e => a + e.2.1 * 2 ^ (8 * (e.1 % 8))) 0)) h) s ((ws.map (fun e => e.1 / 8)).dedup)

/-- An agent writes whole words from word `w` on. -/
def agentWriteWords (s : State) (w : Nat) (l : List TWord) (h : Nat) : State :=
  agentPut s (l.zipIdx.map (fun e => (w + e.2, 255, e.1))) h

/-- An agent writes bytes at a DRAM address, tallies generated at the ingress, poisoned where the packet carried poison (R138, R155). -/
def agentWriteBytes (s : State) (a : Nat) (l : List Byte) (ep : Bool) (h : Nat) : State :=
  agentPut s ((List.range ((a % 8 + l.length + 7) / 8)).map (fun k =>
    let w := a / 8 + k
    let at? (i : Nat) : Bool := decide (a ≤ 8 * w + i) && decide (8 * w + i < a + l.length)
    let v := w64 (leNat ((List.range 8).map (fun i => if at? i then l.getD (8 * w + i - a) 0 else 0)))
    (w, (List.range 8).foldl (fun m i => if at? i then m + 2 ^ i else m) 0, if ep then poison v else gen v))) h

/-- The newest `n` bytes at a DRAM address, with whether every word that holds one is sound. -/
def cohBytes (s : State) (a n : Nat) : List Byte × Bool :=
  let ws := (List.range ((a % 8 + n + 7) / 8)).map (fun i => (cohWord s (a / 8 + i)).1)
  (((ws.flatMap (fun x => (List.range 8).map (byteOf x.val))).drop (a % 8)).take n, ws.all isSound)

/-- An agent reads `n` bytes, with whether every word that holds one is sound. -/
def agentBytes (s : State) (a n h : Nat) : List Byte × Bool × State :=
  let r := agentWords s (a / 8) ((a % 8 + n + 7) / 8) h
  let all := r.1.flatMap (fun x => (List.range 8).map (byteOf x.1.val))
  ((all.drop (a % 8)).take n, r.1.all (fun x => isSound x.1), r.2)

end Sys2Proof.Machine
end

