-- ==== Sys2Proof/Machine/Predict.lean ====
section
/-! DEFINITION. Branch prediction, loop buffer and performance counters of a core (R172–R180, R195). -/

namespace Sys2Proof.Machine

/-- Counts event `ev` `n` times for a thread (R195): the counters whose selector names it, at an enabled level, outside
the secure world; a wrap sets OVF. -/
def pmcCount (s : State) (t ev n : Nat) : State :=
  let x := thr s t
  if x.world == .secure then s
  else
    let lvl := match x.level with | .U => 8 | .S => 9 | .M => 10
    foldS (fun s i =>
      let sel := getR s .CORE_PMC_SEL (t / 4) (t % 4) i
      if fieldN sel 7 0 = ev && bit sel lvl then
        updR s .CORE_PMC (fun w =>
          let c := fieldN w 47 0 + n
          if c ≥ 2 ^ 48 then setBit (setField w 47 0 c) 63 true else setField w 47 0 c) (t / 4) (t % 4) i
      else s) s (List.range 6)

/-- The thread is named by a RELEASE or DEADLINE slot of its partition's calendar (CORE_THCFG.CAL). -/
def calNamed (s : State) (t : Nat) : Bool :=
  match threadPart s t with
  | some p => match (knots s p).cal with
    | some c => c.slots.any (fun sl => (sl.act == SlotAct.release || sl.act == SlotAct.deadline) && sl.target == t)
    | none => false
  | none => false

/-- Calendar-critical (ch. 6). -/
def calCritical (s : State) (t : Nat) : Bool := calNamed s t || bit (getR s .CORE_THCFG (t / 4) (t % 4)) 0

/-- A keyed thread is calendar-critical or in the secure world (R177). -/
def isKeyed (s : State) (t : Nat) : Bool := calCritical s t || (thr s t).world == .secure

/-- CORE_CTXID of a thread. -/
def ctxid (s : State) (t : Nat) : Nat := (getR s .CORE_CTXID (t / 4) (t % 4)).toNat

/-- The key that a thread's predictor indexes use; zero for an ordinary thread (R177, R179). -/
def predKey (s : State) (t : Nat) : Nat :=
  if !isKeyed s t then 0
  else match (coreOf s (t / 4)).keys.find? (fun k => k.thread == t % 4 && k.world == (thr s t).world && k.ctxid == ctxid s t) with
    | some k => k.key
    | none => 0

/-- Index of a branch in the direction entries (R175). -/
def dirIndex (s : State) (t : Nat) (pc : Word) : Nat :=
  Nat.xor (Nat.xor (fieldN pc 17 2) t) (predKey s t) % 65536

/-- Selects or draws the key of a keyed thread (R179): a miss draws a new 16-bit key that differs from every key held
and replaces the least recently used of 16. The key is random: an open value. -/
def rekey (s : State) (t : Nat) : State :=
  let c := t / 4
  let ks := (coreOf s c).keys
  match ks.find? (fun k => k.thread == t % 4 && k.world == (thr s t).world && k.ctxid == ctxid s t) with
  | some k => updCore s c (fun x => { x with keys := x.keys.erase k ++ [k] })
  | none =>
    let (w, s) := freeW s
    let start := w.toNat % 65536
    let key := ((List.range 17).map (fun i => (start + i) % 65536)).find? (fun v => !ks.any (fun k => k.key == v))
    let e : KeyEnt := { thread := t % 4, world := (thr s t).world, ctxid := ctxid s t, key := key.getD start }
    updCore s c (fun x => { x with keys := (if x.keys.length ≥ 16 then x.keys.drop 1 else x.keys) ++ [e] })

/-- The flush of an ordinary thread's direction and BTB entries (R178), which PRED_FLUSH counts. -/
def flushOrdinary (s : State) (t : Nat) : State :=
  let c := t / 4
  let s := updCore s c (fun x => { x with
    dirPred := x.dirPred.filter (fun e => match e.2 with | some d => !(d.writer == t % 4 && !d.k) | none => true)
    btb := (x.btb.map (fun e => (e.1, e.2.filter (fun b => !(b.writer == t % 4 && b.key == 0))))).filter (fun e => !e.2.isEmpty) })
  pmcCount s t 0x10 1

/-- What a CORE_CTXID write or a change `f` of privilege or world does to prediction (R178, R179): the entries of a thread that
is ordinary as the event finds it, or that the event makes ordinary, are flushed; a thread that is keyed after it selects its
key; and the return stack is emptied. -/
def predFlush (s : State) (t : Nat) (f : State → State) : State :=
  let was := isKeyed s t
  let s := f (if was then s else flushOrdinary s t)
  let s := updThr s t (fun x => { x with rstack := [] })
  if isKeyed s t then rekey s t else if was then flushOrdinary s t else s

/-- Ends streaming from the loop buffer and empties it (R174). -/
def loopEnd (s : State) (t : Nat) : State :=
  updThr s t (fun x => { x with loop := false, loopCand := none, loopUops := 0, loopBad := false, loopPath := [], loopDirs := [] })

/-- A change `f` of world with its side effects (R174, R178, R179, R205). -/
def worldChange (s : State) (t : Nat) (f : State → State) : State := sideClear (loopEnd (predFlush s t f) t) t

/-- A keyed thread without a key in the table selects one before it predicts (R179). -/
def ensureKey (s : State) (t : Nat) : State :=
  if isKeyed s t && !((coreOf s (t / 4)).keys.any (fun k => k.thread == t % 4 && k.world == (thr s t).world && k.ctxid == ctxid s t))
  then rekey s t else s

/-- The direction that prediction gives a conditional branch (R175). -/
def predictTaken (s : State) (t : Nat) (pc : Word) (backward : Bool) : Bool :=
  let c := t / 4
  if bit (getR s .CORE_CTL c) 2 then backward
  else match SMap.get (fun _ => none) (coreOf s c).dirPred (dirIndex s t pc) with
    | some d => if d.writer == t % 4 && d.k == isKeyed s t then decide (d.ctr ≥ 2) else backward
    | none => backward

/-- A committed conditional branch updates its direction entry (R176). -/
def dirUpdate (s : State) (t : Nat) (pc : Word) (taken : Bool) : State :=
  let c := t / 4
  let i := dirIndex s t pc
  let e := SMap.get (fun _ => none) (coreOf s c).dirPred i
  let k := isKeyed s t
  let mine := match e with | some d => d.writer == t % 4 && d.k == k | none => false
  let d' : DirPred := match e with
    | some d => if mine then { d with ctr := if taken then min 3 (d.ctr + 1) else d.ctr - 1 }
      else { ctr := if taken then 2 else 1, writer := t % 4, k := k }
    | none => { ctr := if taken then 2 else 1, writer := t % 4, k := k }
  updCore s c (fun x => { x with dirPred := SMap.set (fun _ => none) x.dirPred i (some d') })

/-- A committed taken transfer writes its BTB entry, replacing the least recently written way (R177). -/
def btbWrite (s : State) (t : Nat) (pc target : Word) : State :=
  let c := t / 4
  let set := fieldN pc 11 2
  let tag := fieldN pc 47 12
  let key := predKey s t
  let ways := (SMap.get (fun _ => []) (coreOf s c).btb set).filter (fun b => !(b.tag == tag && b.writer == t % 4 && b.key == key))
  let e : BtbEnt := { tag := tag, target := target, writer := t % 4, key := key }
  updCore s c (fun x => { x with btb := SMap.set (fun _ => []) x.btb set ((e :: ways).take 4) })

/-- The target that the BTB holds for a transfer. -/
def btbLookup (s : State) (t : Nat) (pc : Word) : Option Word :=
  ((SMap.get (fun _ => []) (coreOf s (t / 4)).btb (fieldN pc 11 2)).find?
    (fun b => b.tag == fieldN pc 47 12 && b.writer == t % 4 && b.key == predKey s t)).map BtbEnt.target

/-- Kinds of control transfer that prediction tells apart. -/
inductive XferKind where
  | cond | jump | call | ret | indirect
  /-- JIND with gd = g63: an indirect target, and the link is pushed. -/
  | icall
  deriving DecidableEq, Repr

/-- A mispredicted transfer: counted with the µops of the wrong path, whose number is open (R185; at most the ROB's 384,
Table 6-2). -/
def mispredict (s : State) (t : Nat) : State :=
  let (n, s) := freeW s
  pmcCount (pmcCount s t 0x05 1) t 0x20 (n.toNat % 385)

/-- A committed control transfer (R172–R177): counters, prediction state, return stack, loop buffer. -/
def xferCommit (s : State) (t : Nat) (pc : Word) (kind : XferKind) (target : Word) (taken : Bool) : State :=
  let s := ensureKey s t
  let x := thr s t
  let backward := decide (target.toNat ≤ pc.toNat)
  let predicted : Bool := match kind with
    | .cond => (if x.loop then
        (match x.loopDirs.find? (fun e => e.1 == pc) with | some e => e.2 | none => taken)
        else predictTaken s t pc backward) == taken
    | .jump => true
    | .call => true
    | .ret => (if x.rstack.isEmpty then btbLookup s t pc else x.rstack.head?) == some target
    | .indirect => btbLookup s t pc == some target
    | .icall => btbLookup s t pc == some target
  let s := pmcCount s t 0x04 1
  let s := if predicted then s else mispredict s t
  if x.loop then
    if !predicted || kind == XferKind.indirect || kind == XferKind.icall || kind == XferKind.ret then loopEnd s t else s
  else
    let s := if kind == .cond then dirUpdate s t pc taken else s
    let s := if taken then btbWrite s t pc target else s
    let s := match kind with
      | .call => updThr s t (fun x => { x with rstack := ((pc + 8) :: x.rstack).take 32 })
      | .icall => updThr s t (fun x => { x with rstack := ((pc + 8) :: x.rstack).take 32 })
      | .ret => updThr s t (fun x => { x with rstack := x.rstack.drop 1 })
      | _ => s
    let s := if kind == .cond then updThr s t (fun x => { x with loopPath := x.loopPath ++ [(pc, taken)] }) else s
    if taken && backward then
      updThr s t (fun x =>
        let again := match x.loopCand with | some (p, n) => if p = pc then n + 1 else 1 | none => 1
        let captured := decide (again ≥ 2) && decide (x.loopUops ≤ 128) && !x.loopBad && (kind == .cond || kind == .jump) && bit (getR s .CORE_CTL (t / 4)) 1
        { x with loopCand := some (pc, again), loop := captured, loopDirs := if captured then x.loopPath else [], loopPath := [], loopUops := 0, loopBad := false })
    else updThr s t (fun x => if kind == .call || kind == .icall || kind == .ret || kind == .indirect then { x with loopBad := true } else x)

/-- A committed instruction (R195): µop and instruction counters, the events it owes, and the length of the path a loop capture
measures. -/
def commitCount (s : State) (t uops : Nat) (loopBreaker : Bool) : State :=
  let owed := (thr s t).owed
  let s := foldS (fun s e => pmcCount s t e 1) (pmcCount (pmcCount s t 0x02 uops) t 0x03 1) owed
  updThr s t (fun x => { x with owed := [], loopUops := x.loopUops + uops, loopBad := x.loopBad || loopBreaker })

end Sys2Proof.Machine
end

