-- ==== Sys2Proof/Machine/Traps.lean ====
section
/-! DEFINITION. Taking a trap and returning from one (R131–R135), interrupts (R95, R133, R490), and the fault of a
partition (R85). -/

namespace Sys2Proof.Machine

/-! ### Control-register banks -/

/-- The level number that PPL carries: 0 U, 1 S, 3 M (Table 4-3). -/
def levelNo : Level → Nat
  | .U => 0
  | .S => 1
  | .M => 3

/-- The level that a PPL value names; value 2 is written as 0. -/
def levelOf (n : Nat) : Level := if n = 3 then .M else if n = 1 then .S else .U

/-- The S bank of a world (R94). -/
def sBank (x : Thread) : World → CrBank
  | .normal => x.sN
  | .secure => x.sS

/-- Which bank a trap or return uses. -/
inductive BankId where
  | sNormal | sSecure | m
  deriving DecidableEq, Repr

/-- Reads a bank. -/
def bankOf (x : Thread) : BankId → CrBank
  | .sNormal => x.sN
  | .sSecure => x.sS
  | .m => x.m

/-- Replaces a bank. -/
def setBank (x : Thread) (b : BankId) (v : CrBank) : Thread :=
  match b with
  | .sNormal => { x with sN := v }
  | .sSecure => { x with sS := v }
  | .m => { x with m := v }

/-- The level a bank belongs to. -/
def BankId.level : BankId → Level
  | .m => .M
  | _ => .S

/-! ### Partition faults (R85, R134, R135) -/

/-- A command completes in RIG_STS with its status and location (R488). -/
def rigDone (s : State) (status knot area off : Nat) : State :=
  updR s .RIG_STS (fun w =>
    setField (setBit (setField (setField (setField (setField w 63 48 knot) 47 24 off) 23 16 status) 5 4 area) 0 true) 3 2 0) 0

/-- A command other than VERIFY, REWIRE, STORE and SELECT completes: located nowhere on a failure (Table 3-15a). The
loader's STATE is left as it is (R90). -/
def cmdDone (s : State) (status : Nat) : State :=
  let st := fieldN (getR s .RIG_STS 0) 3 2
  let s := if status = 0 then rigDone s 0 0 0 0 else rigDone s status 0xFFFF 2 0
  updR s .RIG_STS (fun w => setField w 3 2 st) 0

/-- A thread stops at an instruction boundary; a HELD one stays HELD, and one parked in WAITSLOT stands at it. -/
def haltThread (now : Nat) (x : Thread) : Thread :=
  let w : Option Wait := match x.wait with
    | some (.slot gd) => some (.slot gd)
    | _ => none
  if x.run == .held then x else { x with run := .halted, stoodAt := if x.run == .run then now else x.stoodAt, wait := w, resv := none, runAhead := false }

/-- Stops every thread of a partition at an instruction boundary (R84). -/
def haltThreads (s : State) (p : Nat) : State := foldS (fun s t => updThr s t (haltThread s.epoch)) s (partThreads s p)

/-- The partition drains after a PARK: none of its threads begins an instruction (R84). -/
def draining (s : State) (t : Nat) : Bool :=
  match threadPart s t with
  | some p => (prun s p).park == ParkPhase.draining
  | none => false

/-- A partition enters FAULTED (R85): calendar and threads stop, and a PARK under way completes NOT_PARKED. -/
def faultPartition (s : State) (p : Nat) : State :=
  let r := prun s p
  let s := updPrun s p (fun r => { r with st := .faulted, calRunning := false, park := .none })
  let s := haltThreads s p
  if r.park == ParkPhase.none then s else cmdDone s 0x0D

/-- FAULTED by a trap, with its record (R134, R135). -/
def faultByTrap (s : State) (t cause : Nat) (epc : Word) : State :=
  match threadPart s t with
  | some p => faultPartition (alm s 0x0013 4 15 p cause (lo32 epc.toNat) (hi32 epc.toNat)) p
  | none => updThr s t (fun x => { x with run := .halted, stoodAt := s.epoch })

/-! ### Trap entry (R133) -/

/-- The bank that a trap targets (R133, Table 4-6a); `lvl` is the level whose IP or ECMP raised an interrupt of code 1 or
2. -/
def trapTarget (x : Thread) (code : Nat) (intr : Bool) (lvl : Level) : BankId :=
  if x.world == .secure then .sSecure
  else if intr && code ≠ 3 then (if lvl == .M then .m else .sNormal)
  else
    let r := if intr then fieldN x.iroute 7 6 else fieldN x.xroute (2 * code + 1) (2 * code)
    if r = 2 && x.level != .M then .sNormal
    else if r = 1 && x.level == .U then .sNormal
    else .m

/-- Leaves the secure world (R127): registers other than those kept are zero, FLAGS is zero, and level, IE and pc come
from W_STATUS and W_EPC. A thread of the secure world has no caller at U (R126). -/
def leaveSecure (s : State) (t : Nat) (keep : List Nat) : State :=
  worldChange s t (fun s => updThr s t (fun x =>
    let lvl := levelOf (fieldN x.wStatus 3 2)
    let pie := bit x.wStatus 1
    let x := { x with g := x.g.filter (fun e => keep.contains e.1), v := [], flags := 0, world := .normal, level := lvl, slot := .none, callStart := none, pc := x.wEpc, wait := none, owed := [] }
    match lvl with
    | .M => { x with m := { x.m with status := setBit x.m.status 0 pie } }
    | .S => { x with sN := { x.sN with status := setBit x.sN.status 0 pie } }
    | .U => x))

/-- Ends a secure call as a double trap does (R134): as WRET, g1–g4 zeroed too. -/
def endSecureCall (s : State) (t : Nat) : State := leaveSecure s t []

/-- What a tally exception counts and records, wherever its trap goes (R145): CORE_TALLY_STS, and for causes 0x03 and 0x04 a
warning with the thread, the cause and the address. -/
def tallyRecord (s : State) (t code : Nat) : State :=
  let c := t / 4
  let pc := (thr s t).pc.toNat
  if code = 3 then alm (updR s .CORE_TALLY_STS (fun w => satInc w 63 48) c) 0x0010 3 1 t (lo32 pc) (hi32 pc) code
  else if code = 4 then alm (updR s .CORE_TALLY_STS (fun w => satInc w 47 32) c) 0x0011 3 1 t (lo32 pc) (hi32 pc) code
  else if code = 5 then updR s .CORE_TALLY_STS (fun w => satInc w 31 16) c
  else s

/-- The entry proper, once its bank is decided: what the pseudocode of R133 writes. -/
def enterBank (s : State) (t : Nat) (b : BankId) (code : Nat) (intr : Bool) (tval : Word) : State :=
  let x := thr s t
  let k := bankOf x b
  let st := k.status
  let (pds, etgt) : Bool × Word := match x.slot with
    | .taken g => (true, g)
    | _ => (false, k.etgt)
  let st := setField (setBit (setBit st 4 pds) 1 (bit st 0)) 3 2 (levelNo x.level)
  let st := setBit (setBit st 0 false) 7 true
  let k' : CrBank := { k with epc := x.pc, etgt := etgt, cause := setBit (w64 code) 63 intr, tval := tval, status := st }
  let base := k.tvec &&& maskBits 63 8
  let pc := if bit k.tvec 0 && intr then base + w64 (64 * code) else base
  let changed := x.level != b.level
  let x' := setBank { x with pc := pc, slot := .none, level := b.level, run := .run, wait := none, owed := [], resv := none, runAhead := false } b k'
  if changed then loopEnd (predFlush s t (fun s => setThr s t x')) t else loopEnd (setThr s t x') t

/-- A trap taken in the normal world with its double-trap and zero-handler rules (R133–R135). -/
def trapNormal (s : State) (t code : Nat) (intr : Bool) (tval : Word) (lvl : Level) : State :=
  let x := thr s t
  let b := trapTarget x code intr lvl
  let b := if !intr && b == .sNormal && bit x.sN.status 7 then .m else b
  if !intr && b == .m && bit x.m.status 7 then faultByTrap s t code x.pc
  else if (bankOf x b).tvec &&& maskBits 63 8 = 0 then faultByTrap s t code x.pc
  else enterBank s t b code intr tval

/-- Taking a trap (R133): the one operation that every exception and interrupt goes through. -/
def trapEnter (s : State) (t code : Nat) (intr : Bool) (tval : Word) (lvl : Level := .M) : State :=
  let s := if intr then s else tallyRecord s t code
  let x := thr s t
  if x.world == .secure then
    if !intr && bit x.sS.status 7 then
      -- a double trap in the secure world (R134): the call ends and cause 0x07 is taken with TVAL 0
      trapNormal (endSecureCall s t) t 0x07 false 0 .M
    else if x.sS.tvec &&& maskBits 63 8 = 0 then faultByTrap s t code x.pc
    else enterBank s t .sSecure code intr tval
  else trapNormal s t code intr tval lvl

/-- Return from a trap (R133, R104): RFT.S uses the S bank of the thread's world, RFT.M the M bank. -/
def trapReturn (s : State) (t : Nat) (b : BankId) : State :=
  let x := thr s t
  let k := bankOf x b
  let lvl := if b == .sSecure then Level.S else levelOf (fieldN k.status 3 2)
  let st := setBit (setBit (setBit k.status 0 (bit k.status 1)) 1 true) 7 false
  let pds := bit k.status 4
  let k' : CrBank := { k with status := setBit st 4 false }
  let x' := setBank { x with level := lvl, pc := k.epc, slot := if pds then .taken k.etgt else .none } b k'
  if lvl != x.level then loopEnd (predFlush s t (fun s => setThr s t x')) t else loopEnd (setThr s t x') t

/-! ### Interrupts (R95, R133, R490) -/

/-- The stored IPI bit of CORE_IRQ_PEND (R193). -/
def ipiPend (s : State) (t : Nat) : Bool := bit (getR s .CORE_IRQ_PEND (t / 4) (t % 4)) 0

/-- The counter-overflow bit of CORE_IRQ_PEND: a counter with OVF = 1 and OVF_IE = 1. -/
def pmcPend (s : State) (t : Nat) : Bool :=
  (List.range 6).any (fun i => bit (getR s .CORE_PMC (t / 4) (t % 4) i) 63 && bit (getR s .CORE_PMC_SEL (t / 4) (t % 4) i) 11)

/-- CORE_IRQ_PEND of a thread: the present state of its sources (R191). -/
def irqPend (s : State) (t : Nat) : Word :=
  let units := s.irq.foldl (fun (w : Word) e => if e.2.1 = t then w ||| maskBits e.2.2 e.2.2 else w) 0
  setBit (setBit units 0 (ipiPend s t)) 1 (pmcPend s t)

/-- Code 0x03 is pending at the thread (R95). -/
def unitPending (s : State) (t : Nat) : Bool := irqPend s t != 0

/-- Code 0x02 is pending at a bank's level: EPOCH ≥ ECMP (R95). -/
def ecmpPending (s : State) (k : CrBank) : Bool := decide (k.ecmp.toNat ≤ s.epoch)

/-- The route that M_IROUTE gives code 0x03 for the level at which the thread stands; none while it waits (Table
4-6a). -/
def unitTarget (x : Thread) : Option Level :=
  let r := fieldN x.iroute 7 6
  if r = 1 then (if x.level == .U then some .S else some .M)
  else if r = 2 then (if x.level == .M then none else some .S)
  else some .M

/-- IP as read at a level (R490): bit 1 stored, bits 2 and 3 from their sources. -/
def ipRead (s : State) (t : Nat) (k : CrBank) (lvl : Level) : Word :=
  let unit := unitPending s t && unitTarget (thr s t) == some lvl
  setBit (setBit (k.ip &&& 2) 2 (ecmpPending s k)) 3 unit

/-- Interrupt `c` is pending and enabled at the level (R133): its IE bit and the level's STATUS.IE, with an S target
waiting while the thread is at M. -/
def intrReady (s : State) (t : Nat) (k : CrBank) (lvl : Level) (c : Nat) : Bool :=
  bit (ipRead s t k lvl) c && bit k.ie c && bit k.status 0 && !(lvl == .S && (thr s t).level == .M)

/-- The interrupt to take at a boundary: codes 3, 2, 1 in order, the M instance first (R132). -/
def intrPick (s : State) (t : Nat) : Option (Nat × Level) :=
  let x := thr s t
  if x.world == .secure then none
  else [3, 2, 1].findSome? (fun c =>
    if intrReady s t x.m .M c then some (c, Level.M)
    else if intrReady s t x.sN .S c then some (c, Level.S)
    else none)

/-- Any interrupt is pending at any level, enabled or not (R128, WFI). DESIGN CHOICE (log 96): the spec does not say whether the S
bank of the world in which the thread does not stand counts; both S banks count here. -/
def anyPending (s : State) (t : Nat) : Bool :=
  let x := thr s t
  bit x.m.ip 1 || bit x.sN.ip 1 || bit x.sS.ip 1 || ecmpPending s x.m || ecmpPending s x.sN || ecmpPending s x.sS || unitPending s t

/-- A thread parked in WFI goes on at the next instruction: the WFI commits (R128, R195). -/
def wfiWake (s : State) (t : Nat) : State :=
  if (thr s t).run == .wfi then
    commitCount (updThr s t (fun x => { x with run := .run, pc := x.pc + 4, slot := .none })) t 1 true
  else s

/-- A thread parked in WFI goes on when any interrupt is pending (R128). -/
def wfiCheck (s : State) (t : Nat) : State :=
  if (thr s t).run == .wfi && anyPending s t then wfiWake s t else s

/-- Run-ahead ends when an interrupt or a deadline trap becomes pending (R184). -/
def runAheadEnd (s : State) (t : Nat) : State :=
  updThr s t (fun x => if x.runAhead then { x with runAhead := false } else x)

end Sys2Proof.Machine
end

