-- ==== Sys2Proof/Machine/Access.lean ====
section
/-! DEFINITION. A thread's accesses: translation (R105–R111), the checks of physical addresses (R54–R57, R361, R362,
R491), fetch (R55, R140), and the lookup of words in store buffer, L0, side buffer and L1D (R186, R203, R204). -/

namespace Sys2Proof.Machine

/-- Kinds of access. -/
inductive AccKind where
  | fetch | load | store
  deriving DecidableEq, Repr

/-- The page-fault cause of an access (R107). -/
def faultCause : AccKind → Nat
  | .fetch => 0x0A
  | .load => 0x0B
  | .store => 0x0C

/-- Outcome of a translation: a physical address with its ATTR, or a cause. -/
inductive Xl where
  | ok (pa attr : Nat)
  | fault (cause : Nat)
  deriving DecidableEq, Repr

/-- The bank of S registers of the thread's current world. -/
def curS (x : Thread) : CrBank := sBank x x.world

/-- A leaf's permission for an access (Table 4-11a). -/
def typeAllows (ty : Nat) : AccKind → Bool
  | .load => ty = 2 || ty = 3 || ty = 5 || ty = 6
  | .store => ty = 3 || ty = 6
  | .fetch => ty = 4 || ty = 5 || ty = 6

/-- Checks a leaf at level `lv` and gives the physical address (R105, R108, R109). -/
def leafCheck (x : Thread) (pte va : Word) (lv : Nat) (k : AccKind) : Xl :=
  let ty := fieldN pte 2 0
  let frame := fieldN pte 51 12
  let user := bit pte 6
  let bad := fieldN pte 63 52 ≠ 0 || fieldN pte 8 7 = 3 || lv = 4
    || (lv = 2 && frame % 512 ≠ 0) || (lv = 3 && frame % 262144 ≠ 0)
    || !typeAllows ty k || !bit pte 10 || (k == .store && !bit pte 11)
    || (x.level == .U && !user)
    || (x.level == .S && user && (k == .fetch || !bit (curS x).status 8))
  if bad then .fault (faultCause k)
  else .ok (frame * 4096 + va.toNat % 2 ^ (12 + 9 * (lv - 1))) (fieldN pte 8 7)

/-- Walks from the table at `root` at level `lv` (R107–R110). The reads are normal cacheable loads. -/
def walk (s : State) (t : Nat) (k : AccKind) (va : Word) (lv root : Nat) : Xl × Option (Word × Nat) × State :=
  match lv with
  | 0 => (.fault (faultCause k), none, s)
  | lv + 1 =>
    let x := thr s t
    let pa := root * 4096 + 8 * fieldN va (12 + 9 * lv + 8) (12 + 9 * lv)
    let reach := match threadPart s t with
      | some p => inRanges s p pa || (x.world == .secure && decide (pa < secWm s))
      | none => false
    if !reach then (.fault (faultCause k), none, s)
    else
      let (w, ue, s) := cohWord s (pa / 8)
      if ue || !isSound w then (.fault (if k == .fetch then 0x01 else 0x02), none, s)
      else
        let ty := fieldN w.val 2 0
        if ty = 0 || ty = 7 then (.fault (faultCause k), none, s)
        else if ty = 1 then
          if lv = 0 || fieldN w.val 63 52 ≠ 0 || fieldN w.val 11 6 ≠ 0 then (.fault (faultCause k), none, s)
          else walk s t k va lv (fieldN w.val 51 12)
        else (leafCheck x w.val va (lv + 1) k, some (w.val, lv + 1), s)

/-- A cached translation covers an address (R111): of the thread's world, ASID and root table. -/
def tlbMatch (x : Thread) (va : Word) (e : TlbEnt) : Bool :=
  e.world == x.world && e.root == fieldN (curS x).ptbase 51 12 && (e.global || e.asid == fieldN (curS x).asid 15 0)
    && va.toNat / 2 ^ (12 + 9 * (e.level - 1)) == e.vpn

/-- Translates an address (R105–R111). Where a cached entry differs from the tables, either may be used until XLSYNC:
the choice is open. -/
def xlate (s : State) (t : Nat) (k : AccKind) (va : Word) : Xl × State :=
  let x := thr s t
  if x.level == .M || !bit (curS x).ptbase 0 then (.ok va.toNat 0, s)
  else
    let top := fieldN va 63 47
    if top ≠ 0 && top ≠ 2 ^ 17 - 1 then (.fault (faultCause k), s)
    else
      let (r, leaf, s) := walk s t k va 4 (fieldN (curS x).ptbase 51 12)
      match x.tlb.find? (tlbMatch x va) with
      | some e =>
        let old := leafCheck x e.pte va e.level k
        if old = r then (r, s)
        else
          let (b, s) := freeB s
          (if b then old else r, s)
      | none =>
        match leaf with
        | some (pte, lv) =>
          let e : TlbEnt := { world := x.world, root := fieldN (curS x).ptbase 51 12, asid := fieldN (curS x).asid 15 0, global := bit pte 9, vpn := va.toNat / 2 ^ (12 + 9 * (lv - 1)), level := lv, pte := pte }
          (r, match r with
            | .ok _ _ => updThr s t (fun y => { y with tlb := (e :: y.tlb).take 64 })
            | .fault _ => s)
        | none => (r, s)

/-! ### Physical checks -/

/-- Where an access goes after R491. -/
inductive Dest where
  /-- DRAM, cacheable or not. -/
  | mem (cacheable : Bool)
  | reg
  | hawser (k : Nat)
  /-- The outcome of an unmapped address (R54). -/
  | unmapped
  /-- A world violation (R361). -/
  | world
  deriving DecidableEq, Repr

/-- Where a thread's data access to a physical address goes (R491, R361, R362, R57). -/
def destOf (s : State) (t pa attr : Nat) : Dest :=
  let x := thr s t
  match addrCls s pa with
  | .unmapped => .unmapped
  | .point => .unmapped
  | .register => if pa ≥ 0xFEF0000000 && x.world == .normal then .world else .reg
  | .hawser k => .hawser k
  | .dram =>
    if pa < secWm s then (if x.world == .secure then .mem (attr == 0) else .world)
    else match threadPart s t with
      | some p => if inRanges s p pa then .mem (attr == 0) else .unmapped
      | none => .unmapped

/-- Records an unmapped access (R54): MESH_ERR describes the first, COUNT counts, Almanac records an error. -/
def recordUnmapped (s : State) (stop unit part kind addr : Nat) (sec : Bool) : State :=
  let s := updR s .MESH_ERR (fun w => satInc w 47 32) 0
  let s := if bit (getR s .MESH_ERR 0) 63 then s
    else
      let s := updR s .MESH_ERR (fun w =>
        setBit (setField (setField (setBit (setField (setField w 23 17 stop) 16 14 unit) 13 sec) 7 4 part) 3 0 kind) 63 true) 0
      setR s .MESH_ERR_ADDR (w64 addr) 0
  alm s 0x2010 4 6 stop (lo32 addr) (hi32 addr) kind

/-- A normal-world access by a unit other than a core below the watermark: the security record of R361 with its source class and
number. -/
def unitWorldRefusal (s : State) (cls src stop unit part addr : Nat) : State :=
  alm s 0x8010 4 cls src (lo32 addr) (hi32 addr) (stop * 2 ^ 17 + unit * 2 ^ 14 + part * 16)

/-- An unmapped access by a thread. -/
def threadUnmapped (s : State) (t kind addr : Nat) : State :=
  recordUnmapped s (t / 16) (t / 4 % 4) ((threadPart s t).getD 0) kind addr ((thr s t).world == .secure)

/-- A refused normal-world access by a thread (R361): the error record. -/
def threadWorldRefusal (s : State) (t addr : Nat) : State :=
  alm s 0x8010 4 1 t (lo32 addr) (hi32 addr) (t / 16 * 2 ^ 17 + t / 4 % 4 * 2 ^ 14 + (threadPart s t).getD 0 * 16)

/-- Clears the mark of a word granted as uncorrectable that the quad's L2 holds; whether it was there: the first-detection
outcome is due once (R212). -/
def ueTake (s : State) (q line wi : Nat) : Bool × State :=
  match l2 s q line with
  | some (st, y) =>
    if SMap.get (fun _ => 0) y.err wi = 3 then (true, setL2 s q line (some (st, { y with err := SMap.set (fun _ => 0) y.err wi 0 })))
    else (false, s)
  | none => (false, s)

/-- An L1I miss of core `c` (R183, R199): the word, whether it is found uncorrectable now, and the line in the L1I where the
quad's L2 holds it; the next line of the same page is then prefetched, as a committed fetch trains it. -/
def l1iMiss (s : State) (c pa : Nat) : TWord × Bool × State :=
  let line := pa / 64
  let q := c / 4
  match quadData s q line with
  | (some d, s) =>
    let (ue, s) := ueTake s q line (wordInLine pa)
    let s := l1iInstall s c line d
    let next := line + 1
    let s := if next % 64 = 0 || (l1i s c next).isSome then s
      else match quadData s q next with
        | (some d, s) => l1iInstall s c next d
        | (none, s) => s
    (lineWord d (wordInLine pa), ue, s)
  | (none, s) => cohWord s (pa / 8)

/-- The word that a fetch reads: from the L1I, where a parity error invalidates the line, is counted and makes it a miss
(Table 7-3, R213). -/
def l1iRead (s : State) (c pa : Nat) : TWord × Bool × State :=
  match l1i s c (pa / 64) with
  | some k =>
    if k.err.isEmpty && k.tagErr = 0 then (lineWord k.data (wordInLine pa), false, l1iTouch s c (pa / 64 % 128) k.way)
    else l1iMiss (quadCE (updR (setL1i s c (pa / 64) none) .CORE_CACHE_ERR (fun w => satInc w 47 32) c) (c / 4) false) c pa
  | none => l1iMiss s c pa

/-- The fetch at the thread's pc (R55, R140, R361, R362): the trap it raises, if any. -/
def fetchCheck (s : State) (t : Nat) : Option (Nat × Word) × State :=
  let x := thr s t
  match xlate s t .fetch x.pc with
  | (.fault c, s) => (some (c, x.pc), s)
  | (.ok pa _, s) =>
    match addrCls s pa with
    | .dram =>
      if x.world == .secure && decide (secWm s ≤ pa) then (some (0x07, x.pc), s)
      else if x.world == .normal && decide (pa < secWm s) then (some (0x07, x.pc), threadWorldRefusal s t pa)
      else if pa ≥ secWm s && !(match threadPart s t with | some p => inRanges s p pa | none => false) then
        (some (0x01, x.pc), threadUnmapped s t 4 pa)
      else
        let (w, ue, s) := l1iRead s (t / 4) pa
        if ue || !isSound w then (some (0x01, x.pc), s) else (none, s)
    | _ => (some (0x01, x.pc), threadUnmapped s t 4 pa)

/-- The instruction word that memory holds at the thread's pc, as a fetch finds it; none where it cannot be fetched. -/
def wordAtPc (s : State) (t : Nat) : Option IWord :=
  match (xlate s t .fetch (thr s t).pc).1 with
  | .ok pa _ =>
    if addrCls s pa = .dram then
      some (BitVec.ofNat 32 ((cohWord s (pa / 8)).1.val.toNat / 2 ^ (8 * (pa % 8 / 4 * 4))))
    else none
  | .fault _ => none

/-! ### Store buffer (R153, R186) -/

/-- The store's bytes in their place within the containing word; the tally follows the value (R152, R153). -/
def StoreEnt.placed (e : StoreEnt) : TWord :=
  if e.full then e.val
  else
    let low := ((List.range 8).find? (fun i => e.mask.testBit i)).getD 0
    let v := e.val.val <<< (8 * low)
    if isSound e.val then gen v else ⟨v, e.val.tal⟩

/-- The byte mask of an access of `size` bytes at `pa` within its word. -/
def byteMask (pa size : Nat) : Nat := (2 ^ size - 1) * 2 ^ (pa % 8)

/-- What the store buffer says to a load: the youngest store that overlaps it forwards when it covers it whole,
otherwise the load waits (R186, R187). -/
inductive Fwd where
  | none
  | forward (e : StoreEnt)
  | partly
  deriving DecidableEq, Repr

/-- Looks a load up among the thread's stores, youngest first. -/
def forwardOf (x : Thread) (pa size : Nat) : Fwd :=
  let m := byteMask pa size
  match x.stores.reverse.find? (fun e => e.word = pa / 8 && Nat.land e.mask m ≠ 0) with
  | some e => if Nat.land e.mask m = m then .forward e else .partly
  | none => .none

/-- What the store buffer says to a vector load: it forwards when the youngest store over every lane is a VST's, which is then
one VST, since a store buffer drains in order (R186). -/
def forwardVec (x : Thread) (pa : Nat) : Option (List TWord) :=
  (List.range 4).foldr (fun j acc =>
    match acc, x.stores.reverse.find? (fun e => e.word = pa / 8 + j) with
    | some l, some e => if e.vec then some (e.val :: l) else none
    | _, _ => none) (some [])

/-! ### Caches (R203, R204, R212) -/

/-- Outcome of a lookup of one line. -/
inductive Look where
  | hit (d : Line)
  | miss
  /-- The wanted word was found uncorrectable with no good copy (R212). -/
  | ue
  deriving DecidableEq, Repr

/-- Counter events that are due when the thread's present instruction commits (R195). -/
def owe (s : State) (t : Nat) (evs : List Nat) : State :=
  updThr s t (fun x => { x with owed := x.owed ++ evs.filter (fun e => !x.owed.contains e) })

/-- An L0 or side-buffer parity error (Table 7-3): counted as correctable. -/
def l0Parity (s : State) (c : Nat) : State := quadCE (updR s .CORE_CACHE_ERR (fun w => satInc w 31 16) c) (c / 4) false

/-- The L1D as it answers for word `wi`. -/
def lookupL1d (s : State) (t line wi : Nat) : Look × State :=
  let c := t / 4
  match l1dErrors s c line wi with
  | (true, s) => (.ue, s)
  | (false, s) =>
    match l1d s c line with
    | some y => (.hit y.data, owe (l1dTouch s c (line % 64) y.way) t [0x06])
    | none => (.miss, owe s t (if (l2 s (t / 16) line).isSome then [0x06, 0x07] else [0x06, 0x07, 0x08]))

/-- The committed use of a word found in the side buffer: a word granted as uncorrectable raises its first-detection
outcome once (R212), any other promotes the line (R204), which SPEC_SB_PROMOTED counts. One invalidated while its fill was
in flight serves the load that waited, and LOAD_FILL discards it (R205). -/
def lookupSide (s : State) (t line wi : Nat) (e : SideEntry) : Look × State :=
  if e.dead then (.hit e.data, s)
  else if e.parityErr then lookupL1d (l0Parity (sideUpd s t (fun x => sideDrop x line)) (t / 4)) t line wi
  else match ueTake s (t / 16) line wi with
    | (true, s) => (.ue, s)
    | (false, s) => (.hit e.data, owe (promote s t line) t [0x24])

/-- The line as the thread's caches answer for word `wi`: L0, then a filled side-buffer entry, then L1D (R202–R204). A parity
error in L0 invalidates the line, which L1D then serves (Table 7-3); a word granted as uncorrectable raises the
first-detection outcome once, whichever level holds it. -/
def lookup (s : State) (t line wi : Nat) : Look × State :=
  let c := t / 4
  let x := thr s t
  let marked : Bool := match l1d s c line with
    | some y => SMap.get (fun _ => 0) y.err wi = 3
    | none => false
  match if l0En s t then l0Find x line else none with
  | some (k, l) =>
    if marked then lookupL1d s t line wi
    else if l.parityErr then lookupL1d (l0Parity (updThr s t (fun x => l0Drop x line)) c) t line wi
    else (.hit l.data, updThr s t (fun x => l0Touch x (coreBoot s c) k))
  | none =>
    match x.side.find? (fun e => e.line == line && e.filled) with
    | some e => lookupSide s t line wi e
    | none => lookupL1d s t line wi

/-- A speculative or run-ahead load may ask for this physical address (R181): normal memory in a MEMORY range of the thread's
partition, permitted to its world. -/
def specOk (s : State) (t pa : Nat) : Bool :=
  (addrCls s pa == .dram) && (match threadPart s t with | some p => inRanges s p pa | none => false)
    && ((thr s t).world == .secure || decide (secWm s ≤ pa))

/-- Trains the stride prefetcher at a committed load (R208): after three equal strides it requests up to two lines ahead
on the same page, as speculative reads into the side buffer. -/
def strideTrain (s : State) (t : Nat) (pc : Word) (pa : Nat) : State :=
  let x := thr s t
  match x.strides.find? (fun e => e.pc == pc) with
  | none => updThr s t (fun x => { x with strides := ({ pc := pc, last := pa, step := 0, count := 0 } :: x.strides).take 8 })
  | some e =>
    let d : Int := (pa : Int) - e.last
    let n := if d = e.step && d ≠ 0 then e.count + 1 else if d ≠ 0 then 1 else 0
    let e' : Stride := { e with last := pa, step := d, count := n }
    let s := updThr s t (fun x => { x with strides := e' :: x.strides.erase e })
    if n ≥ 3 && bit (getR s .CORE_L0CTL (t / 4) (t % 4)) 1 then
      foldS (fun s i =>
        let a : Int := (pa : Int) + d * (i + 1)
        let line := a.toNat / 64
        if a ≥ 0 && a.toNat / 4096 = pa / 4096 && line ≠ pa / 64 && specOk s t (64 * line) && (l1d s (t / 4) line).isNone
            && !((thr s t).side.any (fun e => e.line == line)) && (l0Find (thr s t) line).isNone
        then sideRequest s t line .stride else s) s [0, 1]
    else s

end Sys2Proof.Machine
end

