-- ==== Sys2Proof/Machine/RegAddr.lean ====
section
/-! DEFINITION. Where registers stand in register space (R59, Table 2-6), who a requester is (R216), and the refusal
notice of a block (R484). -/

namespace Sys2Proof.Machine

/-- A register of a unit: unit number and the two indexes of its description line. -/
structure RegRef where
  reg : Reg
  u : Nat
  i : Nat := 0
  j : Nat := 0
  deriving DecidableEq, Repr, Inhabited

/-- Base address of register space. -/
def regBase : Nat := 0xFE00000000

/-- The base of a block's registers for unit `u` (Table 2-6). The tenant page of a slice stands in BAR2 (R397), not in
register space. -/
def blkBase : Blk → Nat → Nat
  | .core, u => regBase + u / 4 * 0x1000000 + u % 4 * 0x200000
  | .quad, u => regBase + u * 0x1000000
  | .slc, u => regBase + 0x40000000 + u * 0x100000
  | .mch, u => regBase + 0x50000000 + u * 0x100000
  | .mesh, _ => regBase + 0x60000000
  | .fbay, u => regBase + 0x70000000 + u * 0x1000000
  | .pst, _ => regBase + 0x80000000
  | .host, u => regBase + 0x90000000 + u * 0x1000000
  | .dma, _ => regBase + 0xA0000000
  | .page, u => u * 4096
  | .haws, u => regBase + 0xB0000000 + u * 0x100000
  | .pwr, _ => regBase + 0xC0000000
  | .alm, _ => regBase + 0xD0000000
  | .vig, _ => regBase + 0xD1000000
  | .rig, _ => regBase + 0xE0000000
  | .bowl, _ => regBase + 0xF0000000

/-- Block, unit and offset of an address in register space. -/
def blkOf (pa : Nat) : Option (Blk × Nat × Nat) :=
  let o := pa - regBase
  if pa < regBase then none
  else if o < 0x40000000 then
    let q := o / 0x1000000
    let r := o % 0x1000000
    if r < 0x800000 then some (.core, 4 * q + r / 0x200000, r % 0x200000) else some (.quad, q, r)
  else if o < 0x44000000 then some (.slc, (o - 0x40000000) / 0x100000, o % 0x100000)
  else if 0x50000000 ≤ o && o < 0x51000000 then some (.mch, (o - 0x50000000) / 0x100000, o % 0x100000)
  else if 0x60000000 ≤ o && o < 0x70000000 then some (.mesh, 0, o - 0x60000000)
  else if 0x70000000 ≤ o && o < 0x78000000 then some (.fbay, (o - 0x70000000) / 0x1000000, o % 0x1000000)
  else if 0x80000000 ≤ o && o < 0x90000000 then some (.pst, 0, o - 0x80000000)
  else if 0x90000000 ≤ o && o < 0x92000000 then some (.host, (o - 0x90000000) / 0x1000000, o % 0x1000000)
  else if 0xA0000000 ≤ o && o < 0xB0000000 then some (.dma, 0, o - 0xA0000000)
  else if 0xB0000000 ≤ o && o < 0xB0400000 then some (.haws, (o - 0xB0000000) / 0x100000, o % 0x100000)
  else if 0xC0000000 ≤ o && o < 0xD0000000 then some (.pwr, 0, o - 0xC0000000)
  else if 0xD0000000 ≤ o && o < 0xD1000000 then some (.alm, 0, o - 0xD0000000)
  else if 0xD1000000 ≤ o && o < 0xD2000000 then some (.vig, 0, o - 0xD1000000)
  else if 0xE0000000 ≤ o && o < 0xF0000000 then some (.rig, 0, o - 0xE0000000)
  else if 0xF0000000 ≤ o && o < 0x100000000 then some (.bowl, 0, o - 0xF0000000)
  else none

/-- The register of a place that holds offset `off`, as its two indexes. -/
def placeIdx (p : RegPlace) (off : Nat) : Option (Nat × Nat) :=
  if off < p.off then none
  else
    let d := off - p.off
    let i := if p.s1 = 0 then 0 else min (d / p.s1) (p.c1 - 1)
    let r := d - i * p.s1
    let j := if p.s2 = 0 then 0 else r / p.s2
    if r - j * p.s2 = 0 && j < p.c2 then some (i, j) else none

/-- The register at an offset of a block, if any; the offset is of the containing word. -/
def regInBlk (b : Blk) (u off : Nat) : Option RegRef :=
  (regPlaces b).findSome? (fun p => (placeIdx p off).map (fun x => ⟨p.reg, u, x.1, x.2⟩))

/-- The register at an address. -/
def regAt (pa : Nat) : Option RegRef :=
  match blkOf pa with
  | some (b, u, off) => regInBlk b u off
  | none => none

/-- The address of a register (0 for none). -/
def regAddr (r : RegRef) : Nat :=
  match [Blk.rig, .core, .quad, .slc, .mesh, .mch, .pwr, .fbay, .pst, .bowl, .host, .dma, .page, .haws, .vig, .alm].findSome?
      (fun b => (regPlaces b).find? (fun p => p.reg == r.reg)) with
  | some p => blkBase p.blk r.u + p.off + r.i * p.s1 + r.j * p.s2
  | none => 0

/-- The stop that serves a block's register (Table 2-6). -/
def regStop (b : Blk) (u off : Nat) : Nat :=
  match b with
  | .core => u / 4
  | .quad => u
  | .slc => u
  | .mch => 64 + u
  | .fbay => if u < 4 then 80 else 82
  | .host => if u = 0 then 80 else 82
  | .dma => 81
  | .page => 81
  | .haws => 81
  | .pst => if off < 0x4000000 then off / 0x100000 else 83
  | _ => 83

/-- The stop that serves an address of register space. -/
def regServer (pa : Nat) : Nat :=
  match blkOf pa with
  | some (b, u, off) => regStop b u off
  | none => 83

/-- A thread's register access goes to its server (R59). -/
def sendReg (s : State) (t pa : Nat) (write : Bool) (word : TWord) : State :=
  let (p, s) := mkPkt s (threadUnit s t) (regServer pa) 7 (if write then 0x18 else 0x17) false 1
  { s with regNet := s.regNet ++ [{ thread := t, addr := pa, write := write, answer := false, word := word, pkt := p }] }

/-- The power domain of a block's register, where it has one (Table 19-2). -/
def regDomain (b : Blk) (u off : Nat) : Option Nat :=
  match b with
  | .core => some u
  | .quad => some (256 + u)
  | .slc => some (320 + u)
  | .mch => some (384 + u)
  | .fbay => some (400 + u)
  | .host => some (408 + u)
  | .dma => some 416
  | .page => some 416
  | .haws => some (410 + u)
  | .alm => some 417
  | .rig => some 417
  | .vig => some 418
  | .bowl => some 414
  | .pst => if off < 0x4000000 then some (320 + off / 0x100000) else some 417
  | _ => none

/-- The domain is OFF, or on its way from OFF. -/
def domOff (s : State) (d : Nat) : Bool :=
  let st := fieldN (getR s .PWR_DOM_STS 0 d) 2 0
  st = 0 || (st = 4 && s.pow.reqs.any (fun r => r.taken && r.dom = d && r.before = 0))

/-- Domain `d` belongs to Vigil target `t` (R468). -/
def targetHas (t d : Nat) : Bool :=
  if t < 64 then d / 4 = t || d = 256 + t
  else if t < 128 then d = 320 + (t - 64)
  else if t < 144 then d = 384 + (t - 128)
  else d = 400 + (t - 144)

/-- A register access finds nobody (R60, R470): the rails or the block's domain are off, or the block is under test. -/
def blkDead (s : State) (b : Blk) (u off : Nat) : Bool :=
  !s.boot.rails || (match regDomain b u off with
    | some d => domOff s d || (match s.vigil with
      | some (_, _, ts) => ts.any (fun t => targetHas t d)
      | none => false)
    | none => false)

/-- As `blkDead`, for a register. -/
def regDead (s : State) (r : RegRef) : Bool :=
  match [Blk.rig, .core, .quad, .slc, .mesh, .mch, .pwr, .fbay, .pst, .bowl, .host, .dma, .page, .haws, .vig, .alm].findSome?
      (fun b => (regPlaces b).find? (fun p => p.reg == r.reg)) with
  | some p => blkDead s p.blk r.u (p.off + r.i * p.s1 + r.j * p.s2)
  | none => true

/-- A command that is a register access: it has no effect where `regDead` holds (R60). -/
def regCmd (s : State) (r : RegRef) (f : State → State) : State := if regDead s r then s else f s

/-! ### Plain fields (R7, Table 0-5) -/

/-- A register's stored fields after a write: RW fields take the value, W1C bits clear and W1S bits set where it has a
one, every other field is unchanged; a locked RWL field is unchanged. -/
def regWritten (r : Reg) (old v : Word) (locked : Bool := false) : Word :=
  r.fields.foldl (fun w f =>
    match f.acc with
    | .rw => setField w f.hi f.lo (fieldN v f.hi f.lo)
    | .rwl => if locked then w else setField w f.hi f.lo (fieldN v f.hi f.lo)
    | .w1c => setField w f.hi f.lo (fieldN (w &&& ~~~ v) f.hi f.lo)
    | .w1s => setField w f.hi f.lo (fieldN (w ||| v) f.hi f.lo)
    | _ => w) old

/-- A register's stored fields after a read by a requester for whom RC fields act: they clear. -/
def regAfterRead (r : Reg) (old : Word) : Word :=
  r.fields.foldl (fun w f => match f.acc with | .rc => setField w f.hi f.lo 0 | _ => w) old

/-- What a read shows of the stored fields: write-only fields read as zero, secure-only fields only to the secure
world (R8). -/
def regShown (r : Reg) (v : Word) (sec : Bool) : Word :=
  r.fields.foldl (fun w f =>
    match f.acc with
    | .wo => w
    | .so => if sec then setField w f.hi f.lo (fieldN v f.hi f.lo) else w
    | _ => setField w f.hi f.lo (fieldN v f.hi f.lo)) 0

/-! ### Requesters (R216) -/

/-- The stop of a requester. -/
def reqStop : Requester → Nat
  | .thread t => t.toNat / 16
  | .mgmt _ => 83
  | .bowline => 83
  | .manager h => if h = 0 then 80 else 82
  | .tenant _ => 81
  | .host h => if h = 0 then 80 else 82

/-- The partition a requester belongs to, if any. -/
def reqPart (s : State) : Requester → Option Nat
  | .thread t => threadPart s t.toNat
  | _ => none

/-- The requester is in the secure world. -/
def reqSec (s : State) : Requester → Bool
  | .thread t => (thr s t.toNat).world == .secure
  | .bowline => true
  | _ => false

/-- The requester is Cordage. -/
def isMgmt : Requester → Bool
  | .mgmt _ => true
  | _ => false

/-- The requester is the Bowline core. -/
def isBowline : Requester → Bool
  | .bowline => true
  | _ => false

/-- The requester is the manager of a host port. -/
def isManager : Requester → Bool
  | .manager _ => true
  | _ => false

/-! ### Splice-able blocks (R372–R375, Table 15-5) -/

/-- RIG_SPLICE[b].STATE: 0 UNOWNED, 1 OWNED, 2 RELEASING, 3 RESETTING. -/
def blkState (s : State) (b : Nat) : Nat := fieldN (getR s .RIG_SPLICE 0 b) 2 0

/-- RIG_SPLICE[b].OWNER_KIND and OWNER (Table 3-14). -/
def blkOwner (s : State) (b : Nat) : Nat × Nat :=
  let w := getR s .RIG_SPLICE 0 b
  (fieldN w 10 8, fieldN w 27 16)

/-- The requester is this owner. -/
def isOwner (s : State) (who : Requester) (kind no : Nat) : Bool :=
  match kind with
  | 1 => reqPart s who == some no
  | 2 => isMgmt who
  | 3 => reqSec s who
  | _ => false

/-- A block's registers are open to the requester as its owner (R373): while OWNED, or RELEASING. -/
def ownsBlock (s : State) (who : Requester) (b : Nat) : Bool :=
  (blkState s b = 1 || blkState s b = 2) && isOwner s who (blkOwner s b).1 (blkOwner s b).2

/-- A requester other than the owner finds the block closed (R373). -/
def blkClosed (s : State) (who : Requester) (b : Nat) : Bool := blkState s b ≠ 1 && !isBowline who && !ownsBlock s who b

/-- Base code of the refusal notices of a block (R484). -/
def blkCode (b : Blk) (off : Nat) : Nat :=
  match b with
  | .core => 0x0000
  | .quad => 0x1000
  | .slc => 0x1000
  | .mesh => 0x2000
  | .mch => 0x3000
  | .fbay => if off < 0x800000 then 0x5000 else 0x6000
  | .pst => 0x7000
  | .host => 0x9000
  | .dma => 0xA000
  | .page => 0xA000
  | .haws => 0xB000
  | .pwr => if 0x1000000 ≤ off && off < 0x3000000 then 0x4000 else 0xC000
  | .alm => 0xF000
  | .vig => 0xD000
  | .rig => if 0x2000 ≤ off then 0x8000 else 0xE000
  | .bowl => 0x8000

/-- The refusal notice of R484 for an access by `who` at `addr`: the notice code of the block is given. The source
recorded is the requester (DESIGN CHOICE, log 40). -/
def refusalNotice (s : State) (code addr : Nat) (who : Requester) : State :=
  let src : Nat × Nat := match who with
    | .thread t => (1, t.toNat)
    | .mgmt c => (18, c.toNat)
    | .bowline => (17, 0)
    | .manager h => (10, h.toNat)
    | .tenant n => (12, n.toNat)
    | .host h => (10, h.toNat)
  alm s code 2 src.1 src.2 (lo32 addr) (hi32 addr % 2 ^ 20 + reqStop who * 2 ^ 24) ((reqPart s who).getD 0 + b2n (reqSec s who) * 16)

/-- The refusal notice of a register's own block. -/
def refuseReg (s : State) (r : RegRef) (who : Requester) : State :=
  let addr := regAddr r
  match blkOf addr with
  | some (b, _, off) => refusalNotice s (blkCode b off + 1) addr who
  | none => s

end Sys2Proof.Machine
end

