-- ==== Sys2Proof/Machine/Almanac.lean ====
section
/-! DEFINITION. Almanac (ch. 21): records, the flash mirror, and the two windows. -/

namespace Sys2Proof.Machine

/-! ### The ring -/

/-- RECORD_ACCEPT (R475–R479): severity 7 is never produced, and a trace record exists only while TRACE = 1 (R478); the records that
name a trip carry TRIP (R476, R451, R381). -/
def execRecordAccept (code : BitVec 16) (sev : BitVec 3) (cls : BitVec 8) (src : BitVec 16) (p0 p1 p2 : BitVec 32) (s : State) :
    Host.Outcome State Fault Refusal :=
  .next (if !s.boot.rails || sev = 7 then s
    else if sev = 0 && !s.rig.dev.trace then s
    else recordAcceptOp s code.toNat sev.toNat cls.toNat src.toNat p0.toNat p1.toNat p2.toNat (code = 0xC013 || code = 0xC014 || code = 0x8015))

/-- The bytes of a record (Tables 21-1, R474, R476). -/
def recordBytes (r : AlmRec) : List Byte :=
  let flags := r.sev + b2n r.afterDrop * 8 + b2n r.trip * 16 + b2n r.start * 32
  let head := leBytes 8 r.epoch.toNat ++ leBytes 4 r.seq ++ leBytes 2 r.code ++ leBytes 1 flags ++ leBytes 1 r.cls ++ leBytes 2 r.src
  let par := leBytes 4 r.p0 ++ leBytes 4 r.p1 ++ leBytes 4 r.p2
  head ++ leBytes 2 (crc16 (head ++ par)) ++ par

/-- A ring slot that holds no record: zero but for severity 7 in byte 14 (R480). -/
def emptySlotBytes : List Byte := (List.replicate 32 (0 : Byte)).set 14 7

/-- Word `i` of ring slot `n`. -/
def ringWord (s : State) (n i : Nat) : Word :=
  w64 (leAt (match SMap.get (fun _ => none) s.alm.ring n with
    | some r => recordBytes r
    | none => emptySlotBytes) (8 * i) 8)

/-- Word `i` of mirror slot `n`; an erased slot reads as all ones (R481). -/
def mirrorWord (s : State) (n i : Nat) : Word :=
  match SMap.get (fun _ => none) s.alm.mirror n with
  | some r => w64 (leAt (recordBytes r) (8 * i) 8)
  | none => BitVec.allOnes 64

/-! ### The mirror (R481–R483) -/

/-- The record of smaller SEQ. -/
def seqMin (best : Option (Nat × AlmRec)) (e : Nat × AlmRec) : Option (Nat × AlmRec) :=
  match best with
  | some b => if e.2.seq < b.2.seq then some e else best
  | none => some e

/-- The record to mirror next, with its ring slot: in a trip's flush the trip record first, then every record of severity error or
above not yet mirrored; due records in SEQ order otherwise. -/
def mirrorNext (s : State) : Option (Nat × AlmRec) :=
  let all : List (Nat × AlmRec) := s.alm.ring.filterMap (fun e => e.2.map (fun r => (e.1, r)))
  let pick (f : AlmRec → Bool) : Option (Nat × AlmRec) := (all.filter (fun e => f e.2)).foldl seqMin none
  if s.alm.flushing then
    match pick (fun r => r.trip && !r.mirrored) with
    | some e => some e
    | none => pick (fun r => r.due || (decide (4 ≤ r.sev) && !r.mirrored))
  else pick (fun r => r.due)

/-- The erase block after `b` that is not retired. -/
def nextBlock (retired : List Nat) (b : Nat) : Nat :=
  (((List.range 1024).map (fun i => (b + 1 + i) % 1024)).find? (fun x => !retired.contains x)).getD b

/-- A new block is entered: what it holds is erased, which is a notice (R481). -/
def mirrorErase (s : State) : State :=
  let b := s.alm.mNext / 8192
  if s.alm.mNext % 8192 = 0 && s.alm.mirror.any (fun e => e.1 / 8192 = b) then
    alm { s with alm := { s.alm with mirror := s.alm.mirror.filter (fun e => e.1 / 8192 != b) } } 0xF012 2 20 0 b
  else s

/-- A record is in the mirror. -/
def mirrorTaken (s : State) (k : Nat) (r : AlmRec) : State :=
  let a := s.alm
  let n := a.mNext
  let ring := match SMap.get (fun _ => none) a.ring k with
    | some x => if x.seq = r.seq then SMap.set (fun _ => none) a.ring k (some { x with due := false, mirrored := true }) else a.ring
    | none => a.ring
  let next := if (n + 1) % 8192 = 0 then 8192 * nextBlock a.mRetired (n / 8192) else n + 1
  { s with alm := { a with ring := ring, mirror := SMap.set (fun _ => none) a.mirror n (some { r with due := false, mirrored := true }), mNext := next, mSeq := r.seq, mAny := true } }

/-- A flash write failed: the block is retired, and with more than 64 retired mirroring stops (R483). -/
def mirrorRetire (s : State) : State :=
  let a := s.alm
  let b := a.mNext / 8192
  let gone := b :: a.mRetired
  let s : State := { s with alm := { a with mRetired := gone, mNext := 8192 * nextBlock gone b } }
  let s := alm s 0xF011 4 20 0 b
  if gone.length ≤ 64 then s
  else
    let undue (e : Nat × Option AlmRec) : Nat × Option AlmRec := (e.1, e.2.map (fun r => { r with due := false }))
    alm { s with alm := { s.alm with mStop := true, ring := s.alm.ring.map undue } } 0xF013 5 20 0

/-- A ring slot is found uncorrectable: it is emptied, and an error recorded (R483). -/
def slotLost (s : State) (k : Nat) : State :=
  alm { s with alm := { s.alm with ring := SMap.set (fun _ => none) s.alm.ring k none } } 0xF010 4 20 0 k

/-- ALMANAC_MIRROR_RECORD: the next record is written, or its flash write fails, or its ring slot is found uncorrectable (`slotOk`
false). Nothing is due before the Bowline image runs. -/
def execAlmanacMirrorRecord (slotOk ok : Bool) (s : State) : Host.Outcome State Fault Refusal :=
  .next (if !s.boot.rails || s.alm.mStop || s.alm.mWait then s
    else match mirrorNext s with
      | none => s
      | some (k, r) =>
        if !slotOk then slotLost s k
        else
        let s := mirrorErase s
        if ok then mirrorTaken s k r else mirrorRetire s)

/-! ### ALM_SEEK (R485) -/

/-- The ring slot with the smallest SEQ at or above a value. -/
def seekSlot (s : State) (seq : Nat) : Option Nat :=
  ((s.alm.ring.filterMap (fun e => e.2.map (fun r => (e.1, r)))).filter (fun e => seq ≤ e.2.seq)).foldl seqMin none |>.map Prod.fst

/-- Bowline, Cordage and the manager may read Almanac and use its banked registers. -/
def almReader (who : Requester) : Bool := isBowline who || isMgmt who || isManager who

/-- A write of ALM_SEEK. -/
def almSeek (s : State) (who : Requester) (seq : Nat) : State :=
  if !almReader who then refuseReg s ⟨.ALM_SEEK, 0, 0, 0⟩ who
  else
    let w := setField 0 63 32 seq
    match seekSlot s seq with
    | some k => setB s .ALM_SEEK who (setField w 15 0 k)
    | none => setB s .ALM_SEEK who (setBit w 31 true)

/-- ALM_SEEK_WRITE. -/
def execAlmSeekWrite (who : Requester) (seq : BitVec 32) (s : State) : Host.Outcome State Fault Refusal :=
  .next (regCmd s ⟨.ALM_SEEK, 0, 0, 0⟩ (fun s => almSeek s who seq.toNat))

end Sys2Proof.Machine
end

