-- ==== Sys2Proof/Machine/Run.lean ====
section
/-! DEFINITION. Running one instruction of a thread: fetch, the delay-slot rule, its body, retirement (R100–R104,
R144, R162, R164). -/

namespace Sys2Proof.Machine

/-! ### Results (R146–R148) -/

/-- Checks a residue-class result: the predicted tally against one recomputed from the result (R147); an armed residue
injection makes the prediction wrong. -/
def residueOk (s : State) (t : Nat) (r : Word) (pred : Byte) : Bool × State :=
  if injArmed s t 1 then (false, injFire s t) else (pred == tallyOf r, s)

/-- Checks a shadow-class result (R148): two executions agree unless an armed shadow injection inverts the second; under
LAX the operation executes once. -/
def shadowOk (s : State) (t : Nat) : Bool × State :=
  if !isLax s t && injArmed s t 2 then (false, injFire s t) else (true, s)

/-! ### Retirement -/

/-- The thread's pc after an instruction that is no transfer (R100). -/
def nextPc (x : Thread) : Word :=
  match x.slot with
  | .none => x.pc + 4
  | .notTaken => x.pc + 4
  | .taken g => g

/-- Moves the thread past a completed instruction. -/
def retire (s : State) (t : Nat) : State :=
  updThr s t (fun x => { x with pc := nextPc x, slot := .none, wait := none, missNoted := false, runAhead := false })

/-! ### Interrupts and deadline traps at a boundary (R95, R103, R132, R190, R297) -/

/-- The instruction at the thread's pc is a divide (opcode 0x0C, function codes 1–4): its oldest instruction is then a divide in
the divider (log 97). -/
def divideAtPc (s : State) (t : Nat) : Bool :=
  match wordAtPc s t with
  | some w => w.toNat / 2 ^ 26 = 0x0C && 1 ≤ w.toNat % 256 && w.toNat % 256 ≤ 4
  | none => false

/-- The thread stands where an interrupt may be taken (R103, Table 6-6): at a boundary that is no delay slot, before or after a
transfer; with an oldest instruction that is abandoned, which in a delay slot is a divide alone; or parked. -/
def interruptible (s : State) (t : Nat) : Bool :=
  let x := thr s t
  match x.run with
  | .waitslot => true
  | .wfi => true
  | .run => match x.wait with
    | none => x.slot == .none || divideAtPc s t
    | some (.fill _ _) => x.slot == .none
    | some (.drain _) => x.slot == .none
    | _ => false
  | _ => false

/-- What stops for a trap taken at a boundary: a waiting instruction is abandoned, and a divide in the divider is counted
(R130). -/
def abandon (s : State) (t : Nat) : State :=
  let s := if (thr s t).run == .run && (thr s t).wait.isNone && divideAtPc s t then pmcCount s t 0x0E 1 else s
  updThr s t (fun x => { x with wait := none, owed := [], run := .run })

/-- A pending cause 0x06 that can be taken now (R297): whatever IE, in the normal world, while the target's TRAP is 0. -/
def deadlineDue (s : State) (t : Nat) : Option Nat :=
  let x := thr s t
  match x.pend06 with
  | none => none
  | some slot => if x.world == .secure || bit (bankOf x (trapTarget x 6 false .M)).status 7 then none else some slot

/-- Takes a pending cause 0x06 (R297). -/
def takeDeadline (s : State) (t : Nat) : State :=
  match deadlineDue s t with
  | some slot =>
    if interruptible s t then
      let s := abandon (wfiWake s t) t
      trapEnter (updThr s t (fun x => { x with pend06 := none })) t 6 false (w64 slot)
    else s
  | none => s

/-- Takes what R132 puts first at a boundary where it can be taken now: a pending cause 0x06, then the interrupt that R132 and
R133 choose. The trap value of an interrupt is open (log 42). -/
def takeInterrupt (s : State) (t : Nat) : State :=
  let s := wfiCheck s t
  if (deadlineDue s t).isSome then takeDeadline s t
  else if interruptible s t && (thr s t).run != .wfi then
    match intrPick s t with
    | some (c, lvl) =>
      let (v, s) := freeW s
      trapEnter (abandon s t) t c true v lvl
    | none => s
  else s

/-- The fetch of the next instruction: none from memory while the thread streams from its loop buffer (R173). -/
def instrFetch (s : State) (t : Nat) : Option (Nat × Word) × State := if (thr s t).loop then (none, s) else fetchCheck s t

/-- Something is taken at this boundary before the next instruction (R132). -/
def boundaryTrap (s : State) (t : Nat) : Bool :=
  ((deadlineDue s t).isSome || (intrPick s t).isSome) && interruptible s t

/-- Applies what an instruction does: `uops` for the counters and `breaks` when R172 excludes it from loops. -/
def applyAct (t uops : Nat) (breaks : Bool) (a : Act) : State :=
  match a with
  | .done s => commitCount (retire s t) t uops breaks
  | .trap s c v => trapEnter (updThr s t (fun x => { x with wait := none, owed := [] })) t c false v
  | .xfer s target annul =>
    let s := commitCount s t uops breaks
    match target with
    | some g => updThr s t (fun x => { x with pc := x.pc + 4, slot := .taken g, wait := none })
    | none =>
      if annul then updThr s t (fun x => { x with pc := x.pc + 8, slot := .none, wait := none })
      else updThr s t (fun x => { x with pc := x.pc + 4, slot := .notTaken, wait := none })
  | .jump s => updThr s t (fun x => { x with wait := none })
  | .wait s w => updThr s t (fun x => { x with wait := some w })
  | .park s r w => updThr s t (fun x => { x with run := r, stoodAt := s.epoch, wait := w })

/-- RFT.S, RFT.M, WCALL and WRET are counted where they stand, at the level and in the world before their change (R195). -/
def jumpCount (s : State) (t : Nat) : State := commitCount (pmcCount s t 0x04 1) t 1 true

/-- Runs one instruction of a thread that stands in RUN with no instruction waiting (any other thread executes nothing, nor does
one of a draining partition);
a thread parked in WFI goes on first when an interrupt is pending (R128). Where a cause 0x06 or an interrupt is to be taken at
this boundary, it is taken and the instruction does not run (R132). A thread that streams from its loop buffer reads no L1I
(R173).
`noSlot` marks instructions that must not stand in a delay slot (R101); `w` is the instruction word. An instruction whose
wait is over runs again from the start (R207), already fetched. -/
def runInstr (s : State) (t : Nat) (w : IWord) (noSlot : Bool) (uops : Nat) (breaks : Bool) (body : State → Act) : State :=
  let s := wfiCheck s t
  let x := thr s t
  if x.run != .run || draining s t then s
  else match x.wait with
    | some .again => applyAct t uops breaks (body (updThr s t (fun x => { x with wait := none })))
    | some _ => s
    | none =>
      if boundaryTrap s t then takeInterrupt s t
      else match instrFetch s t with
      | (some (c, v), s) => trapEnter s t c false v
      | (none, s) =>
        if noSlot && x.slot != .none then trapEnter s t 0x08 false (iwVal w)
        else applyAct t uops breaks (body s)

end Sys2Proof.Machine
end

