-- ==== Sys2Proof/Machine/LoadStore.lean ====
section
/-! DEFINITION. Loads and stores of the memory group and of vectors (R97, R112–R115, R142, R152, R153, R158, R186, R200,
R203, R251, R433). -/

namespace Sys2Proof.Machine

/-! ### Reaching an address -/

/-- What the checks before an access leave. -/
inductive Pre where
  /-- The instruction ends here. -/
  | stop (a : Act)
  /-- It goes on at this physical address; `failed` says that an operand is failed, which traps once the causes that rank above it
  are ruled out (R132, R144). -/
  | go (pa : Nat) (d : Dest) (failed : Bool) (s : State)

/-- The checks of a memory instruction before it accesses anything, in the order of R132: poisoned operands (0x05),
alignment (0x09), translation (0x0B, 0x0C), the forms that a destination refuses (0x09: R3, R116, R117), and the world check
(0x07). `only64` marks forms that register space refuses; `atomic` those of R116 and R117, which a device or non-cacheable page
refuses whatever it maps to. DESIGN CHOICE (log 98): an atomic, LL or SC in a Hawser aperture is refused before any window is
looked up. -/
def memPre (s : State) (t : Nat) (w : IWord) (k : AccKind) (srcs : List (Nat × TWord)) (checked : List TWord)
    (va : Word) (size : Nat) (only64 atomic : Bool) : Pre :=
  match firstPoisoned srcs with
  | some i => .stop (.trap s 0x05 (w64 i))
  | none =>
    if va.toNat % size ≠ 0 then .stop (.trap s 0x09 va)
    else match xlate s t k va with
      | (.fault c, s) => .stop (.trap s c va)
      | (.ok pa attr, s) =>
        let d := destOf s t pa attr
        let refused : Bool := match d with
          | .reg => only64 || atomic
          | .mem c => atomic && !c
          | .hawser _ => atomic
          | .unmapped => atomic && attr ≠ 0
          | .world => ((addrCls s pa == .register) && (only64 || atomic)) || (atomic && attr ≠ 0)
        if refused then .stop (.trap s 0x09 va)
        else if d == .world then .stop (.trap (threadWorldRefusal s t pa) 0x07 va)
        else .go pa d (checked.any isFailed) s

/-- An access with a failed operand that no cache serves (R132): cause 0x02 where the `n` words read are found uncorrectable, else
cause 0x03; nothing is sent. -/
def failedAccess (s : State) (w : IWord) (d : Dest) (pa n : Nat) (va : Word) : Act :=
  let (l, ue, s') := cohPeek s (pa / 64)
  let readsMem := match d with | .mem _ => true | _ => false
  if readsMem && ue && (List.range n).any (fun j => isPoisoned (lineWord l (wordInLine pa + j))) then .trap s' 0x02 va
  else .trap s 0x03 (iwVal w)

/-- Some retired store of the thread overlaps these bytes. -/
def storesOverlap (x : Thread) (pa size : Nat) : Bool :=
  x.stores.any (fun e => 8 * e.word < pa + size && pa < 8 * e.word + 8)

/-! ### Outbound Hawser accesses (R56, R433) -/

/-- The port's link is UP. -/
def hawsUp (s : State) (k : Nat) : Bool := fieldN (getR s .HAWS_STS k) 2 0 = 3

/-- The offset of an address in port k's aperture. -/
def aperOff (k pa : Nat) : Nat := pa - (0x10000000000 + k * 0x4000000000)

/-- The peer-table entry that covers an aperture address: its number, generation and the peer address (R433). -/
def hawsLookup (s : State) (k pa : Nat) : Option (Nat × Nat × Nat) :=
  let off := aperOff k pa
  ((List.range 16).find? (fun w =>
    let e := getR s .HAWS_PEER_WIN k w
    bit e 63 && fieldN e 14 0 * 0x200000 ≤ off && off < (fieldN e 14 0 + fieldN e 47 32) * 0x200000)).map (fun w =>
      let e := getR s .HAWS_PEER_WIN k w
      (w, fieldN e 55 48, SMap.get (fun _ => 0) (SMap.get (fun _ => {}) s.haws k).peerBase w + (off - fieldN e 14 0 * 0x200000)))

/-- The splice block of a Hawser port is RELEASING: it issues no new outbound request (R437). -/
def hawsReleasing (s : State) (k : Nat) : Bool := fieldN (getR s .RIG_SPLICE 0 (24 + k)) 2 0 = 2

/-- Words as they cross the link of port `k` (R438, Table 5-3): with their tallies where the peer accepts them, otherwise
checked, a failed or poisoned word marked as poisoned. -/
def linkWords (s : State) (k : Nat) (d : Line) : Line :=
  if bit (getR s .HAWS_STS k) 17 then d else d.map (fun w => if isSound w then w else poison w.val)

/-- Sends an aperture access; none when no entry covers the address or the link cannot take it: the outcome of R54. -/
def hawsSend (s : State) (k t : Nat) (write : Bool) (pa : Nat) (data : Line) (mask : Word) : Option State :=
  if !hawsUp s k || hawsReleasing s k then none
  else (hawsLookup s k pa).map (fun e =>
    { s with hawsNet := s.hawsNet ++ [{ port := k, thread := t, write := write, pa := pa, win := e.1, gen := e.2.1, peer := e.2.2, data := linkWords s k data, mask := mask }] })

/-! ### Ownership and writing (R197–R199, R209) -/

/-- Core `t/4` has, or takes at once, write permission for the line; otherwise the line is asked for. -/
def ownLine (s : State) (t line : Nat) : Bool × State :=
  let q := t / 16
  if canWrite s (t / 4) line then (true, s)
  else match l2 s q line, track s q line with
    | some (.M, _), none => (true, takeWrite s (t / 4) line)
    | some (.E, _), none => (true, takeWrite s (t / 4) line)
    | _, _ => (false, l2Request s q line true false)

/-- Writes one word into the thread's L1D, which has write permission, and its L0, a committed use there (R206), promoting the line
from its side buffer where it stands (R204), and carries out the invalidations of R198; the reservations of the core's other threads on the line end (R116). -/
def storeWord (s : State) (t word : Nat) (x : TWord) : State :=
  let c := t / 4
  let line := word / 8
  let e := (thr s t).side.find? (fun e => e.line == line && e.filled && !e.dead)
  match l1d s c line with
  | some k =>
    let d := k.data.set (word % 8) x
    let s := setL1d s c line (some { k with data := d, dirty := true, err := SMap.set (fun _ => 0) k.err (word % 8) 0 })
    let s := l1dTouch s c (line % 64) k.way
    let s := foldS (fun s u => if u = t then s
        else updThr s u (fun y =>
          let y := sideDrop (l0Drop y line) line
          if y.resv = some line then { y with resv := none } else y)) s (threadsOf c)
    let s := updThr s t (fun y => sideDrop y line)
    if l0En s t then
      match l0Find (thr s t) line with
      | some (i, l) => updThr s t (fun y =>
          l0Touch { y with l0 := SMap.set (fun _ => none) y.l0 i (some { l with data := d, parityErr := false }) } (coreBoot s c) i)
      | none =>
        let s := l0Fill s t line d (e.any (fun e => e.stride))
        if e.isSome then pmcCount s t 0x24 1 else s
    else s
  | none => s

/-- The core's store buffer has room for `n` more stores of the thread: 96 entries are shared, with 12 kept for each
thread (Table 6-2). -/
def storeRoom (s : State) (t n : Nat) : Bool :=
  let held := (threadsOf (t / 4)).map (fun u => if u = t then (thr s u).stores.length + n else (thr s u).stores.length)
  (held.map (fun k => max k 12)).foldl (· + ·) 0 ≤ 96

/-! ### Loads -/

/-- The bytes of a load out of its containing word, extended. -/
def extract (v : Word) (pa size : Nat) (signed : Bool) : Word :=
  let n := v.toNat / 2 ^ (8 * (pa % 8)) % 2 ^ (8 * size)
  if signed && n ≥ 2 ^ (8 * size - 1) then BitVec.ofInt 64 ((n : Int) - 2 ^ (8 * size)) else w64 n

/-- Ends a load of a general register with its containing word (R143, R152): a failed word traps, a poisoned one is
carried, and a sub-word is extracted under shadow. `ll`: a 32-bit LL refuses a poisoned containing word (R116, R156). `failed`: an
operand is failed. -/
def loadFinish (s : State) (t : Nat) (w : IWord) (gd : BitVec 6) (x : TWord) (pa size : Nat) (signed : Bool) (ll failed : Bool := false) : Act :=
  if ll && size = 4 && isPoisoned x then .trap s 0x05 3
  else if failed || isFailed x then .trap s 0x03 (iwVal w)
  else if isPoisoned x then .done (wg s t gd (if size = 8 then x else poison (extract x.val pa size signed)))
  else if size = 8 then
    let (ok, s) := residueOk s t x.val x.tal
    if ok then .done (wg s t gd x) else .trap s 0x03 (iwVal w)
  else
    let (ok, s) := shadowOk s t
    if ok then .done (wg s t gd (gen (extract x.val pa size signed))) else .trap s 0x04 (iwVal w)

/-- What a cacheable load finds. -/
inductive Got where
  | words (l : List TWord) (s : State)
  | stop (a : Act)

/-- Looks up the `n` words of a line from word `wi` on; an uncorrectable word raises cause 0x02 (R212). -/
def lookupWords (s : State) (t line wi n : Nat) : Look × State :=
  match n with
  | 0 => lookup s t line wi
  | n + 1 =>
    match lookup s t line wi with
    | (.hit d, s) => if n = 0 then (.hit d, s) else lookupWords s t line (wi + 1) n
    | r => r

/-- A load that overlaps an older store may have issued before that store's address was known, and is then replayed and its pc
entered in the wait table, under pc bits [11:2] (R188); a load found there did not. Whether it had is open (log 99). -/
def orderReplay (s : State) (t : Nat) : State :=
  let k := fieldN (thr s t).pc 11 2
  if SMap.get (fun _ => false) (coreOf s (t / 4)).waitTable k then s
  else
    let (b, s) := freeB s
    pmcCount (updCore s (t / 4) (fun x => { x with waitTable := SMap.set (fun _ => false) x.waitTable k b })) t 0x0F (b2n b)

/-- The containing words of a cacheable load (R186, R187, R203, R204): forwarded from a store, found in a cache, or
asked for, and then the load waits for its line. -/
def cacheLoad (s : State) (t : Nat) (i : Instr) (va : Word) (pa size : Nat) : Got :=
  let x := thr s t
  let line := pa / 64
  let n := if size = 32 then 4 else 1
  let fromCache (s : State) : Got :=
    match lookupWords s t line (wordInLine pa) n with
    | (.hit d, s) => .words ((List.range n).map (fun j => lineWord d (wordInLine pa + j))) s
    | (.ue, s) => .stop (.trap s 0x02 va)
    | (.miss, s) => .stop (.wait (sideRequest s t line .load) (.fill i line))
  let partly (s : State) : Got := .stop (.wait (owe (if x.owed.contains 0x09 then s else orderReplay s t) t [0x09]) (.drain i))
  if size = 32 then
    if !storesOverlap x pa 32 then fromCache s
    else match forwardVec x pa with
      | some l => .words l (orderReplay s t)
      | none => partly s
  else match forwardOf x pa size with
    | .forward e => .words [e.placed] (orderReplay s t)
    | .partly => partly s
    | .none => fromCache s

/-- A load of a general register. `kind` is the access whose page faults it raises (LL counts as a store, R107);
`acq` says that it waits behind an earlier store-release (R114); `atomic` marks LL, which waits for the thread's own stores to its
bytes, since it reserves the line in L1D (R116). `fin` runs when it completes from memory. -/
def loadBody (i : Instr) (w : IWord) (kind : AccKind) (size : Nat) (signed acq atomic : Bool) (unmappedKind : Nat)
    (t : Nat) (gd ga : BitVec 6) (off : Word) (fin : State → Nat → State) (s : State) : Act :=
  let base := rg s t ga
  let va := base.val + off
  if acq && (thr s t).stores.any (fun e => e.rel) && !isPoisoned base then .wait s (.drain i)
  else match memPre s t w kind [(0, base)] [base] va size (size ≠ 8) atomic with
  | .stop a => a
  | .go pa d bad s =>
    if bad && d != .mem true then failedAccess s w d pa 1 va
    else match d with
    | .unmapped =>
      -- an LL takes no reservation, and the one held is lost: DESIGN CHOICE (log 100)
      let s := if atomic then updThr s t (fun x => { x with resv := none }) else s
      .done (wg (threadUnmapped s t unmappedKind pa) t gd (poison 0))
    | .world => .trap s 0x07 va
    | .reg => .wait (sendReg s t pa false TWord.zero) (.regRead gd.toNat (iwVal w))
    | .hawser k =>
      match hawsSend s k t false pa Line.zero 0 with
      | some s => .wait s (.hawser gd.toNat pa size signed va (iwVal w))
      | none => .done (wg (threadUnmapped s t unmappedKind pa) t gd (poison 0))
    | .mem false =>
      if storesOverlap (thr s t) pa size then .wait s (.drain i)
      else .wait (sendMsg s { op := 0x04, holder := t / 16, line := pa / 64, part := (threadPart s t).getD 0, sec := (thr s t).world == .secure, thread := some t }) (.once gd.toNat pa size signed va (iwVal w))
    | .mem true =>
      if atomic && storesOverlap (thr s t) pa size then .wait s (.drain i)
      else match cacheLoad s t i va pa size with
      | .stop a => a
      | .words l s =>
        let pc := (thr s t).pc
        match loadFinish s t w gd (l.headD TWord.zero) pa size signed atomic bad with
        | .done s => .done (fin (strideTrain s t pc pa) (pa / 64))
        | a => a

/-- A load of the I format. -/
def loadOp (i : Instr) (op size : Nat) (signed acq : Bool) (t : BitVec 10) (gd ga : BitVec 6) (imm : BitVec 14) (s : State) :
    Host.Outcome State Fault Refusal :=
  let w := encI op gd ga imm
  .next (runInstr s t.toNat w false 1 false (loadBody i w .load size signed acq false 1 t.toNat gd ga (sx imm) (fun s _ => s)))

/-- LD. -/
def execLd (t : BitVec 10) (gd ga : BitVec 6) (imm : BitVec 14) (s : State) : Host.Outcome State Fault Refusal :=
  loadOp (.ld t gd ga imm) 0x10 8 false false t gd ga imm s
/-- LW: 32 bits, sign-extended. -/
def execLw (t : BitVec 10) (gd ga : BitVec 6) (imm : BitVec 14) (s : State) : Host.Outcome State Fault Refusal :=
  loadOp (.lw t gd ga imm) 0x11 4 true false t gd ga imm s
/-- LWU. -/
def execLwu (t : BitVec 10) (gd ga : BitVec 6) (imm : BitVec 14) (s : State) : Host.Outcome State Fault Refusal :=
  loadOp (.lwu t gd ga imm) 0x12 4 false false t gd ga imm s
/-- LH. -/
def execLh (t : BitVec 10) (gd ga : BitVec 6) (imm : BitVec 14) (s : State) : Host.Outcome State Fault Refusal :=
  loadOp (.lh t gd ga imm) 0x13 2 true false t gd ga imm s
/-- LHU. -/
def execLhu (t : BitVec 10) (gd ga : BitVec 6) (imm : BitVec 14) (s : State) : Host.Outcome State Fault Refusal :=
  loadOp (.lhu t gd ga imm) 0x14 2 false false t gd ga imm s
/-- LB. -/
def execLb (t : BitVec 10) (gd ga : BitVec 6) (imm : BitVec 14) (s : State) : Host.Outcome State Fault Refusal :=
  loadOp (.lb t gd ga imm) 0x15 1 true false t gd ga imm s
/-- LBU. -/
def execLbu (t : BitVec 10) (gd ga : BitVec 6) (imm : BitVec 14) (s : State) : Host.Outcome State Fault Refusal :=
  loadOp (.lbu t gd ga imm) 0x16 1 false false t gd ga imm s
/-- LDA: load-acquire, behind every earlier store-release (R114). -/
def execLda (t : BitVec 10) (gd ga : BitVec 6) (imm : BitVec 14) (s : State) : Host.Outcome State Fault Refusal :=
  loadOp (.lda t gd ga imm) 0x17 8 false true t gd ga imm s

/-! ### Stores -/

/-- The line that carries these words from word `wi` on; its other word positions carry tally 0xFF (Table 5-2). -/
def lineWith (wi : Nat) (l : List TWord) : Line :=
  (List.range 8).map (fun j => if wi ≤ j && j < wi + l.length then l.getD (j - wi) TWord.zero else poison 0)

/-- Sends a store to a place that no cache serves, or discards it (R54, R59, R251, R433). -/
def storeOut (s : State) (t : Nat) (i : Instr) (rel : Bool) (pa size : Nat) (d : Dest) (l : List TWord) : Act :=
  let mask := w64 ((2 ^ size - 1) * 2 ^ (pa % 64))
  let data := lineWith (wordInLine pa) l
  if (rel && !(thr s t).stores.isEmpty) || storesOverlap (thr s t) pa size then .wait s (.drain i)
  else match d with
    | .reg => .wait (sendReg s t pa true (l.headD TWord.zero)) .regWrite
    | .hawser k =>
      match hawsSend s k t true pa data mask with
      | some s => .wait s (.hawser 0 pa 0 false 0 0)
      | none => .done (threadUnmapped s t 2 pa)
    | .mem _ => .wait (sendMsg s { op := 0x06, holder := t / 16, line := pa / 64, data := data, mask := mask, part := (threadPart s t).getD 0, sec := (thr s t).world == .secure, thread := some t }) (.wrAck (pa / 64))
    | _ => .done (threadUnmapped s t 2 pa)

/-- The store-buffer entry of a store of `size` bytes (R153): the stored bytes, zero-extended, with the tally of that value. -/
def storeEntry (pa size : Nat) (v : TWord) (rel : Bool) : StoreEnt :=
  if size = 8 then { word := pa / 8, mask := 255, val := v, full := true, rel := rel }
  else
    let n := w64 (v.val.toNat % 2 ^ (8 * size))
    { word := pa / 8, mask := byteMask pa size, val := if isPoisoned v then poison n else gen n, full := false, rel := rel }

/-- A store of a general register: it retires into the store buffer, and drains by STORE_DRAIN (R209). -/
def storeOp (i : Instr) (op size : Nat) (rel : Bool) (t : BitVec 10) (gs ga : BitVec 6) (imm : BitVec 14) (s : State) :
    Host.Outcome State Fault Refusal :=
  let w := encI op gs ga imm
  .next (runInstr s t.toNat w false 1 false (fun s =>
    let t := t.toNat
    let base := rg s t ga
    let v := rg s t gs
    let va := base.val + sx imm
    match memPre s t w .store [(0, base)] [base, v] va size (size ≠ 8) false with
    | .stop a => a
    | .go pa d bad s =>
      let (ok, s) := if bad then (false, s) else if size = 8 && !isPoisoned v then residueOk s t v.val v.tal else (true, s)
      if !ok then .trap s 0x03 (iwVal w)
      else if d == .mem true then
        if storeRoom s t 1 then .done (updThr s t (fun x => { x with stores := x.stores ++ [storeEntry pa size v rel] }))
        else .wait s (.drain i)
      else
        let l := [if size = 8 then v else (storeEntry pa size v false).placed]
        storeOut s t i rel pa size d l))

/-- SD. -/
def execSd (t : BitVec 10) (gs ga : BitVec 6) (imm : BitVec 14) (s : State) : Host.Outcome State Fault Refusal :=
  storeOp (.sd t gs ga imm) 0x18 8 false t gs ga imm s
/-- SW. -/
def execSw (t : BitVec 10) (gs ga : BitVec 6) (imm : BitVec 14) (s : State) : Host.Outcome State Fault Refusal :=
  storeOp (.sw t gs ga imm) 0x19 4 false t gs ga imm s
/-- SH. -/
def execSh (t : BitVec 10) (gs ga : BitVec 6) (imm : BitVec 14) (s : State) : Host.Outcome State Fault Refusal :=
  storeOp (.sh t gs ga imm) 0x1A 2 false t gs ga imm s
/-- SB. -/
def execSb (t : BitVec 10) (gs ga : BitVec 6) (imm : BitVec 14) (s : State) : Host.Outcome State Fault Refusal :=
  storeOp (.sb t gs ga imm) 0x1B 1 false t gs ga imm s
/-- SDR: store-release, performed after every earlier access (R114): the store buffer drains in order. -/
def execSdr (t : BitVec 10) (gs ga : BitVec 6) (imm : BitVec 14) (s : State) : Host.Outcome State Fault Refusal :=
  storeOp (.sdr t gs ga imm) 0x1C 8 true t gs ga imm s

/-! ### Vector loads and stores (R97, R112, R158) -/

/-- VLD: four lanes at ga + sext(imm) × 32, each carried and checked as a move. -/
def execVld (t : BitVec 10) (vd : BitVec 5) (ga : BitVec 6) (imm : BitVec 14) (s : State) : Host.Outcome State Fault Refusal :=
  let w := encVM vd ga false imm
  .next (runInstr s t.toNat w false 1 false (fun s =>
    let i : Instr := .vld t vd ga imm
    let t := t.toNat
    let base := rg s t ga
    let va := base.val + (sx imm <<< 5)
    match memPre s t w .load [(0, base)] [base] va 32 true false with
    | .stop a => a
    | .go pa d bad s =>
      let unmapped (s : State) : Act := .done (wvAll (threadUnmapped s t 1 pa) t vd (List.replicate 4 (poison 0)))
      if bad && d != .mem true then failedAccess s w d pa 4 va
      else match d with
      | .hawser k =>
        match hawsSend s k t false pa Line.zero 0 with
        | some s => .wait s (.hawser vd.toNat pa 32 false va (iwVal w))
        | none => unmapped s
      | .mem false =>
        if storesOverlap (thr s t) pa 32 then .wait s (.drain i)
        else .wait (sendMsg s { op := 0x04, holder := t / 16, line := pa / 64, part := (threadPart s t).getD 0, sec := (thr s t).world == .secure, thread := some t }) (.once vd.toNat pa 32 false va (iwVal w))
      | .mem true =>
        match cacheLoad s t i va pa 32 with
        | .stop a => a
        | .words l s =>
          if bad || l.any isFailed then .trap s 0x03 (iwVal w)
          else
            let (ok, s) := match l.find? isSound with | some x => residueOk s t x.val x.tal | none => (true, s)
            if ok then .done (strideTrain (wvAll s t vd l) t (thr s t).pc pa) else .trap s 0x03 (iwVal w)
      | _ => unmapped s))

/-- VST: four lanes, each carried and checked as a move. -/
def execVst (t : BitVec 10) (vd : BitVec 5) (ga : BitVec 6) (imm : BitVec 14) (s : State) : Host.Outcome State Fault Refusal :=
  let w := encVM vd ga true imm
  .next (runInstr s t.toNat w false 1 false (fun s =>
    let i : Instr := .vst t vd ga imm
    let t := t.toNat
    let base := rg s t ga
    let l := (List.range 4).map (rv s t vd)
    let va := base.val + (sx imm <<< 5)
    match memPre s t w .store [(0, base)] (base :: l) va 32 true false with
    | .stop a => a
    | .go pa d bad s =>
      let (ok, s) := if bad then (false, s) else match l.find? isSound with | some x => residueOk s t x.val x.tal | none => (true, s)
      if !ok then .trap s 0x03 (iwVal w)
      else if d == .mem true then
        if storeRoom s t 4 then
          .done (updThr s t (fun x => { x with stores := x.stores ++ (List.range 4).map (fun j => { storeEntry (pa + 8 * j) 8 (l.getD j TWord.zero) false with vec := true }) }))
        else .wait s (.drain i)
      else storeOut s t i false pa 32 d l))

/-! ### Draining (R209) -/

/-- Drains the oldest store into L0 and L1D (R154, R198, R209). It stays when its line is not yet owned; the line is then
asked for. -/
def drainOne (s : State) (t : Nat) : State :=
  match (thr s t).stores with
  | [] => s
  | e :: rest =>
    let line := e.word / 8
    match ownLine s t line with
    | (false, s) => s
    | (true, s) =>
      let c := t / 4
      let s := updThr s t (fun x => { x with stores := rest })
      let s := if e.full then s else (l1dErrors s c line (e.word % 8)).2
      let old := match l1d s c line with | some k => lineWord k.data (e.word % 8) | none => TWord.zero
      if e.full then storeWord s t e.word e.val
      else
        -- a KIND 3 injection acts under LAX too: DESIGN CHOICE (log 101)
        let inj := injArmed s t 3
        let s := if inj then injFire s t else s
        let (x, bad) := mergeWord old e.placed.val (isPoisoned e.val) e.mask inj
        let s := if bad then
            updR (alm s 0x0012 4 1 t (lo32 (8 * e.word)) (hi32 (8 * e.word))) .CORE_TALLY_STS (fun w => satInc w 15 8) c
          else s
        storeWord s t e.word x

end Sys2Proof.Machine
end

