-- ==== Sys2Proof/Machine/Atomics.lean ====
section
/-! DEFINITION. LL, SC and the atomic operations (R116, R117, R142, R156, R160). -/

namespace Sys2Proof.Machine

/-- LL: a load that reserves its line (R116), which its L1D then holds; a line served once and gone is not reserved. It counts as
a store for page faults (R107). -/
def execLl (t : BitVec 10) (gd ga gb : BitVec 6) (aq rl wide : Bool) (s : State) : Host.Outcome State Fault Refusal :=
  let i : Instr := .ll t gd ga gb aq rl wide
  let w := encR 0x1D gd ga gb (atomFn aq rl wide 0)
  .next (runInstr s t.toNat w false 1 false (fun s =>
    if rl && !(thr s t.toNat).stores.isEmpty && !isPoisoned (rg s t.toNat ga) then .wait s (.drain i)
    else loadBody i w .store (if wide then 4 else 8) true false true 3 t.toNat gd ga 0
      (fun s line => updThr s t.toNat (fun x => { x with resv := if (l1d s (t.toNat / 4) line).isSome then some line else none })) s))

/-- The word of an L1D line that the core owns. -/
def ownedWord (s : State) (t word : Nat) : TWord :=
  match l1d s (t / 4) (word / 8) with
  | some k => lineWord k.data (word % 8)
  | none => TWord.zero

/-- SC: stores gb and writes 0 while the reservation is held and covers the address, else writes 1 (R116). -/
def execSc (t : BitVec 10) (gd ga gb : BitVec 6) (aq rl wide : Bool) (s : State) : Host.Outcome State Fault Refusal :=
  let i : Instr := .sc t gd ga gb aq rl wide
  let w := encR 0x1D gd ga gb (atomFn aq rl wide 1)
  .next (runInstr s t.toNat w false 2 false (fun s =>
    let t := t.toNat
    let base := rg s t ga
    let v := rg s t gb
    let size := if wide then 4 else 8
    match memPre s t w .store [(0, base)] [base, v] base.val size false true with
    | .stop a => a
    | .go pa d bad s =>
      let failed (s : State) : Act := if bad then .trap s 0x03 (iwVal w) else .done (wg (updThr s t (fun x => { x with resv := none })) t gd (gen 1))
      if d != .mem true then (if bad then .trap s 0x03 (iwVal w) else failed (threadUnmapped s t 3 pa))
      else if rl && !(thr s t).stores.isEmpty || storesOverlap (thr s t) pa size then .wait s (.drain i)
      else if (thr s t).resv != some (pa / 64) then failed s
      else match ownLine s t (pa / 64) with
        | (false, s) => .wait s (.own i (pa / 64))
        | (true, s) =>
          let word := pa / 8
          let (ue, s) := if wide then l1dErrors s (t / 4) (pa / 64) (word % 8) else (false, s)
          let old := ownedWord s t word
          if ue then .trap s 0x02 base.val
          else if wide && isPoisoned old then .trap s 0x05 3
          else if bad || (wide && isFailed old) then .trap s 0x03 (iwVal w)
          else
            let e := storeEntry pa size v false
            let new := if wide then (mergeWord old e.placed.val (isPoisoned v) e.mask false).1 else v
            let (ok, s) := if wide then shadowOk s t else if isPoisoned v then (true, s) else residueOk s t v.val v.tal
            if !ok then .trap s (if wide then 0x04 else 0x03) (iwVal w)
            else .done (wg (updThr (storeWord s t word new) t (fun x => { x with resv := none })) t gd (gen 0))))

/-- What an atomic combines (R117): the new value, and its predicted tally when it is of the residue class. -/
inductive AtomKind where
  | swap
  | add
  | logic (f : Word → Word → Word)

/-- The value that an atomic operation stores, from the old value and gb. -/
def AtomKind.apply (k : AtomKind) (old b : Word) : Word :=
  match k with
  | .swap => b
  | .add => old + b
  | .logic f => f old b

/-- SWAP carries poison; the others refuse it (Table 5-7, R160). -/
def AtomKind.isSwap : AtomKind → Bool
  | .swap => true
  | _ => false

/-- Sign-extends the 32-bit half of a word that an address names. -/
def half32 (v : Word) (pa : Nat) : Word := extract v pa 4 true

/-- An atomic read-modify-write (R117, R156). `f32` combines the 32-bit values, both sign-extended. DESIGN CHOICE (log 102): an armed
KIND 3 injection acts on the merge of a draining sub-word store alone, not on the merge of a 32-bit atomic or SC. -/
def atomicOp (i : Instr) (code : Nat) (k : AtomKind) (f32 : Word → Word → Word) (t : BitVec 10) (gd ga gb : BitVec 6)
    (aq rl wide : Bool) (s : State) : Host.Outcome State Fault Refusal :=
  let w := encR 0x1D gd ga gb (atomFn aq rl wide code)
  .next (runInstr s t.toNat w false 2 false (fun s =>
    let t := t.toNat
    let base := rg s t ga
    let b := rg s t gb
    let size := if wide then 4 else 8
    let srcs := if k.isSwap then [(0, base)] else [(0, base), (1, b)]
    match memPre s t w .store srcs [base, b] base.val size false true with
    | .stop a => a
    | .go pa d bad s =>
      if d != .mem true then (if bad then .trap s 0x03 (iwVal w) else .done (wg (threadUnmapped s t 3 pa) t gd (poison 0)))
      else if rl && !(thr s t).stores.isEmpty || storesOverlap (thr s t) pa size then .wait s (.drain i)
      else match ownLine s t (pa / 64) with
        | (false, s) => .wait s (.own i (pa / 64))
        | (true, s) =>
          let word := pa / 8
          let (ue, s) := l1dErrors s (t / 4) (pa / 64) (word % 8)
          let old := ownedWord s t word
          if ue then .trap s 0x02 base.val
          else if isPoisoned old && !k.isSwap then .trap s 0x05 3
          else if bad || isFailed old then .trap s 0x03 (iwVal w)
          else if wide then
            let n := f32 (half32 old.val pa) (BitVec.signExtend 64 (b.val.setWidth 32))
            let e := storeEntry pa 4 ⟨n, b.tal⟩ false
            let new := (mergeWord old e.placed.val (isPoisoned b) e.mask false).1
            let was := half32 old.val pa
            let (ok, s) := shadowOk s t
            if !ok then .trap s 0x04 (iwVal w)
            else .done (wg (storeWord s t word new) t gd (if isPoisoned old then poison was else gen was))
          else
            let n := k.apply old.val b.val
            let (ok, new, cause, s) : Bool × TWord × Nat × State := match k with
              | .swap => if isPoisoned b then (true, b, 0x03, s) else
                  let (ok, s) := residueOk s t b.val b.tal
                  (ok, b, 0x03, s)
              | .add =>
                let (ok, s) := residueOk s t n (predAdd old b)
                (ok, ⟨n, predAdd old b⟩, 0x03, s)
              | .logic _ =>
                let (ok, s) := shadowOk s t
                (ok, gen n, 0x04, s)
            if !ok then .trap s cause (iwVal w)
            else .done (wg (storeWord s t word new) t gd old)))

/-- ATOM SWAP. -/
def execAtomSwap (t : BitVec 10) (gd ga gb : BitVec 6) (aq rl w : Bool) (s : State) : Host.Outcome State Fault Refusal :=
  atomicOp (.atomSwap t gd ga gb aq rl w) 2 .swap (fun _ b => b) t gd ga gb aq rl w s
/-- ATOM ADD. -/
def execAtomAdd (t : BitVec 10) (gd ga gb : BitVec 6) (aq rl w : Bool) (s : State) : Host.Outcome State Fault Refusal :=
  atomicOp (.atomAdd t gd ga gb aq rl w) 3 .add (· + ·) t gd ga gb aq rl w s
/-- ATOM AND. -/
def execAtomAnd (t : BitVec 10) (gd ga gb : BitVec 6) (aq rl w : Bool) (s : State) : Host.Outcome State Fault Refusal :=
  atomicOp (.atomAnd t gd ga gb aq rl w) 4 (.logic (· &&& ·)) (· &&& ·) t gd ga gb aq rl w s
/-- ATOM OR. -/
def execAtomOr (t : BitVec 10) (gd ga gb : BitVec 6) (aq rl w : Bool) (s : State) : Host.Outcome State Fault Refusal :=
  atomicOp (.atomOr t gd ga gb aq rl w) 5 (.logic (· ||| ·)) (· ||| ·) t gd ga gb aq rl w s
/-- ATOM XOR. -/
def execAtomXor (t : BitVec 10) (gd ga gb : BitVec 6) (aq rl w : Bool) (s : State) : Host.Outcome State Fault Refusal :=
  atomicOp (.atomXor t gd ga gb aq rl w) 6 (.logic (· ^^^ ·)) (· ^^^ ·) t gd ga gb aq rl w s
/-- ATOM MAX, signed. -/
def execAtomMax (t : BitVec 10) (gd ga gb : BitVec 6) (aq rl w : Bool) (s : State) : Host.Outcome State Fault Refusal :=
  atomicOp (.atomMax t gd ga gb aq rl w) 7 (.logic (fun a b => if a.toInt ≤ b.toInt then b else a)) (fun a b => if a.toInt ≤ b.toInt then b else a) t gd ga gb aq rl w s
/-- ATOM MIN, signed. -/
def execAtomMin (t : BitVec 10) (gd ga gb : BitVec 6) (aq rl w : Bool) (s : State) : Host.Outcome State Fault Refusal :=
  atomicOp (.atomMin t gd ga gb aq rl w) 8 (.logic (fun a b => if a.toInt ≤ b.toInt then a else b)) (fun a b => if a.toInt ≤ b.toInt then a else b) t gd ga gb aq rl w s
/-- ATOM MAXU; sign extension keeps the unsigned order of 32-bit values. -/
def execAtomMaxu (t : BitVec 10) (gd ga gb : BitVec 6) (aq rl w : Bool) (s : State) : Host.Outcome State Fault Refusal :=
  atomicOp (.atomMaxu t gd ga gb aq rl w) 9 (.logic (fun a b => if a.toNat ≤ b.toNat then b else a)) (fun a b => if a.toNat ≤ b.toNat then b else a) t gd ga gb aq rl w s
/-- ATOM MINU. -/
def execAtomMinu (t : BitVec 10) (gd ga gb : BitVec 6) (aq rl w : Bool) (s : State) : Host.Outcome State Fault Refusal :=
  atomicOp (.atomMinu t gd ga gb aq rl w) 10 (.logic (fun a b => if a.toNat ≤ b.toNat then a else b)) (fun a b => if a.toNat ≤ b.toNat then a else b) t gd ga gb aq rl w s

end Sys2Proof.Machine
end

