-- ==== Sys2Proof/Machine/CacheOps.lean ====
section
/-! DEFINITION. CACHEOP (R122, R211). -/

namespace Sys2Proof.Machine

/-- Operation 1 on a line of core `c`: its dirty data goes to the L2 and a clean copy stays. -/
def opClean1 (s : State) (c line : Nat) : State := l1dMerge s c line
/-- Operation 2: as 1, then the line leaves the core's L1D, L0s and side buffers. -/
def opCleanInv1 (s : State) (c line : Nat) : State := l1dRemove s c line true

/-- The checks of an operation with an address, after its level: poisoned base, translation and physical checks as for a
load (R122), failed base. -/
def cacheAddr (s : State) (t : Nat) (w : IWord) (ga : BitVec 6) (imm : BitVec 14) : Nat × State ⊕ Act :=
  let base := rg s t ga
  let va := base.val + sx imm
  if isPoisoned base then .inr (.trap s 0x05 0)
  else match xlate s t .load va with
    | (.fault c, s) => .inr (.trap s c va)
    | (.ok pa attr, s) =>
      match destOf s t pa attr with
      | .mem _ => if isFailed base then .inr (.trap s 0x03 (iwVal w)) else .inl (pa, s)
      | .world => .inr (.trap (threadWorldRefusal s t pa) 0x07 va)
      | _ => .inr (.trap s 0x0B va)

/-- The level of an operation: 0 U, 1 S, 2 M (Table 4-13). -/
def levelOk (l : Level) (need : Nat) : Bool :=
  match l with
  | .U => need = 0
  | .S => need ≤ 1
  | .M => true

/-- An operation with an address that ends in the core or quad: after every earlier store has drained (R211). -/
def cacheOp (i : Instr) (code need : Nat) (f : State → Nat → State) (t : BitVec 10) (ga : BitVec 6) (imm : BitVec 14) (s : State) :
    Host.Outcome State Fault Refusal :=
  let w := encI 0x38 (BitVec.ofNat 6 code) ga imm
  .next (runInstr s t.toNat w false 1 false (fun s =>
    if !levelOk (thr s t.toNat).level need then .trap s 0x08 (iwVal w)
    else match cacheAddr s t.toNat w ga imm with
      | .inr a => a
      | .inl (pa, s) => if !(thr s t.toNat).stores.isEmpty then .wait s (.drain i) else .done (f s (pa / 64))))

/-- An operation without an address; ga and imm are reserved. -/
def cacheOpAll (i : Instr) (code need : Nat) (drain : Bool) (f : State → State) (t : BitVec 10) (ga : BitVec 6) (imm : BitVec 14) (s : State) :
    Host.Outcome State Fault Refusal :=
  let w := encI 0x38 (BitVec.ofNat 6 code) ga imm
  .next (runInstr s t.toNat w false 1 false (fun s =>
    if ga != 0 || imm != 0 || !levelOk (thr s t.toNat).level need then .trap s 0x08 (iwVal w)
    else if drain && !(thr s t.toNat).stores.isEmpty then .wait s (.drain i)
    else .done (f s)))

/-- L0INV: the thread's L0 and side buffer empty, and INV_DONE sets (R202, R205). -/
def execL0inv (t : BitVec 10) (ga : BitVec 6) (imm : BitVec 14) (s : State) : Host.Outcome State Fault Refusal :=
  cacheOpAll (.l0inv t ga imm) 0 0 false (fun s =>
    updR (updThr (sideClear s t.toNat) t.toNat l0Empty) .CORE_L0CTL (fun w => setBit w 2 true) (t.toNat / 4) (t.toNat % 4)) t ga imm s

/-- L1D clean line. -/
def execL1dClean (t : BitVec 10) (ga : BitVec 6) (imm : BitVec 14) (s : State) : Host.Outcome State Fault Refusal :=
  cacheOp (.l1dClean t ga imm) 1 0 (fun s line => opClean1 s (t.toNat / 4) line) t ga imm s
/-- L1D clean and invalidate line. -/
def execL1dCleanInvalidate (t : BitVec 10) (ga : BitVec 6) (imm : BitVec 14) (s : State) : Host.Outcome State Fault Refusal :=
  cacheOp (.l1dCleanInvalidate t ga imm) 2 0 (fun s line => opCleanInv1 s (t.toNat / 4) line) t ga imm s
/-- L1D invalidate line without writeback: the L2's copy becomes the quad's value. -/
def execL1dInvalidate (t : BitVec 10) (ga : BitVec 6) (imm : BitVec 14) (s : State) : Host.Outcome State Fault Refusal :=
  cacheOp (.l1dInvalidate t ga imm) 3 2 (fun s line => l1dRemove s (t.toNat / 4) line false) t ga imm s

/-- Operations 4 and 5: the quad's dirty data is merged into the L2, which writes the line to its home (CLEAN_LINE or
WR_BACK); the thread waits for the acknowledgement. -/
def execL2Clean (t : BitVec 10) (ga : BitVec 6) (imm : BitVec 14) (s : State) : Host.Outcome State Fault Refusal :=
  let w := encI 0x38 4 ga imm
  .next (runInstr s t.toNat w false 1 false (fun s =>
    let t' := t.toNat
    let q := t' / 16
    if !levelOk (thr s t').level 1 then .trap s 0x08 (iwVal w)
    else match cacheAddr s t' w ga imm with
      | .inr a => a
      | .inl (pa, s) =>
        if !(thr s t').stores.isEmpty then .wait s (.drain (.l2Clean t ga imm))
        else
          let line := pa / 64
          let s := quadDowngrade s q line
          match l2 s q line with
          | some (.M, y) => .wait (sendMsg (setL2 s q line (some (.E, y))) { op := 0x09, holder := q, line := line, data := y.data, thread := some t' }) (.wrAck line)
          | _ => .done s))

/-- L2 clean and invalidate line: as L2_CLEAN, then the line leaves the quad. It waits for an upgrade of the line in flight (R244),
and for a free miss-tracking entry (R253). -/
def execL2CleanInvalidate (t : BitVec 10) (ga : BitVec 6) (imm : BitVec 14) (s : State) : Host.Outcome State Fault Refusal :=
  let w := encI 0x38 5 ga imm
  .next (runInstr s t.toNat w false 1 false (fun s =>
    let t' := t.toNat
    let q := t' / 16
    if !levelOk (thr s t').level 1 then .trap s 0x08 (iwVal w)
    else match cacheAddr s t' w ga imm with
      | .inr a => a
      | .inl (pa, s) =>
        if !(thr s t').stores.isEmpty then .wait s (.drain (.l2CleanInvalidate t ga imm))
        else
          let line := pa / 64
          if (match track s q line with | some tr => tr.st == .SM | none => false) || trackCount s q ≥ 256 then .wait s (.own (.l2CleanInvalidate t ga imm) line)
          else match l2 s q line with
          | some _ =>
            let s := l2Evict s q line
            let s := { s with net := s.net.map (fun m => if m.holder = q && m.line = line && (m.op = 0x07 || m.op = 0x08) then { m with thread := some t' } else m) }
            if (track s q line).isSome then .wait s (.wrAck line) else .done s
          | none => .done (quadPurge s q line)))

/-- LLC clean line to DRAM: FLUSH_LINE to the home; the thread waits for the acknowledgement. -/
def execLlcClean (t : BitVec 10) (ga : BitVec 6) (imm : BitVec 14) (s : State) : Host.Outcome State Fault Refusal :=
  let w := encI 0x38 6 ga imm
  .next (runInstr s t.toNat w false 1 false (fun s =>
    let t' := t.toNat
    if !levelOk (thr s t').level 1 then .trap s 0x08 (iwVal w)
    else match cacheAddr s t' w ga imm with
      | .inr a => a
      | .inl (pa, s) =>
        if !(thr s t').stores.isEmpty then .wait s (.drain (.llcClean t ga imm))
        else .wait (sendMsg s { op := 0x0A, holder := t' / 16, line := pa / 64, part := (threadPart s t').getD 0, sec := (thr s t').world == .secure, thread := some t' }) (.wrAck (pa / 64))))

/-- L1I invalidate line. -/
def execL1iInvalidate (t : BitVec 10) (ga : BitVec 6) (imm : BitVec 14) (s : State) : Host.Outcome State Fault Refusal :=
  cacheOp (.l1iInvalidate t ga imm) 7 0 (fun s line => setL1i s (t.toNat / 4) line none) t ga imm s

/-- L1D clean and invalidate all: operation 2 for every line of the core's L1D. -/
def execL1dCleanInvalidateAll (t : BitVec 10) (ga : BitVec 6) (imm : BitVec 14) (s : State) : Host.Outcome State Fault Refusal :=
  cacheOpAll (.l1dCleanInvalidateAll t ga imm) 8 2 true (fun s =>
    foldS (fun s l => opCleanInv1 s (t.toNat / 4) l) s ((coreOf s (t.toNat / 4)).l1d.map Prod.fst)) t ga imm s

/-- A prefetch (operations 9 and 10): dropped without effect where it would fault (R122); it never traps. -/
def prefetch (code : Nat) (f : State → Nat → State) (t : BitVec 10) (ga : BitVec 6) (imm : BitVec 14) (s : State) :
    Host.Outcome State Fault Refusal :=
  let w := encI 0x38 (BitVec.ofNat 6 code) ga imm
  .next (runInstr s t.toNat w false 1 false (fun s =>
    let base := rg s t.toNat ga
    if !isSound base then .done s
    else match xlate s t.toNat .load (base.val + sx imm) with
      | (.fault _, s) => .done s
      | (.ok pa attr, s) =>
        if destOf s t.toNat pa attr == .mem true then .done (f s (pa / 64)) else .done s))

/-- Asks for a line that a prefetch names; it is installed when it arrives. -/
def prefRequest (s : State) (q line : Nat) (core : Option Nat) : State :=
  l2Request (updQuad s q (fun k => { k with pref := if k.pref.contains (line, core) then k.pref else k.pref ++ [(line, core)] })) q line false false

/-- Prefetch line to L1D: from the L2 at once, else the line is asked for. -/
def execPrefetchL1d (t : BitVec 10) (ga : BitVec 6) (imm : BitVec 14) (s : State) : Host.Outcome State Fault Refusal :=
  prefetch 9 (fun s line =>
    let q := t.toNat / 16
    match l1d s (t.toNat / 4) line, l2 s q line with
    | some _, _ => s
    | none, some _ =>
      match quadData s q line with
      | (some d, s) => l1dCopy (l2Array s q line) (t.toNat / 4) line d
      | (none, s) => s
    | none, none => prefRequest s q line (some (t.toNat / 4))) t ga imm s
/-- Prefetch line to the quad L2. -/
def execPrefetchL2 (t : BitVec 10) (ga : BitVec 6) (imm : BitVec 14) (s : State) : Host.Outcome State Fault Refusal :=
  prefetch 10 (fun s line => match l2 s (t.toNat / 16) line with
    | some (_, y) => if y.inArr then s else l2Array s (t.toNat / 16) line
    | none => prefRequest s (t.toNat / 16) line none) t ga imm s

end Sys2Proof.Machine
end

