-- ==== Sys2Proof/Machine/Control.lean ====
section
/-! DEFINITION. Fences and synchronisation (R111, R114, R118) and the control transfers with delay slots (R97,
R100–R102). -/

namespace Sys2Proof.Machine

/-- FENCE (R114): stores of the predecessor set drain before the thread goes on; gd, ga and imm[13:8] are reserved. -/
def execFence (t : BitVec 10) (gd ga : BitVec 6) (imm : BitVec 14) (s : State) : Host.Outcome State Fault Refusal :=
  let w := encI 0x1E gd ga imm
  .next (runInstr s t.toNat w false 1 false (fun s =>
    if gd ≠ 0 || ga ≠ 0 || imm.toNat ≥ 256 then .trap s 0x08 (iwVal w)
    else if imm.getLsbD 6 && imm.toNat % 16 ≠ 0 && !(thr s t.toNat).stores.isEmpty then .wait s (.drain (.fence t gd ga imm))
    else .done s))

/-- SYNC.I (R118): once the thread's stores are visible, its loop buffer and side buffer empty. -/
def execSyncI (t : BitVec 10) (gd ga gb : BitVec 6) (s : State) : Host.Outcome State Fault Refusal :=
  let w := encR 0x1F gd ga gb 0x01
  .next (runInstr s t.toNat w false 1 true (fun s =>
    if !(thr s t.toNat).stores.isEmpty then .wait s (.drain (.syncI t gd ga gb))
    else .done (sideClear (loopEnd s t.toNat) t.toNat)))

/-- XLSYNC (R111): drops the cached translations of its address and ASID, after the thread's earlier stores. Privileged
(R106). -/
def execXlsync (t : BitVec 10) (gd ga gb : BitVec 6) (s : State) : Host.Outcome State Fault Refusal :=
  let w := encR 0x1F gd ga gb 0x02
  .next (runInstr s t.toNat w false 1 true (fun s =>
    let a := rg s t.toNat ga
    let b := rg s t.toNat gb
    if (thr s t.toNat).level == .U then .trap s 0x08 (iwVal w)
    else match firstPoisoned [(0, a), (1, b)] with
      | some i => .trap s 0x05 (w64 i)
      | none =>
        if isFailed a || isFailed b then .trap s 0x03 (iwVal w)
        else if !(thr s t.toNat).stores.isEmpty then .wait s (.drain (.xlsync t gd ga gb))
        else
          let covers (e : TlbEnt) : Bool :=
            (ga == 0 || a.val.toNat / 2 ^ (12 + 9 * (e.level - 1)) == e.vpn) && (gb == 0 || e.global || e.asid == fieldN b.val 15 0)
          .done (updThr (loopEnd s t.toNat) t.toNat (fun x => { x with tlb := x.tlb.filter (fun e => !covers e) }))))

/-! ### Branches and jumps -/

/-- A conditional branch (R97, R100, R148): its comparison is of the shadow class. -/
def branch (op : Nat) (f : Word → Word → Bool) (t : BitVec 10) (ga gb : BitVec 6) (a : Bool) (disp : BitVec 13) (s : State) :
    Host.Outcome State Fault Refusal :=
  let w := encB op ga gb a disp
  .next (runInstr s t.toNat w true 1 false (fun s =>
    let t := t.toNat
    let x := rg s t ga
    let y := rg s t gb
    match firstPoisoned [(0, x), (1, y)] with
    | some i => .trap s 0x05 (w64 i)
    | none =>
      if isFailed x || isFailed y then .trap s 0x03 (iwVal w)
      else
        let (ok, s) := shadowOk s t
        if !ok then .trap s 0x04 (iwVal w)
        else
          let pc := (thr s t).pc
          let target := pc + (sx disp <<< 2)
          let taken := f x.val y.val
          .xfer (xferCommit s t pc .cond target taken) (if taken then some target else none) a))

/-- BEQ. -/
def execBeq (t : BitVec 10) (ga gb : BitVec 6) (a : Bool) (disp : BitVec 13) (s : State) : Host.Outcome State Fault Refusal :=
  branch 0x20 (fun x y => x == y) t ga gb a disp s
/-- BNE. -/
def execBne (t : BitVec 10) (ga gb : BitVec 6) (a : Bool) (disp : BitVec 13) (s : State) : Host.Outcome State Fault Refusal :=
  branch 0x21 (fun x y => x != y) t ga gb a disp s
/-- BLT, signed. -/
def execBlt (t : BitVec 10) (ga gb : BitVec 6) (a : Bool) (disp : BitVec 13) (s : State) : Host.Outcome State Fault Refusal :=
  branch 0x22 (fun x y => decide (x.toInt < y.toInt)) t ga gb a disp s
/-- BGE, signed. -/
def execBge (t : BitVec 10) (ga gb : BitVec 6) (a : Bool) (disp : BitVec 13) (s : State) : Host.Outcome State Fault Refusal :=
  branch 0x23 (fun x y => decide (y.toInt ≤ x.toInt)) t ga gb a disp s
/-- BLTU. -/
def execBltu (t : BitVec 10) (ga gb : BitVec 6) (a : Bool) (disp : BitVec 13) (s : State) : Host.Outcome State Fault Refusal :=
  branch 0x24 (fun x y => decide (x.toNat < y.toNat)) t ga gb a disp s
/-- BGEU. -/
def execBgeu (t : BitVec 10) (ga gb : BitVec 6) (a : Bool) (disp : BitVec 13) (s : State) : Host.Outcome State Fault Refusal :=
  branch 0x25 (fun x y => decide (y.toNat ≤ x.toNat)) t ga gb a disp s

/-- J: target is its address + sext(disp) × 4. -/
def execJ (t : BitVec 10) (disp : BitVec 26) (s : State) : Host.Outcome State Fault Refusal :=
  let w := encJ 0x26 disp
  .next (runInstr s t.toNat w true 1 false (fun s =>
    let pc := (thr s t.toNat).pc
    let target := pc + (sx disp <<< 2)
    .xfer (xferCommit s t.toNat pc .jump target true) (some target) false))

/-- JLNK: as J, with g63 ← its address + 8. -/
def execJlnk (t : BitVec 10) (disp : BitVec 26) (s : State) : Host.Outcome State Fault Refusal :=
  let w := encJ 0x27 disp
  .next (runInstr s t.toNat w true 1 true (fun s =>
    let pc := (thr s t.toNat).pc
    let target := pc + (sx disp <<< 2)
    .xfer (wg (xferCommit s t.toNat pc .call target true) t.toNat 63 (gen (pc + 8))) (some target) false))

/-- JIND: target ga + sext(imm), gd ← its address + 8; a target that is no multiple of 4 raises cause 0x09 (R102). -/
def execJind (t : BitVec 10) (gd ga : BitVec 6) (imm : BitVec 14) (s : State) : Host.Outcome State Fault Refusal :=
  let w := encI 0x28 gd ga imm
  .next (runInstr s t.toNat w true 1 true (fun s =>
    let t := t.toNat
    let x := rg s t ga
    let target := x.val + sx imm
    if isPoisoned x then .trap s 0x05 0
    else if target.toNat % 4 ≠ 0 then .trap s 0x09 target
    else if isFailed x then .trap s 0x03 (iwVal w)
    else
      let pc := (thr s t).pc
      let kind : XferKind := if gd = 63 then .icall else if gd = 0 && ga = 63 then .ret else .indirect
      .xfer (wg (xferCommit s t pc kind target true) t gd (gen (pc + 8))) (some target) false))

end Sys2Proof.Machine
end

