-- ==== Sys2Proof/Machine/Float.lean ====
section
/-! DEFINITION. IEEE 754 binary64 arithmetic as R99 uses it: every operation converts to exact integers, computes
exactly, and rounds once. Flags are the five accrued bits of FLAGS (Table 4-2) in their own positions. -/

namespace Sys2Proof.Machine

/-- The quiet NaN of R99. -/
def qNaN : Word := 0x7FF8000000000000#64

/-- FLAGS.NV. -/
def fNV : Word := 16
/-- FLAGS.DZ. -/
def fDZ : Word := 8
/-- FLAGS.OF. -/
def fOF : Word := 4
/-- FLAGS.UF. -/
def fUF : Word := 2
/-- FLAGS.NX. -/
def fNX : Word := 1

/-- An operand taken apart: a NaN, an infinity, or (−1)^neg × man × 2^exp. -/
inductive FNum where
  | nan (signaling : Bool)
  | inf (neg : Bool)
  | fin (neg : Bool) (man : Nat) (exp : Int)
  deriving DecidableEq, Repr

/-- Takes a binary64 word apart; subnormals are handled in full (R99). -/
def fUnpack (w : Word) : FNum :=
  let e := fieldN w 62 52
  let f := fieldN w 51 0
  let s := bit w 63
  if e = 2047 then (if f = 0 then .inf s else .nan (!(bit w 51)))
  else if e = 0 then .fin s f (-1074)
  else .fin s (f + 2 ^ 52) ((e : Int) - 1075)

/-- Sign, exponent field and fraction field put together. -/
def fPack (neg : Bool) (e f : Nat) : Word := w64 ((if neg then 2 ^ 63 else 0) + e * 2 ^ 52 + f)

/-- An infinity. -/
def fInf (neg : Bool) : Word := fPack neg 2047 0

/-- A zero. -/
def fZero (neg : Bool) : Word := fPack neg 0 0

/-- Whether a quotient `q` with discarded part rounds up, for rounding mode `rm` (Table 4-2): `half` compares the
discarded part with one half (.lt, .eq, .gt) and `exact` says it is zero. -/
def roundUp (rm : Nat) (neg : Bool) (q : Nat) (exact : Bool) (half : Ordering) : Bool :=
  if exact then false
  else match rm with
    | 0 => half == .gt || (half == .eq && q % 2 == 1)
    | 1 => false
    | 2 => neg
    | 3 => !neg
    | _ => half != .lt

/-- Rounds man × 2^exp (man > 0), with `sticky` saying that a nonzero amount below its last bit was dropped, to a
53-bit integer times 2^e with e at least `emin`: the integer, e, and whether it is inexact. -/
def roundTo (rm : Nat) (neg : Bool) (man : Nat) (exp : Int) (sticky : Bool) (emin : Int) : Nat × Int × Bool :=
  -- two guard bits make room for the sticky bit
  let man := man * 4 + b2n sticky
  let exp := exp - 2
  let want : Int := (bitLen man : Int) + exp - 53
  let e := if want < emin then emin else want
  if e ≤ exp then (man * 2 ^ (exp - e).toNat, e, false)
  else
    let d := (e - exp).toNat
    let q := man / 2 ^ d
    let r := man % 2 ^ d
    let half := compare (2 * r) (2 ^ d)
    let q' := if roundUp rm neg q (r == 0) half then q + 1 else q
    (q', e, r != 0)

/-- Rounds a nonzero value to binary64 under `rm`, with the flags it raises (R99). -/
def fRound (rm : Nat) (neg : Bool) (man : Nat) (exp : Int) (sticky : Bool) : Word × Word :=
  if man = 0 && !sticky then (fZero neg, 0)
  else
    let (q, e, inexact) := roundTo rm neg man exp sticky (-1074)
    let ix : Word := if inexact then fNX else 0
    if q = 0 then (fZero neg, ix ||| (if inexact then fUF else 0))
    else
      -- a carry out of 53 bits
      let (q, e) := if q = 2 ^ 53 then (2 ^ 52, e + 1) else (q, e)
      if q ≥ 2 ^ 52 then
        let ef := e + 1075
        if ef ≥ 2047 then
          let toInf := rm = 0 || rm ≥ 4 || (rm = 2 && neg) || (rm = 3 && !neg)
          (if toInf then fInf neg else fPack neg 2046 (2 ^ 52 - 1), fOF ||| fNX)
        else
          -- the smallest normal number may have been tiny before rounding
          let tinyBefore := (bitLen (man * 4 + b2n sticky) : Int) + exp - 2 ≤ -1022
          let (_, e2, _) := roundTo rm neg man exp sticky (-2000)
          let (q2, _, _) := roundTo rm neg man exp sticky (-2000)
          let tinyAfter := (bitLen q2 : Int) + e2 ≤ -1022
          let tiny := tinyBefore && inexact && (if tinyAfter then true else !Config.tinyAfterRounding)
          (fPack neg ef.toNat (q - 2 ^ 52), ix ||| (if tiny then fUF else 0))
      else (fPack neg 0 q, ix ||| (if inexact then fUF else 0))

/-- The rounded sum of two exact values (man × 2^exp with signs); an exact zero sum takes the sign IEEE 754 gives. -/
def fSumRound (rm : Nat) (n1 : Bool) (m1 : Nat) (e1 : Int) (n2 : Bool) (m2 : Nat) (e2 : Int) : Word × Word :=
  let e := if e1 ≤ e2 then e1 else e2
  let a : Int := (if n1 then -1 else 1) * (m1 * 2 ^ (e1 - e).toNat : Nat)
  let b : Int := (if n2 then -1 else 1) * (m2 * 2 ^ (e2 - e).toNat : Nat)
  let t := a + b
  if t = 0 then
    (fZero (if n1 == n2 then n1 else rm == 2), 0)
  else fRound rm (t < 0) t.natAbs e false

/-- A signaling NaN operand. -/
def FNum.isS : FNum → Bool
  | .nan s => s
  | _ => false

/-- NV when any operand is a signaling NaN. -/
def nvIfS (l : List FNum) : Word := if l.any FNum.isS then fNV else 0

/-- FADD (R99). -/
def fAdd (rm : Nat) (a b : Word) : Word × Word :=
  match fUnpack a, fUnpack b with
  | .nan x, y => (qNaN, nvIfS [.nan x, y])
  | x, .nan y => (qNaN, nvIfS [x, .nan y])
  | .inf x, .inf y => if x == y then (fInf x, 0) else (qNaN, fNV)
  | .inf x, _ => (fInf x, 0)
  | _, .inf y => (fInf y, 0)
  | .fin n1 m1 e1, .fin n2 m2 e2 => fSumRound rm n1 m1 e1 n2 m2 e2

/-- The word with its sign bit inverted. -/
def fNeg (a : Word) : Word := a ^^^ 0x8000000000000000#64

/-- FSUB (R99). -/
def fSub (rm : Nat) (a b : Word) : Word × Word :=
  match fUnpack b with
  | .nan _ => fAdd rm a b
  | _ => fAdd rm a (fNeg b)

/-- FMUL (R99). -/
def fMul (rm : Nat) (a b : Word) : Word × Word :=
  match fUnpack a, fUnpack b with
  | .nan x, y => (qNaN, nvIfS [.nan x, y])
  | x, .nan y => (qNaN, nvIfS [x, .nan y])
  | .inf x, .inf y => (fInf (x != y), 0)
  | .inf x, .fin y m _ => if m = 0 then (qNaN, fNV) else (fInf (x != y), 0)
  | .fin x m _, .inf y => if m = 0 then (qNaN, fNV) else (fInf (x != y), 0)
  | .fin n1 m1 e1, .fin n2 m2 e2 => fRound rm (n1 != n2) (m1 * m2) (e1 + e2) false

/-- FDIV (R99). -/
def fDiv (rm : Nat) (a b : Word) : Word × Word :=
  match fUnpack a, fUnpack b with
  | .nan x, y => (qNaN, nvIfS [.nan x, y])
  | x, .nan y => (qNaN, nvIfS [x, .nan y])
  | .inf _, .inf _ => (qNaN, fNV)
  | .inf x, .fin y _ _ => (fInf (x != y), 0)
  | .fin x _ _, .inf y => (fZero (x != y), 0)
  | .fin n1 m1 e1, .fin n2 m2 e2 =>
    if m2 = 0 then (if m1 = 0 then (qNaN, fNV) else (fInf (n1 != n2), fDZ))
    else if m1 = 0 then (fZero (n1 != n2), 0)
    else
      let sh : Nat := 120
      let num := m1 * 2 ^ sh
      fRound rm (n1 != n2) (num / m2) (e1 - e2 - (sh : Int)) (num % m2 != 0)

/-- FSQRT (R99). -/
def fSqrt (rm : Nat) (a : Word) : Word × Word :=
  match fUnpack a with
  | .nan x => (qNaN, nvIfS [.nan x])
  | .inf n => if n then (qNaN, fNV) else (fInf false, 0)
  | .fin n m e =>
    if m = 0 then (fZero n, 0)
    else if n then (qNaN, fNV)
    else
      -- an even exponent and at least 120 bits under the root
      let sh : Nat := if e % 2 = 0 then 140 else 141
      let v := m * 2 ^ sh
      let r := Nat.sqrt v
      fRound rm false r ((e - sh) / 2) (r * r != v)

/-- A fused multiply-add: (±(a × b)) + (±c), rounded once (R99, fn 0–3 of the FMA groups). -/
def fMulAdd (rm : Nat) (negP negC : Bool) (a b c : Word) : Word × Word :=
  let ua := fUnpack a
  let ub := fUnpack b
  let uc := fUnpack c
  let zeroInf := match ua, ub with
    | .inf _, .fin _ m _ => m == 0
    | .fin _ m _, .inf _ => m == 0
    | _, _ => false
  let anyNaN := match ua, ub, uc with
    | .nan _, _, _ => true
    | _, .nan _, _ => true
    | _, _, .nan _ => true
    | _, _, _ => false
  if anyNaN then
    (qNaN, nvIfS [ua, ub, uc] ||| (if zeroInf && Config.fmaZeroInfQuietInvalid then fNV else 0))
  else if zeroInf then (qNaN, fNV)
  else
    let sgn : FNum → Bool := fun x => match x with | .inf n => n | .fin n _ _ => n | .nan _ => false
    let np := (sgn ua != sgn ub) != negP
    let nc := sgn uc != negC
    let pInf := match ua, ub with | .inf _, _ => true | _, .inf _ => true | _, _ => false
    match uc with
    | .inf _ => if pInf && np != nc then (qNaN, fNV) else (fInf nc, 0)
    | .nan _ => (qNaN, 0)
    | .fin _ mc ec =>
      if pInf then (fInf np, 0)
      else match ua, ub with
        | .fin _ m1 e1, .fin _ m2 e2 => fSumRound rm np (m1 * m2) (e1 + e2) nc mc ec
        | _, _ => (fInf np, 0)

/-- Compares two finite or infinite values exactly; none when either is a NaN. −0 equals +0. -/
def fCompare (a b : Word) : Option Ordering :=
  let key : FNum → Option (Int × Int) := fun x => match x with
    | .nan _ => none
    | .inf n => some ((if n then -1 else 1), 0)
    | .fin _ _ _ => some (0, 0)
  match key (fUnpack a), key (fUnpack b), fUnpack a, fUnpack b with
  | some _, some _, .fin n1 m1 e1, .fin n2 m2 e2 =>
    let e := if e1 ≤ e2 then e1 else e2
    let x : Int := (if n1 then -1 else 1) * (m1 * 2 ^ (e1 - e).toNat : Nat)
    let y : Int := (if n2 then -1 else 1) * (m2 * 2 ^ (e2 - e).toNat : Nat)
    some (compare x y)
  | some (x, _), some (y, _), _, _ => some (compare x y)
  | _, _, _, _ => none

/-- True for a NaN. -/
def isNaN (w : Word) : Bool := match fUnpack w with | .nan _ => true | _ => false

/-- True for a NaN or an infinity. -/
def notFinite (w : Word) : Bool := match fUnpack w with | .fin _ _ _ => false | _ => true

/-- FMIN (`mx` false) and FMAX (`mx` true) (R99); log 20 for NaN operands and zeros of both signs. -/
def fMinMax (mx : Bool) (a b : Word) : Word × Word :=
  let nv := nvIfS [fUnpack a, fUnpack b]
  match isNaN a, isNaN b with
  | true, true => (qNaN, nv)
  | true, false => (if Config.minMaxNumber a b then b else qNaN, nv)
  | false, true => (if Config.minMaxNumber a b then a else qNaN, nv)
  | false, false =>
    match fCompare a b with
    | some .lt => (if mx then b else a, 0)
    | some .gt => (if mx then a else b, 0)
    | _ =>
      if a = b then (a, 0)
      else if Config.minMaxZeroOrdered a b then (if bit a 63 == mx then b else a, 0)
      else (a, 0)

/-- FEQ (R99). -/
def fEq (a b : Word) : Bool × Word := (fCompare a b == some .eq, nvIfS [fUnpack a, fUnpack b])

/-- NV of an ordered compare: a signaling NaN, and (log 20) perhaps a quiet one. -/
def ordNV (a b : Word) : Word :=
  nvIfS [fUnpack a, fUnpack b] ||| (if (isNaN a || isNaN b) && Config.orderedQuietInvalid then fNV else 0)

/-- FLT (R99). -/
def fLt (a b : Word) : Bool × Word := (fCompare a b == some .lt, ordNV a b)

/-- FLE (R99). -/
def fLe (a b : Word) : Bool × Word :=
  (fCompare a b == some .lt || fCompare a b == some .eq, ordNV a b)

/-- ITOF: a signed integer to binary64. -/
def fOfInt (rm : Nat) (a : Word) : Word × Word :=
  let i := a.toInt
  fRound rm (i < 0) i.natAbs 0 false

/-- UTOF: an unsigned integer to binary64. -/
def fOfNat (rm : Nat) (a : Word) : Word × Word := fRound rm false a.toNat 0 false

/-- The magnitude of man × 2^exp rounded to an integer, and whether it is inexact. -/
def fRoundInt (rm : Nat) (neg : Bool) (man : Nat) (exp : Int) : Nat × Bool :=
  if 0 ≤ exp then (man * 2 ^ exp.toNat, false)
  else
    let d := (-exp).toNat
    let q := man / 2 ^ d
    let r := man % 2 ^ d
    (if roundUp rm neg q (r == 0) (compare (2 * r) (2 ^ d)) then q + 1 else q, r != 0)

/-- FTOI (`signed`) and FTOU: saturating, NaN giving the largest positive value, NV when out of range (R99). -/
def fToInt (signed : Bool) (rm : Nat) (a : Word) : Word × Word :=
  let hi : Int := if signed then 2 ^ 63 - 1 else 2 ^ 64 - 1
  let lo : Int := if signed then -(2 ^ 63) else 0
  match fUnpack a with
  | .nan _ => (BitVec.ofInt 64 hi, fNV)
  | .inf n => (BitVec.ofInt 64 (if n then lo else hi), fNV)
  | .fin n m e =>
    let (q, ix) := fRoundInt rm n m e
    let v : Int := if n then -(q : Int) else q
    if v > hi then (BitVec.ofInt 64 hi, fNV)
    else if v < lo then (BitVec.ofInt 64 lo, fNV)
    else (BitVec.ofInt 64 v, if ix then fNX else 0)

/-- The quiet NaN in place of any NaN result (R99). -/
def canonNaN (w : Word) : Word := if isNaN w then qNaN else w

/-- FCPS: the magnitude of a with the sign of b, or with its inverse (R99). -/
def fCopySign (inv : Bool) (a b : Word) : Word := canonNaN (setBit a 63 (bit b 63 != inv))

end Sys2Proof.Machine
end

