-- ==== Sys2Proof/Machine/Guards.lean ====
section
/-! DEFINITION. The arithmetic of the stopper guards in FORMAT (R330), and the limits that GUARD.TIGHTEN is checked against (R123,
R335). -/

namespace Sys2Proof.Machine

/-! ### Arithmetic (R330) -/

/-- a < b in FORMAT (`f` true for binary64). -/
def gLt (f : Bool) (a b : Word) : Bool := if f then fCompare a b == some .lt else decide (a.toInt < b.toInt)

/-- a = b in FORMAT. -/
def gEq (f : Bool) (a b : Word) : Bool := if f then fCompare a b == some .eq else a == b

/-- The value limited to MIN and MAX. -/
def gClamp (f : Bool) (lo hi v : Word) : Word :=
  let x := if gLt f v lo then lo else v
  if gLt f hi x then hi else x

/-- |a − b|; for FORMAT 0 as an exact number, for FORMAT 1 as a binary64 pattern. -/
def gDist (f : Bool) (a b : Word) : Nat :=
  if f then (setBit (fSub 0 a b).1 63 false).toNat else (a.toInt - b.toInt).natAbs

/-- toward(a, b, d) of R328. -/
def gToward (f : Bool) (a b d : Word) : Word :=
  if f then
    if fCompare (w64 (gDist true b a)) d != some .gt then b
    else if gLt true a b then
      let r := (fAdd 0 a d).1
      if gLt true b r then b else r
    else
      let r := (fSub 0 a d).1
      if gLt true r b then b else r
  else if ((b.toInt - a.toInt).natAbs : Int) ≤ d.toInt then b
  else if a.toInt < b.toInt then a + d else a - d

/-- min(SLEW, ramp_step(OUT, SAFE, RAMP)) of R329. -/
def gRamp (f : Bool) (out safe slew : Word) (ramp : Nat) : Word :=
  if f then
    let dist := w64 (gDist true out safe)
    let q := (fDiv 0 dist (fOfNat 0 (w64 ramp)).1).1
    let q := if fCompare q 0 == some .eq then dist else q
    if gLt true q slew then q else slew
  else
    let dist := gDist false out safe
    let q := (dist + ramp - 1) / ramp
    if (q : Int) < slew.toInt then w64 q else slew

/-! ### Narrowed limits (R123, R335) -/

/-- One narrowed limit (R123). -/
def setLimit (x : Stopper) (fn : Nat) (v : Word) : Stopper :=
  match fn with
  | 0 => { x with min := v }
  | 1 => { x with max := v }
  | 2 => { x with slew := v }
  | _ => { x with stale := v.toNat }

/-- The stopper with every accepted change counted: the limits that its registers show (R335). -/
def limitsSeen (x : Stopper) : Stopper := x.accepted.foldl (fun x a => setLimit x a.1 a.2) x

/-- The stopper refuses a change (R123). -/
def tightenRefused (s : State) (t o fn : Nat) (v : Word) : Bool :=
  let x := limitsSeen (stopOf s o)
  let f := x.float
  let y := setLimit x fn v
  !(threadPart s t == some x.part && 1 ≤ x.st && x.st ≤ 3)
    || (match fn with
      | 0 => (f && notFinite v) || gLt f v x.min
      | 1 => (f && notFinite v) || gLt f x.max v
      | 2 => (f && notFinite v) || gLt f x.slew v || !gLt f 0 v
      | _ => decide (2 ^ 32 ≤ v.toNat) || decide (x.stale < v.toNat) || v == 0)
    || gLt f y.safe y.min || gLt f y.max y.safe || gLt f y.max y.min

end Sys2Proof.Machine
end

