-- ==== Sys2Proof/Machine/IntAlu.lean ====
section
/-! DEFINITION. Integer register and immediate operations, multiply and divide (R98, R129, R142, R146–R149). -/

namespace Sys2Proof.Machine

/-- An operation of the residue class: poisoned sources, failed sources, the predicted tally, the result (R132 order). -/
def residueOp (t : Nat) (gd : BitVec 6) (w : IWord) (srcs : List (Nat × TWord)) (r : Word) (pred : Byte) (s : State) : Act :=
  match firstPoisoned srcs with
  | some i => .trap s 0x05 (w64 i)
  | none =>
    if anyFailed srcs then .trap s 0x03 (iwVal w)
    else
      let (ok, s) := residueOk s t r pred
      if ok then .done (wg s t gd ⟨r, pred⟩) else .trap s 0x03 (iwVal w)

/-- An operation of the shadow class: executed twice, one generated tally (R148). -/
def shadowOp (t : Nat) (gd : BitVec 6) (w : IWord) (srcs : List (Nat × TWord)) (r : Word) (s : State) : Act :=
  match firstPoisoned srcs with
  | some i => .trap s 0x05 (w64 i)
  | none =>
    if anyFailed srcs then .trap s 0x03 (iwVal w)
    else
      let (ok, s) := shadowOk s t
      if ok then .done (wg s t gd (gen r)) else .trap s 0x04 (iwVal w)

/-- Register form of the shadow class. -/
def aluShadow (fn : Nat) (f : Word → Word → Word) (t : BitVec 10) (gd ga gb : BitVec 6) (s : State) : Host.Outcome State Fault Refusal :=
  let w := encR 0x00 gd ga gb fn
  .next (runInstr s t.toNat w false 1 false (fun s =>
    let a := rg s t.toNat ga
    let b := rg s t.toNat gb
    shadowOp t.toNat gd w [(0, a), (1, b)] (f a.val b.val) s))

/-- One-operand form whose gb field must be g0 (CLZ, POPC). -/
def aluUnary (fn : Nat) (f : Word → Word) (t : BitVec 10) (gd ga gb : BitVec 6) (s : State) : Host.Outcome State Fault Refusal :=
  let w := encR 0x00 gd ga gb fn
  .next (runInstr s t.toNat w false 1 false (fun s =>
    if gb ≠ 0 then .trap s 0x08 (iwVal w)
    else
      let a := rg s t.toNat ga
      shadowOp t.toNat gd w [(0, a)] (f a.val) s))

/-- Immediate form of the shadow class. -/
def immShadow (op : Nat) (f : Word → Word → Word) (t : BitVec 10) (gd ga : BitVec 6) (imm : BitVec 14) (s : State) : Host.Outcome State Fault Refusal :=
  let w := encI op gd ga imm
  .next (runInstr s t.toNat w false 1 false (fun s =>
    let a := rg s t.toNat ga
    shadowOp t.toNat gd w [(0, a)] (f a.val (sx imm)) s))

/-- 1 for true, as a word. -/
def bw (b : Bool) : Word := if b then 1 else 0

/-- Logical and arithmetic right shifts by the low six bits. -/
def srl (a b : Word) : Word := a >>> (b.toNat % 64)
/-- Arithmetic right shift. -/
def sra (a b : Word) : Word := BitVec.sshiftRight a (b.toNat % 64)
/-- Left shift by the low six bits. -/
def sll (a b : Word) : Word := a <<< (b.toNat % 64)
/-- Leading zeros. -/
def clz (a : Word) : Word := w64 (64 - bitLen a.toNat)
/-- Population count. -/
def popc (a : Word) : Word := w64 (onesBelow 64 a.toNat).length
/-- Signed minimum. -/
def smin (a b : Word) : Word := if a.toInt ≤ b.toInt then a else b
/-- Signed maximum. -/
def smax (a b : Word) : Word := if a.toInt ≤ b.toInt then b else a
/-- Unsigned minimum. -/
def umin (a b : Word) : Word := if a.toNat ≤ b.toNat then a else b
/-- Unsigned maximum. -/
def umax (a b : Word) : Word := if a.toNat ≤ b.toNat then b else a

/-- ADD. -/
def execAdd (t : BitVec 10) (gd ga gb : BitVec 6) (s : State) : Host.Outcome State Fault Refusal :=
  let w := encR 0x00 gd ga gb 0x01
  .next (runInstr s t.toNat w false 1 false (fun s =>
    let a := rg s t.toNat ga
    let b := rg s t.toNat gb
    residueOp t.toNat gd w [(0, a), (1, b)] (a.val + b.val) (predAdd a b) s))

/-- SUB. -/
def execSub (t : BitVec 10) (gd ga gb : BitVec 6) (s : State) : Host.Outcome State Fault Refusal :=
  let w := encR 0x00 gd ga gb 0x02
  .next (runInstr s t.toNat w false 1 false (fun s =>
    let a := rg s t.toNat ga
    let b := rg s t.toNat gb
    residueOp t.toNat gd w [(0, a), (1, b)] (a.val - b.val) (predSub a b) s))

/-- SLL. -/
def execSll (t : BitVec 10) (gd ga gb : BitVec 6) (s : State) : Host.Outcome State Fault Refusal :=
  let w := encR 0x00 gd ga gb 0x07
  .next (runInstr s t.toNat w false 1 false (fun s =>
    let a := rg s t.toNat ga
    let b := rg s t.toNat gb
    residueOp t.toNat gd w [(0, a), (1, b)] (sll a.val b.val) (predShl a (b.val.toNat % 64)) s))

/-- AND. -/
def execAnd (t : BitVec 10) (gd ga gb : BitVec 6) (s : State) : Host.Outcome State Fault Refusal :=
  aluShadow 3 (fun a b => a &&& b) t gd ga gb s

/-- OR. -/
def execOr (t : BitVec 10) (gd ga gb : BitVec 6) (s : State) : Host.Outcome State Fault Refusal :=
  aluShadow 4 (fun a b => a ||| b) t gd ga gb s

/-- XOR. -/
def execXor (t : BitVec 10) (gd ga gb : BitVec 6) (s : State) : Host.Outcome State Fault Refusal :=
  aluShadow 5 (fun a b => a ^^^ b) t gd ga gb s

/-- ANDN. -/
def execAndn (t : BitVec 10) (gd ga gb : BitVec 6) (s : State) : Host.Outcome State Fault Refusal :=
  aluShadow 6 (fun a b => a &&& ~~~b) t gd ga gb s

/-- SRL. -/
def execSrl (t : BitVec 10) (gd ga gb : BitVec 6) (s : State) : Host.Outcome State Fault Refusal :=
  aluShadow 8 (fun a b => srl a b) t gd ga gb s

/-- SRA. -/
def execSra (t : BitVec 10) (gd ga gb : BitVec 6) (s : State) : Host.Outcome State Fault Refusal :=
  aluShadow 9 (fun a b => sra a b) t gd ga gb s

/-- CLT. -/
def execClt (t : BitVec 10) (gd ga gb : BitVec 6) (s : State) : Host.Outcome State Fault Refusal :=
  aluShadow 10 (fun a b => bw (decide (a.toInt < b.toInt))) t gd ga gb s

/-- CLTU. -/
def execCltu (t : BitVec 10) (gd ga gb : BitVec 6) (s : State) : Host.Outcome State Fault Refusal :=
  aluShadow 11 (fun a b => bw (decide (a.toNat < b.toNat))) t gd ga gb s

/-- MIN. -/
def execMin (t : BitVec 10) (gd ga gb : BitVec 6) (s : State) : Host.Outcome State Fault Refusal :=
  aluShadow 12 (fun a b => smin a b) t gd ga gb s

/-- MAX. -/
def execMax (t : BitVec 10) (gd ga gb : BitVec 6) (s : State) : Host.Outcome State Fault Refusal :=
  aluShadow 13 (fun a b => smax a b) t gd ga gb s

/-- MINU. -/
def execMinu (t : BitVec 10) (gd ga gb : BitVec 6) (s : State) : Host.Outcome State Fault Refusal :=
  aluShadow 14 (fun a b => umin a b) t gd ga gb s

/-- MAXU. -/
def execMaxu (t : BitVec 10) (gd ga gb : BitVec 6) (s : State) : Host.Outcome State Fault Refusal :=
  aluShadow 15 (fun a b => umax a b) t gd ga gb s

/-- CLZ. -/
def execClz (t : BitVec 10) (gd ga gb : BitVec 6) (s : State) : Host.Outcome State Fault Refusal :=
  aluUnary 16 clz t gd ga gb s

/-- POPC. -/
def execPopc (t : BitVec 10) (gd ga gb : BitVec 6) (s : State) : Host.Outcome State Fault Refusal :=
  aluUnary 17 popc t gd ga gb s

/-- ANDI. -/
def execAndi (t : BitVec 10) (gd ga : BitVec 6) (imm : BitVec 14) (s : State) : Host.Outcome State Fault Refusal :=
  immShadow 2 (fun a b => a &&& b) t gd ga imm s

/-- ORI. -/
def execOri (t : BitVec 10) (gd ga : BitVec 6) (imm : BitVec 14) (s : State) : Host.Outcome State Fault Refusal :=
  immShadow 3 (fun a b => a ||| b) t gd ga imm s

/-- XORI. -/
def execXori (t : BitVec 10) (gd ga : BitVec 6) (imm : BitVec 14) (s : State) : Host.Outcome State Fault Refusal :=
  immShadow 4 (fun a b => a ^^^ b) t gd ga imm s

/-- CLTI. -/
def execClti (t : BitVec 10) (gd ga : BitVec 6) (imm : BitVec 14) (s : State) : Host.Outcome State Fault Refusal :=
  immShadow 5 (fun a b => bw (decide (a.toInt < b.toInt))) t gd ga imm s

/-- CLTIU. -/
def execCltiu (t : BitVec 10) (gd ga : BitVec 6) (imm : BitVec 14) (s : State) : Host.Outcome State Fault Refusal :=
  immShadow 6 (fun a b => bw (decide (a.toNat < b.toNat))) t gd ga imm s


/-- ADDI; with imm 0 it carries a poisoned ga without a trap (R159). -/
def execAddi (t : BitVec 10) (gd ga : BitVec 6) (imm : BitVec 14) (s : State) : Host.Outcome State Fault Refusal :=
  let w := encI 0x01 gd ga imm
  .next (runInstr s t.toNat w false 1 false (fun s =>
    let a := rg s t.toNat ga
    if imm = 0 && isPoisoned a then .done (wg s t.toNat gd a)
    else residueOp t.toNat gd w [(0, a)] (a.val + sx imm) (predAdd a (gen (sx imm))) s))

/-- The shift-immediate group: imm[11:6] is reserved (Table 4-9). -/
def shiftImm (sel : Nat) (t : BitVec 10) (gd ga : BitVec 6) (imm : BitVec 12) (body : IWord → Nat → State → Act) (s : State) : Host.Outcome State Fault Refusal :=
  let w := packI 0x07 [(gd.toNat, 20), (ga.toNat, 14), (sel, 12), (imm.toNat, 0)]
  .next (runInstr s t.toNat w false 1 false (fun s =>
    if imm.toNat ≥ 64 then .trap s 0x08 (iwVal w) else body w imm.toNat s))

/-- SLLI. -/
def execSlli (t : BitVec 10) (gd ga : BitVec 6) (imm : BitVec 12) (s : State) : Host.Outcome State Fault Refusal :=
  shiftImm 0 t gd ga imm (fun w n s =>
    let a := rg s t.toNat ga
    residueOp t.toNat gd w [(0, a)] (a.val <<< n) (predShl a n) s) s

/-- SRLI. -/
def execSrli (t : BitVec 10) (gd ga : BitVec 6) (imm : BitVec 12) (s : State) : Host.Outcome State Fault Refusal :=
  shiftImm 1 t gd ga imm (fun w n s =>
    let a := rg s t.toNat ga
    shadowOp t.toNat gd w [(0, a)] (a.val >>> n) s) s

/-- SRAI. -/
def execSrai (t : BitVec 10) (gd ga : BitVec 6) (imm : BitVec 12) (s : State) : Host.Outcome State Fault Refusal :=
  shiftImm 2 t gd ga imm (fun w n s =>
    let a := rg s t.toNat ga
    shadowOp t.toNat gd w [(0, a)] (BitVec.sshiftRight a.val n) s) s

/-- IMMH: gd ← sext(imm) << 12. -/
def execImmh (t : BitVec 10) (gd : BitVec 6) (imm : BitVec 20) (s : State) : Host.Outcome State Fault Refusal :=
  let w := encU 0x08 gd imm
  .next (runInstr s t.toNat w false 1 false (fun s =>
    let a := gen (sx imm)
    residueOp t.toNat gd w [] (a.val <<< 12) (predShl a 12) s))

/-- PCADD: gd ← pc + (sext(imm) << 12). -/
def execPcadd (t : BitVec 10) (gd : BitVec 6) (imm : BitVec 20) (s : State) : Host.Outcome State Fault Refusal :=
  let w := encU 0x09 gd imm
  .next (runInstr s t.toNat w false 1 false (fun s =>
    let a := gen (thr s t.toNat).pc
    let b := gen (sx imm <<< 12)
    residueOp t.toNat gd w [] (a.val + b.val) (predAdd a b) s))

/-- LUH: gd ← gd[31:0] OR (sext(imm) << 32); gd is also its source. -/
def execLuh (t : BitVec 10) (gd : BitVec 6) (imm : BitVec 20) (s : State) : Host.Outcome State Fault Refusal :=
  let w := encU 0x0A gd imm
  .next (runInstr s t.toNat w false 1 false (fun s =>
    let a := rg s t.toNat gd
    shadowOp t.toNat gd w [(3, a)] ((a.val &&& 0xFFFFFFFF#64) ||| (sx imm <<< 32)) s))

/-- MUL. -/
def execMul (t : BitVec 10) (gd ga gb : BitVec 6) (s : State) : Host.Outcome State Fault Refusal :=
  let w := encR 0x0B gd ga gb 0x01
  .next (runInstr s t.toNat w false 1 false (fun s =>
    let a := rg s t.toNat ga
    let b := rg s t.toNat gb
    residueOp t.toNat gd w [(0, a), (1, b)] (a.val * b.val) (predMadd TWord.zero a b) s))

/-- MADD: gd ← gd + ga × gb. -/
def execMadd (t : BitVec 10) (gd ga gb : BitVec 6) (s : State) : Host.Outcome State Fault Refusal :=
  let w := encR 0x0B gd ga gb 0x05
  .next (runInstr s t.toNat w false 1 false (fun s =>
    let a := rg s t.toNat ga
    let b := rg s t.toNat gb
    let d := rg s t.toNat gd
    residueOp t.toNat gd w [(0, a), (1, b), (3, d)] (d.val + a.val * b.val) (predMadd d a b) s))

/-- The high half of a product taken exactly. -/
def mulHigh (a b : Int) : Word := BitVec.ofInt 64 (a * b / 2 ^ 64)

/-- The high-half multiplies. -/
def mulHi (fn : Nat) (f : Word → Word → Word) (t : BitVec 10) (gd ga gb : BitVec 6) (s : State) : Host.Outcome State Fault Refusal :=
  let w := encR 0x0B gd ga gb fn
  .next (runInstr s t.toNat w false 1 false (fun s =>
    let a := rg s t.toNat ga
    let b := rg s t.toNat gb
    shadowOp t.toNat gd w [(0, a), (1, b)] (f a.val b.val) s))

/-- MULHI: signed × signed. -/
def execMulhi (t : BitVec 10) (gd ga gb : BitVec 6) (s : State) : Host.Outcome State Fault Refusal :=
  mulHi 0x02 (fun a b => mulHigh a.toInt b.toInt) t gd ga gb s
/-- MULHIU: unsigned × unsigned. -/
def execMulhiu (t : BitVec 10) (gd ga gb : BitVec 6) (s : State) : Host.Outcome State Fault Refusal :=
  mulHi 0x03 (fun a b => mulHigh a.toNat b.toNat) t gd ga gb s
/-- MULHIX: ga signed × gb unsigned. -/
def execMulhix (t : BitVec 10) (gd ga gb : BitVec 6) (s : State) : Host.Outcome State Fault Refusal :=
  mulHi 0x04 (fun a b => mulHigh a.toInt b.toNat) t gd ga gb s

/-- A divide (R129): the zero divisor traps only when FLAGS.DZT = 1 and otherwise gives `z`. -/
def divide (fn : Nat) (f z : Word → Word → Word) (t : BitVec 10) (gd ga gb : BitVec 6) (s : State) : Host.Outcome State Fault Refusal :=
  let w := encR 0x0C gd ga gb fn
  .next (runInstr s t.toNat w false 1 false (fun s =>
    let a := rg s t.toNat ga
    let b := rg s t.toNat gb
    match firstPoisoned [(0, a), (1, b)] with
    | some i => .trap s 0x05 (w64 i)
    | none =>
      if b.val = 0 && flagsDZT s t.toNat then .trap s 0x11 0
      else shadowOp t.toNat gd w [(0, a), (1, b)] (if b.val = 0 then z a.val b.val else f a.val b.val) s))

/-- DIV: rounded toward zero; −2^63 by −1 gives −2^63. -/
def execDiv (t : BitVec 10) (gd ga gb : BitVec 6) (s : State) : Host.Outcome State Fault Refusal :=
  divide 0x01 (fun a b => BitVec.ofInt 64 (Int.tdiv a.toInt b.toInt)) (fun _ _ => BitVec.allOnes 64) t gd ga gb s
/-- DIVU. -/
def execDivu (t : BitVec 10) (gd ga gb : BitVec 6) (s : State) : Host.Outcome State Fault Refusal :=
  divide 0x02 (fun a b => w64 (a.toNat / b.toNat)) (fun _ _ => BitVec.allOnes 64) t gd ga gb s
/-- REM: the sign of the dividend; −2^63 by −1 gives 0. -/
def execRem (t : BitVec 10) (gd ga gb : BitVec 6) (s : State) : Host.Outcome State Fault Refusal :=
  divide 0x03 (fun a b => BitVec.ofInt 64 (Int.tmod a.toInt b.toInt)) (fun a _ => a) t gd ga gb s
/-- REMU. -/
def execRemu (t : BitVec 10) (gd ga gb : BitVec 6) (s : State) : Host.Outcome State Fault Refusal :=
  divide 0x04 (fun a b => w64 (a.toNat % b.toNat)) (fun a _ => a) t gd ga gb s

end Sys2Proof.Machine
end

