-- ==== Sys2Proof/Machine/PointInstr.lean ====
section
/-! DEFINITION. The Point Store instructions at the core (R119, R120, R143, R354): checks, rights, the request to the
engine, and the response. -/

namespace Sys2Proof.Machine

/-- The home engine of a point (R343). -/
def ptHome (p : Nat) : Nat :=
  Nat.xor (Nat.xor (p % 64) (p / 64 % 64)) (Nat.xor (p / 4096 % 64) (p / 262144 % 64))

/-- Points in the rigged region (R342). -/
def ptCount (s : State) : Nat := s.rig.dev.ptSize / 64

/-- The record of partition `p` for a point (R344: at most one). -/
def ptRecord (s : State) (p pt : Nat) : Option PointRange :=
  (knots s p).points.find? (fun r => r.first ≤ pt && pt < r.first + r.count)

/-- A thread reaches a class level (R354): 0 U, 1 S, 2 secure world only, 3 M. -/
def ptLevelOk (x : Thread) (lvl : Nat) : Bool :=
  x.world == .secure || (lvl != 2 && decide (lvl ≤ levelNo x.level))

/-- A thread holds the right that a point operation needs (R119, R354). -/
def ptRight (s : State) (t : Nat) (k : PsKind) (pt : Nat) : Bool :=
  match threadPart s t with
  | none => false
  | some p =>
    match ptRecord s p pt with
    | none => false
    | some r =>
      let cls := getR s .PST_CLASS 0 p
      let rd := fieldN cls (4 * r.cls + 1) (4 * r.cls)
      let wr := fieldN cls (4 * r.cls + 3) (4 * r.cls + 2)
      match k with
      | .read => r.read && ptLevelOk (thr s t) rd
      | .write => r.write && ptLevelOk (thr s t) wr
      | .cw => r.write && ptLevelOk (thr s t) wr
      | .sub => r.sub && ptLevelOk (thr s t) wr

/-- A subscription that the engine refuses (R349): `g` is the point's group, `want` the one asked for. -/
def subRefused (s : State) (t g want : Nat) (unsub : Bool) : Bool :=
  let mine (g : Nat) : Bool := match threadPart s t with
    | some q => 256 * q ≤ g && g < 256 * q + 256
    | none => false
  if unsub then g ≠ 0xFFFF && !mine g else !(mine want && (g = 0xFFFF || mine g))

/-- A Point Store instruction (R119): its checks in the order of R132, then its request to the engine of the point's
home, whose response it waits for. With a failed operand a refused subscription comes first, and no request is made (R132, R144). The trap value of cause 0x0F is the point id, ga[23:0], also where ga names no point (log 103). `srcs` are the operands whose poison it refuses, `all` every operand that is
checked. -/
def pointOp (w : IWord) (t : Nat) (k : PsKind) (ga gd : BitVec 6) (illegal : Bool) (srcs : List (Nat × TWord))
    (all : List TWord) (m : PsMsg) (stored : Option TWord) (s : State) : Act :=
  let a := rg s t ga
  if illegal then .trap s 0x08 (iwVal w)
  else match firstPoisoned srcs with
    | some i => .trap s 0x05 (w64 i)
    | none =>
      let pt := a.val.toNat
      if pt ≥ 2 ^ 24 || pt ≥ ptCount s || !ptRight s t k pt then .trap s 0x0F (w64 (pt % 2 ^ 24))
      else if all.any isFailed then
        let d := (cohPeek s (ptLine s pt)).1
        if k == .sub && subRefused s t (fieldN (lineWord d 6).val 63 48) (fieldN m.b.val 15 0) m.unsub then .trap s 0x0F (w64 pt)
        else .trap s 0x03 (iwVal w)
      else
        let (ok, s) := match stored with
          | some v => if isPoisoned v then (true, s) else residueOk s t v.val v.tal
          | none => (true, s)
        if !ok then .trap s 0x03 (iwVal w)
        else
          let (p, s) := mkPkt s (threadUnit s t) (ptHome pt) 6 0x19 false 1
          .wait { s with psNet := s.psNet ++ [{ m with thread := t, kind := k, point := pt, iw := iwVal w, pkt := p }] } (.point gd.toNat m.mode1)

/-- PSRD (R119). -/
def execPsrd (t : BitVec 10) (gd ga gb gc : BitVec 6) (s : State) : Host.Outcome State Fault Refusal :=
  let w := encQ 0x36 gd ga gb gc 0
  let mode1 := gb == 1
  let bad := decide (gb.toNat ≥ 2) || (mode1 && (gd.toNat % 2 = 1 || gd = 0 || gd = 63))
  .next (runInstr s t.toNat w false (if mode1 then 2 else 1) false (fun s =>
    let a := rg s t.toNat ga
    pointOp w t.toNat .read ga gd bad [(0, a)] [a] { thread := 0, kind := .read, point := 0, mode1 := mode1 } none s))

/-- PSWR (R119): a poisoned gb is carried (Table 5-7). -/
def execPswr (t : BitVec 10) (gd ga gb gc : BitVec 6) (s : State) : Host.Outcome State Fault Refusal :=
  let w := encQ 0x36 gd ga gb gc 1
  .next (runInstr s t.toNat w false 1 false (fun s =>
    let a := rg s t.toNat ga
    let b := rg s t.toNat gb
    pointOp w t.toNat .write ga gd false [(0, a)] [a, b] { thread := 0, kind := .write, point := 0, b := b } (some b) s))

/-- PSCW (R119, R150): gb is compared, gc carried. -/
def execPscw (t : BitVec 10) (gd ga gb gc : BitVec 6) (s : State) : Host.Outcome State Fault Refusal :=
  let w := encQ 0x36 gd ga gb gc 2
  .next (runInstr s t.toNat w false 1 false (fun s =>
    let a := rg s t.toNat ga
    let b := rg s t.toNat gb
    let c := rg s t.toNat gc
    pointOp w t.toNat .cw ga gd false [(0, a), (1, b)] [a, b, c] { thread := 0, kind := .cw, point := 0, b := b, c := c } (some c) s))

/-- PSSUB (R119, R349): gc is 0 to subscribe and 1 to unsubscribe. -/
def execPssub (t : BitVec 10) (gd ga gb gc : BitVec 6) (s : State) : Host.Outcome State Fault Refusal :=
  let w := encQ 0x36 gd ga gb gc 3
  .next (runInstr s t.toNat w false 1 false (fun s =>
    let a := rg s t.toNat ga
    let b := rg s t.toNat gb
    pointOp w t.toNat .sub ga gd (decide (gc.toNat ≥ 2)) [(0, a), (1, b)] [a, b]
      { thread := 0, kind := .sub, point := 0, b := b, unsub := gc == 1 } none s))

/-- The response in flight for a thread. -/
def psAnswer? (s : State) (t : Nat) : Option (PsMsg × PsResult) :=
  s.psNet.findSome? (fun m => if m.thread = t && arrivedPkt s m.pkt then m.answer.map (fun r => (m, r)) else none)

/-- What a thread does with the response it waited for. -/
def psDeliver (t gd : Nat) (mode1 : Bool) (m : PsMsg) (r : PsResult) (s : State) : Act :=
  match r with
  | .denied => .trap s 0x0F (w64 m.point)
  | .shadow => .trap s 0x04 m.iw
  | .ok v extra =>
    let carried := m.kind == PsKind.read || m.kind == PsKind.cw
    if carried && isFailed v then .trap s 0x03 m.iw
    else
      let (ok, s) := if m.kind == PsKind.read && !isPoisoned v then residueOk s t v.val v.tal else (true, s)
      if !ok then .trap s 0x03 m.iw
      else
        let s := wg s t (BitVec.ofNat 6 gd) v
        match mode1, extra with
        | true, some e => .done (wg s t (BitVec.ofNat 6 (gd + 1)) e)
        | _, _ => .done s

/-- PS_RSP: the thread receives the result of its Point Store instruction, or a refusal that traps (R119). -/
def execPsRsp (t : BitVec 10) (s : State) : Host.Outcome State Fault Refusal :=
  .next (match psAnswer? s t.toNat with
    | none => s
    | some (m, r) =>
      let s := ejectPkt { s with psNet := s.psNet.erase m } m.pkt
      match (thr s t.toNat).wait with
      | some (.point gd mode1) => applyAct t.toNat (if mode1 then 2 else 1) false (psDeliver t.toNat gd mode1 m r s)
      | _ => s)

end Sys2Proof.Machine
end

