-- ==== Sys2Proof/Machine/System.lean ====
section
/-! DEFINITION. Control registers, world calls, system instructions, interrupts and the events of a thread (R94, R95,
R123–R128, R131–R135, R190–R195). -/

namespace Sys2Proof.Machine

/-! ### Control registers (R94, Table 4-1) -/

/-- The masks of a level bank's registers, by their offset 0–9 (Tables 4-3 to 4-6c). -/
def crMask (isM : Bool) : Nat → Word
  | 0 => if isM then 0x9F else 0x19F
  | 1 => maskBits 63 8 ||| 1
  | 2 => ~~~ 3#64
  | 3 => maskBits 63 63 ||| 0xFF
  | 5 => ~~~ 3#64
  | 7 => 0xE
  | 8 => 2
  | _ => ~~~ 0#64

/-- Reads register `k` (0–9) of a bank. -/
def bankRead (s : State) (t : Nat) (b : CrBank) (lvl : Level) : Nat → Word
  | 0 => b.status
  | 1 => b.tvec
  | 2 => b.epc
  | 3 => b.cause
  | 4 => b.tval
  | 5 => b.etgt
  | 6 => b.scratch
  | 7 => b.ie
  | 8 => ipRead s t b lvl
  | _ => b.ecmp

/-- STATUS as written: PPL 2 is written as 0 (Table 4-3). -/
def statusWritten (v : Word) : Word := if fieldN v 3 2 = 2 then setField v 3 2 0 else v

/-- Writes register `k` (0–9) of a bank. -/
def bankWrite (b : CrBank) (isM : Bool) (k : Nat) (v : Word) : CrBank :=
  let v := v &&& crMask isM k
  match k with
  | 0 => { b with status := statusWritten v }
  | 1 => { b with tvec := v }
  | 2 => { b with epc := v }
  | 3 => { b with cause := v }
  | 4 => { b with tval := v }
  | 5 => { b with etgt := v }
  | 6 => { b with scratch := v }
  | 7 => { b with ie := v }
  | 8 => { b with ip := v }
  | _ => { b with ecmp := v }

/-- M_XROUTE as written: a route of 3 is taken as 0 (Table 4-6b). -/
def routeWritten (v : Word) : Word :=
  (List.range 18).foldl (fun a i =>
    let f := fieldN v (2 * i + 3) (2 * i + 2)
    setField a (2 * i + 3) (2 * i + 2) (if f = 3 then 0 else f)) 0

/-- The exists, lowest level, secure-only and read-only properties of a control register (Table 4-1). -/
def crKind (n : Nat) : Option (Level × Bool × Bool) :=
  if n = 0 then some (.U, false, false)
  else if n = 1 || n = 2 then some (.U, false, true)
  else if (0x100 ≤ n && n ≤ 0x109) || n = 0x110 || n = 0x111 then some (.S, false, false)
  else if n = 0x200 || n = 0x201 then some (.S, true, false)
  else if n = 0x202 then some (.S, true, true)
  else if 0x300 ≤ n && n ≤ 0x30B then some (.M, false, false)
  else none

/-- The value of a control register of a thread. -/
def crRead (s : State) (t n : Nat) : Word :=
  let x := thr s t
  let k := curS x
  if n = 0 then x.flags
  else if n = 1 then w64 s.epoch
  else if n = 2 then setBit (setField (w64 t) 19 16 ((threadPart s t).getD 0)) 24 (x.world == .secure)
  else if n = 0x110 then k.ptbase
  else if n = 0x111 then k.asid
  else if n = 0x200 then x.wEpc
  else if n = 0x201 then x.wStatus
  else if n = 0x202 then x.wEntry
  else if n = 0x30A then x.xroute
  else if n = 0x30B then x.iroute
  else if n < 0x200 then bankRead s t k .S (n - 0x100)
  else bankRead s t x.m .M (n - 0x300)

/-- Writes a control register of a thread; fields not listed stay zero (R9, R94). -/
def crWrite (s : State) (t n : Nat) (v : Word) : State :=
  updThr s t (fun x =>
    let upS (f : CrBank → CrBank) : Thread := if x.world == .secure then { x with sS := f x.sS } else { x with sN := f x.sN }
    if n = 0 then { x with flags := v &&& 0x1FF }
    else if n = 0x110 then upS (fun b => { b with ptbase := v &&& (maskBits 51 12 ||| 1) })
    else if n = 0x111 then upS (fun b => { b with asid := v &&& 0xFFFF })
    else if n = 0x200 then { x with wEpc := v &&& ~~~ 3#64 }
    else if n = 0x201 then { x with wStatus := statusWritten (v &&& 0xE) }
    else if n = 0x30A then { x with xroute := routeWritten v }
    else if n = 0x30B then { x with iroute := setField 0 7 6 (if fieldN v 7 6 = 3 then 0 else fieldN v 7 6) }
    else if n < 0x200 then upS (fun b => bankWrite b false (n - 0x100) v)
    else { x with m := bankWrite x.m true (n - 0x300) v })

/-- An instruction of the CR group (R94, R128): `upd` is the new value from the old one and ga, none for CRRD. -/
def crOp (sel : Nat) (upd : Option (Word → Word → Word)) (t : BitVec 10) (gd ga : BitVec 6) (cr : BitVec 12) (s : State) :
    Host.Outcome State Fault Refusal :=
  let w := encI 0x3C gd ga (BitVec.ofNat 14 (sel * 4096 + cr.toNat))
  .next (runInstr s t.toNat w false 1 upd.isSome (fun s =>
    let n := cr.toNat
    let x := thr s t.toNat
    let a := rg s t.toNat ga
    match crKind n with
    | none => .trap s 0x08 (iwVal w)
    | some (lvl, sec, ro) =>
      if levelNo x.level < levelNo lvl || (ro && upd.isSome) then .trap s 0x08 (iwVal w)
      else if upd.isSome && isPoisoned a then .trap s 0x05 0
      else if sec && x.world == .normal then .trap s 0x07 (iwVal w)
      else if upd.isSome && isFailed a then .trap s 0x03 (iwVal w)
      else
        let old := crRead s t.toNat n
        let s := match upd with
          | some f => crWrite s t.toNat n (f old a.val)
          | none => s
        .done (wg s t.toNat gd (gen old))))

/-- CRRD (R128). -/
def execCrrd (t : BitVec 10) (gd ga : BitVec 6) (cr : BitVec 12) (s : State) : Host.Outcome State Fault Refusal :=
  crOp 0 none t gd ga cr s
/-- CRWR (R128). -/
def execCrwr (t : BitVec 10) (gd ga : BitVec 6) (cr : BitVec 12) (s : State) : Host.Outcome State Fault Refusal :=
  crOp 1 (some (fun _ a => a)) t gd ga cr s
/-- CRSET (R128). -/
def execCrset (t : BitVec 10) (gd ga : BitVec 6) (cr : BitVec 12) (s : State) : Host.Outcome State Fault Refusal :=
  crOp 2 (some (fun o a => o ||| a)) t gd ga cr s
/-- CRCLR (R128). -/
def execCrclr (t : BitVec 10) (gd ga : BitVec 6) (cr : BitVec 12) (s : State) : Host.Outcome State Fault Refusal :=
  crOp 3 (some (fun o a => o &&& ~~~ a)) t gd ga cr s

/-! ### World calls (R126, R127, R364) -/

/-- The thread's partition may enter the secure world (R70). -/
def secureEntry (s : State) (t : Nat) : Bool :=
  match threadPart s t with
  | some p => (knots s p).part.secureEntry
  | none => false

/-- Entry `n` is registered for the thread's partition: its address (R364). -/
def wcallTarget (s : State) (t n : Nat) : Option Word :=
  let e := getR s .BOWL_ENTRY 0 n
  match threadPart s t with
  | some p => if secureEntry s t && bit e 0 && bit e (48 + p) then some (w64 (fieldN e 37 2 * 4)) else none
  | none => none

/-- The six changes of WCALL (R126). -/
def enterSecure (s : State) (t n : Nat) (target : Word) : State :=
  worldChange s t (fun s => updThr s t (fun x =>
    let ie := if x.level == .M then bit x.m.status 0 else bit x.sN.status 0
    { x with
      wEpc := x.pc + 8
      wStatus := setBit (setField 0 3 2 (levelNo x.level)) 1 ie
      wEntry := w64 n
      world := .secure
      level := .S
      sS := { x.sS with status := setBit x.sS.status 0 false }
      pc := target
      slot := .none
      callStart := some s.epoch }))

/-- WCALL (R126): imm[7:0] is the entry index; ga is reserved. -/
def execWcall (t : BitVec 10) (ga : BitVec 6) (imm : BitVec 14) (s : State) : Host.Outcome State Fault Refusal :=
  let w := encI 0x3B 0 ga imm
  .next (runInstr s t.toNat w true 1 true (fun s =>
    let n := imm.toNat % 256
    if ga ≠ 0 || (thr s t.toNat).level == .U || (thr s t.toNat).world == .secure then .trap s 0x08 (iwVal w)
    else match wcallTarget s t.toNat n with
      | some g => .jump (enterSecure (jumpCount s t.toNat) t.toNat n g)
      | none => .trap s 0x07 (w64 n)))

/-- WRET (R127). -/
def execWret (t : BitVec 10) (ga : BitVec 6) (imm : BitVec 14) (s : State) : Host.Outcome State Fault Refusal :=
  let w := encI 0x3B 1 ga imm
  .next (runInstr s t.toNat w true 1 true (fun s =>
    if ga ≠ 0 || (thr s t.toNat).world == .normal then .trap s 0x08 (iwVal w)
    else .jump (leaveSecure (jumpCount s t.toNat) t.toNat [1, 2, 3, 4])))

/-! ### System instructions -/

/-- SYSCALL (R128). -/
def execSyscall (t : BitVec 10) (gd ga : BitVec 6) (s : State) : Host.Outcome State Fault Refusal :=
  let w := encI 0x3D gd ga 0
  .next (runInstr s t.toNat w true 1 true (fun s =>
    if gd ≠ 0 || ga ≠ 0 then .trap s 0x08 (iwVal w) else .trap s 0x0D 0))

/-- BREAK (R128). -/
def execBreak (t : BitVec 10) (gd ga : BitVec 6) (s : State) : Host.Outcome State Fault Refusal :=
  let w := encI 0x3D gd ga 1
  .next (runInstr s t.toNat w true 1 true (fun s =>
    if gd ≠ 0 || ga ≠ 0 then .trap s 0x08 (iwVal w) else .trap s 0x0E (thr s t.toNat).pc))

/-- RFT.S (R104, R106). -/
def execRftS (t : BitVec 10) (gd ga : BitVec 6) (s : State) : Host.Outcome State Fault Refusal :=
  let w := encI 0x3D gd ga 2
  .next (runInstr s t.toNat w true 1 true (fun s =>
    let x := thr s t.toNat
    if gd ≠ 0 || ga ≠ 0 || x.level == .U then .trap s 0x08 (iwVal w)
    else .jump (trapReturn (jumpCount s t.toNat) t.toNat (if x.world == .secure then .sSecure else .sNormal))))

/-- RFT.M (R104, R106): normal world only. -/
def execRftM (t : BitVec 10) (gd ga : BitVec 6) (s : State) : Host.Outcome State Fault Refusal :=
  let w := encI 0x3D gd ga 3
  .next (runInstr s t.toNat w true 1 true (fun s =>
    let x := thr s t.toNat
    if gd ≠ 0 || ga ≠ 0 || x.level != .M || x.world == .secure then .trap s 0x08 (iwVal w)
    else .jump (trapReturn (jumpCount s t.toNat) t.toNat .m)))

/-- WFI (R128): goes on at once where an interrupt is pending at any level; in the secure world likewise. -/
def execWfi (t : BitVec 10) (gd ga : BitVec 6) (s : State) : Host.Outcome State Fault Refusal :=
  let w := encI 0x3D gd ga 4
  .next (runInstr s t.toNat w true 1 true (fun s =>
    if gd ≠ 0 || ga ≠ 0 || (thr s t.toNat).level == .U then .trap s 0x08 (iwVal w)
    else if anyPending s t.toNat then .done s
    else .park s .wfi none))

/-! ### WAITSLOT and GUARD.TIGHTEN -/

/-- A RELEASE slot of the calendar in force names the thread (R124). -/
def hasRelease (s : State) (t : Nat) : Bool :=
  match threadPart s t with
  | some p => match (knots s p).cal with
    | some c => c.slots.any (fun k => k.act == .release && k.target == t)
    | none => false
  | none => false

/-- WAITSLOT (R124, R294): ga and gb are reserved; it ends a reservation (R116), and a thread that parks has its completion flag
set. -/
def execWaitslot (t : BitVec 10) (gd ga gb : BitVec 6) (fn : BitVec 8) (s : State) : Host.Outcome State Fault Refusal :=
  let w := encR 0x3A gd ga gb fn.toNat
  .next (runInstr s t.toNat w false 1 true (fun s =>
    let x := thr s t.toNat
    if ga ≠ 0 || gb ≠ 0 || x.world == .secure then .trap s 0x08 (iwVal w)
    else if !hasRelease s t.toNat then .trap s 0x12 0
    else match x.latch with
      | some r => .done (wg (updThr s t.toNat (fun x => { x with latch := none, resv := none })) t.toNat gd (gen r))
      | none => .park (updThr s t.toNat (fun x => { x with complete := true, resv := none })) .waitslot (some (.slot gd.toNat))))

/-- GUARD.TIGHTEN (R123): its request goes to the stopper. With a failed operand a refusal comes first (R132), and nothing reaches
the stopper (R144). -/
def execGuardTighten (t : BitVec 10) (gd ga gb : BitVec 6) (fn : BitVec 8) (s : State) : Host.Outcome State Fault Refusal :=
  let w := encR 0x39 gd ga gb fn.toNat
  .next (runInstr s t.toNat w false 1 false (fun s =>
    let a := rg s t.toNat ga
    let b := rg s t.toNat gb
    if fn.toNat ≥ 4 || (thr s t.toNat).level == .U then .trap s 0x08 (iwVal w)
    else match firstPoisoned [(0, a), (1, b)] with
      | some i => .trap s 0x05 (w64 i)
      | none =>
        let o := a.val.toNat % 2 ^ 15
        if a.val.toNat ≥ 2 ^ 15 then .trap s 0x10 (w64 o)
        else if isFailed a || isFailed b then
          if tightenRefused s t.toNat o fn.toNat b.val then .trap s 0x10 (w64 o) else .trap s 0x03 (iwVal w)
        else
          let (p, s) := mkPkt s (threadUnit s t.toNat) (if a.val.toNat < 2 ^ 14 then 80 else 82) 1 0x18 false 1
          .wait { s with tightNet := s.tightNet ++ [{ pkt := p, thread := t.toNat, output := a.val.toNat, fn := fn.toNat, val := b.val, word := iwVal w }] } (.guard gd.toNat)))

end Sys2Proof.Machine
end

