-- ==== Sys2Proof/Machine/Events.lean ====
section
/-! DEFINITION. Events of a thread and of a core: interrupts and deadline traps (R95, R132, R133, R190, R297), store
drain and line fills (R205, R207, R209), and the CORE_ registers with an effect (R164, R174, R178, R188, R193, R202,
R206, R213, R276, R492). -/

namespace Sys2Proof.Machine

/-- The state that an outcome leaves; a stopped outcome leaves `s`. -/
def stateOr (s : State) : Host.Outcome State Fault Refusal → State
  | .next s' => s'
  | _ => s

/-! ### Interrupts and deadline traps -/

/-- INTERRUPT_TAKEN (R133, R190). -/
def execInterruptTaken (t : BitVec 10) (s : State) : Host.Outcome State Fault Refusal := .next (takeInterrupt s t.toNat)

/-- DEADLINE_TRAP (R297). -/
def execDeadlineTrap (t : BitVec 10) (s : State) : Host.Outcome State Fault Refusal := .next (takeDeadline s t.toNat)

/-- EPOCH_COMPARE_MATCH: EPOCH has reached an ECMP of the thread (R95); the interrupt is then pending (R490), and a thread
in WFI goes on (R128); run-ahead ends (R184). -/
def execEpochCompareMatch (t : BitVec 10) (s : State) : Host.Outcome State Fault Refusal :=
  let x := thr s t.toNat
  .next (if ecmpPending s x.m || ecmpPending s x.sN || ecmpPending s x.sS then wfiCheck (runAheadEnd s t.toNat) t.toNat else s)

/-! ### Waiting instructions run again -/

/-- Runs a waiting memory instruction again from its start (R207). -/
def rerun (s : State) (t : Nat) (i : Instr) : State :=
  let s := updThr s t (fun x => { x with wait := some .again })
  stateOr s (match i with
    | .ld t gd ga imm => execLd t gd ga imm s
    | .lw t gd ga imm => execLw t gd ga imm s
    | .lwu t gd ga imm => execLwu t gd ga imm s
    | .lh t gd ga imm => execLh t gd ga imm s
    | .lhu t gd ga imm => execLhu t gd ga imm s
    | .lb t gd ga imm => execLb t gd ga imm s
    | .lbu t gd ga imm => execLbu t gd ga imm s
    | .lda t gd ga imm => execLda t gd ga imm s
    | .sd t gs ga imm => execSd t gs ga imm s
    | .sw t gs ga imm => execSw t gs ga imm s
    | .sh t gs ga imm => execSh t gs ga imm s
    | .sb t gs ga imm => execSb t gs ga imm s
    | .sdr t gs ga imm => execSdr t gs ga imm s
    | .vld t vd ga imm => execVld t vd ga imm s
    | .vst t vd ga imm => execVst t vd ga imm s
    | .ll t gd ga gb aq rl w => execLl t gd ga gb aq rl w s
    | .sc t gd ga gb aq rl w => execSc t gd ga gb aq rl w s
    | .atomSwap t gd ga gb aq rl w => execAtomSwap t gd ga gb aq rl w s
    | .atomAdd t gd ga gb aq rl w => execAtomAdd t gd ga gb aq rl w s
    | .atomAnd t gd ga gb aq rl w => execAtomAnd t gd ga gb aq rl w s
    | .atomOr t gd ga gb aq rl w => execAtomOr t gd ga gb aq rl w s
    | .atomXor t gd ga gb aq rl w => execAtomXor t gd ga gb aq rl w s
    | .atomMax t gd ga gb aq rl w => execAtomMax t gd ga gb aq rl w s
    | .atomMin t gd ga gb aq rl w => execAtomMin t gd ga gb aq rl w s
    | .atomMaxu t gd ga gb aq rl w => execAtomMaxu t gd ga gb aq rl w s
    | .atomMinu t gd ga gb aq rl w => execAtomMinu t gd ga gb aq rl w s
    | .fence t gd ga imm => execFence t gd ga imm s
    | .syncI t gd ga gb => execSyncI t gd ga gb s
    | .xlsync t gd ga gb => execXlsync t gd ga gb s
    | .l1dClean t ga imm => execL1dClean t ga imm s
    | .l1dCleanInvalidate t ga imm => execL1dCleanInvalidate t ga imm s
    | .l1dInvalidate t ga imm => execL1dInvalidate t ga imm s
    | .l2Clean t ga imm => execL2Clean t ga imm s
    | .l2CleanInvalidate t ga imm => execL2CleanInvalidate t ga imm s
    | .llcClean t ga imm => execLlcClean t ga imm s
    | .l1iInvalidate t ga imm => execL1iInvalidate t ga imm s
    | .l1dCleanInvalidateAll t ga imm => execL1dCleanInvalidateAll t ga imm s
    | _ => .next s)

/-- A waiting instruction runs again: `f` says which waits are over. -/
def wakeIf (s : State) (t : Nat) (f : Wait → Bool) : State :=
  match (thr s t).wait with
  | some w =>
    if !f w then s
    else match w with
      | .fill i _ => rerun s t i
      | .own i _ => rerun s t i
      | .drain i => rerun s t i
      | _ => s
  | none => s

/-- The threads of a quad that wait for ownership of a line run their instructions again. -/
def wakeOwners (s : State) (q line : Nat) : State :=
  foldS (fun s t => wakeIf s t (fun w => match w with | .own _ l => l == line | _ => false)) s (quadThreads q)

/-- STORE_DRAIN: the oldest retired store of the thread drains (R209), and an instruction that waits on the store buffer runs
again: it goes on as soon as the stores that hold it back are gone (R114, R187, R211). -/
def execStoreDrain (t : BitVec 10) (s : State) : Host.Outcome State Fault Refusal :=
  .next (wakeIf (drainOne s t.toNat) t.toNat (fun w => match w with | .drain _ => true | _ => false))

/-- The thread's oldest load waits for the line. -/
def fillWaits (x : Thread) (line : Nat) : Bool :=
  match x.wait with
  | some (.fill _ l) => l == line
  | _ => false

/-- Fills the entry for a line in a thread's side buffer: it becomes the youngest of the filled ones. One that was invalidated in
flight and that no load waits for is discarded (R205). -/
def fillSide (x : Thread) (line : Nat) (d : Line) : Thread :=
  match x.side.find? (fun e => e.line == line && !e.filled) with
  | some e =>
    let rest := x.side.erase e
    if e.dead && !fillWaits x line then { x with side := rest }
    else { x with side := rest ++ [{ e with filled := true, data := d }] }
  | none => x

/-- The line of an unfilled side-buffer entry arrives from the quad's L2 (R203, R207), counted as a fill for uncommitted work
(R195); a line that the L2 does not hold is asked for again. -/
def fillEntry (s : State) (t : Nat) (e : SideEntry) : State :=
  match quadData s (t / 16) e.line with
  | (some d, s) =>
    let s := shareLine s (t / 4) e.line
    sideGone (sideUpd (pmcCount s t 0x23 1) t (fun x => fillSide x e.line d)) (t / 16) e.line
  | (none, s) => if (track s (t / 16) e.line).isSome then s else l2Request s (t / 16) e.line false (e.stride || e.spec)

/-- LOAD_FILL: lines arrive at the thread's side buffer, and the waiting load runs again (R207); an entry that was invalidated in
flight is discarded after it (R205). -/
def execLoadFill (t : BitVec 10) (s : State) : Host.Outcome State Fault Refusal :=
  let u := t.toNat
  let s := foldS (fun s (e : SideEntry) => if e.filled then s else fillEntry s u e) s (thr s u).side
  let s := wakeIf s u (fun w => match w with
    | .fill _ line => (thr s u).side.any (fun e => e.line == line && e.filled) || !(thr s u).side.any (fun e => e.line == line)
    | _ => false)
  .next (sideUpd s u (fun x => { x with side := x.side.filter (fun e => !(e.filled && e.dead)) }))

/-- WAIT_TABLE_CLEAR (R188). -/
def execWaitTableClear (c : BitVec 8) (s : State) : Host.Outcome State Fault Refusal :=
  .next (updCore s c.toNat (fun k => { k with waitTable := [] }))

/-! ### CORE_ registers (R194) -/

/-- A requester may read a core's block (R194). -/
def coreReader (s : State) (who : Requester) (c : Nat) : Bool :=
  isBowline who || isMgmt who || (reqPart s who).isSome && reqPart s who == quadPart s (c / 4)

/-- A requester may write a core's block: Cordage only while the quad is in no partition (R194). -/
def coreWriter (s : State) (who : Requester) (c : Nat) : Bool :=
  isBowline who || (isMgmt who && (quadPart s (c / 4)).isNone) || ((reqPart s who).isSome && reqPart s who == quadPart s (c / 4))

/-- Does `f` for a requester that may write the core's block; any other is refused with a notice. -/
def coreWrite (s : State) (who : Requester) (c : Nat) (r : Reg) (i : Nat) (f : State → State) : State :=
  regCmd s ⟨r, c, i, 0⟩ (fun s => if coreWriter s who c then f s else refuseReg s ⟨r, c, i, 0⟩ who)

/-- A write of CORE_CTXID (R178, R179): every write flushes or rekeys, and empties the loop buffer and side buffer. -/
def ctxidWrite (s : State) (t : Nat) (v : Word) : State :=
  sideClear (loopEnd (predFlush s t (fun s => setR s .CORE_CTXID (v &&& 0xFFFFFFFF) (t / 4) (t % 4))) t) t

/-- CORE_CTXID_WRITE (R178). -/
def execCoreCtxidWrite (who : Requester) (t : BitVec 10) (val : Word) (s : State) : Host.Outcome State Fault Refusal :=
  .next (coreWrite s who (t.toNat / 4) .CORE_CTXID (t.toNat % 4) (fun s => ctxidWrite s t.toNat val))

/-- A write of CORE_IPI (R193). -/
def ipiWrite (s : State) (who : Requester) (v : Word) : State :=
  let t := fieldN v 9 0
  match reqPart s who with
  | some p =>
    if threadPart s t == some p then runAheadEnd (updR s .CORE_IRQ_PEND (fun w => setBit w 0 true) (t / 4) (t % 4)) t
    else alm s 0x0014 2 1 t t 0
  | none => alm s 0x0014 2 1 t t 0

/-- CORE_IPI_WRITE (R193): of any core's register. -/
def execCoreIpiWrite (who : Requester) (c : BitVec 8) (val : Word) (s : State) : Host.Outcome State Fault Refusal :=
  .next (regCmd s ⟨.CORE_IPI, c.toNat, 0, 0⟩ (fun s => ipiWrite s who val))

/-- A write of CORE_THSTART: with GO, a HELD thread of a RUNNING partition starts at PC, at M in the normal world with
M_STATUS.IE = 0; any other thread is unaffected. -/
def thstartWrite (s : State) (t : Nat) (v : Word) : State :=
  let running := match threadPart s t with | some p => (prun s p).st == .running | none => false
  if bit v 0 && running && (thr s t).run == .held then
    updThr s t (fun x => { x with run := .run, pc := v &&& ~~~ 3#64, level := .M, world := .normal, slot := .none, wait := none, m := { x.m with status := setBit x.m.status 0 false } })
  else s

/-- CORE_THSTART_GO. -/
def execCoreThstartGo (who : Requester) (t : BitVec 10) (val : Word) (s : State) : Host.Outcome State Fault Refusal :=
  .next (coreWrite s who (t.toNat / 4) .CORE_THSTART (t.toNat % 4) (fun s => thstartWrite s t.toNat val))

/-- A write of CORE_MODE (R206): the replacement state of every L0 of the core is reset, its lines stay. -/
def bootWrite (s : State) (c : Nat) (v : Word) : State :=
  let s := updR s .CORE_MODE (fun w => regWritten .CORE_MODE w v) c
  foldS (fun s t => updThr s t (fun x => { x with l0 := x.l0.map (fun e => (e.1, e.2.map (fun l => { l with age := 3 }))), l0Tree := [0, 0, 0], l0Order := [0, 1, 2] })) s (threadsOf c)

/-- CORE_MODE_BOOT_WRITE (R206). -/
def execCoreModeBootWrite (who : Requester) (c : BitVec 8) (val : Word) (s : State) : Host.Outcome State Fault Refusal :=
  .next (coreWrite s who c.toNat .CORE_MODE 0 (fun s => bootWrite s c.toNat val))

/-- A write of CORE_CTL (R174): a clear of LB_EN ends streaming. -/
def coreCtlWrite (s : State) (c : Nat) (v : Word) : State :=
  let s := updR s .CORE_CTL (fun w => regWritten .CORE_CTL w v) c
  if bit v 1 then s else foldS (fun s t => loopEnd s t) s (threadsOf c)

/-- CORE_CTL_WRITE (R174). -/
def execCoreCtlWrite (who : Requester) (c : BitVec 8) (val : Word) (s : State) : Host.Outcome State Fault Refusal :=
  .next (coreWrite s who c.toNat .CORE_CTL 0 (fun s => coreCtlWrite s c.toNat val))

/-- A write of CORE_L0CTL (R202). -/
def l0ctlWrite (s : State) (t : Nat) (v : Word) : State :=
  let c := t / 4
  let old := getR s .CORE_L0CTL c (t % 4)
  let refused := bit v 0 && !bit old 2
  let s := setR s .CORE_L0CTL (setBit (setBit old 1 (bit v 1)) 0 (bit v 0 && bit old 2)) c (t % 4)
  let s := if refused then alm s 0x0015 2 1 t else s
  if bit v 0 then s else updThr s t l0Empty

/-- CORE_L0CTL_WRITE (R202). -/
def execCoreL0ctlWrite (who : Requester) (t : BitVec 10) (val : Word) (s : State) : Host.Outcome State Fault Refusal :=
  .next (coreWrite s who (t.toNat / 4) .CORE_L0CTL (t.toNat % 4) (fun s => l0ctlWrite s t.toNat val))

/-- A write of CORE_TALLY_INJ (R164): KIND and THREAD only while unlocked; arming has no effect while KIND is 0. -/
def tallyInjWrite (s : State) (c : Nat) (v : Word) : State :=
  let w := regWritten .CORE_TALLY_INJ (getR s .CORE_TALLY_INJ c) v s.boot.injLock
  setR s .CORE_TALLY_INJ (if fieldN w 3 2 = 0 then setBit w 8 (bit (getR s .CORE_TALLY_INJ c) 8) else w) c

/-- TALLY_INJECT_ARM (R164): a write of CORE_TALLY_INJ. -/
def execTallyInjectArm (who : Requester) (c : BitVec 8) (val : Word) (s : State) : Host.Outcome State Fault Refusal :=
  .next (coreWrite s who c.toNat .CORE_TALLY_INJ 0 (fun s => tallyInjWrite s c.toNat val))

/-- The leak interval of a source class has passed since epoch `last` (R276, R489). -/
def leakDue (s : State) (cls last : Nat) : Bool := decide (last + 100000 * (bucketCfg s cls).2 ≤ s.epoch)

/-- BUCKET_LEAK (R213, R276): every LEAK ms a bucket that is not empty falls by one. -/
def execBucketLeak (b : Bucket) (s : State) : Host.Outcome State Fault Refusal :=
  .next (match b with
    | .core q => if leakDue s 2 (quadOf s q.toNat).leakCore then updQuad s q.toNat (fun k => { k with bucketCore := k.bucketCore - 1, leakCore := s.epoch }) else s
    | .l2 q => if leakDue s 3 (quadOf s q.toNat).leakL2 then updQuad s q.toNat (fun k => { k with bucketL2 := k.bucketL2 - 1, leakL2 := s.epoch }) else s
    | .llc n => if leakDue s 4 (sliceOf s n.toNat).leak then updSlice s n.toNat (fun k => { k with bucket := k.bucket - 1, leak := s.epoch }) else s
    | .channel m => if leakDue s 5 (chanOf s m.toNat).leak then updChan s m.toNat (fun k => { k with bucket := k.bucket - 1, leak := s.epoch }) else s)

end Sys2Proof.Machine
end

