-- ==== Sys2Proof/Machine/Calendar.lean ====
section
/-! DEFINITION. The epoch, its alignment, and calendar slots (ch. 11). -/

namespace Sys2Proof.Machine

/-! ### The epoch (R281–R284) -/

/-- RATE as a signed number. -/
def epochRate (s : State) : Int := (BitVec.ofNat 32 (fieldN (getR s .CLK_EPOCH_RATE 0) 31 0)).toInt

/-- Limits a rate adjustment (R282). -/
def clampRate (r : Int) : Int := max (-429497) (min 429497 r)

/-- One EPOCHCLK cycle adds 1 + RATE × 2^−32 to the epoch (R282); slots may act afresh (R289). -/
def epochTick (s : State) : State :=
  let t : Int := (s.epoch : Int) * 4294967296 + (s.epochFrac : Int) + 4294967296 + clampRate (epochRate s)
  let n := t.toNat
  let s := foldS (fun s p => updPrun s p (fun r => { r with acted := 0 })) s (SMap.keys s.partRun)
  { s with epoch := n / 4294967296 % 2 ^ 64, epochFrac := n % 4294967296 }

/-! ### Calendar grids (R289–R292) -/

/-- Cycle number of an epoch value; none before PHASE. -/
def cycleNo (c : Cal) (e : Nat) : Option Nat := if e < c.phase then none else some ((e - c.phase) / c.cycle)

/-- S_k. -/
def cycleStart (c : Cal) (k : Nat) : Nat := c.phase + k * c.cycle

/-- The first cycle start at or after an epoch value. -/
def firstStart (c : Cal) (e : Nat) : Nat := c.phase + (e - c.phase + c.cycle - 1) / c.cycle * c.cycle

/-- The calendar whose EXCHANGE slots act now (R292). -/
def gridCal (s : State) (p : Nat) : Option Cal :=
  match (prun s p).oldCal with
  | some c => if s.epoch < (prun s p).gridFrom then some c else (knots s p).cal
  | none => (knots s p).cal

/-- The epoch from which the grid in use acts. -/
def gridStart (s : State) (p : Nat) : Nat :=
  let r := prun s p
  if r.oldCal.isSome && s.epoch < r.gridFrom then 0 else r.gridFrom

/-- The next time at which slot `i` at offset `off` acts, from cycles that start at or after `start`. -/
def slotNext (s : State) (p : Nat) (c : Cal) (i off start : Nat) : Nat :=
  firstStart c (max start (SMap.get (fun _ => 0) (prun s p).slotLast i - off)) + off

/-- The slot and its time when the time of slot `i` of partition `p` with this action has come (R290). -/
def slotRaw (s : State) (p i : Nat) (act : SlotAct) : Option (Slot × Nat) :=
  let r := prun s p
  let isEx := act == .exchange
  let cal? := if isEx then gridCal s p else (knots s p).cal
  match cal? with
  | none => none
  | some c =>
    match c.slots[i]? with
    | none => none
    | some sl =>
      let t := slotNext s p c i sl.offset (if isEx then gridStart s p else r.calFrom)
      let stopped := r.park == .waiting && decide (r.parkAt ≤ t - sl.offset)
      if sl.act == act && decide (t ≤ s.epoch) && (if isEx then r.st != .absent else r.calRunning && !stopped) then some (sl, t) else none

/-- A slot whose time came before that of slot `i`, which is `t`, or with it and earlier in slot order, has yet to act (R73, R289); an
EXCHANGE slot is waited for only at the same time. -/
def slotBefore (s : State) (p i t : Nat) : Bool :=
  let held (c : Option Cal) (f : Slot × Nat → Nat → Bool) : Bool := match c with
    | some c => c.slots.zipIdx.any (fun e => e.2 ≠ i && (match slotRaw s p e.2 e.1.act with | some (_, u) => f e u | none => false))
    | none => false
  held (knots s p).cal (fun e u => e.1.act != .exchange && (decide (u < t) || (u = t && decide (e.2 < i))))
    || held (gridCal s p) (fun e u => e.1.act == .exchange && u = t && decide (e.2 < i))

/-- The slot and its time when slot `i` of partition `p` with this action acts now: it is due, its turn in slot order has come, and fewer
than 8 slots of the partition have acted in this cycle (R73, R289, R290). -/
def slotDue (s : State) (p i : Nat) (act : SlotAct) : Option (Slot × Nat) :=
  match slotRaw s p i act with
  | some (sl, t) => if (prun s p).acted < 8 && !slotBefore s p i t then some (sl, t) else none
  | none => none

/-- Slot `i` has acted at `t`. -/
def slotActed (s : State) (p i t : Nat) : State :=
  updPrun s p (fun r => { r with slotLast := SMap.set (fun _ => 0) r.slotLast i (t + 1), acted := r.acted + 1 })

/-! ### Releases and deadlines (R293, R296) -/

/-- A core leaves IDLE_GATE (R448). -/
def ungate (s : State) (c : Nat) : State := updCore s c (fun x => { x with gated := false })

/-- The release of slot `i`, due at `due`, reaches thread `t` (R293). -/
def releaseThread (s : State) (p i t due : Nat) : State :=
  let s := ungate s (t / 4)
  let x := thr s t
  match x.run, x.wait with
  | .waitslot, some (.slot gd) =>
    let s := wg s t (BitVec.ofNat 6 gd) (gen (w64 due))
    updThr (applyAct t 1 true (.done s)) t (fun x => { x with run := .run, complete := false })
  | _, _ =>
    let s' := updThr s t (fun x => { x with latch := some (w64 due), complete := false })
    if x.latch.isSome then
      alm (updR s' .CLK_CAL_MISS (fun w => satInc w 31 16) 0 p) 0x4011 3 1 t i (lo32 due) (hi32 due)
    else s'

/-- SLOT_RELEASE (R293). -/
def execSlotRelease (p : BitVec 4) (i : BitVec 12) (s : State) : Host.Outcome State Fault Refusal :=
  .next (match slotDue s p.toNat i.toNat .release with
    | none => s
    | some (sl, t) =>
      releaseThread (slotActed s p.toNat i.toNat t) p.toNat i.toNat sl.target t)

/-- A missed deadline of slot `i` due at `t` (R296). -/
def deadlineMiss (s : State) (p i th t : Nat) : State :=
  let s := ungate s (th / 4)
  let s := updThr s th (fun x => { x with pend06 := some (x.pend06.getD i), runAhead := false })
  let s := updR s .CLK_CAL_MISS (fun w =>
    let w := satInc w 47 32
    if bit w 63 then w else setBit (setField (setField w 57 48 th) 11 0 i) 63 true) 0 p
  wfiCheck (alm s 0x4010 4 1 th i (lo32 t) (hi32 t)) th

/-- SLOT_DEADLINE (R296). -/
def execSlotDeadline (p : BitVec 4) (i : BitVec 12) (s : State) : Host.Outcome State Fault Refusal :=
  .next (match slotDue s p.toNat i.toNat .deadline with
    | none => s
    | some (sl, t) =>
      let s := slotActed s p.toNat i.toNat t
      if (thr s sl.target).complete then s else deadlineMiss s p.toNat i.toNat sl.target t)

/-- The cycle start at which the calendar starts running (R291). -/
def calStartAt (s : State) (p : Nat) (c : Cal) : Nat := firstStart c (max ((prun s p).runAt + 100) (prun s p).gridFrom)

/-- CALENDAR_START_RUNNING (R291). -/
def execCalendarStartRunning (p : BitVec 4) (s : State) : Host.Outcome State Fault Refusal :=
  .next (match (knots s p.toNat).cal with
    | none => s
    | some c =>
      let r := prun s p.toNat
      if r.st == .running && r.park == .none && !r.calRunning && decide (calStartAt s p.toNat c ≤ s.epoch) then
        updPrun s p.toNat (fun r => { r with calRunning := true, calFrom := calStartAt s p.toNat c })
      else s)

/-! ### Power domains (Table 19-2) -/

/-- STATE of a power domain (PWR_DOM_STS). -/
def domState (s : State) (d : Nat) : Nat := fieldN (getR s .PWR_DOM_STS 0 d) 2 0

/-- The domain is on and its clock runs, or the core is gated. -/
def domOn (s : State) (d : Nat) : Bool := domState s d == 1 || domState s d == 3

/-! ### The time source (R285) -/

/-- STATE of a Hawser port (HAWS_STS). -/
def hawsState (s : State) (k : Nat) : Nat := fieldN (getR s .HAWS_STS k) 2 0

/-- The source that R285 chooses: 0 none, 1 TIME inputs, 2 Hawser with its port. -/
def chooseSource (s : State) : Nat × Nat :=
  match (List.range 4).find? (fun k => (s.rig.dev.hawser.getD k {}).epochSource && hawsState s k == 3) with
  | some k => (2, k)
  | none => if bit (getR s .CLK_EPOCH_CTL 0) 0 then (1, 0) else (0, 0)

/-- Re-evaluates the source: the TIME inputs start afresh when they become the source (R286). -/
def evalSource (s : State) : State :=
  let (src, port) := chooseSource s
  let w := getR s .CLK_EPOCH_STS 0
  let s := if src = 1 && fieldN w 9 8 ≠ 1 then { s with time := { s.time with lastEdge := none } } else s
  setR s .CLK_EPOCH_STS (setField (setField w 11 10 port) 9 8 src) 0

/-- Some partition's calendar is running. -/
def anyCalRunning (s : State) : Bool := (List.range 16).any (fun p => (prun s p).calRunning)

/-! ### Steps and slews (R287, R288) -/

/-- Moves the epoch by `d` ns, with the stamps of the alignment: every grid goes on at its first cycle start at or after the new epoch, and the step is
counted and recorded (R287). -/
def epochStep (s : State) (d : Int) : State :=
  let now : Int := (s.epoch : Int) * 10 + d
  let e := (now / 10).toNat % 2 ^ 64
  let s := { s with epoch := e, epochFrac := ((now % 10).toNat * 4294967296) / 10, time := { s.time with lastEdge := s.time.lastEdge.map (fun x => ((x : Int) + d).toNat), lastMark := (((s.time.lastMark : Int) * 10 + d) / 10).toNat, tod := s.time.tod.map (fun m => { m with ended := (((m.ended : Int) * 10 + d) / 10).toNat }) } }
  let s := foldS (fun s p =>
    match (knots s p).cal with
    | some c => updPrun s p (fun r => { r with calFrom := firstStart c e, gridFrom := firstStart c e, oldCal := none, slotLast := [] })
    | none => s) s (partIds s)
  let moved (t : Nat) : Nat := (((t : Int) * 10 + d) / 10).toNat
  let s := foldS (fun s p => updPrun s p (fun r => { r with runAt := moved r.runAt, drainAt := moved r.drainAt })) s (SMap.keys s.partRun)
  let s := foldS (fun s l => updPort s l (fun x => { x with lastT := 0 })) s (SMap.keys s.ports)
  let s := updR s .CLK_EPOCH_STS (fun w => satInc w 63 48) 0
  alm s 0x4012 2 0 0 (BitVec.ofInt 32 d).toNat

/-- Saturates a phase error to 16 bits. -/
def satErr (e : Int) : Nat := (BitVec.ofInt 16 (max (-32767) (min 32767 e))).toNat

/-- Alignment state after an accepted mark (Table 11-2). -/
def markState (s : State) (e : Int) : State :=
  let st := fieldN (getR s .CLK_EPOCH_STS 0) 2 0
  let n := if e.natAbs ≤ 100 then s.time.good + 1 else 0
  let st1 := if st = 0 || st = 3 || (st = 2 && decide (1000 < e.natAbs)) then 1 else st
  let st2 := if 3 ≤ n then 2 else st1
  let s := { s with time := { s.time with good := min n 3, lastMark := s.epoch, marked := true } }
  let s := updR s .CLK_EPOCH_STS (fun w => setField w 2 0 st2) 0
  if st2 = 2 && st ≠ 2 then alm s 0x4014 2 0 0 (fieldN (getR s .CLK_EPOCH_STS 0) 9 8) else s

/-- An accepted mark with phase error `e` ns (the source's time less the epoch: DEDUCED from R439, log 50); marks
follow each other after `interval` ns. -/
def acceptMark (s : State) (e : Int) (interval : Nat) : State :=
  let armed := bit (getR s .CLK_EPOCH_CTL 0) 1
  let big := decide (1000 ≤ e.natAbs)
  let wanted := armed || (!s.time.marked && big)
  let can := big && wanted && !anyCalRunning s
  let s := updR s .CLK_EPOCH_STS (fun w => setField w 47 32 (satErr e)) 0
  let s := updR s .CLK_EPOCH_CTL (fun w => setBit w 1 false) 0
  let s := markState s e
  if can then epochStep s e
  else
    let s := if wanted then alm s 0x4013 2 0 0 else s
    setR s .CLK_EPOCH_RATE (w64 (BitVec.ofInt 32 (clampRate (e * 4294967296 / (interval : Int)))).toNat) 0

/-- ALIGNMENT_HOLDOVER (R288): due after 3 s without an accepted mark. -/
def execAlignmentHoldover (s : State) : Host.Outcome State Fault Refusal :=
  .next (let st := fieldN (getR s .CLK_EPOCH_STS 0) 2 0
    if (st = 1 || st = 2) && decide (s.time.lastMark + 300000000 ≤ s.epoch) then
      alm { updR s .CLK_EPOCH_STS (fun w => setField w 2 0 3) 0 with time := { s.time with good := 0 } } 0x4015 3 0 0 (fieldN (getR s .CLK_EPOCH_STS 0) 9 8)
    else s)

/-! ### TIME inputs (R286) -/

/-- Decimal digits at the front of a byte list: their number, their value and the rest. -/
def takeDigits : List Byte → Nat → Nat → Nat × Nat × List Byte
  | [], n, v => (n, v, [])
  | b :: r, n, v => if 0x30 ≤ b.toNat && b.toNat ≤ 0x39 then takeDigits r (n + 1) (v * 10 + (b.toNat - 0x30)) else (n, v, b :: r)

/-- The value of an upper-case hexadecimal digit. -/
def hexUp (b : Byte) : Option Nat :=
  if 0x30 ≤ b.toNat && b.toNat ≤ 0x39 then some (b.toNat - 0x30)
  else if 0x41 ≤ b.toNat && b.toNat ≤ 0x46 then some (b.toNat - 0x37) else none

/-- Reads a TOD line (Table 11-1): seconds, offset, quality, and whether the checksum is valid. -/
def parseTod (l : List Byte) : Option (Nat × Nat × Nat × Bool) :=
  if l.take 5 != [0x4B, 0x54, 0x4F, 0x44, 0x2C] then none
  else
    let (n1, sec, r) := takeDigits (l.drop 5) 0 0
    if n1 = 0 || n1 > 12 || r.head? != some 0x2C then none
    else
      let (n2, off, r) := takeDigits (r.drop 1) 0 0
      if n2 = 0 || n2 > 3 || r.head? != some 0x2C then none
      else match r.drop 1 with
        | [q, star, h, lo, cr, lf] =>
          match hexUp h, hexUp lo with
          | some a, some b =>
            if 0x30 ≤ q.toNat && q.toNat ≤ 0x33 && star == 0x2A && cr == 0x0D && lf == 0x0A then
              some (sec, off, q.toNat - 0x30, ((l.take (l.length - 5)).foldl (fun x y => x ^^^ y) 0).toNat == 16 * a + b)
            else none
          | _, _ => none
        | _ => none

/-- TOD_MESSAGE (R286): a line that matches the form names the next edge; any other is discarded. -/
def execTodMessage (line : List (BitVec 8)) (s : State) : Host.Outcome State Fault Refusal :=
  .next (match parseTod line with
    | some (sec, off, q, ok) => { s with time := { s.time with tod := some { sec := sec, off := off, q := q, ended := s.epoch, ok := ok } } }
    | none => s)

/-- An edge forms an accepted mark with its message (R286); `stamp` is in ns. -/
def markAccepted (s : State) (m : TodMsg) (stamp : Nat) : Bool :=
  m.ok && m.q < 2 && decide (m.ended * 10 + 10000000 ≤ stamp) && (match s.time.lastEdge with
    | none => true
    | some e => decide (e + 999900000 ≤ stamp) && decide (stamp ≤ e + 1000100000))

/-- TIME_1PPS_EDGE (R286, R287): `ns` is the stamp's position within the current tick. An edge while the TIME inputs are not the source
uses up the message that named it. -/
def execTime1ppsEdge (ns : BitVec 4) (s : State) : Host.Outcome State Fault Refusal :=
  if ns.toNat ≥ 10 then .fault .noSuchUnit
  else .next (
    if fieldN (getR s .CLK_EPOCH_STS 0) 9 8 ≠ 1 then { s with time := { s.time with tod := none } }
    else
      let stamp := s.epoch * 10 + ns.toNat
      let s' := { s with time := { s.time with lastEdge := some stamp, tod := none } }
      match s.time.tod with
      | some m =>
        if markAccepted s m stamp then
          let delay := (BitVec.ofNat 16 (fieldN (getR s .CLK_EPOCH_CTL 0) 47 32)).toInt
          let s' := setR s' .CLK_TOD_LAST (setField (setField (setField 0 63 62 m.q) 57 48 m.off) 39 0 m.sec) 0
          acceptMark s' ((m.sec : Int) * 1000000000 + delay - (stamp : Int)) 1000000000
        else s'
      | none => s')

/-! ### CLK_EPOCH_CTL (R301) -/

/-- A requester may write CLK_EPOCH_CTL. -/
def clkWriter (who : Requester) : Bool := isMgmt who || isBowline who

/-- A write of CLK_EPOCH_CTL. -/
def epochCtlWrite (s : State) (who : Requester) (v : Word) : State :=
  if clkWriter who then evalSource (updR s .CLK_EPOCH_CTL (fun w => regWritten .CLK_EPOCH_CTL w v) 0)
  else refuseReg s ⟨.CLK_EPOCH_CTL, 0, 0, 0⟩ who

/-- EPOCH_STEP_ARM: a write of 1 to STEP, the other fields as they stand (R287). -/
def execEpochStepArm (who : Requester) (s : State) : Host.Outcome State Fault Refusal :=
  .next (regCmd s ⟨.CLK_EPOCH_CTL, 0, 0, 0⟩ (fun s => epochCtlWrite s who (setBit (getR s .CLK_EPOCH_CTL 0) 1 true)))

/-- TIME_SOURCE_ENABLE: a write of TIME_EN, the other fields as they stand (R285). -/
def execTimeSourceEnable (who : Requester) (en : Bool) (s : State) : Host.Outcome State Fault Refusal :=
  .next (regCmd s ⟨.CLK_EPOCH_CTL, 0, 0, 0⟩ (fun s =>
    epochCtlWrite s who (setBit (setBit (getR s .CLK_EPOCH_CTL 0) 1 false) 0 en)))

end Sys2Proof.Machine
end

