-- ==== Sys2Proof/Machine/Crypto.lean ====
section
/-! DEFINITION. SHA-384 (FIPS 180-4) and ECDSA verification on P-384 (FIPS 186), which R62 and R384 name. -/

namespace Sys2Proof.Machine

/-! ### SHA-384 -/

/-- Round constants of SHA-512/384 (FIPS 180-4), part 1. -/
def shaK0 : List Nat := [
  0x428A2F98D728AE22, 0x7137449123EF65CD, 0xB5C0FBCFEC4D3B2F, 0xE9B5DBA58189DBBC, 0x3956C25BF348B538,
  0x59F111F1B605D019, 0x923F82A4AF194F9B, 0xAB1C5ED5DA6D8118, 0xD807AA98A3030242, 0x12835B0145706FBE,
  0x243185BE4EE4B28C, 0x550C7DC3D5FFB4E2, 0x72BE5D74F27B896F, 0x80DEB1FE3B1696B1, 0x9BDC06A725C71235,
  0xC19BF174CF692694, 0xE49B69C19EF14AD2, 0xEFBE4786384F25E3, 0x0FC19DC68B8CD5B5, 0x240CA1CC77AC9C65]

/-- Round constants of SHA-512/384 (FIPS 180-4), part 2. -/
def shaK1 : List Nat := [
  0x2DE92C6F592B0275, 0x4A7484AA6EA6E483, 0x5CB0A9DCBD41FBD4, 0x76F988DA831153B5, 0x983E5152EE66DFAB,
  0xA831C66D2DB43210, 0xB00327C898FB213F, 0xBF597FC7BEEF0EE4, 0xC6E00BF33DA88FC2, 0xD5A79147930AA725,
  0x06CA6351E003826F, 0x142929670A0E6E70, 0x27B70A8546D22FFC, 0x2E1B21385C26C926, 0x4D2C6DFC5AC42AED,
  0x53380D139D95B3DF, 0x650A73548BAF63DE, 0x766A0ABB3C77B2A8, 0x81C2C92E47EDAEE6, 0x92722C851482353B]

/-- Round constants of SHA-512/384 (FIPS 180-4), part 3. -/
def shaK2 : List Nat := [
  0xA2BFE8A14CF10364, 0xA81A664BBC423001, 0xC24B8B70D0F89791, 0xC76C51A30654BE30, 0xD192E819D6EF5218,
  0xD69906245565A910, 0xF40E35855771202A, 0x106AA07032BBD1B8, 0x19A4C116B8D2D0C8, 0x1E376C085141AB53,
  0x2748774CDF8EEB99, 0x34B0BCB5E19B48A8, 0x391C0CB3C5C95A63, 0x4ED8AA4AE3418ACB, 0x5B9CCA4F7763E373,
  0x682E6FF3D6B2B8A3, 0x748F82EE5DEFB2FC, 0x78A5636F43172F60, 0x84C87814A1F0AB72, 0x8CC702081A6439EC]

/-- Round constants of SHA-512/384 (FIPS 180-4), part 4. -/
def shaK3 : List Nat := [
  0x90BEFFFA23631E28, 0xA4506CEBDE82BDE9, 0xBEF9A3F7B2C67915, 0xC67178F2E372532B, 0xCA273ECEEA26619C,
  0xD186B8C721C0C207, 0xEADA7DD6CDE0EB1E, 0xF57D4F7FEE6ED178, 0x06F067AA72176FBA, 0x0A637DC5A2C898A6,
  0x113F9804BEF90DAE, 0x1B710B35131C471B, 0x28DB77F523047D84, 0x32CAAB7B40C72493, 0x3C9EBE0A15C9BEBC,
  0x431D67C49C100D4C, 0x4CC5D4BECB3E42B6, 0x597F299CFC657E2A, 0x5FCB6FAB3AD6FAEC, 0x6C44198C4A475817]

/-- The 80 round constants. -/
def shaK : List Nat := shaK0 ++ shaK1 ++ shaK2 ++ shaK3

/-- The initial hash value of SHA-384. -/
def shaInit : List Nat := [
  0xCBBB9D5DC1059ED8, 0x629A292A367CD507, 0x9159015A3070DD17, 0x152FECD8F70E5939, 0x67332667FFC00B31,
  0x8EB44A8768581511, 0xDB0C2E0D64F98FA7, 0x47B5481DBEFA4FA4]

/-- Addition modulo 2^64. -/
def add64 (a b : Nat) : Nat := (a + b) % 2 ^ 64
/-- Rotation right of 64 bits. -/
def ror64 (a n : Nat) : Nat := a / 2 ^ n + (a % 2 ^ n) * 2 ^ (64 - n)
/-- Exclusive or of three words. -/
def xor3 (a b c : Nat) : Nat := Nat.xor (Nat.xor a b) c

/-- The message schedule of a block, newest word first. -/
def shaSchedule (block : List Nat) : List Nat :=
  let rec go : Nat → List Nat → List Nat
    | 0, w => w
    | n + 1, w =>
      let a := w.getD 14 0
      let b := w.getD 1 0
      let s0 := xor3 (ror64 a 1) (ror64 a 8) (a / 2 ^ 7)
      let s1 := xor3 (ror64 b 19) (ror64 b 61) (b / 2 ^ 6)
      go n (add64 (add64 s1 (w.getD 6 0)) (add64 s0 (w.getD 15 0)) :: w)
  (go 64 block.reverse).reverse

/-- One round: the eight working variables a … h. -/
def shaRound (v : List Nat) (kw : Nat × Nat) : List Nat :=
  match v with
  | [a, b, c, d, e, f, g, h] =>
    let s1 := xor3 (ror64 e 14) (ror64 e 18) (ror64 e 41)
    let ch := Nat.xor (Nat.land e f) (Nat.land (2 ^ 64 - 1 - e) g)
    let t1 := add64 (add64 (add64 h s1) (add64 ch kw.1)) kw.2
    let s0 := xor3 (ror64 a 28) (ror64 a 34) (ror64 a 39)
    let maj := xor3 (Nat.land a b) (Nat.land a c) (Nat.land b c)
    [add64 t1 (add64 s0 maj), a, b, c, add64 d t1, e, f, g]
  | v => v

/-- One block of 128 bytes. -/
def shaBlock (h : List Nat) (bytes : List Byte) : List Nat :=
  let w := shaSchedule ((List.range 16).map (fun i => beNat (slice bytes (8 * i) 8)))
  let v := (shaK.zip w).foldl shaRound h
  (h.zip v).map (fun x => add64 x.1 x.2)

/-- The padded message. -/
def shaPad (l : List Byte) : List Byte :=
  let z := (239 - l.length % 128) % 128
  l ++ [0x80] ++ List.replicate z 0 ++ beBytes 16 (8 * l.length)

/-- SHA-384 as a number, its first byte the most significant. -/
def sha384 (l : List Byte) : Nat :=
  let m := shaPad l
  let h := (List.range (m.length / 128)).foldl (fun h i => shaBlock h ((m.drop (128 * i)).take 128)) shaInit
  beNat ((h.take 6).flatMap (beBytes 8))

/-! ### P-384 -/

/-- The field prime. -/
def p384 : Nat := 2 ^ 384 - 2 ^ 128 - 2 ^ 96 + 2 ^ 32 - 1
/-- The group order. -/
def n384 : Nat := 0xFFFFFFFFFFFFFFFFFFFFFFFFFFFFFFFFFFFFFFFFFFFFFFFFC7634D81F4372DDF581A0DB248B0A77AECEC196ACCC52973
/-- The curve coefficient b; a is −3. -/
def b384 : Nat := 0xB3312FA7E23EE7E4988E056BE3F82D19181D9C6EFE8141120314088F5013875AC656398D8A2ED19D2A85C8EDD3EC2AEF
/-- The base point. -/
def g384 : Nat × Nat :=
  (0xAA87CA22BE8B05378EB1C71EF320AD746E1D3B628BA79B9859F741E082542A385502F25DBF55296C3A545E3872760AB7,
    0x3617DE4A96262C6F5D9E98BF9292DC29F8F41DBD289A147CE9DA3113B5F0B8C00A60B1CE1D7E819D7A431D7C90EA0E5F)

/-- a^e mod m, over the low `bits` bits of e. -/
def powMod (m a e : Nat) : Nat → Nat
  | 0 => 1 % m
  | bits + 1 =>
    let r := powMod m (a * a % m) (e / 2) bits
    if e % 2 = 1 then r * a % m else r

/-- The inverse of a modulo the prime m. -/
def invMod (m a : Nat) : Nat := powMod m (a % m) (m - 2) 384

/-- A point of the curve; none is the point at infinity. -/
abbrev EcPoint := Option (Nat × Nat)

/-- The coordinates lie on the curve. -/
def onCurve (x y : Nat) : Bool :=
  decide (x < p384) && decide (y < p384) && decide (y * y % p384 = (x * x * x + (p384 - 3) * x + b384) % p384)

/-- The chord or tangent through two points, with slope `l`. -/
def ecChord (l : Nat) (a b : Nat × Nat) : EcPoint :=
  let x := (l * l + (p384 - a.1) + (p384 - b.1)) % p384
  some (x, (l * (a.1 + (p384 - x)) + (p384 - a.2)) % p384)

/-- Addition of points. -/
def ecAdd : EcPoint → EcPoint → EcPoint
  | none, b => b
  | a, none => a
  | some a, some b =>
    if a.1 = b.1 then
      if (a.2 + b.2) % p384 = 0 then none
      else ecChord ((3 * a.1 * a.1 + (p384 - 3)) % p384 * invMod p384 (2 * a.2) % p384) a b
    else ecChord ((b.2 + (p384 - a.2)) % p384 * invMod p384 (b.1 + (p384 - a.1)) % p384) a b

/-- k times a point, over the low `bits` bits of k. -/
def ecMul (p : EcPoint) (k : Nat) : Nat → EcPoint
  | 0 => none
  | bits + 1 =>
    let r := ecMul (ecAdd p p) (k / 2) bits
    if k % 2 = 1 then ecAdd p r else r

/-- Verifies an ECDSA P-384 signature, r then s, big-endian, over the SHA-384 of a message (R384). -/
def ecdsaVerify (x y : Nat) (msg sig : List Byte) : Bool :=
  let r := beNat (slice sig 0 48)
  let t := beNat (slice sig 48 48)
  if !onCurve x y || r = 0 || t = 0 || n384 ≤ r || n384 ≤ t then false
  else
    let w := invMod n384 t
    let u1 := sha384 msg * w % n384
    let u2 := r * w % n384
    match ecAdd (ecMul (some g384) u1 384) (ecMul (some (x, y)) u2 384) with
    | some q => q.1 % n384 = r
    | none => false

end Sys2Proof.Machine
end

