-- ==== Sys2Proof/Machine/PointStore.lean ====
section
/-! DEFINITION. The Point Store engines and the notification unit (ch. 14): entries, operations, repairs, notification
and the commands of PST_CMD. -/

namespace Sys2Proof.Machine

/-- Counts an event of PST_ENG_CNT[h][n]. -/
def engCount (s : State) (h n : Nat) : State :=
  updR s .PST_ENG_CNT cnt48 0 h n

/-- The entry stands in its slice. -/
def ptCached (s : State) (p : Nat) : Bool := (llc s (ptHome p) (ptLine s p)).isSome

/-- Fetches the entry into its slice (R357, R210). -/
def ptLoad (s : State) (p : Nat) : State :=
  if ptCached s p then s
  else
    let (d, _, s) := memReadLine s (ptLine s p)
    engCount (llcAlloc s (ptHome p) (ptLine s p) d false) (ptHome p) 1

/-- The entry as its slice holds it. -/
def ptGet (s : State) (p : Nat) : Line :=
  match llc s (ptHome p) (ptLine s p) with
  | some x => x.data
  | none => pointLine s p

/-- Replaces the entry in its slice. -/
def ptPut (s : State) (p : Nat) (d : Line) : State :=
  match llc s (ptHome p) (ptLine s p) with
  | some x => setLlc s (ptHome p) (ptLine s p) (some { x with data := d, dirty := true })
  | none => llcAlloc s (ptHome p) (ptLine s p) d true

/-! ### Repairs (R356, Table 14-5) -/

/-- A word is failed or poisoned. -/
def badWord (w : TWord) : Bool := isFailed w || isPoisoned w

/-- Counts and records one repair. -/
def ptRepairNote (s : State) (p word : Nat) : State :=
  let s := engCount (alm s 0x7010 4 9 (ptHome p) p word) (ptHome p) 3
  updR s .PST_ERR (fun w =>
    let w := satInc w 47 32
    if bit w 63 then w else setBit (setField (setField w 26 24 word) 23 0 p) 63 true) 0

/-- The outcome of Table 14-5 for words 1 and 2. -/
def repair12 (s : State) (d : Line) : Line :=
  ((d.set 1 (gen 0)).set 2 (gen (setField 0 63 32 (s.epoch % 2 ^ 32)))).set 0 (poison (lineWord d 0).val)

/-- Bumps a group's LOST count and marks its next record. -/
def groupLost (s : State) (g : Nat) : State :=
  let s := updR s .PST_NQ_IDX (fun w => satInc w 63 32) 0 g
  { s with ps := { s.ps with lost := SMap.set (fun _ => false) s.ps.lost g true } }

/-- The outcome of Table 14-5 for words 6 and 7: both are rebuilt (DEDUCED, log 41). -/
def repair67 (s : State) (p : Nat) (d : Line) : Line × State :=
  let g := fieldN (lineWord d 6).val 63 48
  let s := if g < 4096 then groupLost s g else s
  (((d.set 6 (gen (rigWord6 s p))).set 7 (gen (rigWord7 s p))).set 4 (gen 0), s)

/-- The engine reads the entry's line from its slice, which resolves the errors stored with it (R212, Table 7-3). -/
def ptRead (s : State) (p : Nat) : State :=
  match llc s (ptHome p) (ptLine s p) with
  | some x => (llcHit s (ptHome p) (ptLine s p) x).2.2
  | none => s

/-- The checks that an engine makes at each operation (R356): the entry as repaired. -/
def ptCheck (s : State) (p : Nat) : State :=
  let s := ptRead s p
  let d0 := ptGet s p
  let w (i : Nat) := lineWord d0 i
  let d := d0
  let (d, s) := if badWord (w 1) || badWord (w 2) then
      (repair12 s d, foldS (fun s i => if badWord (w i) then ptRepairNote s p i else s) s [1, 2]) else (d, s)
  let (d, s) := if isFailed (w 3) then (d.set 3 (poison (w 3).val), ptRepairNote s p 3) else (d, s)
  let (d, s) := if badWord (w 4) then (d.set 4 (gen 0), ptRepairNote s p 4) else (d, s)
  let (d, s) := if isFailed (w 5) then (d.set 5 (lineWord d 0), ptRepairNote s p 5) else (d, s)
  let (d, s) := if badWord (w 6) || badWord (w 7) then
      let (d, s) := repair67 s p d
      (d, foldS (fun s i => if badWord (w i) then ptRepairNote s p i else s) s [6, 7]) else (d, s)
  if d == d0 then s else ptPut s p d

/-! ### Writes and notification (R348, R351) -/

/-- |a − b| > deadband in FORMAT (R351, R330). -/
def beyondBand (fmt : Bool) (a b band : Word) : Bool :=
  if fmt then
    isNaN a || isNaN b || (fCompare (setBit (fSub 0 a b).1 63 false) band == some .gt)
  else decide ((a.toInt - b.toInt).natAbs > band.toInt.natAbs)

/-- The notification of an entry as it stands. -/
def ptNote (s : State) (p : Nat) (d : Line) : State :=
  let w2 := (lineWord d 2).val
  let n : Note := { group := fieldN (lineWord d 6).val 63 48, point := p, seq := fieldN w2 63 32, val := lineWord d 0, epoch := (lineWord d 1).val, writer := fieldN w2 15 0, quality := fieldN w2 31 16 }
  { s with ps := { s.ps with notes := s.ps.notes ++ [n] } }

/-- The notification test of R351 after a write: the entry with NOTIFIED brought up to date, and the notification. -/
def ptNotify (s : State) (p : Nat) (d : Line) (qChanged : Bool) : State :=
  let w6 := (lineWord d 6).val
  let v := lineWord d 0
  let n := lineWord d 5
  if fieldN w6 63 48 ≠ 0xFFFF && (badWord v || badWord n || qChanged || beyondBand (bit w6 38) v.val n.val (lineWord d 4).val) then
    ptNote (ptPut s p (d.set 5 v)) p d
  else ptPut s p d

/-- The primary's port that mirrors (R350). -/
def mirrorPorts (s : State) : List Nat :=
  (List.range 4).filter (fun k => let r := s.rig.dev.hawser.getD k {}; r.role = 1 && r.mirror)

/-- `n` mirrored writes of port `k` are lost (R440): counted, MIRROR_GAP set, and an error recorded once per epoch
second. -/
def mirrorLost (s : State) (k n : Nat) : State :=
  if n = 0 then s
  else
    let s := updR s .HAWS_CNT (fun w => satAdd w 31 0 n) k 5
    let s := updR s .HAWS_STS (fun w => setBit w 20 true) k
    let sec := s.epoch / 100000000
    if (hawsOf s k).gapSecond = sec + 1 then s
    else alm (updHaws s k (fun h => { h with gapSecond := sec + 1 })) 0xB012 4 13 k n

/-- Puts a write into the mirror queue of every mirroring port (R350, R440): it is lost where the link is not UP or the
queue of 4,096 is full. -/
def mirrorSend (s : State) (p : Nat) (d : Line) : State :=
  let m : MirrorMsg := { point := p, val := lineWord d 0, epoch := (lineWord d 1).val, word2 := (lineWord d 2).val }
  foldS (fun s k =>
    let sts := getR s .HAWS_STS k
    if fieldN sts 2 0 ≠ 3 then mirrorLost s k 1
    else if !bit sts 19 then s
    else if (hawsOf s k).mirrorQ.length ≥ 4096 then mirrorLost s k 1
    else updHaws s k (fun h => { h with mirrorQ := h.mirrorQ ++ [m] })) s (mirrorPorts s)

/-- What a write stamps (R348). -/
structure Stamp where
  writer : Nat
  epoch : Option Word := none
  quality : Option Nat := none
  seq : Option Nat := none
  mirror : Bool := false
  deriving DecidableEq, Repr

/-- A write (R348) of an entry that is in its slice and has been checked; `genFail` says that the generators disagreed
twice. Answers the new SEQ. -/
def ptWrite (s : State) (p : Nat) (v : TWord) (st : Stamp) (genFail : Bool) : Nat × State :=
  let d := ptGet s p
  let w2 := (lineWord d 2).val
  let seq := st.seq.getD ((fieldN w2 63 32 + 1) % 2 ^ 32)
  let q := st.quality.getD (fieldN w2 31 16)
  let v' := if genFail then poison v.val else v
  let s := if genFail then alm s 0x7011 4 9 (ptHome p) p else s
  let ep := st.epoch.getD (w64 s.epoch)
  let d := d.set 3 (lineWord d 0)
  let d := d.set 0 v'
  let d := d.set 1 (gen ep)
  let d := d.set 2 (gen (setField (setField (setField 0 63 32 seq) 31 16 q) 15 0 st.writer))
  let d := d.set 6 (gen (setBit (lineWord d 6).val 37 st.mirror))
  let s := if st.mirror then s else mirrorSend s p d
  (seq, ptNotify s p d (q != fieldN w2 31 16))

/-! ### Thread operations -/

/-- Performs a thread's operation on the entry (R119, R347–R349). -/
def ptThreadOp (s : State) (m : PsMsg) (genFail : Bool) : PsResult × State :=
  let p := m.point
  let s := ptCheck (engCount s (ptHome p) 0) p
  let d := ptGet s p
  match m.kind with
  | .read => (.ok (lineWord d 0) (if m.mode1 then some (lineWord d 2) else none), s)
  | .write =>
    let (n, s) := ptWrite s p m.b { writer := 0x400 + m.thread } genFail
    (.ok (gen (w64 n)) none, s)
  | .cw =>
    let f := lineWord d 0
    let (ok, s) := shadowOk s m.thread
    if !ok then (.shadow, s)
    else if badWord f || f.val != m.b.val then (.ok f none, s)
    else (.ok f none, (ptWrite s p m.c { writer := 0x400 + m.thread } genFail).2)
  | .sub =>
    let w6 := (lineWord d 6).val
    let g := fieldN w6 63 48
    let want := fieldN m.b.val 15 0
    if subRefused s m.thread g want m.unsub then (.denied, s)
    else if m.unsub then
      (.ok (gen (w64 g)) none, if g = 0xFFFF then s else ptPut s p (d.set 6 (gen (setField w6 63 48 0xFFFF))))
    else if want = g then (.ok (gen (w64 g)) none, s)
    else
      let d := (d.set 6 (gen (setField w6 63 48 want))).set 5 (lineWord d 0)
      (.ok (gen (w64 g)) none, ptNote (ptPut s p d) p d)

/-- Answers the operation of a thread with its result. -/
def psAnswer (s : State) (m : PsMsg) (r : PsResult) : State :=
  let s := creditDone (ejectPkt s m.pkt) m.pkt
  let (p, s) := mkPkt s (sliceUnit s (ptHome m.point) 6) (m.thread / 16) (m.thread / 4 % 4) 0x35 false 1
  { s with psNet := s.psNet.map (fun x => if x == m then { x with answer := some r, pkt := p } else x) }

/-- Performs the waiting operation of a thread. -/
def ptRunThread (s : State) (t : Nat) : State :=
  match s.psNet.find? (fun m => m.thread = t && m.answer.isNone) with
  | some m =>
    let (r, s') := ptThreadOp s m false
    psAnswer s' m r
  | none => s

/-- Ends a fetch: the operations that wait on the entry proceed, in order (R357). -/
def ptSettle (s : State) (p : Nat) : State :=
  let s := ptLoad s p
  if s.ps.fetch.contains p then
    let ws := s.ps.wait.filter (fun e => e.1 == p)
    let s := { s with ps := { s.ps with fetch := s.ps.fetch.filter (· != p), wait := s.ps.wait.filter (fun e => e.1 != p) } }
    foldS (fun s e => ptRunThread s e.2) s ws
  else s

/-- A thread's operation arrives at its engine: performed where the entry stands in its slice, otherwise it waits for the
fetch; an engine with 32 fetches outstanding takes none that needs another (R357). -/
def ptArrive (s : State) (t : Nat) (k : PsKind) (genFail : Bool) : State :=
  match s.psNet.find? (fun m => m.thread = t && m.answer.isNone && m.kind == k && arrivedPkt s m.pkt) with
  | none => s
  | some m =>
    if s.ps.wait.contains (m.point, t) then s
    else if s.ps.fetch.contains m.point then { s with ps := { s.ps with wait := s.ps.wait ++ [(m.point, t)] } }
    else if ptCached s m.point then
      let (r, s') := ptThreadOp s m genFail
      psAnswer s' m r
    else if 32 ≤ (s.ps.fetch.filter (fun p => ptHome p == ptHome m.point)).length then s
    else { s with ps := { s.ps with fetch := s.ps.fetch ++ [m.point], wait := s.ps.wait ++ [(m.point, t)] } }

/-- ENGINE_READ: a PSRD arrives (R347). -/
def execEngineRead (t : BitVec 10) (s : State) : Host.Outcome State Fault Refusal := .next (ptArrive s t.toNat .read false)
/-- ENGINE_WRITE: a PSWR arrives (R348). -/
def execEngineWrite (t : BitVec 10) (genFail : Bool) (s : State) : Host.Outcome State Fault Refusal :=
  .next (ptArrive s t.toNat .write genFail)
/-- ENGINE_CW: a PSCW arrives (R347, R150). -/
def execEngineCw (t : BitVec 10) (genFail : Bool) (s : State) : Host.Outcome State Fault Refusal :=
  .next (ptArrive s t.toNat .cw genFail)
/-- ENGINE_SUB: a PSSUB arrives (R349). -/
def execEngineSub (t : BitVec 10) (s : State) : Host.Outcome State Fault Refusal := .next (ptArrive s t.toNat .sub false)

/-- ENTRY_FETCH_COMPLETE: the entry arrives, and the operations waiting on it proceed (R357). -/
def execEntryFetchComplete (p : BitVec 24) (s : State) : Host.Outcome State Fault Refusal :=
  .next (if s.ps.fetch.contains p.toNat then ptSettle s p.toNat else s)

/-! ### Operations of other requesters, each performed as it arrives -/

/-- A unit at bridge stop `b` reaches a point's engine with PS_OP and is answered with PS_RSP within one event: the flits of both are
counted (R51, R233). -/
def ptReach (s : State) (b p : Nat) : State := meshCount (meshCount s b (ptHome p) 1) (ptHome p) b 1

/-- The bridge stop of a field port's bay (Table 2-3). -/
def bayStop (l : Nat) : Nat := if l < 256 then 80 else 82

/-- Reads a point for a unit at bridge stop `b` (R309): VALUE and SEQ. -/
def ptUnitRead (s : State) (b p : Nat) : TWord × Nat × State :=
  let s := ptCheck (engCount (ptSettle (ptReach s b p) p) (ptHome p) 0) p
  let d := ptGet s p
  (lineWord d 0, fieldN (lineWord d 2).val 63 32, s)

/-- Writes a point for a unit at bridge stop `b`. -/
def ptUnitWrite (s : State) (b p : Nat) (v : TWord) (st : Stamp) (genFail : Bool) : State :=
  (ptWrite (ptCheck (engCount (ptSettle (ptReach s b p) p) (ptHome p) 0) p) p v st genFail).2

/-- EXCHANGE_READ: an engine answers a bay's read of a point with VALUE and SEQ (R309); the port keeps the answer. -/
def execExchangeRead (port : BitVec 9) (p : BitVec 24) (s : State) : Host.Outcome State Fault Refusal :=
  .next (if p.toNat ≥ ptCount s then s
    else
      let (v, q, s) := ptUnitRead s (bayStop port.toNat) p.toNat
      updPort s port.toNat (fun x => { x with lastRead := some (p.toNat, v, q) }))

/-- EXCHANGE_WRITE: an engine writes an input word with the epoch of the SFD, the QUALITY of the REPLY and the writer id
of its field node (R312, R348); the tally is generated at the ingress (R138). -/
def execExchangeWrite (port : BitVec 9) (node : BitVec 3) (p : BitVec 24) (val epoch : Word) (quality : BitVec 16) (genFail : Bool) (s : State) :
    Host.Outcome State Fault Refusal :=
  .next (if p.toNat ≥ ptCount s then s
    else ptUnitWrite s (bayStop port.toNat) p.toNat (gen val) { writer := 0x2000 + port.toNat * 8 + node.toNat, epoch := some epoch, quality := some quality.toNat } genFail)

/-- The secondary takes mirrored writes (R350). -/
def isSecondary (s : State) : Bool := s.rig.dev.hawser.any (fun r => r.role = 2 && r.mirror)

/-- Performs a mirrored write (R350): one outside the region is discarded and counted. -/
def ptMirror (s : State) (p : Nat) (v : TWord) (epoch word2 : Word) (genFail : Bool) : State :=
  if p ≥ ptCount s then updR s .PST_ERR (fun w => satInc w 62 48) 0
  else ptUnitWrite s 81 p v { writer := fieldN word2 15 0, epoch := some epoch, quality := some (fieldN word2 31 16), seq := some (fieldN word2 63 32), mirror := true } genFail

/-- MIRROR_WRITE: a secondary's engine performs a mirrored write with the sender's stamps (R350). -/
def execMirrorWrite (p : BitVec 24) (val : Word) (tal : BitVec 8) (epoch word2 : Word) (genFail : Bool) (s : State) :
    Host.Outcome State Fault Refusal :=
  .next (if isSecondary s then ptMirror s p.toNat ⟨val, tal⟩ epoch word2 genFail else s)

/-! ### The notification unit (R352, R353) -/

/-- Ring size of a group. -/
def nqSize (s : State) (g : Nat) : Nat :=
  let l := fieldN (getR s .PST_NQ_CFG 0 g) 3 0
  2 ^ (if 4 ≤ l && l ≤ 12 then l else 4)

/-- Brings the group's interrupt up to date (R353, R191). -/
def nqIrq (s : State) (g : Nat) : State :=
  let r := getR s .PST_NQ_IRQ 0 g
  irqByDest s (irqSrc .PST_NQ_IRQ 0 g) r (some (g / 256)) (bit r 17 || bit (getR s .PST_NQ_CFG 0 g) 5)

/-- Drops a record (R353): counted, the next record marked, and the first drop of an epoch second recorded. -/
def noteDrop (s : State) (g : Nat) : State :=
  let s := groupLost s g
  let sec := s.epoch / 100000000
  if SMap.get (fun _ => 0) s.ps.dropSec g = sec + 1 then s
  else
    let s := { s with ps := { s.ps with dropSec := SMap.set (fun _ => 0) s.ps.dropSec g (sec + 1) } }
    alm s 0x7012 3 15 (g / 256) g (fieldN (getR s .PST_NQ_IDX 0 g) 63 32)

/-- Writes the record of a notification into its ring, or drops it; a refused write is recorded as the rule that refuses it has it (R54,
R361), with the MESH_ERR.KIND of a store (log 117). -/
def noteWrite (s : State) (n : Note) : State :=
  let g := n.group
  let cfg := getR s .PST_NQ_CFG 0 g
  let idx := getR s .PST_NQ_IDX 0 g
  let head := fieldN idx 15 0
  let tail := fieldN idx 31 16
  let size := nqSize s g
  if !bit cfg 4 || (head + 65536 - tail) % 65536 ≥ size then noteDrop s g
  else
    let a := fieldN cfg 51 6 * 64 + head % size * 32
    if addrCls s a != .dram || decide (a < secWm s) || !inRanges s (g / 256) a then
      let s := if addrCls s a != .dram then recordUnmapped s 83 1 (g / 256) 2 a false
        else if a < secWm s then unitWorldRefusal s 15 (g / 256) 83 1 (g / 256) a else s
      let s := updR s .PST_NQ_CFG (fun w => setBit (setBit w 4 false) 5 true) 0 g
      nqIrq (groupLost (alm s 0x7013 4 15 (g / 256) g) g) g
    else
      let lost := SMap.get (fun _ => false) s.ps.lost g
      let s := agentWriteWords s (a / 8) [gen (setField (setBit (setField 0 63 32 n.seq) 24 lost) 23 0 n.point), n.val, gen n.epoch,
        gen (setField (setField 0 31 16 n.writer) 15 0 n.quality)] 71
      let s := { s with ps := { s.ps with lost := SMap.set (fun _ => false) s.ps.lost g false } }
      let s := updR s .PST_NQ_IDX (fun w => setField w 15 0 (head + 1)) 0 g
      nqIrq (updR s .PST_NQ_IRQ (fun w => setBit w 17 true) 0 g) g

/-- NOTIFICATION_RECORD: the unit takes the next notification (R352). -/
def execNotificationRecord (s : State) : Host.Outcome State Fault Refusal :=
  .next (match s.ps.notes with
    | [] => s
    | n :: r => noteWrite { s with ps := { s.ps with notes := r } } n)

/-- A requester may write group `g`'s registers (R358). -/
def nqWriter (s : State) (who : Requester) (g : Nat) : Bool :=
  isMgmt who || isBowline who || reqPart s who == some (g / 256)

/-- A write of a group's TAIL (R352): refused when it would pass HEAD. -/
def nqTail (s : State) (who : Requester) (g tail : Nat) : State :=
  if isManager who then s
  else if !nqWriter s who g then refuseReg s ⟨.PST_NQ_IDX, 0, g, 0⟩ who
  else
    let head := fieldN (getR s .PST_NQ_IDX 0 g) 15 0
    if (head + 65536 - tail) % 65536 > nqSize s g then alm s 0x7015 2 15 (g / 256) g tail
    else updR s .PST_NQ_IDX (fun w => setField w 31 16 tail) 0 g

/-- NQ_TAIL_WRITE (R352). -/
def execNqTailWrite (who : Requester) (g : BitVec 12) (tail : BitVec 16) (s : State) : Host.Outcome State Fault Refusal :=
  .next (regCmd s ⟨.PST_NQ_IDX, 0, g.toNat, 0⟩ (fun s => nqTail s who g.toNat tail.toNat))

/-! ### PST_CMD (R354, R355) -/

/-- A requester holds a right to a point for PST_CMD (R355): Bowline always, a thread under R354. -/
def cmdRight (s : State) (who : Requester) (k : PsKind) (p : Nat) : Bool :=
  p < ptCount s && (match who with
    | .thread t => ptRight s t.toNat k p
    | .bowline => true
    | _ => false)

/-- A requester has a bank of PST_ARG, PST_CMD and PST_PEEK (R355, R358). -/
def hasPstBank : Requester → Bool
  | .thread _ => true
  | .mgmt _ => true
  | .bowline => true
  | _ => false

/-- A refused PST_CMD (R355). -/
def pstRefused (s : State) (who : Requester) (p op : Nat) : State :=
  alm (setB s .PST_CMD who (setBit (getB s .PST_CMD who) 49 true)) 0x7014 2 9 (ptHome p) p op

/-- SET_DEADBAND on the requester's PST_ARG (R355). -/
def setDeadband (s : State) (who : Requester) (p : Nat) (fmt : Bool) : State :=
  let arg := getB s .PST_ARG who
  let bad := if fmt then isNaN arg || fCompare arg 0 == some .lt else decide (arg.toInt < 0)
  if bad || !cmdRight s who .write p then pstRefused s who p 1
  else
    let s := ptCheck (engCount (ptSettle s p) (ptHome p) 0) p
    let d := ptGet s p
    let d := ((d.set 4 (gen arg)).set 6 (gen (setBit (lineWord d 6).val 38 fmt))).set 5 (lineWord d 0)
    setB (ptPut s p d) .PST_CMD who (setBit (getB s .PST_CMD who) 49 false)

/-- PEEK into the requester's PST_PEEK (R355). -/
def peekPoint (s : State) (who : Requester) (p : Nat) : State :=
  if !cmdRight s who .read p then pstRefused s who p 2
  else
    let s := engCount (ptSettle s p) (ptHome p) 0
    let d := ptGet s p
    let psn := (List.range 8).foldl (fun a i => if badWord (lineWord d i) then a + 2 ^ i else a) 0
    let s := foldS (fun s i => setB s .PST_PEEK who (lineWord d i).val i) s (List.range 8)
    let s := setB s .PST_CMD who (setField (setBit (getB s .PST_CMD who) 49 false) 63 56 psn)
    ptCheck s p

/-- A write of PST_CMD (R355): other OP values are ignored. -/
def pstCmd (s : State) (who : Requester) (v : Word) : State :=
  if !hasPstBank who then refuseReg s ⟨.PST_CMD, 0, 0, 0⟩ who
  else match fieldN v 39 32 with
    | 1 => setDeadband s who (fieldN v 23 0) (bit v 48)
    | 2 => peekPoint s who (fieldN v 23 0)
    | _ => s

/-- SET_DEADBAND: a write of PST_CMD with OP 1 (R355). -/
def execSetDeadband (who : Requester) (p : BitVec 24) (fmt : Bool) (s : State) : Host.Outcome State Fault Refusal :=
  .next (regCmd s ⟨.PST_CMD, 0, 0, 0⟩ (fun s =>
    pstCmd s who (setBit (setField (setField 0 39 32 1) 23 0 p.toNat) 48 fmt)))

/-- PEEK: a write of PST_CMD with OP 2 (R355). -/
def execPeek (who : Requester) (p : BitVec 24) (s : State) : Host.Outcome State Fault Refusal :=
  .next (regCmd s ⟨.PST_CMD, 0, 0, 0⟩ (fun s => pstCmd s who (setField (setField 0 39 32 2) 23 0 p.toNat)))

end Sys2Proof.Machine
end

