-- ==== Sys2Proof/Machine/Stopper.lean ====
section
/-! DEFINITION. Stopper guards on outputs (ch. 13): the step, the records, and the narrowing of limits. -/

namespace Sys2Proof.Machine

/-! ### Records and counters -/

/-- Bay and local index of a guarded output (R325). -/
def stopBay (o : Nat) : Nat := o / 4096
/-- Local stopper. -/
def stopLoc (o : Nat) : Nat := o % 4096

/-- Counts a hold, a generator disagreement or a state error in STOP_EVT. -/
def stopEvt (s : State) (o kind : Nat) : State :=
  updR s .STOP_EVT (fun w =>
    let w := satInc w 47 32
    if bit w 63 then w else setBit (setField (setField w 15 4 (stopLoc o)) 3 0 kind) 63 true) (stopBay o)

/-- Counts in STOP_CNT. -/
def stopCount (s : State) (o hi lo : Nat) : State := updR s .STOP_CNT (fun w => satInc w hi lo) (stopBay o) (stopLoc o)

/-- Counts a clamp step and records it within the rate of R331. -/
def clampNote (s : State) (o : Nat) (v limit : Word) (isMax : Bool) : State :=
  let s := stopCount s o 63 48
  let x := stopOf s o
  let sec := s.epoch / 100000000
  let n := if x.clampSec = sec then x.clampN else 0
  if n < s.rig.dev.clampRate then
    alm (updStop s o (fun x => { x with clampSec := sec, clampN := n + 1 })) 0x6010 2 8 o (lo32 v.toNat) (lo32 limit.toNat) (b2n isMax)
  else s

/-! ### Limits (R89, R327, R335, R336) -/

/-- Limits TARGET and OUT after a change of MIN or MAX (R336). -/
def limitNow (x : Stopper) : Stopper :=
  { x with target := gClamp x.float x.min x.max x.target, out := gClamp x.float x.min x.max x.out }

/-- A stopper that starts afresh from a GUARD record (R327). -/
def stopStart (p : Nat) (r : GuardRec) (place : Option (Nat × Nat × Nat)) : Stopper :=
  { st := 1, part := p, float := r.float, min := r.min, max := r.max, slew := r.slew, stale := r.stale, safe := r.safe, ramp := r.ramp, out := r.safe, target := r.safe, first := true, place := place }

/-- The stopper after the changes that a step applies before anything else: a re-rigged record (R89), then the accepted
GUARD.TIGHTEN changes (R335); a narrowed SLEW also caps RSTEP (R336). -/
def stopApply (x : Stopper) : Stopper :=
  let x := match x.newRec with
    | some r =>
      if r.float != x.float then { stopStart x.part r x.place with clampSec := x.clampSec, clampN := x.clampN }
      else limitNow { x with min := r.min, max := r.max, slew := r.slew, stale := r.stale, safe := r.safe, ramp := r.ramp, newRec := none, accepted := [], tightened := false }
    | none => x
  let y := limitsSeen x
  let y := { y with accepted := [], rstep := if gLt y.float y.slew y.rstep then y.slew else y.rstep }
  if y.min == x.min && y.max == x.max then y else limitNow y

/-! ### The step (R328) -/

/-- The state of a stopper after the fresh-write part of a step, with the clamp it made. -/
def stopFresh (x : Stopper) (word : TWord) (seq : Nat) : Stopper × Bool :=
  if x.st = 4 || badWord word || (x.float && isNaN word.val) then (x, false)
  else if x.first then ({ x with lastSeq := seq, first := false }, false)
  else if seq ≠ x.lastSeq then ({ x with lastSeq := seq, target := gClamp x.float x.min x.max word.val }, true)
  else (x, false)

/-- Ageing, the beginning of a ramp, and the move of OUT. -/
def stopMove (x : Stopper) (fresh : Bool) : Stopper :=
  let x := if fresh then { x with age := 0, st := if x.st = 1 || x.st = 3 then 2 else x.st }
    else
      let x := { x with age := min (x.age + 1) (2 ^ 32 - 1) }
      if x.st = 2 && decide (x.stale ≤ x.age) then
        { x with st := 3, target := x.safe, rstep := gRamp x.float x.out x.safe x.slew x.ramp }
      else x
  let x := if x.st = 2 then { x with out := gToward x.float x.out x.target x.slew }
    else if x.st = 3 || x.st = 4 then
      let o := gToward x.float x.out x.safe x.rstep
      { x with out := o, st := if x.st = 3 && gEq x.float o x.safe then 1 else x.st }
    else x
  { x with out := gClamp x.float x.min x.max x.out }

/-- An uncorrectable error in a stopper's state (R340): OUT is the word of the last CALL, and a ramp to SAFE begins. What AGE and
LASTSEQ become is open (log 91). -/
def stopLost (s : State) (o : Nat) (last : Word) : State :=
  let (a, s) := freeW s
  let (q, s) := freeW s
  let s := updStop s o (fun x => { x with st := if x.st = 4 then 4 else 3, out := last, target := x.safe, age := a.toNat % 2 ^ 32, lastSeq := q.toNat % 2 ^ 32, first := false, rstep := gRamp x.float last x.safe x.slew x.ramp })
  stopEvt (alm (stopCount s o 7 0) 0x6013 4 8 o) o 3

/-- One step of stopper `o` on its point's word and sequence; `genFail` says that its two generators disagree, which undoes the whole
step, so that the next one applies the changes of limits afresh (R333).
Answers the word handed to the bay. -/
def stopStep (s : State) (o : Nat) (word : TWord) (seq : Nat) (genFail : Bool) : TWord × State :=
  let x0 := stopOf s o
  let x1 := stopApply x0
  let hold := x1.st ≠ 4 && (badWord word || (x1.float && isNaN word.val))
  let s := if hold then stopEvt (alm (stopCount s o 47 32) 0x6011 4 8 o) o 1 else s
  let (x2, fresh) := stopFresh x1 word seq
  let x3 := stopMove x2 fresh
  if genFail then
    (poison x0.out, stopEvt (alm (stopCount s o 15 8) 0x6012 4 8 o) o 2)
  else
    let s := updStop s o (fun _ => x3)
    let s := if x2.st = 2 && x3.st ≠ 2 then stopCount s o 31 16 else s
    let clampW := fresh && !gEq x1.float x2.target word.val
    let moved := x1.out != x0.out && x0.newRec.all (fun r => r.float == x0.float)
    let s := if clampW then clampNote s o word.val x2.target (gLt x1.float x1.max word.val)
      else if moved then clampNote s o x0.out x1.out (gLt x1.float x1.max x0.out) else s
    (gen x3.out, s)

/-! ### GUARD.TIGHTEN at the stopper (R123, R335, R337) -/

/-- Performs the oldest request of a thread. -/
def tightenNow (s : State) (m : TightenMsg) : State :=
  let s := creditDone (ejectPkt { s with tightNet := s.tightNet.filter (· != m) } m.pkt) m.pkt
  match (thr s m.thread).wait with
  | some (.guard gd) =>
    if tightenRefused s m.thread m.output m.fn m.val then
      applyAct m.thread 1 false (.trap s 0x10 (w64 m.output))
    else
      let s := updStop s m.output (fun x => { x with accepted := x.accepted ++ [(m.fn, m.val)], tightened := x.tightened || setLimit (limitsSeen x) m.fn m.val != limitsSeen x })
      applyAct m.thread 1 false (.done (wg s m.thread (BitVec.ofNat 6 gd) TWord.zero))
  | _ => s

/-- TIGHTEN_REQUEST: the stopper takes the oldest request for the output (R335). -/
def execTightenRequest (o : BitVec 15) (s : State) : Host.Outcome State Fault Refusal :=
  .next (match s.tightNet.find? (fun m => m.output = o.toNat && arrivedPkt s m.pkt) with
    | some m => tightenNow s m
    | none => s)

end Sys2Proof.Machine
end

