-- ==== Sys2Proof/Machine/Field.lean ====
section
/-! DEFINITION. Field bays (ch. 12): the Lanyard exchange, PLCA, and raw-frame mode. -/

namespace Sys2Proof.Machine

/-! ### Ports -/

/-- The FIELD_PORT record of port `l` with the partition that owns it. -/
def portRec (s : State) (l : Nat) : Option (Nat × PortRec) :=
  (partIds s).findSome? (fun p => ((knots s p).ports.find? (fun r => r.port == l)).map (fun r => (p, r)))

/-- FBAY_PORT_CFG.MODE: 0 disabled, 1 Lanyard, 2 raw. Ports are enabled at the end of the DRAM step of start-up (Table
20-4), but for those of a fenced bay (R465). -/
def portMode (s : State) (l : Nat) : Nat :=
  if s.boot.step < 7 || bit (getR s .VIG_FENCE_BAY 0) (l / 64) then 0
  else match portRec s l with
    | some (_, r) => if r.raw then 2 else 1
    | none => 0

/-- The bay's domain is on (R339, Table 19-2). -/
def bayOn (s : State) (l : Nat) : Bool := domOn s (400 + l / 64)

/-- Brings the port's interrupt up to date (FBAY_PORT_IRQ, R191). -/
def portIrq (s : State) (l : Nat) : State :=
  let r := getR s .FBAY_PORT_IRQ (l / 64) (l % 64)
  irqByDest s (irqSrc .FBAY_PORT_IRQ (l / 64) (l % 64)) r ((portRec s l).map Prod.fst) (fieldN r 44 40 ≠ 0)

/-- Sets a cause of FBAY_PORT_IRQ. -/
def portCause (s : State) (l b : Nat) : State :=
  portIrq (updR s .FBAY_PORT_IRQ (fun w => setBit w b true) (l / 64) (l % 64)) l

/-- A bay-level error (FBAY_ERR). -/
def bayErr (s : State) (l kind : Nat) : State :=
  updR s .FBAY_ERR (fun w =>
    let w := satInc w 47 32
    if bit w 63 then w else setBit (setField (setField w 11 6 (l % 64)) 3 0 kind) 63 true) (l / 64)

/-- Counts in FBAY_PORT_CNT[n]; an error kind is recorded once per epoch second (R322). -/
def portCount (s : State) (l n : Nat) : State :=
  let s := updR s .FBAY_PORT_CNT (fun w => satInc w 31 0) (l / 64) (l % 64) n
  let sec := s.epoch / 100000000
  if ((2 ≤ n && n ≤ 6) || (8 ≤ n && n ≤ 11)) && SMap.get (fun _ => 0) (portOf s l).errSec n ≠ sec + 1 then
    let s := updPort s l (fun x => { x with errSec := SMap.set (fun _ => 0) x.errSec n (sec + 1) })
    alm s 0x5010 3 7 l n (fieldN (getR s .FBAY_PORT_CNT (l / 64) (l % 64) n) 31 0)
  else s

/-- MISSES[n] of FBAY_NODE_STS. -/
def nodeMisses (s : State) (l n : Nat) : Nat := fieldN (getR s .FBAY_NODE_STS (l / 64) (l % 64)) (8 * n + 6) (8 * n)
/-- LOST[n] of FBAY_NODE_STS. -/
def nodeLost (s : State) (l n : Nat) : Bool := bit (getR s .FBAY_NODE_STS (l / 64) (l % 64)) (8 * n + 7)

/-! ### The beginning of a Lanyard cycle (R290, R309–R315) -/

/-- A CALL is late: counted, recorded, and the cycle counts neither as missed nor as answered (R310, R311, R314). -/
def callLate (s : State) (l cycle : Nat) : State :=
  let s := updR s .FBAY_PORT_CNT (fun w => satInc w 31 0) (l / 64) (l % 64) 7
  bayErr (alm s 0x5014 3 7 l (lo32 cycle)) l 5

/-- Input contexts of a silent node count the cycle as one in which their words were not written. -/
def ctxMissed (s : State) (l n : Nat) : State :=
  foldS (fun s (e : ExchRec) =>
    if !e.output && e.node = n then updR s .FBAY_CTX_STS (fun w => satInc w 15 0) (l / 64) (e.ctx % 8192) else s) s (portOf s l).exch

/-- A node missed the cycle that ends (R314). -/
def nodeMissed (s : State) (l n : Nat) : State :=
  let m := min 127 (nodeMisses s l n + 1)
  let s := updR s .FBAY_NODE_STS (fun w => setField w (8 * n + 6) (8 * n) m) (l / 64) (l % 64)
  let limit := fieldN (getR s .FBAY_PORT_CTL (l / 64) (l % 64)) 22 16
  if limit ≤ m && !nodeLost s l n then
    let s := updR s .FBAY_NODE_STS (fun w => setBit w (8 * n + 7) true) (l / 64) (l % 64)
    portCause (alm s 0x5015 3 7 l n) l 42
  else s

/-- Ends the port's current Lanyard cycle: a CALL still queued is discarded, and silent nodes miss (R311, R314). -/
def lanyardEnd (s : State) (l : Nat) : State :=
  let x := portOf s l
  if !x.active then s
  else
    let s := if x.call.isSome then callLate s l x.cycle else s
    let late := x.call.isSome || x.discarded
    foldS (fun s n => if x.replied.contains n then s else if late then ctxMissed s l n else nodeMissed (ctxMissed s l n) l n) s (List.range ((x.cfg.map PortRec.nodes).getD 0))

/-- What stands at a word of the CALL: a context's point and stopper, or an orphaned stopper. -/
inductive CallSrc where
  | bound (ctx point out : Nat)
  | orphan (out : Nat)
  | empty
  deriving DecidableEq, Repr

/-- Outputs of orphaned stoppers of a port, with node and word (R338). -/
def orphansOf (s : State) (l : Nat) : List (Nat × Nat × Nat) :=
  s.stoppers.filterMap (fun e => match e.2.place with
    | some (pl, n, w) => if e.2.st = 4 && pl = l then some (e.1, n, w) else none
    | none => none)

/-- The source of word `w` of node `n`. -/
def callSrc (ex : List ExchRec) (orph : List (Nat × Nat × Nat)) (n w : Nat) : CallSrc :=
  match ex.find? (fun e => e.output && e.node == n && e.word ≤ w && w < e.word + e.count) with
  | some e => .bound e.ctx (e.point + (w - e.word)) (e.guard + (w - e.word))
  | none => match orph.find? (fun o => o.2.1 == n && o.2.2 == w) with
    | some o => .orphan o.1
    | none => .empty

/-- LEN[n] (R307, R338). -/
def callLen (ex : List ExchRec) (orph : List (Nat × Nat × Nat)) (n : Nat) : Nat :=
  let a := ex.foldl (fun m e => if e.output && e.node == n then max m (e.word + e.count) else m) 0
  orph.foldl (fun m o => if o.2.1 == n then max m (o.2.2 + 1) else m) a

/-- Steps the stopper of one word and places the word, or the previous CALL's word where the check finds it failed or
poisoned (R309, R310). -/
def callWord (s : State) (l : Nat) (gens lost : List Nat) (n w : Nat) (src : CallSrc) : TWord × Bool × State :=
  let place (x : TWord) (ctx? : Option Nat) (out : Nat) (s : State) : TWord × Bool × State :=
    let old := SMap.get (fun _ => TWord.zero) (portOf s l).prev (n * 256 + w)
    if badWord x then
      let s := match ctx? with
        | some c => updR s .FBAY_CTX_STS (fun w => satInc w 31 16) (l / 64) (c % 8192)
        | none => s
      (old, true, bayErr (alm s 0x5013 4 7 l (ctx?.getD 0xFFFFFFFF) out) l 1)
    else (x, false, updPort s l (fun p => { p with prev := SMap.set (fun _ => TWord.zero) p.prev (n * 256 + w) x }))
  let last := (SMap.get (fun _ => TWord.zero) (portOf s l).prev (n * 256 + w)).val
  let found (s : State) (out : Nat) : State := if lost.contains out then stopLost s out last else s
  match src with
  | .bound ctx point out =>
    let (v, q, s) := ptUnitRead (found s out) (bayStop l) point
    let (x, s) := stopStep s out v q (gens.contains out)
    place x (some ctx) out s
  | .orphan out =>
    let (x, s) := stopStep (found s out) out TWord.zero 0 (gens.contains out)
    place x none out s
  | .empty => (TWord.zero, false, s)

/-- Prepares the CALL of the cycle that begins (R309, Table 12-1). -/
def callPrepare (s : State) (l : Nat) (gens lost : List Nat) : State :=
  let x := portOf s l
  let orph := orphansOf s l
  let lens := (List.range 8).map (callLen x.exch orph)
  let (secs, bad, s) := (List.range 8).foldl (fun (acc : List (List Word) × Bool × State) n =>
    let (ws, b, s) := (List.range (lens.getD n 0)).foldl (fun (a : List Word × Bool × State) w =>
      let (v, b, s) := callWord a.2.2 l gens lost n w (callSrc x.exch orph n w)
      (a.1 ++ [v.val], a.2.1 || b, s)) ([], false, acc.2.2)
    (acc.1 ++ [ws], acc.2.1 || b, s)) ([], false, s)
  if bad && x.wire.isNone then callLate (updPort s l (fun x => { x with discarded := true })) l x.cycle
  else updPort s l (fun x => { x with call := some { cycle := x.cycle, epoch := w64 s.epoch, nodes := (x.cfg.map PortRec.nodes).getD 0, sections := secs } })

/-- A Lanyard cycle of port `l` begins, in the calendar cycle `k` that starts at `start`: settings and contexts are those
in force now (R315). -/
def lanyardBegin (s : State) (l p : Nat) (r : PortRec) (k start : Nat) (gens lost : List Nat) : State :=
  let s := lanyardEnd s l
  let s := updPort s l (fun x => { x with active := true, cycle := k / r.multiple, lastT := start + 1, replied := [], cfg := some r, owner := p, exch := (knots s p).exch.filter (fun e => e.port == l), discarded := false, sent := false, call := none })
  let s := updR s .FBAY_PORT_STS (fun w => setField w 63 32 (k / r.multiple)) (l / 64) (l % 64)
  callPrepare s l gens lost

/-- Index and offset of the first EXCHANGE slot that names a port. -/
def exchSlot (c : Cal) (l : Nat) : Option (Nat × Nat) :=
  let all := (c.slots.zip (List.range c.slots.length)).filter (fun e => e.1.act == .exchange && e.1.target == l)
  all.head?.map (fun e => (e.2, e.1.offset))

/-- The next Lanyard cycle of a Lanyard port: its partition, record, calendar cycle, that cycle's start, and the moment at
which it begins (R290). While an old grid acts, only a port that exchanged before takes part (R292, R315). -/
def lanyardNext (s : State) (l : Nat) : Option (Nat × PortRec × Nat × Nat × Nat) :=
  match portRec s l with
  | none => none
  | some (p, r) =>
    match gridCal s p with
    | none => none
    | some c =>
      let old := (prun s p).oldCal.isSome && decide (s.epoch < (prun s p).gridFrom)
      if portMode s l ≠ 1 || !bayOn s l || (prun s p).st == .absent || (old && !(portOf s l).active) then none
      else
        let k0 := (firstStart c (max (gridStart s p) (portOf s l).lastT) - c.phase) / c.cycle
        let k := (k0 + r.multiple - 1) / r.multiple * r.multiple
        some (p, r, k, cycleStart c k, cycleStart c k + ((exchSlot c l).map Prod.snd).getD 0)

/-- LANYARD_CYCLE_START: due at the moment of R290, and where a slot names the port, in that slot's turn (R289); `gens` are the guarded outputs whose generators disagree
(R333), `lost` those whose state is found uncorrectable (R340). -/
def execLanyardCycleStart (port : BitVec 9) (gens lost : List (BitVec 15)) (s : State) : Host.Outcome State Fault Refusal :=
  .next (match lanyardNext s port.toNat with
    | some (p, r, k, st, t) =>
      let begins (s : State) : State := lanyardBegin s port.toNat p r k st (gens.map BitVec.toNat) (lost.map BitVec.toNat)
      if s.epoch < t then s
      else match (gridCal s p).bind (fun c => exchSlot c port.toNat) with
        | some (i, _) => if (prun s p).acted < 8 && !slotBefore s p i t then begins (slotActed s p i t) else s
        | none => begins s
    | none => s)

/-- SLOT_EXCHANGE (R290): the first slot that names a Lanyard port begins its cycle when k mod MULTIPLE = 0. -/
def execSlotExchange (p : BitVec 4) (i : BitVec 12) (s : State) : Host.Outcome State Fault Refusal :=
  .next (match slotDue s p.toNat i.toNat .exchange, gridCal s p.toNat with
    | some (sl, t), some c =>
      let s := slotActed s p.toNat i.toNat t
      match lanyardNext s sl.target with
      | some (q, r, k, st, b) =>
        if q = p.toNat && ((exchSlot c sl.target).map Prod.fst) == some i.toNat && b = t then lanyardBegin s sl.target q r k st [] [] else s
      | none => s
    | _, _ => s)

/-- The MAC address of a port (R304). -/
def portMac (l : Nat) : Nat := (Config.macBase.toNat + l) % 2 ^ 48

/-- A frame as it goes on the wire: padded to the least length, with its FCS (R307, R319). -/
def withFcs (frame : List Byte) : List Byte :=
  let f := frame ++ List.replicate (60 - frame.length) 0
  f ++ leBytes 4 (crc32 f)

/-- The CALL on the wire (Table 12-1). -/
def callFrame (l ethertype : Nat) (m : CallMsg) : List Byte :=
  let lens := (List.range 8).map (fun n => (m.sections.getD n []).length)
  withFcs (beBytes 6 (2 ^ 48 - 1) ++ beBytes 6 (portMac l) ++ beBytes 2 ethertype ++ [0x11] ++ leBytes 1 m.nodes
    ++ beBytes 2 (lens.foldl (fun a b => a + b) 0) ++ beBytes 4 m.cycle ++ beBytes 8 m.epoch.toNat ++ lens.flatMap (leBytes 1)
    ++ m.sections.flatMap (fun ws => ws.flatMap (fun w => beBytes 8 w.toNat)))

/-- CALL_TRANSMIT: the queued CALL is sent (R311). -/
def execCallTransmit (port : BitVec 9) (s : State) : Host.Outcome State Fault Refusal :=
  let l := port.toNat
  let x := portOf s l
  .next (match x.call with
    | some m =>
      if !bayOn s l then s
      else
        let s := updPort s l (fun x => { x with call := none, sent := true, wire := some m, frame := callFrame l ((x.cfg.map PortRec.ethertype).getD 0) m })
        let s := updR s .FBAY_PORT_CNT (fun w => satInc w 31 0) (l / 64) (l % 64) 0
        foldS (fun s (e : ExchRec) =>
          if e.output then updR s .FBAY_CTX_STS (fun w => setField w 63 32 m.cycle) (l / 64) (e.ctx % 8192) else s) s x.exch
    | none => s)

/-! ### REPLYs (R312–R314) -/

/-- A node answers: its misses end (R314). -/
def nodeAnswered (s : State) (l n : Nat) : State :=
  let lost := nodeLost s l n
  let s := updR s .FBAY_NODE_STS (fun w => setField w (8 * n + 7) (8 * n) 0) (l / 64) (l % 64)
  if lost then alm s 0x5016 2 7 l n else s

/-- Writes the bound words of an accepted REPLY, ascending, and counts a short one (R312, R313). -/
def replyWrite (s : State) (l n words quality : Nat) (body : List Byte) (sfd : Word) : State :=
  let x := portOf s l
  let ins := x.exch.filter (fun e => !e.output && e.node == n)
  let s := foldS (fun s w =>
    match ins.find? (fun e => e.word ≤ w && w < e.word + e.count) with
    | some e =>
      let pt := e.point + (w - e.word)
      if pt < ptCount s then ptUnitWrite s (bayStop l) pt (gen (w64 (beNat (slice body (16 + 8 * w) 8)))) { writer := 0x2000 + l * 8 + n, epoch := some sfd, quality := some quality } false else s
    | none => s) s (List.range (min words 256))
  let s := foldS (fun s (e : ExchRec) =>
    updR s .FBAY_CTX_STS (fun w => if e.word + e.count ≤ words then setField w 63 32 x.cycle else satInc w 15 0) (l / 64) (e.ctx % 8192)) s ins
  if ins.any (fun e => decide (words < e.word + e.count)) then portCount s l 6 else s

/-- A frame received on a Lanyard port (Table 12-3); `frame` runs from the destination to the end of the payload. -/
def lanyardReceive (s : State) (l : Nat) (r : PortRec) (fcsOk : Bool) (frame : List Byte) (sfd : Word) : State :=
  let x := portOf s l
  let body := frame.drop 14
  let n := beNat (slice body 1 1)
  let words := beNat (slice body 2 2)
  if !fcsOk then portCount s l 2
  else if frame.length + 4 < 64 || 1522 < frame.length + 4 then portCount s l 10
  else if beNat (slice frame 0 6) ≠ portMac l || beNat (slice frame 12 2) ≠ r.ethertype then portCount s l 8
  else if beNat (slice body 0 1) ≠ 0x12 || r.nodes ≤ n || body.length < 16 + 8 * words then portCount s l 3
  else if !x.active || beNat (slice body 4 4) ≠ x.cycle % 2 ^ 32 then portCount s l 4
  else if x.replied.contains n then portCount s l 5
  else
    let s := updR s .FBAY_PORT_CNT (fun w => satInc w 31 0) (l / 64) (l % 64) 1
    let s := nodeAnswered (updPort s l (fun x => { x with replied := x.replied ++ [n] })) l n
    replyWrite s l n words (beNat (slice body 8 2)) body sfd

/-- REPLY_FRAME (R312): under the settings in force when the cycle began (R315). -/
def execReplyFrame (port : BitVec 9) (fcsOk : Bool) (frame : List (BitVec 8)) (sfd : Word) (s : State) : Host.Outcome State Fault Refusal :=
  let l := port.toNat
  .next (match portRec s l with
    | some (_, r) =>
      if portMode s l ≠ 1 || !bayOn s l then s
      else lanyardReceive s l ((portOf s l).cfg.getD r) fcsOk frame sfd
    | none => s)

/-! ### PLCA (R305) -/

/-- PLCA_BEACON. -/
def execPlcaBeacon (port : BitVec 9) (s : State) : Host.Outcome State Fault Refusal :=
  let l := port.toNat
  .next (if portMode s l = 0 || !bayOn s l then s
    else
      let s' := updPort s l (fun x => { x with beacon := s.epoch, lostOnce := false })
      if bit (getR s .FBAY_PORT_STS (l / 64) (l % 64)) 8 then s'
      else
        let s' := updR s' .FBAY_PORT_STS (fun w => setBit w 8 true) (l / 64) (l % 64)
        if (portOf s l).lostOnce then alm s' 0x5012 2 7 l else s')

/-- PLCA_LOST: due 4 ms after the last BEACON, once for an absence. -/
def execPlcaLost (port : BitVec 9) (s : State) : Host.Outcome State Fault Refusal :=
  let l := port.toNat
  let x := portOf s l
  .next (if portMode s l = 0 || !bayOn s l || x.lostOnce || decide (s.epoch < x.beacon + 400000) then s
    else
      let s := updPort s l (fun x => { x with lostOnce := true })
      let s := updR s .FBAY_PORT_STS (fun w => setBit w 8 false) (l / 64) (l % 64)
      bayErr (portCause (alm s 0x5011 3 7 l) l 44) l 4)

/-! ### Raw-frame mode (R317–R321) -/

/-- Ring size. -/
def rawSize (w : Word) : Nat :=
  let n := fieldN w 3 0
  2 ^ (if 4 ≤ n && n ≤ 12 then n else 4)

/-- Every byte of the range is normal-world memory of the partition (R320). -/
def busRange (s : State) (p a n : Nat) : Bool :=
  (List.range (n / 64 + 2)).all (fun i =>
    let x := min (a + 64 * i) (a + n - 1)
    addrCls s x == .dram && decide (secWm s ≤ x) && inRanges s p x)

/-- The first address of the range that `busRange` turns away is refused: unmapped (R54), or below the watermark (R361). MESH_ERR.KIND of a
ring is that of a load or a store (log 117). -/
def busRefuse (s : State) (l p a n : Nat) (write : Bool) : State :=
  match ((List.range (n / 64 + 2)).map (fun i => min (a + 64 * i) (a + n - 1))).find? (fun x => !busRange s p x 1) with
  | none => s
  | some x =>
    if addrCls s x != .dram then recordUnmapped s (bayStop l) 1 p (if write then 2 else 1) x false
    else if x < secWm s then unitWorldRefusal s 7 l (bayStop l) 1 p x else s

/-- A bus error halts both rings (R320). -/
def rawHalt (s : State) (l addr ring : Nat) : State :=
  let s := updR s .FBAY_RAW_CTL (fun w => setBit w 1 true) (l / 64) (l % 64)
  bayErr (portCause (alm s 0x5018 4 7 l (lo32 addr) (hi32 addr) ring) l 43) l 2

/-- The rings run: EN, not halted, and the partition RUNNING (R321). -/
def rawRuns (s : State) (l p : Nat) : Bool :=
  let c := getR s .FBAY_RAW_CTL (l / 64) (l % 64)
  bit c 0 && !bit c 1 && (prun s p).st == .running

/-- The receive filter (R318). -/
def rawFilter (s : State) (l : Nat) (frame : List Byte) : Bool :=
  let d := beNat (slice frame 0 6)
  let c := getR s .FBAY_PORT_CTL (l / 64) (l % 64)
  d = portMac l || d = 2 ^ 48 - 1 || (bit c 1 && decide ((d / 2 ^ 40) % 2 = 1)) || bit c 0

/-- The I/O agent of a field port's bay (Table 2-3). -/
def bayAgent (l : Nat) : Nat := if l < 256 then 65 else 69

/-- Delivers a frame into the buffer at RX_HEAD (R318); its last word is padded with zero bytes (Table 5-1). -/
def rawDeliver (s : State) (l p : Nat) (frame : List Byte) (sfd : Word) : State :=
  let rx := getR s .FBAY_RAW_RX (l / 64) (l % 64)
  let head := fieldN (getR s .FBAY_RAW_IDX (l / 64) (l % 64)) 15 0
  let d := fieldN rx 51 6 * 64 + head % rawSize rx * 32
  if !busRange s p d 32 then rawHalt (busRefuse s l p d 32 false) l d 0
  else
    let (ws, s) := agentWords s (d / 8) 1 (bayAgent l)
    let w0 := (ws.headD (TWord.zero, false)).1
    let buf := fieldN w0.val 51 6 * 64
    if badWord w0 then rawHalt s l d 0
    else if !busRange s p buf frame.length then rawHalt (busRefuse s l p buf frame.length true) l buf 0
    else
      let s := agentWriteBytes s buf (frame ++ List.replicate ((8 - frame.length % 8) % 8) 0) false (bayAgent l)
      let s := agentWriteWords s (d / 8 + 1) [gen (setField (maskBits 63 63) 15 0 frame.length), gen sfd] (bayAgent l)
      let s := updR s .FBAY_RAW_IDX (fun w => setField w 15 0 (head + 1)) (l / 64) (l % 64)
      portCause (updR s .FBAY_PORT_CNT (fun w => satInc w 31 0) (l / 64) (l % 64) 1) l 40

/-- RAW_RX_FRAME (R318). -/
def execRawRxFrame (port : BitVec 9) (fcsOk : Bool) (frame : List (BitVec 8)) (sfd : Word) (s : State) : Host.Outcome State Fault Refusal :=
  let l := port.toNat
  .next (match portRec s l with
    | some (p, _) =>
      let idx := getR s .FBAY_RAW_IDX (l / 64) (l % 64)
      if portMode s l ≠ 2 || !bayOn s l then s
      else if !fcsOk then portCount s l 2
      else if frame.length + 4 < 64 || 1522 < frame.length + 4 then portCount s l 10
      else if !rawFilter s l frame || !rawRuns s l p then portCount s l 8
      else if fieldN idx 15 0 = fieldN idx 31 16 then portCount s l 9
      else rawDeliver s l p frame sfd
    | none => s)

/-- Completes a transmit descriptor (Table 12-4). -/
def rawTxDone (s : State) (l d status len : Nat) (ep : Word) : State :=
  let s := agentWriteWords s (d / 8 + 1) [gen (setField (setField (maskBits 63 63) 62 60 status) 15 0 len), gen ep] (bayAgent l)
  let s := updR s .FBAY_RAW_IDX (fun w => setField w 47 32 (fieldN w 47 32 + 1)) (l / 64) (l % 64)
  portCause s l 41

/-- Handles the descriptor at TX_HEAD (R319, R320). -/
def rawSend (s : State) (l p : Nat) : State :=
  let tx := getR s .FBAY_RAW_TX (l / 64) (l % 64)
  let head := fieldN (getR s .FBAY_RAW_IDX (l / 64) (l % 64)) 47 32
  let d := fieldN tx 51 6 * 64 + head % rawSize tx * 32
  if !busRange s p d 32 then rawHalt (busRefuse s l p d 32 false) l d 1
  else
    let (ws, s) := agentWords s (d / 8) 2 (bayAgent l)
    let w0 := (ws.getD 0 (TWord.zero, false)).1
    let w1 := (ws.getD 1 (TWord.zero, false)).1
    let len := fieldN w1.val 15 0
    let buf := fieldN w0.val 51 3 * 8
    let fail (s : State) (a : Nat) : State :=
      rawHalt (agentWriteWords s (d / 8 + 1) [gen (setField (setField (maskBits 63 63) 62 60 3) 15 0 len), gen 0] (bayAgent l)) l a 1
    if badWord w0 || badWord w1 then fail s d
    else if len < 14 || 1518 < len then rawTxDone s l d 2 len 0
    else if !busRange s p buf len then fail (busRefuse s l p buf len false) buf
    else
      let (bytes, ok, s) := agentBytes s buf len (bayAgent l)
      if !ok then bayErr (rawTxDone (alm s 0x5017 4 7 l head) l d 1 len 0) l 3
      else
        let s := updPort s l (fun x => { x with frame := withFcs bytes })
        rawTxDone (updR s .FBAY_PORT_CNT (fun w => satInc w 31 0) (l / 64) (l % 64) 0) l d 0 len (w64 s.epoch)

/-- RAW_TX_FRAME: the next frame at a transmit opportunity (R319). -/
def execRawTxFrame (port : BitVec 9) (s : State) : Host.Outcome State Fault Refusal :=
  let l := port.toNat
  .next (match portRec s l with
    | some (p, _) =>
      let idx := getR s .FBAY_RAW_IDX (l / 64) (l % 64)
      if portMode s l ≠ 2 || !bayOn s l || !rawRuns s l p || fieldN idx 47 32 = fieldN idx 63 48 then s else rawSend s l p
    | none => s)

/-! ### Register writes with an effect (R317, R320, R321, R324) -/

/-- A requester for whom a port's writable fields act (R324). -/
def portWriter (s : State) (who : Requester) (l : Nat) : Bool :=
  isBowline who || (reqPart s who).isSome && reqPart s who == (portRec s l).map Prod.fst

/-- Does `f` for a requester that may write the port's registers. -/
def portWrite (s : State) (who : Requester) (r : Reg) (l : Nat) (f : State → State) : State :=
  regCmd s ⟨r, l / 64, l % 64, 0⟩ (fun s => if portWriter s who l then f s else refuseReg s ⟨r, l / 64, l % 64, 0⟩ who)

/-- A write of a ring's tail (R317). -/
def rawTail (s : State) (l : Nat) (tx : Bool) (tail : Nat) : State :=
  let idx := getR s .FBAY_RAW_IDX (l / 64) (l % 64)
  let head := if tx then fieldN idx 47 32 else fieldN idx 15 0
  let size := rawSize (getR s (if tx then .FBAY_RAW_TX else .FBAY_RAW_RX) (l / 64) (l % 64))
  if size < (tail + 65536 - head) % 65536 then alm s 0x5019 2 7 l (b2n tx) tail
  else updR s .FBAY_RAW_IDX (fun w => if tx then setField w 63 48 tail else setField w 31 16 tail) (l / 64) (l % 64)

/-- RAW_TAIL_WRITE. -/
def execRawTailWrite (who : Requester) (port : BitVec 9) (tx : Bool) (tail : BitVec 16) (s : State) : Host.Outcome State Fault Refusal :=
  .next (portWrite s who .FBAY_RAW_IDX port.toNat (fun s => rawTail s port.toNat tx tail.toNat))

/-- A write of FBAY_RAW_CTL: EN is taken, and a 1 to HALTED resumes both rings (R320, R321). -/
def rawCtl (s : State) (l : Nat) (v : Word) : State :=
  updR s .FBAY_RAW_CTL (fun w => regWritten .FBAY_RAW_CTL w v) (l / 64) (l % 64)

/-- RAW_RESUME: a write of 1 to HALTED, EN as it stands. -/
def execRawResume (who : Requester) (port : BitVec 9) (s : State) : Host.Outcome State Fault Refusal :=
  .next (portWrite s who .FBAY_RAW_CTL port.toNat (fun s =>
    rawCtl s port.toNat (setBit (getR s .FBAY_RAW_CTL (port.toNat / 64) (port.toNat % 64)) 1 true)))

/-- RAW_ENABLE: a write of EN. -/
def execRawEnable (who : Requester) (port : BitVec 9) (en : Bool) (s : State) : Host.Outcome State Fault Refusal :=
  .next (portWrite s who .FBAY_RAW_CTL port.toNat (fun s => rawCtl s port.toNat (setBit 0 0 en)))

/-! ### Surges (R30, R322) -/

/-- Several errors of one kind at a port. -/
def portLoses (s : State) (l n k : Nat) : State :=
  if k = 0 then s else updR (portCount s l n) .FBAY_PORT_CNT (fun w => satAdd w 31 0 (k - 1)) (l / 64) (l % 64) n

/-- FIELD_IMMUNITY_EVENT: the struck port loses `lost` frames, counted as frames with a bad FCS and recorded, and meets `symbols` PHY
symbol errors (R322). -/
def execFieldImmunityEvent (port : BitVec 9) (lost symbols : BitVec 16) (s : State) : Host.Outcome State Fault Refusal :=
  let l := port.toNat
  .next (if portMode s l = 0 then s
    else
      let s := portLoses (portLoses s l 2 lost.toNat) l 11 symbols.toNat
      if lost = 0 then s else bayErr s l 6)

end Sys2Proof.Machine
end

