-- ==== Sys2Proof/Machine/Mesh.lean ====
section
/-! DEFINITION. Messages of the mesh and of the coherence protocol as commands: requests, snoops, responses, credits and
link errors (ch. 8, 9). A message named by a command is delivered where it is in flight (R239, Table 9-2). -/

namespace Sys2Proof.Machine

/-! ### Links and credits (R226, R231, R232) -/

/-- A failed link (R231): fatal record, FAULT_N low, module reset. -/
def linkFailed (s : State) (stop dir : Nat) : State := moduleReset (alm s 0x2011 6 6 stop dir) 2

/-- FLIT_HCRC_FAIL: flits are replayed on the link that leaves `stop` in direction `dir`; the seventh failed replay of one
flit fails the link (R231). A direction in which the stop has no link carries no flit (R48): nothing happens. -/
def execFlitHcrcFail (stop : BitVec 7) (dir : BitVec 2) (replayed : BitVec 6) (failures : BitVec 3) (s : State) : Host.Outcome State Fault Refusal :=
  if stop.toNat ≥ 84 || (stop.toNat ≥ 64 && dir ≠ 0) then .fault .noSuchUnit
  else if !linkOk stop.toNat dir.toNat then .next s
  else
    let s := updR s .MESH_LINK (fun w => satAdd w 63 32 replayed.toNat) 0 stop.toNat dir.toNat
    .next (if failures = 7 then linkFailed s stop.toNat dir.toNat else s)

/-- MALFORMED_FLIT: handled like a failed link (R232); a direction without a link brings no flit (R48). -/
def execMalformedFlit (stop : BitVec 7) (dir : BitVec 2) (s : State) : Host.Outcome State Fault Refusal :=
  if stop.toNat ≥ 84 then .fault .noSuchUnit
  else .next (if linkOk stop.toNat dir.toNat then linkFailed s stop.toNat dir.toNat else s)

/-- CREDIT: a packet with payload word `val` returns credits to `src` (R226). -/
def execCredit (src dst : BitVec 7) (val : Word) (s : State) : Host.Outcome State Fault Refusal :=
  if src.toNat ≥ 84 || dst.toNat ≥ 84 then .fault .noSuchUnit
  else .next (creditReturn s src.toNat dst.toNat (fieldN val 15 0) (fieldN val 31 16) (fieldN val 47 32) (fieldN val 63 48))

/-- CREDIT_RETURN_TIMEOUT: the destination returns what it has freed (R226). -/
def execCreditReturnTimeout (src dst : BitVec 7) (s : State) : Host.Outcome State Fault Refusal :=
  if src.toNat ≥ 84 || dst.toNat ≥ 84 then .fault .noSuchUnit
  else .next (creditReturnAll s src.toNat dst.toNat)

/-! ### Requests at the home (R241, R243) -/

/-- A holder number names a quad or an I/O agent. -/
def holderOk (h : BitVec 7) : Bool := decide (h.toNat < 72)

/-- Delivers a request in flight to its home. -/
def deliverReq (s : State) (op : BitVec 6) (h line : Nat) : State :=
  match takeMsg s (fun m => m.op = op && m.holder = h && m.line = line) with
  | some (m, s) => homeArrive s m
  | none => s

/-- The member of I/O agent 7 that asks for a line, and its world: open, where the world matters (log 105). -/
def agent7Member (s : State) (line : Nat) : (Nat × Bool) × State :=
  if secWm s ≤ 64 * line then ((0, true), s)
  else
    let (b, s) := freeB s
    ((if b then 0 else 6, b), s)

/-- Wrong-path or run-ahead work of some thread of quad `q` asks for a line (R181, R184, R185): a thread in run-ahead, else an open
choice among those whose partition and world permit the line. Run-ahead has then executed an open number of µops, counted in event
0x22. -/
def aheadRequest (s : State) (q line : Nat) : State :=
  let ok := (quadThreads q).filter (fun t => specOk s t (64 * line))
  let ra := ok.filter (fun t => (thr s t).runAhead)
  let pool := if ra.isEmpty then ok else ra
  match pool with
  | [] => s
  | t0 :: _ =>
    let (w, s) := freeW s
    let t := pool.getD (w.toNat % pool.length) t0
    let s := if (thr s t).runAhead then
        let (k, s) := freeW s
        pmcCount s t 0x22 (k.toNat % 512)
      else s
    sideRequest s t line .ahead

/-- A request of an L2 or agent: one in flight is delivered; otherwise an L2 that lacks the line sends it first, and an
agent without an L2 sends it as it stands. -/
def requestCmd (op : BitVec 6) (spec own : Bool) (h : BitVec 7) (line : BitVec 32) (s : State) : Host.Outcome State Fault Refusal :=
  if !holderOk h then .fault .noSuchUnit
  else
    let n := h.toNat
    let l := line.toNat
    let flying := s.net.any (fun m => m.op = op && m.holder = n && m.line = l)
    let s := if flying then s
      else if n < 64 then (if spec then aheadRequest s n l else l2Request s n l own false)
      else if n = 71 then
        let w := agent7Member s l
        l2Request w.2 71 l own spec w.1
      else if op = 0x01 then sendMsg s { op := op, holder := n, line := l } else s
    .next (deliverReq s op n l)

/-- RD_SHARED. -/
def execRdShared (h : BitVec 7) (line : BitVec 32) (spec : Bool) (s : State) : Host.Outcome State Fault Refusal :=
  requestCmd 0x01 spec false h line s
/-- RD_OWN. -/
def execRdOwn (h : BitVec 7) (line : BitVec 32) (s : State) : Host.Outcome State Fault Refusal :=
  requestCmd 0x02 false true h line s
/-- UPGRADE. -/
def execUpgrade (h : BitVec 7) (line : BitVec 32) (s : State) : Host.Outcome State Fault Refusal :=
  requestCmd 0x03 false true h line s

/-- RD_ONCE: a core's non-cacheable load in flight, or an agent's read. -/
def execRdOnce (h : BitVec 7) (line : BitVec 32) (s : State) : Host.Outcome State Fault Refusal :=
  if !holderOk h then .fault .noSuchUnit
  else
    let flying := s.net.any (fun m => m.op = 0x04 && m.holder = h.toNat && m.line = line.toNat)
    let s := if !flying && h.toNat ≥ 64 then sendMsg s { op := 0x04, holder := h.toNat, line := line.toNat } else s
    .next (deliverReq s 0x04 h.toNat line.toNat)

/-- The words of a line that enters the device: tallies are generated, poison where the packet carried it (R138). -/
def ingressLine (d : List (BitVec 64)) (ep : Bool) : Line := d.map (fun v => if ep then poison v else gen v)

/-- WR_FULL: an agent's full-line write (R251). -/
def execWrFull (h : BitVec 7) (line : BitVec 32) (data : List (BitVec 64)) (ep : Bool) (s : State) : Host.Outcome State Fault Refusal :=
  if !holderOk h || h.toNat < 64 || data.length ≠ 8 then .fault .noSuchUnit
  else .next (deliverReq (sendMsg s { op := 0x05, holder := h.toNat, line := line.toNat, data := ingressLine data ep }) 0x05 h.toNat line.toNat)

/-- WR_PARTIAL: a core's non-cacheable store in flight, or an agent's masked write (R155, R251). -/
def execWrPartial (h : BitVec 7) (line : BitVec 32) (data : List (BitVec 64)) (mask : Word) (ep : Bool) (s : State) :
    Host.Outcome State Fault Refusal :=
  if !holderOk h || data.length ≠ 8 then .fault .noSuchUnit
  else if h.toNat < 64 then .next (deliverReq s 0x06 h.toNat line.toNat)
  else .next (deliverReq (sendMsg s { op := 0x06, holder := h.toNat, line := line.toNat, data := ingressLine data ep, mask := mask }) 0x06 h.toNat line.toNat)

/-- Delivers a holder's message in flight to the home. -/
def holderMsg (op : BitVec 6) (h : BitVec 7) (line : BitVec 32) (s : State) : Host.Outcome State Fault Refusal :=
  if !holderOk h then .fault .noSuchUnit else .next (deliverReq s op h.toNat line.toNat)

/-- WR_BACK. -/
def execWrBack (h : BitVec 7) (line : BitVec 32) (s : State) : Host.Outcome State Fault Refusal := holderMsg 0x07 h line s
/-- EVICT_CLEAN. -/
def execEvictClean (h : BitVec 7) (line : BitVec 32) (s : State) : Host.Outcome State Fault Refusal := holderMsg 0x08 h line s
/-- CLEAN_LINE. -/
def execCleanLine (h : BitVec 7) (line : BitVec 32) (s : State) : Host.Outcome State Fault Refusal := holderMsg 0x09 h line s
/-- FLUSH_LINE. -/
def execFlushLine (h : BitVec 7) (line : BitVec 32) (s : State) : Host.Outcome State Fault Refusal := holderMsg 0x0A h line s

/-! ### Snoops at a holder (R244, Table 9-5) -/

/-- A snoop in flight reaches its holder, which answers in one step and frees its entry (R225). -/
def snoopCmd (op : BitVec 6) (k : Snoop) (h : BitVec 7) (line : BitVec 32) (s : State) : Host.Outcome State Fault Refusal :=
  if !holderOk h then .fault .noSuchUnit
  else
    let n := h.toNat
    let l := line.toNat
    match takeMsg s (fun m => m.op = op && m.holder = n && m.line = l) with
    | none => .next s
    | some (m, s) =>
      let (r, d, s) := holderSnoop s n l k
      .next (creditDone (sendMsg s { op := r, holder := n, line := l, data := d, part := if n < 64 then (quadPart s n).getD 0 else 0 }) m.pkt)

/-- SNP_SHARED. -/
def execSnpShared (h : BitVec 7) (line : BitVec 32) (s : State) : Host.Outcome State Fault Refusal := snoopCmd 0x10 .shared h line s
/-- SNP_INV. -/
def execSnpInv (h : BitVec 7) (line : BitVec 32) (s : State) : Host.Outcome State Fault Refusal := snoopCmd 0x11 .inv h line s
/-- SNP_READ. -/
def execSnpRead (h : BitVec 7) (line : BitVec 32) (s : State) : Host.Outcome State Fault Refusal := snoopCmd 0x12 .read h line s
/-- SNP_CLEAN. -/
def execSnpClean (h : BitVec 7) (line : BitVec 32) (s : State) : Host.Outcome State Fault Refusal := snoopCmd 0x13 .clean h line s

/-! ### Responses at the home -/

/-- A snoop response at the home (R243, R246, R256). -/
def snoopRsp (op : BitVec 6) (keeps hasData dirty : Bool) (h : BitVec 7) (line : BitVec 32) (s : State) : Host.Outcome State Fault Refusal :=
  if !holderOk h then .fault .noSuchUnit
  else
    let hn := h.toNat
    let l := line.toNat
    let n := homeOf s l
    let mine (m : Msg) : Bool := m.op = op && m.holder = hn && m.line = l
    match takeMsg s mine with
    | none => .next (if onWay s mine then s else protocolBreach s l op.toNat)
    | some (m, s) =>
      match txnOf s n l with
      | none => .next (protocolBreach s l op.toNat)
      | some t =>
        if !t.await.contains hn || (dirty && t.dataDirty) then .next (protocolBreach s l op.toNat)
        else
          let s := if keeps || t.phase == .rebuild then s else dirRemove s n l hn
          let t := { t with await := t.await.erase hn, data := if hasData && !t.dataDirty then some m.data else t.data, dataDirty := t.dataDirty || dirty }
          let s := putTxn s n t
          .next (if !t.await.isEmpty then s
            else homeNext (if t.phase == .rebuild then rebuildDone s n t else homeAfterSnoop s n t) l)

/-- SNP_RSP_I: no copy kept. -/
def execSnpRspI (h : BitVec 7) (line : BitVec 32) (s : State) : Host.Outcome State Fault Refusal := snoopRsp 0x2A false false false h line s
/-- SNP_RSP_S: a clean copy kept. -/
def execSnpRspS (h : BitVec 7) (line : BitVec 32) (s : State) : Host.Outcome State Fault Refusal := snoopRsp 0x2B true false false h line s
/-- SNP_RSP_DATA_I: dirty data, no copy kept. -/
def execSnpRspDataI (h : BitVec 7) (line : BitVec 32) (s : State) : Host.Outcome State Fault Refusal := snoopRsp 0x2C false true true h line s
/-- SNP_RSP_DATA_KEEP: dirty data, a copy kept. -/
def execSnpRspDataKeep (h : BitVec 7) (line : BitVec 32) (s : State) : Host.Outcome State Fault Refusal := snoopRsp 0x2D true true true h line s
/-- SNP_RSP_EVICT_C: clean data of an eviction in flight; the sender leaves the directory (R246). -/
def execSnpRspEvictC (h : BitVec 7) (line : BitVec 32) (s : State) : Host.Outcome State Fault Refusal := snoopRsp 0x2E false true false h line s
/-- SNP_RSP_EVICT_D: dirty data of an eviction in flight; the sender leaves the directory (R246). -/
def execSnpRspEvictD (h : BitVec 7) (line : BitVec 32) (s : State) : Host.Outcome State Fault Refusal := snoopRsp 0x2F false true true h line s

/-- Read data at the home: the waiting request is granted or answered (R243). -/
def memData (op : BitVec 6) (ue : Bool) (line : BitVec 32) (s : State) : Host.Outcome State Fault Refusal :=
  let l := line.toNat
  let n := homeOf s l
  match takeMsg s (fun m => m.op = op && m.line = l) with
  | none => .next s
  | some (m, s) =>
    match txnOf s n l with
    | some t => if t.phase == .mem then .next (homeNext (homeAnswer s n t m.data true false ue) l) else .next s
    | none => .next s

/-- MEM_DATA. -/
def execMemData (line : BitVec 32) (s : State) : Host.Outcome State Fault Refusal := memData 0x30 false line s
/-- MEM_DATA_UE: its words with tally 0xFF were found uncorrectable (R272). -/
def execMemDataUe (line : BitVec 32) (s : State) : Host.Outcome State Fault Refusal := memData 0x3B true line s

/-- MEM_ACK: the write is accepted, and a flush is acknowledged (R243). -/
def execMemAck (line : BitVec 32) (s : State) : Host.Outcome State Fault Refusal :=
  let l := line.toNat
  let n := homeOf s l
  match takeMsg s (fun m => m.op = 0x31 && m.line = l) with
  | none => .next s
  | some (m, s) =>
    match txnOf s n l with
    | some t => .next (if t.phase == .flush && m.holder = t.req.holder then homeNext (grant s n t 0x29 Line.unused false) l else s)
    | none => .next s

/-- COMP_ACK: the transaction ends, and the next request is accepted (R242). -/
def execCompAck (h : BitVec 7) (line : BitVec 32) (s : State) : Host.Outcome State Fault Refusal :=
  if !holderOk h then .fault .noSuchUnit
  else
    let l := line.toNat
    let n := homeOf s l
    let mine (m : Msg) : Bool := m.op = 0x28 && m.holder = h.toNat && m.line = l
    match takeMsg s mine with
    | none => .next (if onWay s mine then s else protocolBreach s l 0x28)
    | some (_, s) => .next (homeNext (dropTxn s n l) l)

/-- TRANSACTION_TIMEOUT: a transaction not ended within 1 ms is handled as a failed link (R256). -/
def execTransactionTimeout (line : BitVec 32) (s : State) : Host.Outcome State Fault Refusal :=
  .next (match txnOf s (homeOf s line.toNat) line.toNat with
    | some t => if t.since + 100000 ≤ s.epoch then protocolBreach s line.toNat t.req.op.toNat else s
    | none => s)

/-! ### Grants at the requester (R244) -/

/-- The words of a line whose tally is 0xFF, as found uncorrectable (R239). -/
def ueWords (d : Line) : SMap Nat :=
  (List.range 8).filterMap (fun i => if isPoisoned (lineWord d i) then some (i, 3) else none)

/-- Installs what prefetches asked for (CACHEOP 9 and 10). -/
def installPref (s : State) (q line : Nat) : State :=
  let ps := (quadOf s q).pref.filter (fun e => e.1 == line)
  let s := updQuad s q (fun k => { k with pref := k.pref.filter (fun e => e.1 != line) })
  foldS (fun s e =>
    let s := l2Array s q line
    match e.2, quadData s q line with
    | some c, (some d, s) => if (l1d s c line).isNone then l1dCopy s c line d else s
    | _, (_, s) => s) s ps

/-- A grant with data reaches an L2: `st` is the state granted, `from` the transient states it completes. -/
def l2Grant (s : State) (q line : Nat) (st : LSt) (d : Line) (ue : Bool) : State :=
  let s := setTrack s q line none
  let s := setL2 s q line (some (st, { data := d, inArr := false, err := if ue then ueWords d else [] }))
  let s := if st == .M then l2Array s q line else s
  sideGone (installPref s q line) q line

/-- A grant (R244): the requester's transient state completes and COMP_ACK is sent; one that matches no outstanding
request is a breach (R256). -/
def grantCmd (op : BitVec 6) (st : LSt) (ue : Bool) (h : BitVec 7) (line : BitVec 32) (s : State) : Host.Outcome State Fault Refusal :=
  if !holderOk h then .fault .noSuchUnit
  else
    let n := h.toNat
    let l := line.toNat
    let mine (m : Msg) : Bool := m.op = op && m.holder = n && m.line = l
    match takeMsg s mine with
    | none => .next (if onWay s mine then s else protocolBreach s l op.toNat)
    | some (m, s) =>
      let ack (s : State) : State := sendMsg s { op := 0x28, holder := n, line := l, part := if n < 64 then (quadPart s n).getD 0 else 0 }
      if 64 ≤ n && n < 71 then .next (ack { s with agentBuf := s.agentBuf ++ [(n, l, m.data)] })
      else match track s n l with
        | some tr =>
          if st == .M then
            if tr.st == .IM then .next (wakeOwners (ack (l2Grant s n l .M m.data ue)) n l)
            else .next (protocolBreach s l op.toNat)
          else if tr.st == .IS then .next (ack (l2Grant s n l st m.data ue))
          else .next (protocolBreach s l op.toNat)
        | none => .next (protocolBreach s l op.toNat)

/-- GNT_S. -/
def execGntS (h : BitVec 7) (line : BitVec 32) (s : State) : Host.Outcome State Fault Refusal := grantCmd 0x20 .S false h line s
/-- GNT_E. -/
def execGntE (h : BitVec 7) (line : BitVec 32) (s : State) : Host.Outcome State Fault Refusal := grantCmd 0x21 .E false h line s
/-- GNT_M. -/
def execGntM (h : BitVec 7) (line : BitVec 32) (s : State) : Host.Outcome State Fault Refusal := grantCmd 0x22 .M false h line s
/-- GNT_S_UE. -/
def execGntSUe (h : BitVec 7) (line : BitVec 32) (s : State) : Host.Outcome State Fault Refusal := grantCmd 0x37 .S true h line s
/-- GNT_E_UE. -/
def execGntEUe (h : BitVec 7) (line : BitVec 32) (s : State) : Host.Outcome State Fault Refusal := grantCmd 0x38 .E true h line s
/-- GNT_M_UE. -/
def execGntMUe (h : BitVec 7) (line : BitVec 32) (s : State) : Host.Outcome State Fault Refusal := grantCmd 0x39 .M true h line s

/-- GNT_UPG: an L2 in SM goes to M (R244). -/
def execGntUpg (h : BitVec 7) (line : BitVec 32) (s : State) : Host.Outcome State Fault Refusal :=
  if !holderOk h then .fault .noSuchUnit
  else
    let n := h.toNat
    let l := line.toNat
    let mine (m : Msg) : Bool := m.op = 0x23 && m.holder = n && m.line = l
    match takeMsg s mine with
    | none => .next (if onWay s mine then s else protocolBreach s l 0x23)
    | some (_, s) =>
      match track s n l, l2 s n l with
      | some tr, some (_, y) =>
        if tr.st == .SM then
          let s := setL2 (setTrack s n l none) n l (some (.M, y))
          .next (wakeOwners (sendMsg s { op := 0x28, holder := n, line := l }) n l)
        else .next (protocolBreach s l 0x23)
      | _, _ => .next (protocolBreach s l 0x23)

/-! ### Other answers at the requester -/

/-- The words of a vector load as its lanes. -/
def onceLanes (d : Line) (pa : Nat) : List TWord := (List.range 4).map (fun j => lineWord d (wordInLine pa + j))

/-- A non-cacheable load completes with its line (R251): words found uncorrectable raise cause 0x02 (R239). -/
def onceDone (t : Nat) (gd pa size : Nat) (signed : Bool) (va iw : Word) (d : Line) (ue : Bool) (s : State) : Act :=
  let w : IWord := BitVec.ofNat 32 iw.toNat
  if size = 32 then
    let l := onceLanes d pa
    if ue && l.any isPoisoned then .trap s 0x02 va
    else if l.any isFailed then .trap s 0x03 iw
    else
      let (ok, s) := match l.find? isSound with | some x => residueOk s t x.val x.tal | none => (true, s)
      if ok then .done (wvAll s t (BitVec.ofNat 5 gd) l) else .trap s 0x03 iw
  else
    let x := lineWord d (wordInLine pa)
    if ue && isPoisoned x then .trap s 0x02 va
    else loadFinish s t w (BitVec.ofNat 6 gd) x pa size signed

/-- DATA_ONCE at the requester: a thread's load completes; an agent's read is answered. -/
def dataOnce (op : BitVec 6) (ue : Bool) (h : BitVec 7) (line : BitVec 32) (s : State) : Host.Outcome State Fault Refusal :=
  if !holderOk h then .fault .noSuchUnit
  else
    let l := line.toNat
    match takeMsg s (fun m => m.op = op && m.holder = h.toNat && m.line = l) with
    | none => .next s
    | some (m, s) =>
      match m.thread with
      | none => .next s
      | some t =>
        match (thr s t).wait with
        | some (.once gd pa size signed va iw) =>
          .next (if pa / 64 = l then applyAct t 1 false (onceDone t gd pa size signed va iw m.data ue s) else s)
        | _ => .next s

/-- DATA_ONCE. -/
def execDataOnce (h : BitVec 7) (line : BitVec 32) (s : State) : Host.Outcome State Fault Refusal := dataOnce 0x24 false h line s
/-- DATA_ONCE_UE. -/
def execDataOnceUe (h : BitVec 7) (line : BitVec 32) (s : State) : Host.Outcome State Fault Refusal := dataOnce 0x3A true h line s

/-- The threads of a quad that wait for a line. -/
def fillWaiters (s : State) (q line : Nat) : List Nat :=
  (quadThreads q).filter (fun t => match (thr s t).wait with | some (.fill _ l) => l == line | _ => false)

/-- REFUSED: a speculative read was refused (R248, R182): counted, the prefetched entry goes, and a load that is no longer
speculative reads again. -/
def execRefused (h : BitVec 7) (line : BitVec 32) (s : State) : Host.Outcome State Fault Refusal :=
  if !holderOk h then .fault .noSuchUnit
  else
    let n := h.toNat
    let l := line.toNat
    match takeMsg s (fun m => m.op = 0x25 && m.holder = n && m.line = l) with
    | none => .next s
    | some (_, s) =>
      let s := if n < 64 then updR s .QUAD_COH (fun w => satInc w 23 0) n else s
      let s := setTrack s n l none
      let s := foldS (fun s t =>
        if (thr s t).side.any (fun e => e.line == l && !e.filled) then
          sideUpd (pmcCount s t 0x25 1) t (fun x => { x with side := x.side.filter (fun e => !(e.line == l && !e.filled && (e.stride || e.spec))) })
        else s) s (quadThreads n)
      .next (if (fillWaiters s n l).isEmpty then s
        else foldS (fun s t => sideRequest s t l .load) s (fillWaiters s n l))

/-- DENIED: a request failed the world or range checks of its home (R252). A waiting load or store of a thread is then
handled by the core's own checks; one past them has the outcome of R54. -/
def execDenied (h : BitVec 7) (line : BitVec 32) (s : State) : Host.Outcome State Fault Refusal :=
  if !holderOk h then .fault .noSuchUnit
  else
    let n := h.toNat
    let l := line.toNat
    match takeMsg s (fun m => m.op = 0x26 && m.holder = n && m.line = l) with
    | none => .next s
    | some (m, s) =>
      match m.thread with
      | some t =>
        match (thr s t).wait with
        | some (.once gd pa size _ _ _) =>
          .next (applyAct t 1 false (if size = 32 then .done (wvAll (threadUnmapped s t 1 pa) t (BitVec.ofNat 5 gd) (List.replicate 4 (poison 0)))
            else .done (wg (threadUnmapped s t 1 pa) t (BitVec.ofNat 6 gd) (poison 0))))
        | some (.wrAck a) => .next (applyAct t 1 false (.done (threadUnmapped s t 2 (64 * a))))
        | _ => .next s
      | none =>
        let s := setTrack s n l none
        let ws := fillWaiters s n l
        let s := foldS (fun s t => sideUpd s t (fun x => { x with side := x.side.filter (fun e => e.line != l) })) s (quadThreads n)
        let s := foldS (fun s t => wakeIf s t (fun _ => true)) s ws
        .next (wakeOwners s n l)

/-- A load that run-ahead may start from (R184). -/
def raLoad : Instr → Bool
  | .ld _ _ _ _ => true
  | .lw _ _ _ _ => true
  | .lwu _ _ _ _ => true
  | .lh _ _ _ _ => true
  | .lhu _ _ _ _ => true
  | .lb _ _ _ _ => true
  | .lbu _ _ _ _ => true
  | .lda _ _ _ _ => true
  | _ => false

/-- MISS_NOTE: the LLC missed (R243); a thread whose oldest load waits for the line enters run-ahead where R184 allows. -/
def execMissNote (h : BitVec 7) (line : BitVec 32) (s : State) : Host.Outcome State Fault Refusal :=
  if !holderOk h then .fault .noSuchUnit
  else
    let n := h.toNat
    let l := line.toNat
    match takeMsg s (fun m => m.op = 0x27 && m.holder = n && m.line = l) with
    | none => .next s
    | some (_, s) => .next (foldS (fun s t =>
        match (thr s t).wait with
        | some (.fill i k) =>
          if k = l then
            let ra := raLoad i && bit (getR s .CORE_CTL (t / 4)) 0 && bit (getR s .CORE_THCFG (t / 4) (t % 4)) 2 && !calCritical s t
            let s := updThr s t (fun x => { x with missNoted := true, runAhead := ra })
            if ra then pmcCount s t 0x21 1 else s
          else s
        | _ => s) s (quadThreads n))

/-- WR_ACK: a write, eviction, clean or flush is complete (R244): a waiting thread goes on, a writeback buffer is freed,
and loads that waited for it ask for their line. -/
def execWrAck (h : BitVec 7) (line : BitVec 32) (s : State) : Host.Outcome State Fault Refusal :=
  if !holderOk h then .fault .noSuchUnit
  else
    let n := h.toNat
    let l := line.toNat
    match takeMsg s (fun m => m.op = 0x29 && m.holder = n && m.line = l) with
    | none => .next s
    | some (m, s) =>
      let s := match track s n l with
        | some tr => if tr.st == .MI || tr.st == .EI || tr.st == .SI then setTrack s n l none else s
        | none => s
      let s := match m.thread with
        | some t => (match (thr s t).wait with
          | some (.wrAck a) => if a = l then applyAct t 1 false (.done s) else s
          | _ => s)
        | none => s
      let s := foldS (fun s t => sideRequest s t l .load) s (fillWaiters s n l)
      .next (foldS (fun s t => wakeIf s t (fun w => match w with | .own _ a => a == l | _ => false)) s (quadThreads n))

/-! ### Register answers and interrupts (R59, R191) -/

/-- A load from register space ends with its word, a residue-class result (R59, R164). -/
def regLoadDone (s : State) (t gd : Nat) (iw : Word) (x : TWord) : Act :=
  let r := residueOk s t x.val x.tal
  if r.1 then .done (wg r.2 t (BitVec.ofNat 6 gd) x) else .trap r.2 0x03 iw

/-- REG_DATA: the word read lands in its register with a generated tally (R59). -/
def execRegData (t : BitVec 10) (s : State) : Host.Outcome State Fault Refusal :=
  let u := t.toNat
  .next (match s.regNet.find? (fun m => m.thread = u && m.answer && !m.write && arrivedPkt s m.pkt) with
    | none => s
    | some m =>
      let s := ejectPkt { s with regNet := s.regNet.erase m } m.pkt
      match (thr s u).wait with
      | some (.regRead gd iw) => applyAct u 1 false (regLoadDone s u gd iw m.word)
      | _ => s)

/-- REG_ACK: the register write is complete (R59). -/
def execRegAck (t : BitVec 10) (s : State) : Host.Outcome State Fault Refusal :=
  let u := t.toNat
  .next (match s.regNet.find? (fun m => m.thread = u && m.answer && m.write && arrivedPkt s m.pkt) with
    | none => s
    | some m =>
      let s := ejectPkt { s with regNet := s.regNet.erase m } m.pkt
      match (thr s u).wait with
      | some .regWrite => applyAct u 1 false (.done s)
      | _ => s)

/-- IRQ_SET: a unit of partition `p` asserts or deasserts a vector at a thread (R191). The source is known by its thread
and vector. -/
def execIrqSet (t : BitVec 10) (vector : BitVec 6) (on : Bool) (p : BitVec 4) (s : State) : Host.Outcome State Fault Refusal :=
  let src := 2 ^ 60 + t.toNat * 64 + vector.toNat
  .next (if on then irqAssert s src (some p.toNat) t.toNat vector.toNat else irqClear s src)

end Sys2Proof.Machine
end

