-- ==== Sys2Proof/Machine/Hawser.lean ====
section
/-! DEFINITION. The Hawser peer ports (ch. 18): the link, windows, the tally across the link, time and mirrored writes. -/

namespace Sys2Proof.Machine

/-! ### Reach of an owner (Table 17-5) -/

/-- What the checks of a home answer to an address. -/
inductive Reach where
  | ok
  /-- Secure memory, for a requester of the normal world (R361). -/
  | secure
  /-- DRAM outside the owner's reach (R252). -/
  | range
  /-- Not DRAM that any requester of this kind reaches (R54, R57). -/
  | unmapped
  deriving DecidableEq, Repr

/-- What the owner `kind`, `no` of a block reaches at an address (Table 17-5). -/
def ownerReach (s : State) (kind no pa : Nat) : Reach :=
  match addrCls s pa with
  | .dram =>
    if kind = 3 then .ok
    else if pa < secWm s then .secure
    else if kind = 1 then (if inRanges s no pa then .ok else .range)
    else if kind = 2 then (if (List.range 16).any (fun p => inRanges s p pa) then .range else .ok)
    else .range
  | _ => .unmapped

/-- The end of the stretch of the owner's reach that begins at `a`; `a` itself when it is out of reach. -/
def reachEnd (s : State) (kind no a : Nat) : Nat :=
  match ownerReach s kind no a with
  | .ok =>
    let stops : List Nat := (if a < s.rig.dev.ptBase then [s.rig.dev.ptBase] else []) ++
      (if kind = 1 then ((knots s no).ranges.filter (fun r => r.1 ≤ a && a < r.1 + r.2)).map (fun r => r.1 + r.2)
       else if kind = 2 then ((List.range 16).flatMap (fun p => (knots s p).ranges.map Prod.fst)).filter (fun b => a < b)
       else [])
    stops.foldl min 0x4000000000
  | _ => a

/-- All of [lo, hi) is in the owner's reach. -/
def reachAll (s : State) (kind no lo hi : Nat) (fuel : Nat := 300) : Bool :=
  match fuel with
  | 0 => false
  | fuel + 1 =>
    if hi ≤ lo then true
    else
      let e := reachEnd s kind no lo
      if e ≤ lo then false else reachAll s kind no e hi fuel

/-! ### Requests that end (R436, R54) -/

/-- The stop and unit of the I/O agent of a DMA channel (Tables 2-3, 8-2). -/
def dmaStop (ch : Nat) : Nat := if ch < 128 then 81 else 83

/-- The port acknowledges an ANNOUNCE once no request stamped with an older generation is outstanding (R435). -/
def annSettle (s : State) (k : Nat) : State :=
  if s.hawsNet.any (fun r => r.port = k && fieldN (getR s .HAWS_PEER_WIN k r.win) 55 48 ≠ r.gen) then s
  else updHaws s k (fun h => { h with annAck := false })

/-- Removes an outbound request. -/
def hawsDrop (s : State) (r : HawsReq) : State := { s with hawsNet := s.hawsNet.erase r }

/-- An outbound request has the outcome of an unmapped address (R54, R436). Requests numbered from 1,024 are those of
DMA channels. -/
def hawsFail (s : State) (r : HawsReq) : State :=
  let s := hawsDrop s r
  if r.thread ≥ 1024 then
    let ch := r.thread - 1024
    let o := blkOwner s (8 + ch / 16)
    let s := recordUnmapped s (dmaStop ch) 0 (if o.1 = 1 then o.2 else 0) 6 r.pa (o.1 = 3)
    updDma s ch (fun c => { c with bad := 2, hawsOut := c.hawsOut - 1 })
  else
    let t := r.thread
    match (thr s t).wait with
    | some (.hawser gd pa size _ _ _) =>
      if pa ≠ r.pa then s
      else if r.write then applyAct t 1 false (.done (threadUnmapped s t 2 pa))
      else if size = 32 then
        applyAct t 1 false (.done (wvAll (threadUnmapped s t 1 pa) t (BitVec.ofNat 5 gd) (List.replicate 4 (poison 0))))
      else applyAct t 1 false (.done (wg (threadUnmapped s t 1 pa) t (BitVec.ofNat 6 gd) (poison 0)))
    | _ => s

/-- An outbound request is answered: a load with its line, a store with WRITE_ACK (R433). -/
def hawsDone (s : State) (r : HawsReq) (d : Line) : State :=
  let s := hawsDrop s r
  if r.thread ≥ 1024 then
    updDma s (r.thread - 1024) (fun c => { c with hawsOut := c.hawsOut - 1, hawsGot := if r.write then c.hawsGot else c.hawsGot ++ [(r.pa / 64, d)] })
  else
    let t := r.thread
    match (thr s t).wait with
    | some (.hawser gd pa size signed va iw) =>
      if pa ≠ r.pa then s
      else if r.write then applyAct t 1 false (.done s)
      else applyAct t 1 false (onceDone t gd pa size signed va iw d false s)
    | _ => s

/-- Looks a refused request up again and sends it with the new stamp, at most 4 times; with no newer stamp it waits for the
peer's ANNOUNCE (R436). -/
def hawsRetry (s : State) (r : HawsReq) : State :=
  if r.retries ≥ 4 then hawsFail s r
  else match hawsLookup s r.port r.pa with
    | none => hawsFail s r
    | some (w, g, p) =>
      let r' : HawsReq := if w = r.win && g = r.gen then { r with stale := true }
        else { r with win := w, gen := g, peer := p, retries := r.retries + 1, stale := false }
      { s with hawsNet := s.hawsNet.map (fun x => if x == r then r' else x) }

/-! ### The link (R430–R432) -/

/-- Own record of port `k` in the HAWSER knot. -/
def hawsKnot (s : State) (k : Nat) : HawsKnot := s.rig.dev.hawser.getD k {}

/-- Sets STATE of a port; the time source is chosen again (R285). -/
def hawsSet (s : State) (k st : Nat) : State := evalSource (updR s .HAWS_STS (fun w => setField w 2 0 st) k)

/-- A commit ends with this outcome (R435). -/
def commitEnd (s : State) (k outcome : Nat) : State :=
  updHaws (updR s .HAWS_STS (fun w => setBit (setField w 23 22 outcome) 21 false) k) k (fun h => { h with annSent := none })

/-- The link goes DOWN: outstanding requests end (R436), queued mirrored writes are lost (R440), a running commit completes
(R435). -/
def hawsDown (s : State) (k : Nat) : State :=
  let s := if hawsState s k = 3 then updR s .HAWS_CNT (fun w => satInc w 31 0) k 7 else s
  let s := updR (hawsSet s k 0) .HAWS_STS (fun w => setBit w 19 false) k
  let s := foldS hawsFail s (s.hawsNet.filter (fun r => r.port = k))
  let s := mirrorLost s k (hawsOf s k).mirrorQ.length
  let s := if (hawsOf s k).annSent.isSome then commitEnd s k 2 else s
  updHaws s k (fun h => { h with mirrorQ := [], annAck := false, replays := 0, timeOut := false })

/-- A port may train (R431): it has a role and a cable, its block is OWNED, and its power domain is on. -/
def hawsMayTrain (s : State) (k : Nat) : Bool :=
  (hawsKnot s k).role ≠ 0 && (hawsOf s k).cable && blkState s (24 + k) = 1 && domState s (410 + k) = 1

/-- DOWN is left for TRAINING as soon as the port may train (Table 18-1). -/
def hawsRetrain (s : State) (k : Nat) : State :=
  if hawsState s k = 0 && hawsMayTrain s k then updHaws (hawsSet s k 1) k (fun h => { h with trainAt := s.epoch }) else s

/-- HCPRS_CHANGE: the cable-present input of port `k` changes (R26, R431). -/
def execHcprsChange (k : BitVec 2) (absent : Bool) (s : State) : Host.Outcome State Fault Refusal :=
  let n := k.toNat
  let s := updHaws s n (fun h => { h with cable := !absent })
  .next (if absent then (if hawsState s n = 0 then s else hawsDown s n)
    else hawsRetrain s n)

/-- HAWSER_TRAINED: lanes aligned and FEC locked, the port enters HELLO (R431). A port that is DOWN and may train passes
through TRAINING in this step. -/
def execHawserTrained (k : BitVec 2) (s : State) : Host.Outcome State Fault Refusal :=
  let n := k.toNat
  .next (if hawsMayTrain s n && decide (hawsState s n ≤ 1) then hawsSet s n 2 else s)

/-- HAWSER_TRAINING_TIMEOUT: 500 ms without lock; the port goes DOWN and tries again (R431). -/
def execHawserTrainingTimeout (k : BitVec 2) (s : State) : Host.Outcome State Fault Refusal :=
  .next (if hawsState s k.toNat = 1 && decide ((hawsOf s k.toNat).trainAt + 50000000 ≤ s.epoch) then hawsRetrain (hawsSet s k.toNat 0) k.toNat else s)

/-- Writes one announced window into the peer table. -/
def peerWinSet (s : State) (k : Nat) (e : PeerWin) : State :=
  let w := e.win.toNat
  let v := setField (setField (setField (setBit (setBit (setBit 0 63 e.valid) 62 e.wr) 61 e.rd) 55 48 e.gen.toNat) 47 32 e.size.toNat) 14 0 e.aper.toNat
  updHaws (setR s .HAWS_PEER_WIN v k w) k (fun h => { h with peerBase := SMap.set (fun _ => 0) h.peerBase w (e.base.toNat / 0x200000 * 0x200000) })

/-- The reason for HELD, 0 for none (R432). -/
def helloReason (s : State) (k : Nat) (peerId : Word) (sigOk : Bool) (role : Nat) (flags : BitVec 3) : Nat :=
  let own := hawsKnot s k
  if !sigOk || peerId ≠ own.peerId then 1
  else if !((own.role = 1 && role = 2) || (own.role = 2 && role = 1) || (own.role = 3 && role = 3)) then 2
  else if own.epochSource && flags.getLsbD 1 then 3
  else 0

/-- HAWSER_HELLO: the peer's HELLO is checked (R432); its windows come again (R435), and the tally and mirror settings are
taken (R438, R440). `sigOk` is the outcome of the signature check over both nonces. -/
def execHawserHello (k : BitVec 2) (peerId : Word) (sigOk : Bool) (role : BitVec 2) (flags : BitVec 3) (wins : List PeerWin) (s : State) :
    Host.Outcome State Fault Refusal :=
  let n := k.toNat
  .next (if hawsState s n ≠ 2 then s
    else
      let own := hawsKnot s n
      let s := setR s .HAWS_PEER_ID peerId n
      let why := helloReason s n peerId sigOk role.toNat flags
      let s := updR s .HAWS_STS (fun w => setField (setField (setField w 16 14 why) 13 12 role.toNat) 11 10 own.role) n
      if why ≠ 0 then alm (hawsSet s n 4) 0xB011 3 13 n why
      else
        let s := foldS (fun s w => setR s .HAWS_PEER_WIN 0 n w) s (List.range 16)
        let s := foldS (fun s e => peerWinSet s n e) s wins
        let s := updR s .HAWS_STS (fun w => setBit (setBit (setBit w 19 (own.mirror && own.role ≠ 3 && flags.getLsbD 2)) 18 own.acceptTallies) 17 (flags.getLsbD 0)) n
        hawsSet s n 3)

/-- HAWSER_LINK_LOSS: a link in HELLO or UP is lost, and trains again where it may (R431). -/
def execHawserLinkLoss (k : BitVec 2) (s : State) : Host.Outcome State Fault Refusal :=
  .next (if hawsState s k.toNat = 2 || hawsState s k.toNat = 3 then hawsRetrain (hawsDown s k.toNat) k.toNat else s)

/-- HAWSER_REPLAY: a packet failed its CRC and is replayed; `again` says that it is the packet replayed last. After 7
failed replays the link goes DOWN and trains again (R430). -/
def execHawserReplay (k : BitVec 2) (again : Bool) (s : State) : Host.Outcome State Fault Refusal :=
  let n := k.toNat
  .next (if hawsState s n ≠ 3 then s
    else
      let f := if again then (hawsOf s n).replays + 1 else 0
      if 7 ≤ f then hawsRetrain (alm (hawsDown s n) 0xB010 4 13 n) n
      else updHaws (updR s .HAWS_CNT (fun w => satInc w 31 0) n 6) n (fun h => { h with replays := f }))

/-! ### Words across the link (R438) -/

/-- Words received on port `k`: with their tallies where the peer sends them, otherwise with generated tallies, poison
where the POISON bit is set. -/
def linkReceived (s : State) (k : Nat) (data : List (BitVec 64)) (tals : List (BitVec 8)) (psn : BitVec 8) : Line :=
  (List.range 8).map (fun i =>
    let v := data.getD i 0
    if bit (getR s .HAWS_STS k) 18 then ⟨v, tals.getD i 0⟩
    else if psn.getLsbD i then poison v else gen v)

/-! ### Inbound requests (R434) -/

/-- Answers an inbound request. -/
def inboundAnswer (s : State) (k st : Nat) (d : Line) : State := updHaws s k (fun h => { h with lastResp := some (st, d) })

/-- Refuses an inbound request and counts it. -/
def inboundRefuse (s : State) (k st : Nat) : State :=
  inboundAnswer (updR s .HAWS_CNT (fun w => satInc w 31 0) k (if st = 2 then 1 else 2)) k st Line.zero

/-- HAWSER_INBOUND_REQUEST: a request of the peer for the line of `addr`, checked and issued with the identity of the
port's owner (R434). -/
def execHawserInboundRequest (k : BitVec 2) (win : BitVec 4) (g : BitVec 8) (addr : BitVec 52) (write : Bool) (mask : Word)
    (data : List (BitVec 64)) (tals : List (BitVec 8)) (psn : BitVec 8) (s : State) : Host.Outcome State Fault Refusal :=
  let n := k.toNat
  let w := win.toNat
  let a := addr.toNat
  .next (if hawsState s n ≠ 3 then s
    else
      let act := getR s .HAWS_WIN_ACT n w
      let (loc, peer) := SMap.get (fun _ => (0, 0)) (hawsOf s n).active w
      let base := fieldN loc 51 21 * 0x200000
      if fieldN act 63 56 ≠ g.toNat then inboundRefuse s n 2
      else if !bit act 55 || a < base || base + fieldN loc 15 0 * 0x200000 ≤ a then inboundRefuse s n 3
      else if !(if write then bit peer 62 else bit peer 61) then inboundRefuse s n 4
      else
        let (kind, no) := blkOwner s (24 + n)
        let part := if kind = 1 then no else 0
        match ownerReach s kind no a with
        | .unmapped => inboundRefuse (recordUnmapped s 81 1 part 7 a (kind = 3)) n 5
        | .range => inboundRefuse s n 5
        | .secure => inboundRefuse (unitWorldRefusal s 13 n 81 1 part a) n 5
        | .ok =>
          if write then inboundAnswer (agentWrite s (a / 64) (linkReceived s n data tals psn) mask 67) n 1 Line.zero
          else
            let (d, _, s) := agentLine s (a / 64) 67
            inboundAnswer s n 0 (linkWords s n d))

/-! ### Answers of the peer (R433, R436) -/

/-- The outstanding request of a requester for a peer address. -/
def hawsFind (s : State) (k req addr : Nat) : Option HawsReq :=
  s.hawsNet.find? (fun r => r.port = k && r.thread = req && r.peer = addr)

/-- HAWSER_RESPONSE: data, WRITE_ACK, or a refusal other than STALE_WINDOW (R433, R434). -/
def execHawserResponse (k : BitVec 2) (req : BitVec 11) (addr : BitVec 52) (refused : Bool) (data : List (BitVec 64)) (tals : List (BitVec 8))
    (psn : BitVec 8) (s : State) : Host.Outcome State Fault Refusal :=
  .next (match hawsFind s k.toNat req.toNat addr.toNat with
    | none => s
    | some r => annSettle (if refused then hawsFail s r else hawsDone s r (linkReceived s k.toNat data tals psn)) k.toNat)

/-- STALE_WINDOW: the port looks the address up again, at once or at the peer's ANNOUNCE (R436). -/
def execStaleWindow (k : BitVec 2) (req : BitVec 11) (addr : BitVec 52) (s : State) : Host.Outcome State Fault Refusal :=
  .next (match hawsFind s k.toNat req.toNat addr.toNat with
    | none => s
    | some r => annSettle (hawsRetry (updR s .HAWS_CNT (fun w => satInc w 31 0) k.toNat 0) r) k.toNat)

/-! ### Commits (R435) -/

/-- A requester for whom a Hawser port's fields act (R441, R373). -/
def hawsWriter (s : State) (who : Requester) (k : Nat) : Bool := isBowline who || ownsBlock s who (24 + k)

/-- A window named by a commit, valid or not, is inside the owner's reach and inside the aperture. -/
def windowFits (s : State) (k w : Nat) : Bool :=
  let loc := getR s .HAWS_WIN_LOC k w
  let peer := getR s .HAWS_WIN_PEER k w
  let base := fieldN loc 51 21 * 0x200000
  let (kind, no) := blkOwner s (24 + k)
  decide (fieldN peer 14 0 + fieldN loc 15 0 ≤ 32768) && reachAll s kind no base (base + fieldN loc 15 0 * 0x200000)

/-- Takes the shadow of a window as its active form: GEN rises where they differ. -/
def windowTake (s : State) (k w : Nat) : State :=
  let loc := getR s .HAWS_WIN_LOC k w
  let peer := getR s .HAWS_WIN_PEER k w
  if SMap.get (fun _ => (0, 0)) (hawsOf s k).active w = (loc, peer) then s
  else
    let s := updHaws s k (fun h => { h with active := SMap.set (fun _ => (0, 0)) h.active w (loc, peer) })
    updR s .HAWS_WIN_ACT (fun v => setBit (setField v 63 56 (fieldN v 63 56 + 1)) 55 (bit peer 63)) k w

/-- A commit of the windows of a mask. Inbound requests are whole steps, so none is in flight at a home: the commit waits
for the peer's acknowledgement alone, and while the link is not UP it completes at once. -/
def windowCommit (s : State) (k mask : Nat) : State :=
  let ws := onesBelow 16 mask
  if bit (getR s .HAWS_STS k) 21 || !ws.all (windowFits s k) then updR s .HAWS_STS (fun w => setField w 23 22 1) k
  else
    let s := foldS (fun s w => windowTake s k w) s ws
    if hawsState s k = 3 then
      updHaws (updR s .HAWS_STS (fun w => setBit w 21 true) k) k (fun h => { h with annSent := some s.epoch })
    else commitEnd s k 0

/-- WINDOW_COMMIT: a write of HAWS_WIN_COMMIT. -/
def execWindowCommit (who : Requester) (k : BitVec 2) (mask : BitVec 16) (s : State) : Host.Outcome State Fault Refusal :=
  .next (regCmd s ⟨.HAWS_WIN_COMMIT, k.toNat, 0, 0⟩ (fun s =>
    if hawsWriter s who k.toNat then windowCommit s k.toNat mask.toNat else refuseReg s ⟨.HAWS_WIN_COMMIT, k.toNat, 0, 0⟩ who))

/-- ANNOUNCE: the peer table takes the new forms, refused requests are sent again, and the acknowledgement waits for the
requests stamped with an older generation (R435, R436). -/
def execAnnounce (k : BitVec 2) (wins : List PeerWin) (s : State) : Host.Outcome State Fault Refusal :=
  let n := k.toNat
  .next (if hawsState s n ≠ 3 then s
    else
      let s := foldS (fun s e => peerWinSet s n e) s wins
      let s := updHaws s n (fun h => { h with annAck := true })
      annSettle (foldS hawsRetry s (s.hawsNet.filter (fun r => r.port = n && r.stale))) n)

/-- ANNOUNCE_ACK: the commit completes (R435). -/
def execAnnounceAck (k : BitVec 2) (s : State) : Host.Outcome State Fault Refusal :=
  .next (if (hawsOf s k.toNat).annSent.isSome then commitEnd s k.toNat 0 else s)

/-- ANNOUNCE_TIMEOUT: due 10 ms after an ANNOUNCE that is not acknowledged (R435). -/
def execAnnounceTimeout (k : BitVec 2) (s : State) : Host.Outcome State Fault Refusal :=
  .next (match (hawsOf s k.toNat).annSent with
    | some e => if e + 1000000 ≤ s.epoch then hawsRetrain (hawsDown s k.toNat) k.toNat else s
    | none => s)

/-- A splice reset of the port (R437, Table 15-7): the link goes DOWN, VALID clears in every window, every GEN rises, and
the other registers return to reset. -/
def hawsSpliceReset (s : State) (k : Nat) : State :=
  let s := if hawsState s k = 0 then s else hawsDown s k
  let role := fieldN (getR s .HAWS_STS k) 11 10
  let s := setR s .HAWS_STS (setField (regReset .HAWS_STS) 11 10 role) k
  let s := setR (setR s .HAWS_PEER_ID 0 k) .HAWS_TIME 0 k
  let s := foldS (fun s n => setR s .HAWS_CNT 0 k n) s (List.range 8)
  let s := foldS (fun s w =>
    let s := setR (setR (setR s .HAWS_WIN_LOC 0 k w) .HAWS_WIN_PEER 0 k w) .HAWS_PEER_WIN 0 k w
    updR s .HAWS_WIN_ACT (fun v => setField 0 63 56 (fieldN v 63 56 + 1)) k w) s (List.range 16)
  updHaws s k (fun h => { h with active := [], peerBase := [], lastResp := none, timeTx := none })

/-! ### Time (R439) -/

/-- HAWSER_TIME_REQUEST: the epoch-source port asks its peer, once per 1 ms. -/
def execHawserTimeRequest (k : BitVec 2) (s : State) : Host.Outcome State Fault Refusal :=
  .next (if hawsState s k.toNat = 3 && (hawsKnot s k.toNat).epochSource && decide ((hawsOf s k.toNat).timeAt + 100000 ≤ s.epoch) then
      updHaws s k.toNat (fun h => { h with timeOut := true, timeAt := s.epoch }) else s)

/-- HAWSER_TIME_ANSWER: the four timestamps in ns form a time mark. -/
def execHawserTimeAnswer (k : BitVec 2) (t1 t2 t3 t4 : Word) (s : State) : Host.Outcome State Fault Refusal :=
  let n := k.toNat
  .next (if hawsState s n ≠ 3 || !(hawsOf s n).timeOut then s
    else
      let a : Int := (t2 - t1).toInt
      let b : Int := (t4 - t3).toInt
      let asym : Int := (BitVec.ofNat 16 (fieldN (getR s .HAWS_TIME n) 15 0)).toInt
      let e := (a - b) / 2 + asym
      let delay := (max 0 (min 65535 ((a + b) / 2))).toNat
      let s := updHaws s n (fun h => { h with timeOut := false })
      let s := updR s .HAWS_TIME (fun w => setField (setField w 63 48 delay) 47 32 (satErr e)) n
      if fieldN (getR s .CLK_EPOCH_STS 0) 9 8 = 2 && fieldN (getR s .CLK_EPOCH_STS 0) 11 10 = n then acceptMark s e 1000000 else s)

/-- PEER_TIME_REQUEST: the peer's TIME request is answered with the stamps of the PCS. -/
def execPeerTimeRequest (k : BitVec 2) (t1 t2 t3 : Word) (s : State) : Host.Outcome State Fault Refusal :=
  .next (if hawsState s k.toNat = 3 then updHaws s k.toNat (fun h => { h with timeTx := some (t1, t2, t3) }) else s)

/-! ### Mirrored writes (R350, R440) -/

/-- MIRRORED_WRITE: at a primary the oldest queued write leaves the port, its value with its tally or checked and marked (R141, R438); at a
secondary the write that arrived is
performed. -/
def execMirroredWrite (k : BitVec 2) (p : BitVec 24) (val : Word) (tal : BitVec 8) (epoch word2 : Word) (genFail : Bool) (s : State) :
    Host.Outcome State Fault Refusal :=
  let n := k.toNat
  .next (if hawsState s n ≠ 3 || !bit (getR s .HAWS_STS n) 19 then s
    else if (hawsKnot s n).role = 1 then
      match (hawsOf s n).mirrorQ with
      | [] => s
      | m :: r => updR (updHaws s n (fun h => { h with mirrorQ := r, mirrorTx := some { m with val := (linkWords s n [m.val]).headD m.val } })) .HAWS_CNT (fun w => satInc w 31 0) n 3
    else if (hawsKnot s n).role = 2 then
      let v : TWord := if bit (getR s .HAWS_STS n) 18 then ⟨val, tal⟩ else if tal = poisonTally then poison val else gen val
      ptMirror (updR s .HAWS_CNT (fun w => satInc w 31 0) n 4) p.toNat v epoch word2 genFail
    else s)

end Sys2Proof.Machine
end

