-- ==== Sys2Proof/Machine/Upstream.lean ====
section
/-! DEFINITION. What a host port sends: TLPs, MSI-X messages, error records (ch. 16), and the completion queues of tenant
slices (R416, R419). -/

namespace Sys2Proof.Machine

/-! ### The port (HOST_STS) -/

/-- The link is up. -/
def hostUp (s : State) (h : Nat) : Bool := bit (getR s .HOST_STS h) 0
/-- Bus Master Enable. -/
def hostBme (s : State) (h : Nat) : Bool := bit (getR s .HOST_STS h) 18
/-- The function is in D3hot. -/
def hostD3 (s : State) (h : Nat) : Bool := fieldN (getR s .HOST_STS h) 17 16 = 3
/-- A reset event is in progress (R405). -/
def hostInReset (s : State) (h : Nat) : Bool := bit (getR s .HOST_STS h) 20

/-- The port may issue upstream requests (R405, R407). -/
def upstreamOk (s : State) (h : Nat) : Bool := hostBme s h && !hostD3 s h && !hostInReset s h

/-- Starts a command that may send: the TLPs of the last one are forgotten. -/
def txClear (s : State) : State := { s with hostTx := [] }

/-- Traffic brings the port's link back to L0 (R408). -/
def linkWake (s : State) (h : Nat) : State := updR s .HOST_STS (fun w => setField w 15 14 0) h

/-- The port of a TLP. -/
def tlpPort : HostTlp → Nat
  | .write h _ _ _ => h
  | .read h _ _ _ => h
  | .msg h _ _ => h
  | .cpl h _ _ _ => h

/-- Sends a TLP. -/
def tx (s : State) (t : HostTlp) : State := linkWake { s with hostTx := s.hostTx ++ [t] } (tlpPort t)

/-- Reset values of the writable configuration dwords (PRESUMED, log 60: the Base specification's): Device Control, Link
Control 2, AER severities and correctable mask. -/
def cfgDflt (i : Nat) : Nat := if i = 22 then 0x2810 else if i = 32 then 5 else if i = 67 then 0x462030 else if i = 69 then 0x2000 else 0

/-- A stored dword of configuration space, by offset / 4. -/
def cfgDw (s : State) (h i : Nat) : Nat := SMap.get cfgDflt (hostOf s h).cfg i

/-- Max Payload Size in bytes: Device Control bits [7:5], at most 512 (Table 16-1). -/
def maxPayload (s : State) (h : Nat) : Nat := min 512 (128 * 2 ^ (cfgDw s h 0x16 / 32 % 8))

/-- Max Read Request Size in bytes: Device Control bits [14:12], at most 4,096 (Table 16-1). -/
def maxRead (s : State) (h : Nat) : Nat := min 4096 (128 * 2 ^ (cfgDw s h 0x16 / 4096 % 8))

/-- Posts words to host memory in TLPs of at most Max Payload Size (R426). -/
def postWords (s : State) (h : Nat) (pasid : Option Nat) (addr : Nat) (l : List Word) (fuel : Nat := 600) : State :=
  match fuel, l with
  | 0, _ => s
  | _, [] => s
  | fuel + 1, l =>
    let n := maxPayload s h / 8
    postWords (tx s (.write h pasid addr (l.take n))) h pasid (addr + 8 * n) (l.drop n) fuel

/-! ### MSI-X (R401, R402) -/

/-- Entry `e` of the table. -/
def msixEnt (s : State) (h e : Nat) : MsixEnt := SMap.get (fun _ => {}) (hostOf s h).msix e
/-- Replaces an entry. -/
def setMsix (s : State) (h e : Nat) (x : MsixEnt) : State :=
  updHost s h (fun p => { p with msix := SMap.set (fun _ => {}) p.msix e x })

/-- The function's MSI-X Enable is 1 and its Function Mask is 0 (Message Control at offset 0xB2). -/
def msixFunctionOn (s : State) (h : Nat) : Bool := (cfgDw s h 0x2C).testBit 31 && !(cfgDw s h 0x2C).testBit 30

/-- Something blocks the entry's messages (R402). -/
def msixBlocked (s : State) (h e : Nat) : Bool :=
  (msixEnt s h e).masked || !msixFunctionOn s h || !upstreamOk s h || !hostUp s h

/-- Some source of the entry is asserted. -/
def msixAsserted (s : State) (h e : Nat) : Bool := (hostOf s h).src.any (fun x => x.1 == e)

/-- Source `src` of entry `e` asserts: its message is due, or the Pending bit is set and the message held (R402). Sources
numbered from 2^16 are events with no level: they end when their message is sent. -/
def msixAssert (s : State) (h e src : Nat) : State :=
  if (hostOf s h).src.contains (e, src) then s
  else
    let s := updHost s h (fun p => { p with src := p.src ++ [(e, src)] })
    if msixBlocked s h e then
      updR (setMsix s h e { msixEnt s h e with pending := true }) .HOST_CNT (fun w => satInc w 31 0) h 7
    else setMsix s h e { msixEnt s h e with due := true }

/-- The source deasserts; the last one of its entry clears the Pending bit (R402). -/
def msixDeassert (s : State) (h e src : Nat) : State :=
  let s := updHost s h (fun p => { p with src := p.src.filter (fun x => x != (e, src)) })
  if msixAsserted s h e then s else setMsix s h e { msixEnt s h e with pending := false, due := false }

/-- Messages that no condition blocks any more become due (R402). -/
def msixUnblock (s : State) (h : Nat) : State :=
  foldS (fun s e =>
    let x := msixEnt s h e
    if x.pending && !msixBlocked s h e && msixAsserted s h e then setMsix s h e { x with pending := false, due := true } else s)
    s (SMap.keys (hostOf s h).msix)

/-- Sends the message of an entry that is due, or holds it where something blocks it (R402). -/
def msixSend (s : State) (h e : Nat) : State :=
  let x := msixEnt s h e
  if !x.due then s
  else if msixBlocked s h e then
    updR (setMsix s h e { x with due := false, pending := true }) .HOST_CNT (fun w => satInc w 31 0) h 7
  else
    let s := setMsix (tx s (.msg h x.addr x.data)) h e { x with due := false }
    updHost s h (fun p => { p with src := p.src.filter (fun y => !(y.1 == e && decide (2 ^ 16 ≤ y.2))) })

/-- Source numbers of manager entries: 0 HOST_ERR.VALID; from 2^16: a link change, a rebuilt manifest, a demand. -/
def srcLinkChange : Nat := 2 ^ 16
/-- The manifest was rebuilt (R400). -/
def srcManifest : Nat := 2 ^ 16 + 1
/-- Block 29 + h is demanded. -/
def srcDemand : Nat := 2 ^ 16 + 2
/-- The source of slice `n`. -/
def srcSlice (n : Nat) : Nat := 4096 + n

/-! ### Errors (R410) -/

/-- The AER uncorrectable status bit of an error kind of Table 16-9. -/
def aerBit (kind : Nat) : Nat := if kind = 0 then 20 else if kind = 1 then 15 else if kind = 2 then 12 else if kind = 3 then 19 else 14

/-- Dword `i` of a TLP header as the AER Header Log holds it, its first byte the most significant. -/
def hdrDw (hdr0 hdr1 : Word) (i : Nat) : Nat := beNat ((List.range 4).map (fun j => byteOf (if i < 2 then hdr0 else hdr1) (4 * (i % 2) + j)))

/-- A correctable error: Bad TLP in AER's correctable status (PRESUMED, log 60). -/
def aerCorrectable (s : State) (h : Nat) : State :=
  updHost s h (fun p => { p with cfg := SMap.set cfgDflt p.cfg 68 (Nat.lor (SMap.get cfgDflt p.cfg 68) 64) })

/-- AER's status bit; the first error outstanding also sets First Error Pointer and Header Log. -/
def aerLog (s : State) (h kind : Nat) (hdr0 hdr1 : Word) : State :=
  let first := (hostOf s h).aer = 0
  let s := updHost s h (fun p => { p with aer := Nat.lor p.aer (2 ^ aerBit kind) })
  if !first then s
  else
    let put (c : SMap Nat) (i v : Nat) : SMap Nat := SMap.set cfgDflt c i v
    updHost s h (fun p =>
      let c := put p.cfg 70 (SMap.get cfgDflt p.cfg 70 / 32 * 32 + aerBit kind)
      { p with cfg := put (put (put (put c 71 (hdrDw hdr0 hdr1 0)) 72 (hdrDw hdr0 hdr1 1)) 73 (hdrDw hdr0 hdr1 2)) 74 (hdrDw hdr0 hdr1 3) })

/-- An error of Table 16-9: AER, HOST_CNT, HOST_ERR with the TLP's header, manager entry 0, and one record of a kind in an
epoch second. -/
def hostError (s : State) (h kind : Nat) (hdr0 hdr1 : Word) : State :=
  let s := updR s .HOST_CNT (fun w => satInc w 31 0) h kind
  let s := if kind = 6 then aerCorrectable s h else aerLog s h kind hdr0 hdr1
  let s := if bit (getR s .HOST_ERR h) 63 then s
    else
      let s := setR s .HOST_ERR (setBit (setField 0 3 0 kind) 63 true) h
      msixAssert (setR (setR s .HOST_ERR_HDR hdr0 h 0) .HOST_ERR_HDR hdr1 h 1) h 0 0
  let sec := s.epoch / 100000000
  if SMap.get (fun _ => 0) (hostOf s h).errSec kind = sec + 1 then s
  else alm (updHost s h (fun p => { p with errSec := SMap.set (fun _ => 0) p.errSec kind (sec + 1) })) 0x9010 3 10 h kind (lo32 hdr0.toNat)

/-! ### Slices and their queue pairs -/

/-- The slice is bound. -/
def sliceBound (s : State) (n : Nat) : Bool := bit (getR s .SLCE_STS 0 n) 1
/-- The port of its binding. -/
def slicePort (s : State) (n : Nat) : Nat := fieldN (getR s .SLCE_BIND 0 n) 39 39
/-- The PASID of its binding. -/
def slicePasid (s : State) (n : Nat) : Nat := fieldN (getR s .SLCE_BIND 0 n) 59 40
/-- The slice quiesces: by SLCE_CTL.QUIESCE, or while a drain it began runs on (R422). -/
def sliceQuiescing (s : State) (n : Nat) : Bool := bit (getR s .SLCE_CTL 0 n) 0 || (tenantOf s n).draining

/-- Queue pair `q` of slice `n`. -/
def qpOf (s : State) (n q : Nat) : QpSt := SMap.get (fun _ => {}) (tenantOf s n).qps q
/-- Updates a queue pair. -/
def updQp (s : State) (n q : Nat) (f : QpSt → QpSt) : State :=
  updTenant s n (fun t => { t with qps := SMap.set (fun _ => {}) t.qps q (f (SMap.get (fun _ => {}) t.qps q)) })

/-- The queue pair is enabled: EN of a bound slice, with q below QPAIRS. -/
def qpOn (s : State) (n q : Nat) : Bool :=
  sliceBound s n && bit (getR s .SLCE_QP_CFG n q) 0 && decide (q < fieldN (getR s .SLCE_BIND 0 n) 38 36)

/-- Ring sizes (SLCE_QP_CFG). -/
def ringSize (l : Nat) : Nat := 2 ^ (if 4 ≤ l && l ≤ 12 then l else 4)
/-- Entries of the submission queue. -/
def sqSize (s : State) (n q : Nat) : Nat := ringSize (fieldN (getR s .SLCE_QP_CFG n q) 11 8)
/-- Entries of the completion queue. -/
def cqSize (s : State) (n q : Nat) : Nat := ringSize (fieldN (getR s .SLCE_QP_CFG n q) 19 16)

/-- Channels that run a COPY of the queue pair. -/
def qpChans (s : State) (n q : Nat) : List Nat :=
  (SMap.keys s.dma).filter (fun c => match (dmaOf s c).cmd with | some (a, b, _) => a == n && b == q | none => false)

/-- Commands of the queue pair in flight (R416). -/
def qpInflight (s : State) (n q : Nat) : Nat := (qpOf s n q).queue.length + (qpOf s n q).begun.length + (qpChans s n q).length

/-- Commands of the slice in flight. -/
def sliceInflight (s : State) (n : Nat) : Nat := (List.range 4).foldl (fun a q => a + qpInflight s n q) 0

/-- Entries that stand in the completion queue or wait to be written. -/
def cqUsed (s : State) (n q : Nat) : Nat :=
  ((qpOf s n q).tail + 65536 - fieldN (getR s .SLCE_CQ_HEAD n q) 15 0) % 65536 + (qpOf s n q).done.length

/-- STATE of SLCE_QP_STS: 0 OFF, 1 RUN, 2 HELD, 3 STOPPED. -/
def qpState (s : State) (n q : Nat) : Nat :=
  if !qpOn s n q then 0
  else if (qpOf s n q).stopped then 3
  else if (qpChans s n q).any (fun c => (dmaOf s c).st == 2) then 2 else 1

/-- Brings the slice's MSI-X source up to date: it deasserts once CQ_HEAD equals CQ_TAIL on every queue pair with IE = 1
(R419). -/
def sliceMsix (s : State) (n : Nat) : State :=
  let open' := (List.range 4).any (fun q => bit (getR s .SLCE_QP_CFG n q) 1 && (qpOf s n q).tail != fieldN (getR s .SLCE_CQ_HEAD n q) 15 0)
  if open' then s else msixDeassert s (slicePort s n) (fieldN (getR s .SLCE_BIND 0 n) 12 0) (srcSlice n)

/-- Writes one completion entry: word 1 before word 0 (R419, Table 17-4). -/
def cqWrite (s : State) (n q : Nat) (e : CqEnt) : State :=
  let p := qpOf s n q
  let size := cqSize s n q
  let h := slicePort s n
  let a := fieldN (getR s .SLCE_CQ_BASE n q) 63 6 * 64 + p.tail % size * 16
  let phase := (p.tail / size) % 2 = 0
  let w0 := setBit (setField (setField (setField (setField 0 15 0 e.cid) 23 16 e.status) 25 24 e.kind) 63 32 p.head) 31 phase
  let s := tx (tx s (.write h (some (slicePasid s n)) (a + 8) [e.result])) (.write h (some (slicePasid s n)) a [w0])
  let s := updQp s n q (fun p => { p with tail := (p.tail + 1) % 65536 })
  if bit (getR s .SLCE_QP_CFG n q) 1 then msixAssert s h (fieldN (getR s .SLCE_BIND 0 n) 12 0) (srcSlice n) else s

/-- Writes the completion entries that wait, in completion order; with the link down the write is a bus error and the queue
pair stops (R421), and while no upstream request is allowed they wait. -/
def cqPump (s : State) (n q : Nat) (fuel : Nat := 64) : State :=
  match fuel with
  | 0 => s
  | fuel + 1 =>
    match (qpOf s n q).done with
    | [] => s
    | e :: r =>
      if (qpOf s n q).stopped || !upstreamOk s (slicePort s n) then s
      else if !hostUp s (slicePort s n) then updQp s n q (fun p => { p with stopped := true })
      else cqPump (cqWrite (updQp s n q (fun p => { p with done := r })) n q e) n q fuel

/-- DMA_MGR_EVT[h]: sets a bit and asserts manager entry 4 or 5. -/
def mgrEvent (s : State) (h b : Nat) : State := msixAssert (updR s .DMA_MGR_EVT (fun w => setBit w b true) 0 h) h (4 + b) b

/-- A command ends with a status and a result: its completion entry follows (R416, R419); some errors also go to the
manager (R428). -/
def qpComplete (s : State) (n q : Nat) (c : SqCmd) (status : Nat) (result : Word) : State :=
  let s := if status = 2 || status = 7 || status = 3 then mgrEvent s (slicePort s n) 1 else s
  cqPump (updQp s n q (fun p => { p with done := p.done ++ [{ cid := c.cid, status := status, kind := 0, result := result }] })) n q

/-- Places an event or demand entry (R420): dropped and counted unless the queue pair is RUN, the slice is not quiescing and
the CQ has room. -/
def qpPost (s : State) (n q kind : Nat) (result : Word) : State :=
  if qpState s n q = 1 && !sliceQuiescing s n && decide (cqUsed s n q + (qpOf s n q).begun.length + (qpChans s n q).length < cqSize s n q) then
    cqPump (updQp s n q (fun p => { p with done := p.done ++ [{ cid := 0, status := 0, kind := kind, result := result }] })) n q
  else updR s .SLCE_STS (fun w => satInc w 63 48) 0 n

/-! ### Interrupts at the management and Bowline cores -/

/-- Asserts or deasserts a source at the management cores. -/
def mgmtSet (s : State) (src : Nat) (on : Bool) : State :=
  let l := s.mgmtIrq.filter (· != src)
  { s with mgmtIrq := if on then src :: l else l }

/-- Asserts or deasserts a source at the Bowline core. -/
def bowlSet (s : State) (src : Nat) (on : Bool) : State :=
  let l := s.bowlIrq.filter (· != src)
  { s with bowlIrq := if on then src :: l else l }

end Sys2Proof.Machine
end

