-- ==== Sys2Proof/Machine/Manifest.lean ====
section
/-! DEFINITION. The device manifest (R399, R400). -/

namespace Sys2Proof.Machine

/-- PEER_ID (R382): the first 8 bytes of DEVICE_DIGEST, byte 0 as bits [7:0]. -/
def peerIdOwn : Word := w64 (leNat ((beBytes 48 Config.deviceDigest.toNat).take 8))

/-- The host of port `h` holds the manager role (R395): block 29 + h is OWNED by Cordage. -/
def managerHeld (s : State) (h : Nat) : Bool := blkState s (29 + h) = 1 && (blkOwner s (29 + h)).1 = 2

/-- The SLICE_RANGE records of port `h`, with their partitions. -/
def manifestRecs (s : State) (h : Nat) : List (Nat × SliceRange) :=
  (partIds s).flatMap (fun p => ((knots s p).slices.filter (fun r => r.ports.testBit h)).map (fun r => (p, r)))

/-- One record (Table 16-6). -/
def manifestRec (e : Nat × SliceRange) : List Byte :=
  leBytes 2 e.2.first ++ leBytes 2 e.2.count ++ leBytes 1 e.1 ++ leBytes 1 e.2.qpairs ++ leBytes 1 e.2.priority ++ [0]
    ++ leBytes 4 e.2.ptFirst ++ leBytes 4 e.2.ptCount

/-- The manifest of port `h` with generation `gen` (Tables 16-5, 16-6). -/
def manifestBytes (s : State) (h gen : Nat) : List Byte :=
  let recs := manifestRecs s h
  let head := [0x4B, 0x47, 0x4D, 0x46] ++ leBytes 2 1 ++ leBytes 2 0x40 ++ leBytes 4 (0x40 + 16 * recs.length) ++ leBytes 4 gen
    ++ leBytes 4 0x4B390256 ++ [if Config.gradeH then 1 else 0, 0xB0] ++ leBytes 1 h
    ++ leBytes 1 (b2n s.rig.unrigged + 2 * b2n (managerHeld s h)) ++ leBytes 8 s.rig.imageId.toNat
    ++ leBytes 6 Config.macBase.toNat ++ [0, 0] ++ leBytes 8 peerIdOwn.toNat ++ leBytes 4 s.boot.bowlRoll
    ++ leBytes 4 s.boot.cordRoll ++ leBytes 4 recs.length
  let body := recs.flatMap manifestRec
  let crc := crc32 (head ++ [0, 0, 0, 0] ++ body)
  head ++ leBytes 4 crc ++ body

/-- Rebuilds the manifest of port `h` with its next generation, and asserts manager entry 1 (R400). -/
def manifestRebuild (s : State) (h : Nat) : State :=
  let g := ((hostOf s h).manGen + 1) % 2 ^ 32
  let m := manifestBytes s h g
  msixAssert (updHost s h (fun p => { p with manGen := g, manifest := m })) h 1 srcManifest

end Sys2Proof.Machine
end

