-- ==== Sys2Proof/Machine/Dma.lean ====
section
/-! DEFINITION. The DMA engine (R424–R429): channels, descriptors, bursts and their ends. -/

namespace Sys2Proof.Machine

/-! ### A channel and its owner -/

/-- The splice block of a channel's group. -/
def chanBlock (ch : Nat) : Nat := 8 + ch / 16

/-- The owner of a channel's group: kind and number. -/
def chanOwner (s : State) (ch : Nat) : Nat × Nat := blkOwner s (chanBlock ch)

/-- Brings the channel's interrupt up to date (R428): a partition's destination, the management cores or the Bowline
core. -/
def dmaIrq (s : State) (ch : Nat) : State :=
  let w := getR s .DMA_CH_IRQ 0 ch
  let on := bit w 17 || bit w 18
  let src := irqSrc .DMA_CH_IRQ 0 ch
  match chanOwner s ch with
  | (1, p) => irqByDest s src w (some p) on
  | (2, _) => mgmtSet s src (on && bit w 16)
  | (3, _) => bowlSet s src (on && bit w 16)
  | _ => s

/-- Sets DONE or ERR in DMA_CH_IRQ. -/
def dmaFlag (s : State) (ch b : Nat) : State := dmaIrq (updR s .DMA_CH_IRQ (fun w => setBit w b true) 0 ch) ch

/-- Both channels' groups have the same owner, and are OWNED. -/
def sameOwner (s : State) (a b : Nat) : Bool :=
  chanOwner s a == chanOwner s b && blkState s (chanBlock a) = 1 && blkState s (chanBlock b) = 1

/-- The partition of a channel's requests (Table 17-5); 0 for none. -/
def chanPart (s : State) (ch : Nat) : Nat := if (chanOwner s ch).1 = 1 then (chanOwner s ch).2 else 0

/-! ### Starts (R427) -/

/-- A start of a channel. -/
def dmaStart (s : State) (ch : Nat) : State :=
  let c := dmaOf s ch
  if c.st = 0 then
    updDma s ch (fun c => { c with st := 1, status := 0, desc := 0, residue := 0, ptr := fieldN (getR s .DMA_CH_DESC 0 ch) 51 5 * 32, loaded := false, retries := fieldN (getR s .DMA_CH_CFG 0 ch) 10 8, finished := false })
  else if c.st = 1 && !c.pend then updDma s ch (fun c => { c with pend := true })
  else alm s 0xA011 2 11 ch ch

/-- Chain starts at the DONE of channel `ch` (R427); in a group that is being released they have no effect (R376). -/
def dmaChain (s : State) (ch : Nat) : State :=
  foldS (fun s c =>
    let cfg := getR s .DMA_CH_CFG 0 c
    if !bit cfg 16 || fieldN cfg 31 24 ≠ ch || chanOwner s c != chanOwner s ch then s
    else if blkState s (chanBlock c) = 2 then alm s 0x8019 2 16 (chanBlock c) (chanBlock c)
    else if sameOwner s c ch then dmaStart s c else s) s (List.range 256)

/-! ### Ends (R428, Table 17-7) -/

/-- STATE after an end with a status. -/
def stateAfter (status : Nat) : Nat :=
  if status = 5 || status = 6 then 2 else if status = 2 || status = 3 || status = 4 || status = 7 then 3 else 0

/-- The end of a channel's work with a status. A COPY completes with it unless the channel is HELD (R418). -/
def dmaEnd (s : State) (ch status : Nat) : State :=
  let c := dmaOf s ch
  let st := stateAfter status
  let s := updDma s ch (fun c => { c with st := st, status := status, pend := c.pend && status != 1, abort := false, hold := 0, park := false, quiesce := false, retryAt := none, got := none, bad := 0, hawsOut := 0, hawsGot := [], wrote := false, ready := false, slot := false })
  let s := dmaFlag s ch (if status = 0 then 17 else 18)
  let s := if status = 0 || status = 1 || status = 8 || status = 9 then s else alm s 0xA010 4 11 ch status c.residue c.desc
  let s := match c.cmd with
    | some (n, q, k) =>
      if st = 2 then s
      else qpComplete (updDma s ch (fun c => { c with cmd := none, loaded := false, finished := true })) n q k status (w64 c.residue)
    | none => s
  if status ≠ 0 then s
  else
    let s := dmaChain s ch
    if (dmaOf s ch).pend then dmaStart (updDma s ch (fun c => { c with pend := false })) ch else s

/-- The status with which requests made since the last boundary end the channel, if any (Table 17-7). A COPY of a
quiescing slice ends QUIESCED where it would be held, since a held one does (R418). -/
def endStatus (c : DmaChan) : Option Nat :=
  if c.abort then some 1
  else if c.quiesce && c.cmd.isSome then some 8
  else if c.hold ≠ 0 then some c.hold
  else if c.park then some 9
  else none

/-! ### Spaces and addresses (Table 17-5) -/

/-- The host port of a space, with the PASID of its accesses. -/
def spacePort (s : State) (sp slice : Nat) : Nat × Option Nat :=
  if sp = 1 then (slicePort s slice, some (slicePasid s slice)) else (sp - 2, none)

/-- The channel's current source or destination lies on host port `h`. -/
def onPort (s : State) (c : DmaChan) (h : Nat) : Bool :=
  c.loaded && ((c.srcSp ≠ 0 && (spacePort s c.srcSp c.slice).1 = h) || (c.dstSp ≠ 0 && (spacePort s c.dstSp c.slice).1 = h))

/-- The owner may name the space (Table 17-5); slice spaces only while the slice is bound. -/
def spaceOk (s : State) (ch sp slice : Nat) : Bool :=
  if sp = 0 then true
  else match chanOwner s ch with
    | (1, p) => sp = 1 && sliceBound s slice && (knots s p).slices.any (fun r => r.first ≤ slice && slice < r.first + r.count)
    | (2, _) => sp ≥ 2
    | (3, _) => sp ≥ 2
    | _ => false

/-- Where a device address of a channel leads. -/
inductive DevTo where
  | dram
  | hawser (k : Nat)
  | denied
  | bus
  deriving DecidableEq, Repr

/-- The check of a device address (R424): a COPY reaches its slice's window, which its burst was checked against; an aperture address that
no window covers is unmapped (R56). -/
def devTo (s : State) (ch a : Nat) : DevTo :=
  match addrCls s a with
  | .dram =>
    if (dmaOf s ch).cmd.isSome then .dram
    else match ownerReach s (chanOwner s ch).1 (chanOwner s ch).2 a with
      | .ok => .dram
      | _ => .denied
  | .hawser k => if (hawsLookup s k a).isNone then .bus else if (chanOwner s ch).1 = 1 then .hawser k else .denied
  | _ => .bus

/-- Records a refused or unmapped device address. -/
def devRecord (s : State) (ch a : Nat) (d : DevTo) : State :=
  match d with
  | .denied => if addrCls s a == .dram && decide (a < secWm s) then unitWorldRefusal s 11 ch (dmaStop ch) 0 (chanPart s ch) a else s
  | .bus => recordUnmapped s (dmaStop ch) 0 (chanPart s ch) 6 a ((chanOwner s ch).1 = 3)
  | _ => s

/-! ### Bursts (R426) -/

/-- Bytes of the descriptor already moved. -/
def dmaDone (c : DmaChan) : Nat := c.len - c.residue
/-- Current source address. -/
def dmaSrc (c : DmaChan) : Nat := c.src + dmaDone c + (if c.cmd.isSome && c.srcSp = 0 then c.win else 0)
/-- Current destination address. -/
def dmaDst (c : DmaChan) : Nat := c.dst + dmaDone c + (if c.cmd.isSome && c.dstSp = 0 then c.win else 0)

/-- Bytes of the current burst: at most 4 KiB, within a 4 KiB page of both sides. -/
def burstLen (c : DmaChan) : Nat := min c.residue (min (4096 - dmaSrc c % 4096) (4096 - dmaDst c % 4096))

/-- The window of a slice: base and bytes (SLCE_WIN). -/
def sliceWin (s : State) (n : Nat) : Nat × Nat :=
  let w := getR s .SLCE_WIN 0 n
  (fieldN w 51 20 * 0x100000, fieldN w 11 0 * 0x100000)

/-- The lines of [a, a + n). -/
def linesOf (a n : Nat) : List Nat := (List.range ((a + n + 63) / 64 - a / 64)).map (fun i => a / 64 + i)

/-- Reads the lines of a range through a Hawser aperture; a line that the peer does not take is a bus error. -/
def hawsReads (s : State) (ch k a n : Nat) : State :=
  foldS (fun s l =>
    match hawsSend s k (1024 + ch) false (64 * l) Line.zero 0 with
    | some s => updDma s ch (fun c => { c with hawsOut := c.hawsOut + 1 })
    | none => updDma (recordUnmapped s (dmaStop ch) 0 (chanPart s ch) 6 (64 * l) false) ch (fun c => { c with bad := 2 })) s (linesOf a n)

/-- Non-posted requests of a read that are outstanding: its words come in order. -/
def reqTags (s : State) (r : HostReq) : Nat :=
  (r.asked - 8 * (((dmaOf s r.ch).got).getD []).length + r.chunk - 1) / r.chunk

/-- Issues requests of the reads on a port, the oldest first, each of at most Max Read Request Size; at most 768 are outstanding
(Table 16-1). -/
def readPump (s : State) (h : Nat) (fuel : Nat := 1024) : State :=
  match fuel with
  | 0 => s
  | fuel + 1 =>
    let l := s.hostNet.filter (fun r => r.port == h)
    match l.find? (fun r => decide (r.asked < r.len)) with
    | none => s
    | some r =>
      if 768 ≤ (l.map (reqTags s)).foldl (· + ·) 0 || !upstreamOk s h then s
      else
        let n := min r.chunk (r.len - r.asked)
        let net := s.hostNet.map (fun x => if x == r then { x with asked := x.asked + n } else x)
        readPump (tx { s with hostNet := net } (.read h r.pasid (r.addr + r.asked) n)) h fuel

/-- Requests the next burst: what ends the channel at this boundary ends it, otherwise a source outside the module is
asked for its words. -/
def dmaBurst (s : State) (ch : Nat) : State :=
  let c := dmaOf s ch
  let ports := (if c.srcSp = 0 then [] else [spacePort s c.srcSp c.slice]) ++ (if c.dstSp = 0 then [] else [spacePort s c.dstSp c.slice])
  match endStatus c with
  | some st => dmaEnd s ch st
  | none =>
    if ports.any (fun p => hostInReset s p.1) then dmaEnd s ch 6
    else if ports.any (fun p => !upstreamOk s p.1) then dmaEnd s ch 5
    else if c.cmd.isNone && !(spaceOk s ch c.srcSp c.slice && spaceOk s ch c.dstSp c.slice) then dmaEnd s ch 4
    else
      let (base, size) := match c.cmd with | some (n, _, _) => sliceWin s n | none => (0, 0)
      let s := updDma s ch (fun c => { c with win := base, got := none, bad := 0, hawsOut := 0, hawsGot := [], wrote := false, retryAt := none })
      let c := dmaOf s ch
      let n := burstLen c
      let off := (if c.srcSp = 0 then c.src else c.dst) + dmaDone c
      if c.cmd.isSome && decide (size < off + n) then dmaEnd s ch 0x0B
      else if c.srcSp ≠ 0 then
        let (h, pasid) := spacePort s c.srcSp c.slice
        if hostUp s h then
          readPump { s with hostNet := s.hostNet ++ [{ port := h, ch := ch, len := n, pasid := pasid, addr := dmaSrc c, chunk := maxRead s h }] } h
        else updDma s ch (fun c => { c with bad := 2 })
      else match devTo s ch (dmaSrc c) with
        | .hawser k => hawsReads s ch k (dmaSrc c) n
        | _ => s

/-- The I/O agent of a DMA channel (Table 2-3). -/
def dmaAgent (ch : Nat) : Nat := if ch < 128 then 66 else 70

/-- PRIO of a channel's work: its own, or a COPY's binding's (R418). -/
def dmaPrio (s : State) (ch : Nat) : Nat :=
  match (dmaOf s ch).cmd with
  | some (n, _, _) => fieldN (getR s .SLCE_BIND 0 n) 34 32
  | none => fieldN (getR s .DMA_CH_CFG 0 ch) 2 0

/-- The ready channel of an agent whose turn it is: of the highest PRIO, the next after the one served last (R426). -/
def dmaTurn (s : State) (ag : Nat) : Option Nat :=
  let l := (SMap.keys s.dma).filter (fun c => (dmaOf s c).ready && dmaAgent c = ag)
  let top := l.foldl (fun m c => max m (dmaPrio s c)) 0
  let l := l.filter (fun c => dmaPrio s c = top)
  let last := SMap.get (fun _ => 0) s.dmaTurns.chan (8 * ag + top)
  match l.find? (fun c => decide (last < c)) with
  | some c => some c
  | none => l.head?

/-- Free burst slots of an agent go to its ready channels: 16 slots, the highest PRIO first, round-robin within a level (R426). -/
def dmaGrant (s : State) (ag : Nat) (fuel : Nat := 256) : State :=
  match fuel with
  | 0 => s
  | fuel + 1 =>
    if 16 ≤ ((SMap.keys s.dma).filter (fun c => (dmaOf s c).slot && dmaAgent c = ag)).length then s
    else match dmaTurn s ag with
      | none => s
      | some c =>
        let s : State := { s with dmaTurns := { s.dmaTurns with chan := SMap.set (fun _ => 0) s.dmaTurns.chan (8 * ag + dmaPrio s c) c } }
        dmaGrant (dmaBurst (updDma s c (fun x => { x with ready := false, slot := true })) c) ag fuel

/-- The channel is ready for its next burst, which is requested once it has a slot (R426). -/
def dmaBegin (s : State) (ch : Nat) : State :=
  dmaGrant (updDma s ch (fun c => { c with ready := true, slot := false, retryAt := none, got := none, bad := 0, wrote := false })) (dmaAgent ch)

/-- The slot of a burst that has ended goes to the next ready channel of the agent. -/
def dmaRelease (s : State) (ch : Nat) : State := dmaGrant (updDma s ch (fun c => { c with slot := false })) (dmaAgent ch)

/-- A bus error (R428): retried after 1 µs while retries remain and nothing ends the channel; with none left it outranks what else would
end it (Table 17-7). -/
def dmaBusError (s : State) (ch : Nat) : State :=
  let c := dmaOf s ch
  if c.retries = 0 then dmaEnd s ch 2
  else match endStatus c with
    | some st => dmaEnd s ch st
    | none => updDma s ch (fun c => { c with retries := c.retries - 1, retryAt := some s.epoch, got := none, bad := 0, hawsGot := [], hawsOut := 0, wrote := false })

/-- After the writes of a burst of `n` bytes: the channel ends, goes on to its next descriptor, or begins its next burst. -/
def dmaAfter (s : State) (ch n : Nat) : State :=
  let s := updDma s ch (fun c => { c with residue := c.residue - n, wrote := false, got := none, hawsGot := [] })
  let c := dmaOf s ch
  if c.residue ≠ 0 then dmaBegin s ch
  else
    let s := if c.int && c.cmd.isNone then dmaFlag s ch 17 else s
    match endStatus c with
    | some st => dmaEnd s ch st
    | none =>
      if c.last || c.cmd.isSome then dmaEnd s ch 0
      else updDma s ch (fun c => { c with loaded := false, ptr := c.next, desc := min 65535 (c.desc + 1) })

/-- A channel reads words of DRAM, with whether one was found uncorrectable. -/
def devWords (s : State) (ch a n : Nat) : List TWord × Bool × State :=
  let r := agentWords s (a / 8) (n / 8) (dmaAgent ch)
  (r.1.map Prod.fst, r.1.any Prod.snd, r.2)

/-- Words of a range among lines that a peer returned. -/
def hawsWords (got : List (Nat × Line)) (a n : Nat) : List TWord :=
  (List.range (n / 8)).map (fun i =>
    let b := a + 8 * i
    match got.find? (fun e => e.1 == b / 64) with
    | some (_, d) => lineWord d (wordInLine b)
    | none => poison 0)

/-- A channel writes words to DRAM, tallies kept (R426). -/
def devWrite (s : State) (ch a : Nat) (l : List TWord) : State := agentWriteWords s (a / 8) l (dmaAgent ch)

/-- Sends words through a Hawser aperture, line by line. -/
def hawsWrites (s : State) (ch k a : Nat) (l : List TWord) : State :=
  foldS (fun s ln =>
    let idx := (List.range 8).filter (fun i => a ≤ 64 * ln + 8 * i && 64 * ln + 8 * i < a + 8 * l.length)
    let d : Line := (List.range 8).map (fun i => if idx.contains i then l.getD ((64 * ln + 8 * i - a) / 8) TWord.zero else TWord.zero)
    let mask := idx.foldl (fun (m : Word) i => m ||| maskBits (8 * i + 7) (8 * i)) 0
    match hawsSend s k (1024 + ch) true (64 * ln) d mask with
    | some s => updDma s ch (fun c => { c with hawsOut := c.hawsOut + 1 })
    | none => updDma (recordUnmapped s (dmaStop ch) 0 (chanPart s ch) 6 (64 * ln) false) ch (fun c => { c with bad := 2 })) s (linesOf a (8 * l.length))

/-- The words of the burst go to their destination. -/
def dmaWrite (s : State) (ch n : Nat) (l : List TWord) : State :=
  let c := dmaOf s ch
  if c.dstSp ≠ 0 then
    let (h, pasid) := spacePort s c.dstSp c.slice
    if l.any (fun w => !isSound w) then dmaEnd s ch 3
    else if !hostUp s h then dmaBusError s ch
    else dmaAfter (postWords s h pasid (dmaDst c) (l.map TWord.val)) ch n
  else match devTo s ch (dmaDst c) with
    | .dram => dmaAfter (devWrite s ch (dmaDst c) l) ch n
    | .hawser k => hawsWrites (updDma s ch (fun c => { c with wrote := true })) ch k (dmaDst c) l
    | .denied => dmaEnd (devRecord s ch (dmaDst c) .denied) ch 7
    | .bus => dmaBusError (devRecord s ch (dmaDst c) .bus) ch

/-- One boundary of a channel, or, for a destination behind a Hawser port, the sending of its writes. Nothing happens while
words or acknowledgements are awaited. -/
def dmaWork (s : State) (ch : Nat) : State :=
  let c := dmaOf s ch
  if c.st ≠ 1 then s
  else if c.retryAt.isSome || !c.loaded || !c.slot then
    match endStatus c with
    | some st => if s.hawsNet.any (fun r => r.thread = 1024 + ch) then s else dmaEnd s ch st
    | none => s
  else if s.hostNet.any (fun r => r.ch = ch) || s.hawsNet.any (fun r => r.thread = 1024 + ch) then s
  else if c.bad = 7 then dmaEnd s ch 7
  else if c.bad ≠ 0 then dmaBusError s ch
  else
    let n := burstLen c
    if c.wrote then dmaAfter s ch n
    else if c.srcSp ≠ 0 then
      match c.got with
      | some l => dmaWrite s ch n l
      | none => match endStatus c with
        | some st => dmaEnd s ch st
        | none => dmaBusError s ch
    else match devTo s ch (dmaSrc c) with
      | .dram =>
        let (l, ue, s) := devWords s ch (dmaSrc c) n
        if ue then dmaEnd s ch 3 else dmaWrite s ch n l
      | .hawser _ => dmaWrite s ch n (hawsWords c.hawsGot (dmaSrc c) n)
      | .denied => dmaEnd (devRecord s ch (dmaSrc c) .denied) ch 7
      | .bus => dmaBusError (devRecord s ch (dmaSrc c) .bus) ch

/-- A boundary, after which the burst's slot is free for the next ready channel; a burst whose writes await a peer keeps it. -/
def dmaBoundary (s : State) (ch : Nat) : State :=
  let s := dmaWork s ch
  let c := dmaOf s ch
  if !c.slot then dmaGrant s (dmaAgent ch)
  else if c.slot && (c.st ≠ 1 || !c.loaded || c.retryAt.isSome) then dmaRelease s ch
  else s

/-- DMA_BURST_BOUNDARY. -/
def execDmaBurstBoundary (ch : BitVec 8) (s : State) : Host.Outcome State Fault Refusal := .next (dmaBoundary (txClear s) ch.toNat)

/-- DMA_RETRY: due 1 µs after a bus error (R428). -/
def execDmaRetry (ch : BitVec 8) (s : State) : Host.Outcome State Fault Refusal :=
  let c := dmaOf s ch.toNat
  .next (match c.retryAt with
    | some e => if c.st = 1 && decide (e + 100 ≤ s.epoch) then
        (if c.loaded then dmaBegin (txClear s) ch.toNat else updDma s ch.toNat (fun c => { c with retryAt := none })) else s
    | none => s)

/-! ### Descriptors (R425) -/

/-- The space breaks Table 17-5, or a device address lies in register space. -/
def badSide (s : State) (ch sp slice a : Nat) : Bool :=
  !spaceOk s ch sp slice || (sp = 0 && (addrCls s (a % 2 ^ 64) == .register || (0xFE00000000 ≤ a && a < 0xFF00000000)))

/-- Takes the four words of a descriptor: a bad one halts the channel, any other begins its bursts. -/
def descTake (s : State) (ch : Nat) (l : List TWord) : State :=
  let v (i : Nat) : Word := (l.getD i TWord.zero).val
  let len := fieldN (v 2) 31 0
  let slice := fieldN (v 2) 47 36
  let ssp := fieldN (v 2) 33 32
  let dsp := fieldN (v 2) 35 34
  let bad := l.any (fun w => !isSound w) || len = 0 || len % 8 ≠ 0 || (v 0).toNat % 8 ≠ 0 || (v 1).toNat % 8 ≠ 0
    || fieldN (v 2) 63 49 ≠ 0 || fieldN (v 3) 4 1 ≠ 0
    || badSide s ch ssp slice (v 0).toNat || badSide s ch dsp slice (v 1).toNat
  if bad then dmaEnd s ch 4
  else
    dmaBegin (updDma s ch (fun c => { c with loaded := true, src := (v 0).toNat, dst := (v 1).toNat, len := len, residue := len, srcSp := ssp, dstSp := dsp, slice := slice, int := bit (v 2) 48, next := fieldN (v 3) 51 5 * 32, last := bit (v 3) 0, hawsGot := [] })) ch

/-- Reads the channel's descriptor in the owner's reach. -/
def descFetch (s : State) (ch : Nat) : State :=
  let c := dmaOf s ch
  if c.st ≠ 1 || c.loaded || c.cmd.isSome || c.retryAt.isSome || s.hawsNet.any (fun r => r.thread = 1024 + ch) then s
  else match endStatus c with
    | some st => dmaEnd s ch st
    | none =>
      if c.bad ≠ 0 then dmaBusError s ch
      else match devTo s ch c.ptr with
        | .dram =>
          let (l, ue, s) := devWords s ch c.ptr 32
          if ue then dmaEnd s ch 3 else descTake s ch l
        | .hawser k => if c.hawsGot.any (fun e => e.1 == c.ptr / 64) then descTake s ch (hawsWords c.hawsGot c.ptr 32) else hawsReads s ch k c.ptr 32
        | .denied => dmaEnd (devRecord s ch c.ptr .denied) ch 7
        | .bus => dmaBusError (devRecord s ch c.ptr .bus) ch

/-- DESCRIPTOR_FETCH. -/
def execDescriptorFetch (ch : BitVec 8) (s : State) : Host.Outcome State Fault Refusal := .next (descFetch (txClear s) ch.toNat)

/-! ### Completions of host reads (R426, R410) -/

/-- HOST_COMPLETION: an answer to a channel's read; its words take generated tallies, or enter poisoned (R138). Data of a
request that a hold overtook is discarded (R407), and so is a completion that answers nothing. -/
def execHostCompletion (h : BitVec 1) (ch : BitVec 8) (status : BitVec 3) (ep ecrcOk : Bool) (data : List (BitVec 64)) (hdr0 hdr1 : Word) (s : State) :
    Host.Outcome State Fault Refusal :=
  let p := h.toNat
  let n := ch.toNat
  .next (if !ecrcOk then hostError s p 3 hdr0 hdr1
    else match s.hostNet.find? (fun r => r.ch = n && r.port = p) with
    | none => s
    | some r =>
      let drop (s : State) : State := { s with hostNet := s.hostNet.erase r }
      if status ≠ 0 then readPump (updDma (drop s) n (fun c => { c with bad := 2 })) p
      else
        let s := if ep then hostError s p 2 hdr0 hdr1 else s
        let words := (((dmaOf s n).got).getD []) ++ data.map (fun v => if ep then poison v else gen v)
        if words.length * 8 < r.len then readPump (updDma s n (fun c => { c with got := some words })) p
        else readPump (updDma (drop s) n (fun c => { c with got := if c.hold = 0 then some (words.take (r.len / 8)) else none })) p)

/-- COMPLETION_TIMEOUT: a read of the G9 times out: counted, and a bus error of its channel, or of its queue pair's fetch
(R410, R421). While the host disables the timeout (Table 16-1; Device Control 2 bit 4, PRESUMED, log 60) none is taken. -/
def execCompletionTimeout (h : BitVec 1) (sq : Bool) (n : BitVec 12) (q : BitVec 2) (hdr0 hdr1 : Word) (s : State) : Host.Outcome State Fault Refusal :=
  let p := h.toNat
  .next (if (cfgDw s p 30).testBit 4 then s
    else if sq then
      (if sliceBound s n.toNat && slicePort s n.toNat = p && qpOn s n.toNat q.toNat then
        updQp (hostError s p 4 hdr0 hdr1) n.toNat q.toNat (fun x => { x with stopped := true })
       else s)
    else match s.hostNet.find? (fun r => r.ch = n.toNat && r.port = p) with
      | none => s
      | some r => readPump (updDma (hostError { s with hostNet := s.hostNet.erase r } p 4 hdr0 hdr1) n.toNat (fun c => { c with bad := 2 })) p)

/-! ### Doorbells (R427, R429) -/

/-- A requester for whom a channel's registers act: its group's owner, or Bowline. -/
def chanWriter (s : State) (who : Requester) (ch : Nat) : Bool := isBowline who || ownsBlock s who (chanBlock ch)

/-- GO: a doorbell start; in a group that is being released it has no effect and records a notice (R376). -/
def dmaGo (s : State) (ch : Nat) : State :=
  if blkState s (chanBlock ch) = 2 then alm s 0x8019 2 16 (chanBlock ch) (chanBlock ch)
  else if blkState s (chanBlock ch) = 1 then dmaStart s ch else s

/-- RESUME of a HELD or HALTED channel: it continues its descriptor at the residue with a fresh count of retries. -/
def dmaResume (s : State) (ch : Nat) : State :=
  let c := dmaOf s ch
  if (c.st ≠ 2 && c.st ≠ 3) || c.finished then s
  else if blkState s (chanBlock ch) = 2 then alm s 0x8019 2 16 (chanBlock ch) (chanBlock ch)
  else if blkState s (chanBlock ch) ≠ 1 then s
  else
    let s := updDma s ch (fun c => { c with st := 1, status := 0, retries := if c.cmd.isSome then 3 else fieldN (getR s .DMA_CH_CFG 0 ch) 10 8 })
    if c.loaded then dmaBegin s ch else s

/-- ABORT. -/
def dmaAbort (s : State) (ch : Nat) : State :=
  let c := dmaOf s ch
  if c.st = 1 then updDma s ch (fun c => { c with abort := true, pend := false })
  else if c.st = 0 then updDma s ch (fun c => { c with pend := false })
  else dmaEnd s ch 1

/-- A write of DMA_CH_CTL: ABORT, then RESUME, then GO. -/
def chCtl (s : State) (who : Requester) (ch : Nat) (v : Word) : State :=
  if !chanWriter s who ch then refuseReg s ⟨.DMA_CH_CTL, 0, ch, 0⟩ who
  else
    let s := if bit v 2 then dmaAbort s ch else s
    let s := if bit v 1 then dmaResume s ch else s
    if bit v 0 then dmaGo s ch else s

/-- DMA_GO. -/
def execDmaGo (who : Requester) (ch : BitVec 8) (s : State) : Host.Outcome State Fault Refusal :=
  .next (regCmd (txClear s) ⟨.DMA_CH_CTL, 0, ch.toNat, 0⟩ (fun s => chCtl s who ch.toNat 1))
/-- DMA_RESUME. -/
def execDmaResume (who : Requester) (ch : BitVec 8) (s : State) : Host.Outcome State Fault Refusal :=
  .next (regCmd (txClear s) ⟨.DMA_CH_CTL, 0, ch.toNat, 0⟩ (fun s => chCtl s who ch.toNat 2))
/-- DMA_ABORT. -/
def execDmaAbort (who : Requester) (ch : BitVec 8) (s : State) : Host.Outcome State Fault Refusal :=
  .next (regCmd (txClear s) ⟨.DMA_CH_CTL, 0, ch.toNat, 0⟩ (fun s => chCtl s who ch.toNat 4))

/-- SLOT_START: a calendar START reaches its channel (Table 11-3); it is dropped where the partition does not hold the
channel's group OWNED (Table 15-8). -/
def execSlotStart (p : BitVec 4) (i : BitVec 12) (s : State) : Host.Outcome State Fault Refusal :=
  .next (match slotDue s p.toNat i.toNat .start with
    | none => s
    | some (x, sched) =>
      let s := slotActed s p.toNat i.toNat sched
      let ch := x.target
      if blkState s (chanBlock ch) = 1 && chanOwner s ch == (1, p.toNat) then dmaStart s ch
      else if blkState s (chanBlock ch) = 2 && chanOwner s ch == (1, p.toNat) then alm s 0x8019 2 16 (chanBlock ch) (chanBlock ch)
      else alm s 0xA011 2 11 ch ch)

/-- Channels of partition `p`'s groups take a request at their boundary: PARK (R84), or ABORT for a reset or re-rig. -/
def partChans (s : State) (p : Nat) : List Nat := (SMap.keys s.dma).filter (fun c => chanOwner s c == (1, p))

end Sys2Proof.Machine
end

