-- ==== Sys2Proof/Machine/FloatVec.lean ====
section
/-! DEFINITION. Scalar and vector arithmetic on binary64 and vector integers (R99, R142, R157, R158). -/

namespace Sys2Proof.Machine

/-- The checks that every floating-point instruction makes before it computes: reserved gb, a rounding mode of 5–7 for
rounding instructions (Table 4-2), poisoned and failed sources. -/
def fpCheck (s : State) (t : Nat) (w : IWord) (rounds reserved : Bool) (srcs : List (Nat × TWord)) : Option Act :=
  if reserved || (rounds && badRM s t) then some (.trap s 0x08 (iwVal w))
  else match firstPoisoned srcs with
    | some i => some (.trap s 0x05 (w64 i))
    | none => if anyFailed srcs then some (.trap s 0x03 (iwVal w)) else none

/-- A scalar floating-point instruction (R99, R148): executed twice; its flags accrue. -/
def fpOp (fn : Nat) (rounds unary : Bool) (f : Nat → Word → Word → Word × Word) (t : BitVec 10) (gd ga gb : BitVec 6) (s : State) :
    Host.Outcome State Fault Refusal :=
  let w := encR 0x30 gd ga gb fn
  .next (runInstr s t.toNat w false 1 false (fun s =>
    let t := t.toNat
    let a := rg s t ga
    let b := rg s t gb
    match fpCheck s t w rounds (unary && gb != 0) (if unary then [(0, a)] else [(0, a), (1, b)]) with
    | some r => r
    | none =>
      let (ok, s) := shadowOk s t
      if !ok then .trap s 0x04 (iwVal w)
      else
        let (r, fl) := f (flagsRM s t) a.val b.val
        .done (wg (accrue s t fl) t gd (gen r))))

/-- A compare's result as a word, with its flags. -/
def cmpWord (r : Bool × Word) : Word × Word := (if r.1 then 1 else 0, r.2)

/-- FADD. -/
def execFadd (t : BitVec 10) (gd ga gb : BitVec 6) (s : State) : Host.Outcome State Fault Refusal :=
  fpOp 1 true false fAdd t gd ga gb s
/-- FSUB. -/
def execFsub (t : BitVec 10) (gd ga gb : BitVec 6) (s : State) : Host.Outcome State Fault Refusal :=
  fpOp 2 true false fSub t gd ga gb s
/-- FMUL. -/
def execFmul (t : BitVec 10) (gd ga gb : BitVec 6) (s : State) : Host.Outcome State Fault Refusal :=
  fpOp 3 true false fMul t gd ga gb s
/-- FDIV. -/
def execFdiv (t : BitVec 10) (gd ga gb : BitVec 6) (s : State) : Host.Outcome State Fault Refusal :=
  fpOp 4 true false fDiv t gd ga gb s
/-- FSQRT. -/
def execFsqrt (t : BitVec 10) (gd ga gb : BitVec 6) (s : State) : Host.Outcome State Fault Refusal :=
  fpOp 5 true true (fun rm a _ => fSqrt rm a) t gd ga gb s
/-- FMIN. -/
def execFmin (t : BitVec 10) (gd ga gb : BitVec 6) (s : State) : Host.Outcome State Fault Refusal :=
  fpOp 6 false false (fun _ => fMinMax false) t gd ga gb s
/-- FMAX. -/
def execFmax (t : BitVec 10) (gd ga gb : BitVec 6) (s : State) : Host.Outcome State Fault Refusal :=
  fpOp 7 false false (fun _ => fMinMax true) t gd ga gb s
/-- FEQ. -/
def execFeq (t : BitVec 10) (gd ga gb : BitVec 6) (s : State) : Host.Outcome State Fault Refusal :=
  fpOp 8 false false (fun _ a b => cmpWord (fEq a b)) t gd ga gb s
/-- FLT. -/
def execFlt (t : BitVec 10) (gd ga gb : BitVec 6) (s : State) : Host.Outcome State Fault Refusal :=
  fpOp 9 false false (fun _ a b => cmpWord (fLt a b)) t gd ga gb s
/-- FLE. -/
def execFle (t : BitVec 10) (gd ga gb : BitVec 6) (s : State) : Host.Outcome State Fault Refusal :=
  fpOp 10 false false (fun _ a b => cmpWord (fLe a b)) t gd ga gb s
/-- ITOF. -/
def execItof (t : BitVec 10) (gd ga gb : BitVec 6) (s : State) : Host.Outcome State Fault Refusal :=
  fpOp 11 true true (fun rm a _ => fOfInt rm a) t gd ga gb s
/-- UTOF. -/
def execUtof (t : BitVec 10) (gd ga gb : BitVec 6) (s : State) : Host.Outcome State Fault Refusal :=
  fpOp 12 true true (fun rm a _ => fOfNat rm a) t gd ga gb s
/-- FTOI. -/
def execFtoi (t : BitVec 10) (gd ga gb : BitVec 6) (s : State) : Host.Outcome State Fault Refusal :=
  fpOp 13 true true (fun rm a _ => fToInt true rm a) t gd ga gb s
/-- FTOU. -/
def execFtou (t : BitVec 10) (gd ga gb : BitVec 6) (s : State) : Host.Outcome State Fault Refusal :=
  fpOp 14 true true (fun rm a _ => fToInt false rm a) t gd ga gb s
/-- FCPS. -/
def execFcps (t : BitVec 10) (gd ga gb : BitVec 6) (s : State) : Host.Outcome State Fault Refusal :=
  fpOp 15 false false (fun _ a b => (fCopySign false a b, 0)) t gd ga gb s
/-- FCPSN. -/
def execFcpsn (t : BitVec 10) (gd ga gb : BitVec 6) (s : State) : Host.Outcome State Fault Refusal :=
  fpOp 16 false false (fun _ a b => (fCopySign true a b, 0)) t gd ga gb s

/-- A scalar fused multiply-add (Table 4-9): one rounding. -/
def fmaOp (fn : Nat) (negP negC : Bool) (t : BitVec 10) (gd ga gb gc : BitVec 6) (s : State) : Host.Outcome State Fault Refusal :=
  let w := encQ 0x31 gd ga gb gc fn
  .next (runInstr s t.toNat w false 1 false (fun s =>
    let t := t.toNat
    let a := rg s t ga
    let b := rg s t gb
    let c := rg s t gc
    match fpCheck s t w true false [(0, a), (1, b), (2, c)] with
    | some r => r
    | none =>
      let (ok, s) := shadowOk s t
      if !ok then .trap s 0x04 (iwVal w)
      else
        let (r, fl) := fMulAdd (flagsRM s t) negP negC a.val b.val c.val
        .done (wg (accrue s t fl) t gd (gen r))))

/-- FMADD: a × b + c. -/
def execFmadd (t : BitVec 10) (gd ga gb gc : BitVec 6) (s : State) : Host.Outcome State Fault Refusal :=
  fmaOp 0 false false t gd ga gb gc s
/-- FMSUB: a × b − c. -/
def execFmsub (t : BitVec 10) (gd ga gb gc : BitVec 6) (s : State) : Host.Outcome State Fault Refusal :=
  fmaOp 1 false true t gd ga gb gc s
/-- FNMADD: −(a × b) − c. -/
def execFnmadd (t : BitVec 10) (gd ga gb gc : BitVec 6) (s : State) : Host.Outcome State Fault Refusal :=
  fmaOp 2 true true t gd ga gb gc s
/-- FNMSUB: −(a × b) + c. -/
def execFnmsub (t : BitVec 10) (gd ga gb gc : BitVec 6) (s : State) : Host.Outcome State Fault Refusal :=
  fmaOp 3 true false t gd ga gb gc s

/-! ### Vectors -/

/-- The first poisoned lane: lowest source index, then lowest lane, as TVAL gives it (R157). -/
def firstPoisonedLane (srcs : List (Nat × List TWord)) : Option Word :=
  srcs.findSome? (fun e => ((List.range 4).find? (fun i => isPoisoned (e.2.getD i TWord.zero))).map (fun i => w64 (i * 256 + e.1)))

/-- The lanes of a vector register. -/
def lanes (s : State) (t : Nat) (r : BitVec 5) : List TWord := (List.range 4).map (rv s t r)

/-- The checks of a vector instruction: reserved field, rounding mode, poisoned and failed lanes. -/
def vecCheck (s : State) (t : Nat) (w : IWord) (rounds reserved : Bool) (srcs : List (Nat × List TWord)) : Option Act :=
  if reserved || (rounds && badRM s t) then some (.trap s 0x08 (iwVal w))
  else match firstPoisonedLane srcs with
    | some v => some (.trap s 0x05 v)
    | none => if srcs.any (fun e => e.2.any isFailed) then some (.trap s 0x03 (iwVal w)) else none

/-- A vector operation of the residue class (Table 5-4): each lane has its predicted tally. -/
def vecResidue (fn : Nat) (f : Word → Word → Word) (pred : TWord → TWord → Byte) (t : BitVec 10) (vd va vb vc : BitVec 5) (s : State) :
    Host.Outcome State Fault Refusal :=
  let w := encV 0x32 vd va vb vc fn
  .next (runInstr s t.toNat w false 1 false (fun s =>
    let t := t.toNat
    let a := lanes s t va
    let b := lanes s t vb
    match vecCheck s t w false (vc != 0) [(0, a), (1, b)] with
    | some r => r
    | none =>
      let l := (a.zip b).map (fun e => (⟨f e.1.val e.2.val, pred e.1 e.2⟩ : TWord))
      let (ok, s) := match l with | x :: _ => residueOk s t x.val x.tal | [] => (true, s)
      if ok && l.all isSound then .done (wvAll s t vd l) else .trap s 0x03 (iwVal w)))

/-- A vector operation of the shadow class, with the flags that its lanes accrue. -/
def vecShadow (fn : Nat) (rounds : Bool) (f : Nat → Word → Word → Word × Word) (t : BitVec 10) (vd va vb vc : BitVec 5) (s : State) :
    Host.Outcome State Fault Refusal :=
  let w := encV 0x32 vd va vb vc fn
  .next (runInstr s t.toNat w false 1 false (fun s =>
    let t := t.toNat
    let a := lanes s t va
    let b := lanes s t vb
    match vecCheck s t w rounds (vc != 0) [(0, a), (1, b)] with
    | some r => r
    | none =>
      let (ok, s) := shadowOk s t
      if !ok then .trap s 0x04 (iwVal w)
      else
        let l := (a.zip b).map (fun e => f (flagsRM s t) e.1.val e.2.val)
        .done (wvAll (accrue s t (l.foldl (fun x e => x ||| e.2) 0)) t vd (l.map (fun e => gen e.1)))))

/-- A compare's lane result: all ones or all zeros (R99). -/
def cmpLane (r : Bool × Word) : Word × Word := (if r.1 then BitVec.allOnes 64 else 0, r.2)

/-- VADD, lane by lane. -/
def execVadd (t : BitVec 10) (vd va vb vc : BitVec 5) (s : State) : Host.Outcome State Fault Refusal :=
  vecResidue 1 (· + ·) predAdd t vd va vb vc s
/-- VSUB, lane by lane. -/
def execVsub (t : BitVec 10) (vd va vb vc : BitVec 5) (s : State) : Host.Outcome State Fault Refusal :=
  vecResidue 2 (· - ·) predSub t vd va vb vc s
/-- VSLL, lane by lane. -/
def execVsll (t : BitVec 10) (vd va vb vc : BitVec 5) (s : State) : Host.Outcome State Fault Refusal :=
  vecResidue 6 (fun a b => a <<< (b.toNat % 64)) (fun a b => predShl a (b.val.toNat % 64)) t vd va vb vc s
/-- VMUL, lane by lane. -/
def execVmul (t : BitVec 10) (vd va vb vc : BitVec 5) (s : State) : Host.Outcome State Fault Refusal :=
  vecResidue 9 (· * ·) (fun a b => predMadd TWord.zero a b) t vd va vb vc s
/-- VAND, lane by lane. -/
def execVand (t : BitVec 10) (vd va vb vc : BitVec 5) (s : State) : Host.Outcome State Fault Refusal :=
  vecShadow 3 false (fun _ a b => (a &&& b, 0)) t vd va vb vc s
/-- VOR, lane by lane. -/
def execVor (t : BitVec 10) (vd va vb vc : BitVec 5) (s : State) : Host.Outcome State Fault Refusal :=
  vecShadow 4 false (fun _ a b => (a ||| b, 0)) t vd va vb vc s
/-- VXOR, lane by lane. -/
def execVxor (t : BitVec 10) (vd va vb vc : BitVec 5) (s : State) : Host.Outcome State Fault Refusal :=
  vecShadow 5 false (fun _ a b => (a ^^^ b, 0)) t vd va vb vc s
/-- VSRL, lane by lane. -/
def execVsrl (t : BitVec 10) (vd va vb vc : BitVec 5) (s : State) : Host.Outcome State Fault Refusal :=
  vecShadow 7 false (fun _ a b => (a >>> (b.toNat % 64), 0)) t vd va vb vc s
/-- VSRA, lane by lane. -/
def execVsra (t : BitVec 10) (vd va vb vc : BitVec 5) (s : State) : Host.Outcome State Fault Refusal :=
  vecShadow 8 false (fun _ a b => (BitVec.sshiftRight a (b.toNat % 64), 0)) t vd va vb vc s
/-- VFADD, lane by lane. -/
def execVfadd (t : BitVec 10) (vd va vb vc : BitVec 5) (s : State) : Host.Outcome State Fault Refusal :=
  vecShadow 16 true fAdd t vd va vb vc s
/-- VFSUB, lane by lane. -/
def execVfsub (t : BitVec 10) (vd va vb vc : BitVec 5) (s : State) : Host.Outcome State Fault Refusal :=
  vecShadow 17 true fSub t vd va vb vc s
/-- VFMUL, lane by lane. -/
def execVfmul (t : BitVec 10) (vd va vb vc : BitVec 5) (s : State) : Host.Outcome State Fault Refusal :=
  vecShadow 18 true fMul t vd va vb vc s
/-- VFDIV, lane by lane. -/
def execVfdiv (t : BitVec 10) (vd va vb vc : BitVec 5) (s : State) : Host.Outcome State Fault Refusal :=
  vecShadow 19 true fDiv t vd va vb vc s
/-- VFMIN, lane by lane. -/
def execVfmin (t : BitVec 10) (vd va vb vc : BitVec 5) (s : State) : Host.Outcome State Fault Refusal :=
  vecShadow 20 false (fun _ => fMinMax false) t vd va vb vc s
/-- VFMAX, lane by lane. -/
def execVfmax (t : BitVec 10) (vd va vb vc : BitVec 5) (s : State) : Host.Outcome State Fault Refusal :=
  vecShadow 21 false (fun _ => fMinMax true) t vd va vb vc s
/-- VFEQ, lane by lane. -/
def execVfeq (t : BitVec 10) (vd va vb vc : BitVec 5) (s : State) : Host.Outcome State Fault Refusal :=
  vecShadow 22 false (fun _ a b => cmpLane (fEq a b)) t vd va vb vc s
/-- VFLT, lane by lane. -/
def execVflt (t : BitVec 10) (vd va vb vc : BitVec 5) (s : State) : Host.Outcome State Fault Refusal :=
  vecShadow 23 false (fun _ a b => cmpLane (fLt a b)) t vd va vb vc s

/-- A vector fused multiply-add. -/
def vfmaOp (fn : Nat) (negP negC : Bool) (t : BitVec 10) (vd va vb vc : BitVec 5) (s : State) : Host.Outcome State Fault Refusal :=
  let w := encV 0x33 vd va vb vc fn
  .next (runInstr s t.toNat w false 1 false (fun s =>
    let t := t.toNat
    let a := lanes s t va
    let b := lanes s t vb
    let c := lanes s t vc
    match vecCheck s t w true false [(0, a), (1, b), (2, c)] with
    | some r => r
    | none =>
      let (ok, s) := shadowOk s t
      if !ok then .trap s 0x04 (iwVal w)
      else
        let l := ((a.zip b).zip c).map (fun e => fMulAdd (flagsRM s t) negP negC e.1.1.val e.1.2.val e.2.val)
        .done (wvAll (accrue s t (l.foldl (fun x e => x ||| e.2) 0)) t vd (l.map (fun e => gen e.1)))))

/-- VFMADD, lane by lane: a × b + c. -/
def execVfmadd (t : BitVec 10) (vd va vb vc : BitVec 5) (s : State) : Host.Outcome State Fault Refusal :=
  vfmaOp 0 false false t vd va vb vc s
/-- VFMSUB, lane by lane: a × b − c. -/
def execVfmsub (t : BitVec 10) (vd va vb vc : BitVec 5) (s : State) : Host.Outcome State Fault Refusal :=
  vfmaOp 1 false true t vd va vb vc s
/-- VFNMADD, lane by lane: −(a × b) − c. -/
def execVfnmadd (t : BitVec 10) (vd va vb vc : BitVec 5) (s : State) : Host.Outcome State Fault Refusal :=
  vfmaOp 2 true true t vd va vb vc s
/-- VFNMSUB, lane by lane: −(a × b) + c. -/
def execVfnmsub (t : BitVec 10) (vd va vb vc : BitVec 5) (s : State) : Host.Outcome State Fault Refusal :=
  vfmaOp 3 true false t vd va vb vc s

/-- A move between vector and general registers (R158): the source is checked as a move and carried. -/
def vgMove (w : IWord) (reserved : Bool) (t : Nat) (x : TWord) (write : State → State) (s : State) : Act :=
  if reserved then .trap s 0x08 (iwVal w)
  else if isFailed x then .trap s 0x03 (iwVal w)
  else
    let (ok, s) := if isPoisoned x then (true, s) else residueOk s t x.val x.tal
    if ok then .done (write s) else .trap s 0x03 (iwVal w)

/-- VINS: lane of vd ← g. -/
def execVins (t : BitVec 10) (vd : BitVec 5) (g : BitVec 6) (lane : BitVec 2) (s : State) : Host.Outcome State Fault Refusal :=
  let w := encVG vd g lane 1
  .next (runInstr s t.toNat w false 1 false (fun s =>
    let x := rg s t.toNat g
    vgMove w false t.toNat x (fun s => wv s t.toNat vd lane.toNat x) s))
/-- VEXT: g ← lane of vd. -/
def execVext (t : BitVec 10) (vd : BitVec 5) (g : BitVec 6) (lane : BitVec 2) (s : State) : Host.Outcome State Fault Refusal :=
  let w := encVG vd g lane 2
  .next (runInstr s t.toNat w false 1 false (fun s =>
    let x := rv s t.toNat vd lane.toNat
    vgMove w false t.toNat x (fun s => wg s t.toNat g x) s))
/-- VBCAST: every lane of vd ← g; the lane field is reserved. -/
def execVbcast (t : BitVec 10) (vd : BitVec 5) (g : BitVec 6) (lane : BitVec 2) (s : State) : Host.Outcome State Fault Refusal :=
  let w := encVG vd g lane 3
  .next (runInstr s t.toNat w false 1 false (fun s =>
    let x := rg s t.toNat g
    vgMove w (lane != 0) t.toNat x (fun s => wvAll s t.toNat vd (List.replicate 4 x)) s))

/-! ### Tally instructions (R121, R151) -/

/-- TALLY.GEN: a fresh tally, generated twice. -/
def execTallyGen (t : BitVec 10) (gd ga gb : BitVec 6) (s : State) : Host.Outcome State Fault Refusal :=
  let w := encR 0x37 gd ga gb 0x01
  .next (runInstr s t.toNat w false 1 false (fun s =>
    let a := rg s t.toNat ga
    if gb != 0 then .trap s 0x08 (iwVal w)
    else if isPoisoned a then .trap s 0x05 0
    else
      let (ok, s) := shadowOk s t.toNat
      if ok then .done (wg s t.toNat gd (gen a.val)) else .trap s 0x04 (iwVal w)))
/-- TALLY.CHK: 0 sound, 1 failed, 2 poisoned; it never traps on its operand. -/
def execTallyChk (t : BitVec 10) (gd ga gb : BitVec 6) (s : State) : Host.Outcome State Fault Refusal :=
  let w := encR 0x37 gd ga gb 0x02
  .next (runInstr s t.toNat w false 1 false (fun s =>
    let a := rg s t.toNat ga
    if gb != 0 then .trap s 0x08 (iwVal w)
    else .done (wg s t.toNat gd (gen (if isPoisoned a then 2 else if isSound a then 0 else 1)))))
/-- TALLY.PSN: ga's value, poisoned. -/
def execTallyPsn (t : BitVec 10) (gd ga gb : BitVec 6) (s : State) : Host.Outcome State Fault Refusal :=
  let w := encR 0x37 gd ga gb 0x03
  .next (runInstr s t.toNat w false 1 false (fun s =>
    if gb != 0 then .trap s 0x08 (iwVal w)
    else .done (wg s t.toNat gd (poison (rg s t.toNat ga).val))))

end Sys2Proof.Machine
end

