-- ==== Sys2Proof/Machine/Attest.lean ====
section
/-! DEFINITION. Attestation (R46, R388, R389): the measurements of Table 15-10, and the SPDM message that reports them. -/

namespace Sys2Proof.Machine

/-- The values that Table 15-10 names for an index, one after another (log 115). -/
def measContent (s : State) (i : Nat) : List Byte :=
  match i with
  | 1 => Config.bootRom
  | 2 => s.boot.bowlImage
  | 3 => s.boot.cordImage ++ leBytes 1 s.boot.cordBank
  | 4 => leBytes 8 s.rig.imageId.toNat ++ s.rig.bodyDigest
  | 5 => (List.range 16).flatMap (fun p => leBytes 4 (prun s p).partialId ++ (prun s p).partialDigest)
  | 6 => leBytes 1 (b2n Config.gradeH) ++ leBytes 1 0xB0 ++ leBytes 1 s.flash.rbBowl ++ leBytes 1 s.flash.rbCord ++ leBytes 1 s.flash.rbRig
      ++ (List.range 8).flatMap (fun k => let o := SMap.get (fun _ => {}) s.flash.keys k; leBytes 1 o.st ++ beBytes 48 o.digest)
  | _ => leBytes 8 (secWm s) ++ leBytes 1 (b2n s.boot.debug) ++ leBytes 1 (b2n s.rig.unrigged)

/-- The measurement of an index, 1 to 7: a SHA-384 digest (R389). -/
def measurement (s : State) (i : Nat) : List Byte := beBytes 48 (sha384 (Config.measBytes i (measContent s i)))

/-- One measurement block of SPDM (DSP0274; PRESUMED, log 116). -/
def measBlock (s : State) (i : Nat) : List Byte :=
  leBytes 1 i ++ [1] ++ leBytes 2 51 ++ [Config.measType i] ++ leBytes 2 48 ++ measurement s i

/-- Bowline's response to an SPDM request: a MEASUREMENTS response (0x60) to GET_MEASUREMENTS (0xE0) reports the measurements asked for:
operation 0 their number, 1 to 7 one, 0xFF all. `resp` gives every other byte, and any other response (DSP0274; PRESUMED, log 116). -/
def spdmAnswer (s : State) (req resp : List Byte) : List Byte :=
  if req.getD 1 0 = 0xE0 && resp.getD 1 0 = 0x60 then
    let op := (req.getD 3 0).toNat
    let ids := if op = 0xFF then [1, 2, 3, 4, 5, 6, 7] else if 1 ≤ op && op ≤ 7 then [op] else []
    let record := ids.flatMap (measBlock s)
    let tail := resp.drop (8 + leAt resp 5 3)
    resp.take 2 ++ [if op = 0 then 7 else resp.getD 2 0, resp.getD 3 0] ++ leBytes 1 ids.length ++ leBytes 3 record.length ++ record ++ tail
  else resp

end Sys2Proof.Machine
end

