-- ==== Sys2Proof/Machine/Slices.lean ====
section
/-! DEFINITION. Tenant slices (ch. 17): binding, grants, windows, queue pairs, commands, quiesce and reset; and the release
of splice-able blocks (R374, R376), which an unbind begins. -/

namespace Sys2Proof.Machine

/-! ### Releases of splice-able blocks (R376, Table 15-7) -/

/-- The power domain of a splice-able block (Tables 15-5, 19-2). -/
def blkDomain (b : Nat) : Nat :=
  if b < 8 then 400 + b else if b < 24 then 416 else if b < 28 then 410 + (b - 24) else if b = 28 then 418 else 408 + (b - 29)

/-- The I/O agent, by its holder number, that serves a splice-able block; Vigil has none (R235, Table 15-5). -/
def blockAgent (b : Nat) : Option Nat :=
  if b < 8 then some (if b < 4 then 65 else 69) else if b < 24 then some (if b < 16 then 66 else 70) else if b < 28 then some 67
  else if b = 28 then none else some (if b = 29 then 64 else 68)

/-- An I/O agent evicts the lines of its read buffer: each leaves with an EVICT_CLEAN (R247, R376). -/
def evictAgent (s : State) (h : Nat) : State :=
  foldS (fun s e => sendMsg (agentDrop s h e.2.1) { op := 0x08, holder := h, line := e.2.1 }) s (s.agentBuf.filter (fun e => e.1 == h))

/-- The channel registers and state of a group reset; no interrupt of it stays asserted. -/
def groupReset (s : State) (g : Nat) : State :=
  let s := foldS (fun s c =>
    let src := irqSrc .DMA_CH_IRQ 0 c
    let s := bowlSet (mgmtSet (irqClear s src) src false) src false
    updDma (setR (setR (setR s .DMA_CH_CFG 0 0 c) .DMA_CH_DESC 0 0 c) .DMA_CH_IRQ 0 0 c) c (fun _ => {})) s ((List.range 16).map (fun i => 16 * g + i))
  { s with hostNet := s.hostNet.filter (fun r => r.ch / 16 != g), hawsNet := s.hawsNet.filter (fun r => r.thread < 1024 || (r.thread - 1024) / 16 != g) }

/-- The VIG_ registers reset, but for the fence registers (R472); a running test has ended. What the registers whose reset value comes
from the start-up run hold after a reset that no start-up run follows is open: DESIGN CHOICE, zero (log 107). -/
def vigilReset (s : State) : State :=
  let s := { s with vigil := none }
  let s := setR (setR (setR (setR s .VIG_STS 0 0) .VIG_MASK_QUAD 0 0) .VIG_MASK_SLICE 0 0) .VIG_MASK_IO 0 0
  let s := setR (setR (setR s .VIG_PASS_QUAD 0 0) .VIG_PASS_SLICE 0 0) .VIG_PASS_IO 0 0
  foldS (fun s i => setR (setR s .VIG_SIG 0 0 i) .VIG_EXP 0 0 i) s (List.range 152)

/-- A service-call bank resets: a call still running goes on, its results discarded (R370). -/
def svcBankReset (s : State) (who : Requester) : State :=
  let s := foldS (fun s i => setB s .RIG_SVC_ARG who 0 i) (setB s .RIG_SVC_STS who 0) (List.range 4)
  { s with svc := { s.svc with pend := s.svc.pend.map (fun p => if p.who = who then { p with drop := true } else p) } }

/-- The manager-role registers of port `h` reset: HOST_APER, DMA_MGR_EVT and the manager's service-call bank. -/
def managerReset (s : State) (h : Nat) : State :=
  let who : Requester := .manager (BitVec.ofNat 1 h)
  let s := msixDeassert (msixDeassert (msixDeassert (setR (setR s .HOST_APER 0xE1 h) .DMA_MGR_EVT 0 0 h) h 4 0) h 5 1) h 2 0
  svcBankReset s who

/-- RESETTING: the lines of the block's agent are evicted (R247), and the block is reset by kind. -/
def blockReset (s : State) (b : Nat) : State :=
  let s := match blockAgent b with
    | some h => evictAgent s h
    | none => s
  if b < 8 then setR s .FBAY_ERR 0 b
  else if b < 24 then groupReset s (b - 8)
  else if b < 28 then hawsSpliceReset s (b - 24)
  else if b = 28 then vigilReset s
  else managerReset s (b - 29)

/-- What a change of owner sets going: the manifest of a manager role is rebuilt (R400), and a Hawser port that is OWNED trains
(R431). -/
def ownerChanged (s : State) (b : Nat) : State :=
  if b ≥ 29 then manifestRebuild s (b - 29) else if 24 ≤ b && b < 28 then hawsRetrain s (b - 24) else s

/-- The release ends: the block becomes OWNED by the named next owner, or UNOWNED. -/
def releaseEnd (s : State) (b : Nat) : State :=
  let x := spliceOf s b
  let s := updR s .RIG_SPLICE (fun w =>
    setField (setField (setField (setBit w 3 false) 27 16 x.nextNo) 10 8 x.nextKind) 2 0 (if x.nextKind = 0 then 0 else 1)) 0 b
  ownerChanged (updSplice s b (fun _ => {})) b

/-- Work of a block drains: active channels abort at their boundary, and a held COPY ends. -/
def drainStart (s : State) (b : Nat) : State :=
  if 8 ≤ b && b < 24 then
    foldS (fun s c => if (dmaOf s c).st = 1 || ((dmaOf s c).st = 2 && (dmaOf s c).cmd.isSome) then dmaAbort s c else s) s
      ((List.range 16).map (fun i => 16 * (b - 8) + i))
  else s

/-- A release begins (R376), with a next owner or none; of a block whose domain is off it is complete at once (Table
15-8). -/
def releaseBegin (s : State) (b nextKind nextNo : Nat) : State :=
  let src := irqSrc .RIG_SPLICE 0 b
  let s := bowlSet (mgmtSet s src false) src false
  let s := updSplice s b (fun _ => { nextKind := nextKind, nextNo := nextNo, relAt := s.epoch })
  let s := updR s .RIG_SPLICE (fun w => setField (setBit w 3 false) 2 0 2) 0 b
  if domState s (blkDomain b) = 0 then releaseEnd (blockReset s b) b else drainStart s b

/-- A revocation: a release with no next owner, with its record (R374). -/
def revokeBlock (s : State) (b : Nat) : State :=
  let (kind, no) := blkOwner s b
  releaseBegin (alm s 0x8012 3 16 b kind no) b 0 0

/-! ### Access (R412–R415, R429) -/

/-- The partition and record of a slice (R77); of overlapping records of one partition, which no rule forbids or orders, the first counts
(DESIGN CHOICE, log 110). -/
def sliceRec (s : State) (n : Nat) : Option (Nat × SliceRange) :=
  (partIds s).findSome? (fun p => ((knots s p).slices.find? (fun r => r.first ≤ n && n < r.first + r.count)).map (fun r => (p, r)))

/-- Cordage, Bowline or the manager of the slice's port. -/
def sliceAdmin (s : State) (who : Requester) (n : Nat) : Bool :=
  match who with
  | .mgmt _ => true
  | .bowline => true
  | .manager h => sliceBound s n && slicePort s n = h.toNat
  | _ => false

/-- Sets SLCE_STS.REFUSE. -/
def sliceRefuse (s : State) (n code : Nat) : State := updR s .SLCE_STS (fun w => setField w 11 8 code) 0 n

/-! ### Unbind and reset (R423) -/

/-- The page registers of a slice return to reset. -/
def pageReset (s : State) (n : Nat) : State :=
  let s := msixDeassert s (slicePort s n) (fieldN (getR s .SLCE_BIND 0 n) 12 0) (srcSlice n)
  let s := foldS (fun s q =>
    let s := setR (setR s .SLCE_SQ_BASE 0 n q) .SLCE_CQ_BASE 0 n q
    setR (setR (setR s .SLCE_QP_CFG (regReset .SLCE_QP_CFG) n q) .SLCE_SQ_TAIL 0 n q) .SLCE_CQ_HEAD 0 n q) s (List.range 4)
  updTenant s n (fun t => { t with qps := [] })

/-- An unbind: the page resets, grant, window and binding clear, and every block the slice owns is revoked at once
(R374). -/
def sliceUnbind (s : State) (n : Nat) : State :=
  let s := pageReset s n
  let s := setR (setR (setR s .SLCE_PT 0 0 n) .SLCE_WIN 0 0 n) .SLCE_BIND 0 0 n
  let s := updR s .SLCE_STS (fun w => setBit (setField w 11 8 0) 1 false) 0 n
  foldS (fun s b => if blkState s b = 1 && blkOwner s b == (4, n) then revokeBlock s b else s) s (List.range 31)

/-! ### Binding (R412, Table 17-1) -/

/-- The refusal code of a binding, 0 for none; every write of VALID = 1 to a bound slice of some record has code 2 (R412; log 108). -/
def bindCheck (s : State) (who : Requester) (n : Nat) (v : Word) : Nat :=
  let h := fieldN v 39 39
  let mayPort : Bool := match who with | .manager m => m.toNat = h | _ => true
  match sliceRec s n with
  | none => 1
  | some (_, r) =>
    if sliceBound s n then 2
    else if !r.ports.testBit h || !mayPort then 1
    else if fieldN v 38 36 = 0 || r.qpairs < fieldN v 38 36 || r.priority < fieldN v 34 32 then 3
    else if (List.range 4096).any (fun m => m != n && sliceBound s m && slicePort s m = h && slicePasid s m = fieldN v 59 40) then 4
    else if fieldN v 12 0 < 64 || 4159 < fieldN v 12 0 then 5
    else 0

/-- A write of SLCE_BIND[n]. With VALID = 0 it unbinds a bound slice; of one that is not bound it writes the other fields, so that
writes of 4 bytes prepare a binding (R4; what R423 leaves open of it is DESIGN CHOICE, log 108). -/
def bindWrite (s : State) (who : Requester) (n : Nat) (v : Word) : State :=
  if !(isMgmt who || isBowline who || isManager who) then refuseReg s ⟨.SLCE_BIND, 0, n, 0⟩ who
  else if bit v 63 then
    let code := bindCheck s who n v
    if code ≠ 0 then sliceRefuse s n code
    else
      let s := setR s .SLCE_BIND (v &&& fieldMask .SLCE_BIND) 0 n
      updR s .SLCE_STS (fun w => setBit (setBit (setField w 11 8 0) 1 true) 0 (bit w 0 && bit (getR s .SLCE_CTL 0 n) 0)) 0 n
  else if !sliceBound s n then sliceRefuse (setR s .SLCE_BIND (setBit (v &&& fieldMask .SLCE_BIND) 63 false) 0 n) n 0
  else if !sliceAdmin s who n then refuseReg s ⟨.SLCE_BIND, 0, n, 0⟩ who
  else if !bit (getR s .SLCE_STS 0 n) 0 then sliceRefuse s n 7
  else sliceUnbind s n

/-- SLICE_BIND: a write with VALID = 1. -/
def execSliceBind (who : Requester) (n : BitVec 12) (val : Word) (s : State) : Host.Outcome State Fault Refusal :=
  .next (regCmd (txClear s) ⟨.SLCE_BIND, 0, n.toNat, 0⟩ (fun s => bindWrite s who n.toNat (setBit val 63 true)))

/-- SLICE_UNBIND: a write with VALID = 0. -/
def execSliceUnbind (who : Requester) (n : BitVec 12) (s : State) : Host.Outcome State Fault Refusal :=
  .next (regCmd (txClear s) ⟨.SLCE_BIND, 0, n.toNat, 0⟩ (fun s => bindWrite s who n.toNat 0))

/-! ### Grants (R414) and windows (R415) -/

/-- All of [lo, hi) lies in point ranges for which partition `p` holds the write right. -/
def writeRights (s : State) (p lo hi : Nat) (fuel : Nat := 4097) : Bool :=
  match fuel with
  | 0 => false
  | fuel + 1 =>
    if hi ≤ lo then true
    else match (knots s p).points.find? (fun r => r.write && r.first ≤ lo && lo < r.first + r.count) with
      | some r => writeRights s p (r.first + r.count) hi fuel
      | none => false

/-- A write of SLCE_PT[n]. -/
def grantWrite (s : State) (who : Requester) (n : Nat) (v : Word) : State :=
  if !sliceAdmin s who n then refuseReg s ⟨.SLCE_PT, 0, n, 0⟩ who
  else
    let first := fieldN v 23 0
    let count := fieldN v 56 32
    match sliceRec s n with
    | none => sliceRefuse s n 6
    | some (p, r) =>
      if count ≠ 0 && (first < r.ptFirst || r.ptFirst + r.ptCount < first + count || (bit v 25 && !writeRights s p first (first + count))) then
        sliceRefuse s n 6
      else sliceRefuse (setR s .SLCE_PT (v &&& fieldMask .SLCE_PT) 0 n) n 0

/-- SLICE_GRANT. -/
def execSliceGrant (who : Requester) (n : BitVec 12) (val : Word) (s : State) : Host.Outcome State Fault Refusal :=
  .next (regCmd (txClear s) ⟨.SLCE_PT, 0, n.toNat, 0⟩ (fun s => grantWrite s who n.toNat val))

/-- A window lies wholly inside one MEMORY range of partition `p`, or has no size. -/
def winFits (s : State) (p : Nat) (v : Word) : Bool :=
  let base := fieldN v 51 20 * 0x100000
  let size := fieldN v 11 0 * 0x100000
  size = 0 || (knots s p).ranges.any (fun r => r.1 ≤ base && base + size ≤ r.1 + r.2)

/-- A write of SLCE_WIN[n], by threads of the serving partition. -/
def winWrite (s : State) (who : Requester) (n : Nat) (v : Word) : State :=
  match sliceRec s n with
  | none => refuseReg s ⟨.SLCE_WIN, 0, n, 0⟩ who
  | some (p, _) =>
    if reqPart s who != some p then refuseReg s ⟨.SLCE_WIN, 0, n, 0⟩ who
    else if winFits s p v then setR s .SLCE_WIN (v &&& fieldMask .SLCE_WIN) 0 n
    else alm s 0xA013 2 12 n

/-- WINDOW_WRITE. -/
def execWindowWrite (who : Requester) (n : BitVec 12) (val : Word) (s : State) : Host.Outcome State Fault Refusal :=
  .next (regCmd (txClear s) ⟨.SLCE_WIN, 0, n.toNat, 0⟩ (fun s => winWrite s who n.toNat val))

/-- A write of SLCE_POST[n] (R420), by threads of the serving partition. -/
def postWrite (s : State) (who : Requester) (n : Nat) (v : Word) : State :=
  match sliceRec s n with
  | none => refuseReg s ⟨.SLCE_POST, 0, n, 0⟩ who
  | some (p, _) =>
    if reqPart s who != some p then refuseReg s ⟨.SLCE_POST, 0, n, 0⟩ who
    else qpPost s n (fieldN v 1 0) 1 (w64 (fieldN v 63 32))

/-- SLICE_POST. -/
def execSlicePost (who : Requester) (n : BitVec 12) (val : Word) (s : State) : Host.Outcome State Fault Refusal :=
  .next (regCmd (txClear s) ⟨.SLCE_POST, 0, n.toNat, 0⟩ (fun s => postWrite s who n.toNat val))

/-! ### Commands of a queue pair (R416–R418) -/

/-- Bytes not moved, for the commands that report them. -/
def cmdResidue (c : SqCmd) : Word := if c.op = 1 || c.op = 2 then w64 c.len else 0

/-- A command breaks R417's form. -/
def cmdBad (c : SqCmd) : Bool :=
  c.bad || c.op = 0 || 5 < c.op || c.resv ≠ 0
    || ((c.op = 1 || c.op = 2) && (c.len = 0 || c.len % 8 ≠ 0 || c.w1.toNat % 8 ≠ 0 || c.w2.toNat % 8 ≠ 0))
    || (c.op = 3 && (c.w1.toNat % 8 ≠ 0 || c.len = 0 || 256 < c.len))
    || (3 ≤ c.op && fieldN c.w2 63 24 ≠ 0)

/-- The slice's grant allows a point command (R414, R417). -/
def grantOk (s : State) (n : Nat) (c : SqCmd) : Bool :=
  let g := getR s .SLCE_PT 0 n
  let p := fieldN c.w2 23 0
  let count := if c.op = 3 then c.len else 1
  (if c.op = 3 then bit g 24 else bit g 25) && fieldN g 23 0 ≤ p && p + count ≤ fieldN g 23 0 + fieldN g 56 32

/-- The status that refuses a command as it begins, 0 for none (R417). -/
def cmdRefused (s : State) (n : Nat) (c : SqCmd) : Nat :=
  if cmdBad c then 4
  else if c.op ≤ 2 then (if (sliceWin s n).2 < c.w2.toNat + c.len then 0x0B else 0)
  else if grantOk s n c then 0 else 0x0A

/-- Begins fetched commands, in order, while the CQ has room for their entries (R416). -/
def qpBegin (s : State) (n q : Nat) (fuel : Nat := 16) : State :=
  match fuel with
  | 0 => s
  | fuel + 1 =>
    let p := qpOf s n q
    match p.queue with
    | [] => s
    | c :: r =>
      if cqSize s n q ≤ cqUsed s n q + p.begun.length + (qpChans s n q).length then s
      else
        let s := updQp s n q (fun p => { p with queue := r })
        match cmdRefused s n c with
        | 0 => qpBegin (updQp s n q (fun p => { p with begun := p.begun ++ [c] })) n q fuel
        | st => qpBegin (qpComplete s n q c st (cmdResidue c)) n q fuel

/-- The queue pair has an entry to fetch, and room in flight for it (R416). -/
def qpFetchable (s : State) (u k : Nat) : Bool :=
  let p := qpOf s u k
  let h := slicePort s u
  qpOn s u k && !sliceQuiescing s u && !p.stopped && p.head != fieldN (getR s .SLCE_SQ_TAIL u k) 15 0
    && qpInflight s u k < 8 && sliceInflight s u < 32 && upstreamOk s h && hostUp s h

/-- The slice's turn at the fetch unit: no slice of a higher PRIO has fetchable work, and within its PRIO slices are served
round-robin (R416). -/
def fetchTurn (s : State) (u : Nat) : Bool :=
  let l := (List.range 4096).filter (fun n => sliceBound s n && (List.range 4).any (qpFetchable s n))
  let prio (n : Nat) : Nat := fieldN (getR s .SLCE_BIND 0 n) 34 32
  let last := SMap.get (fun _ => 0) s.dmaTurns.fetch (prio u)
  let dist (n : Nat) : Nat := (n + 4096 - last) % 4096
  l.all (fun n => n = u || decide (prio n < prio u) || (prio n = prio u && decide (dist u ≤ dist n)))

/-- SQ_FETCH: the entry at SQ_HEAD is fetched, in the slice's turn (R413, R416); a bus error stops the queue pair (R421). -/
def execSqFetch (n : BitVec 12) (q : BitVec 2) (status : BitVec 3) (ep : Bool) (data : List (BitVec 64)) (hdr0 hdr1 : Word) (s : State) :
    Host.Outcome State Fault Refusal :=
  let s := txClear s
  let u := n.toNat
  let k := q.toNat
  let h := slicePort s u
  if data.length ≠ 4 then .fault .noSuchUnit
  else .next (if !qpFetchable s u k || !fetchTurn s u then s
    else
      let a := fieldN (getR s .SLCE_SQ_BASE u k) 63 6 * 64 + (qpOf s u k).head % sqSize s u k * 32
      let s := tx s (.read h (some (slicePasid s u)) a 32)
      let s : State := { s with dmaTurns := { s.dmaTurns with fetch := SMap.set (fun _ => 0) s.dmaTurns.fetch (fieldN (getR s .SLCE_BIND 0 u) 34 32) (u + 1) } }
      if status ≠ 0 then updQp s u k (fun p => { p with stopped := true })
    else
      let s := if ep then hostError s h 2 hdr0 hdr1 else s
      let w (i : Nat) : Word := data.getD i 0
      let c : SqCmd := { op := fieldN (w 0) 7 0, resv := fieldN (w 0) 15 8, cid := fieldN (w 0) 31 16, len := fieldN (w 0) 63 32, w1 := w 1, w2 := w 2, w3 := w 3, bad := ep }
      qpBegin (updQp s u k (fun p => { p with head := (p.head + 1) % 65536, queue := p.queue ++ [c] })) u k)

/-- The channel that a COPY of the slice takes (R418). -/
def freeChan (s : State) (n : Nat) : Option Nat :=
  let own := (List.range 256).find? (fun c => blkState s (chanBlock c) = 1 && chanOwner s c == (4, n) && (dmaOf s c).st = 0)
  match own with
  | some c => some c
  | none => (List.range 256).find? (fun c => blkState s (chanBlock c) = 1 && (chanOwner s c).1 = 2 && bit (getR s .DMA_GRP_CTL 0 (c / 16)) 0 && (dmaOf s c).st = 0)

/-- Carries out the oldest begun COPY of one direction: it takes a channel, or waits for one (R418). -/
def copyStart (s : State) (n q op : Nat) : State :=
  match (qpOf s n q).begun.find? (fun c => c.op == op), freeChan s n with
  | some c, some ch =>
    let s := updQp s n q (fun p => { p with begun := p.begun.erase c })
    let s := updDma s ch (fun x => { x with st := 1, status := 0, desc := 0, loaded := true, src := if op = 1 then c.w1.toNat else c.w2.toNat, dst := if op = 1 then c.w2.toNat else c.w1.toNat, len := c.len, residue := c.len, srcSp := if op = 1 then 1 else 0, dstSp := if op = 1 then 0 else 1, slice := n, int := false, last := true, retries := 3, cmd := some (n, q, c), finished := false, pend := false })
    dmaBegin s ch
  | _, _ => s

/-- COPY_IN. -/
def execCopyIn (n : BitVec 12) (q : BitVec 2) (s : State) : Host.Outcome State Fault Refusal := .next (copyStart (txClear s) n.toNat q.toNat 1)
/-- COPY_OUT. -/
def execCopyOut (n : BitVec 12) (q : BitVec 2) (s : State) : Host.Outcome State Fault Refusal := .next (copyStart (txClear s) n.toNat q.toNat 2)

/-- The oldest begun point command of the queue pair, if it is of this kind: point commands reach their engines in SQ order
(R416). -/
def pointCmd (s : State) (n q op : Nat) : Option (SqCmd × State) :=
  match (qpOf s n q).begun.find? (fun c => decide (3 ≤ c.op)) with
  | some c => if c.op = op then some (c, updQp s n q (fun p => { p with begun := p.begun.erase c })) else none
  | none => none

/-- Reads points, VALUE and the word that PSRD returns with MODE = 1. -/
def readPoints (s : State) (p : Nat) : Nat → List TWord × State
  | 0 => ([], s)
  | k + 1 =>
    let (l, s) := readPoints s p k
    let (v, _, s) := ptUnitRead s 81 (p + k)
    (l ++ [v, lineWord (ptGet s (p + k)) 2], s)

/-- Posts words burst by burst, a burst ending at a 4 KiB boundary; the burst with a failed or poisoned word is not written
and ends it: answers whether all were sound. -/
def postBursts (s : State) (h : Nat) (pasid : Option Nat) (addr : Nat) (l : List TWord) (fuel : Nat := 4) : Bool × State :=
  match fuel, l with
  | 0, _ => (true, s)
  | _, [] => (true, s)
  | fuel + 1, l =>
    let n := (4096 - addr % 4096) / 8
    if (l.take n).any (fun w => !isSound w) then (false, s)
    else postBursts (postWords s h pasid addr ((l.take n).map TWord.val)) h pasid (addr + 8 * n) (l.drop n) fuel

/-- PS_READ: COUNT points to host memory (R417); it waits while no upstream request is allowed. -/
def execPsRead (n : BitVec 12) (q : BitVec 2) (s : State) : Host.Outcome State Fault Refusal :=
  let s := txClear s
  let u := n.toNat
  let k := q.toNat
  .next (if !upstreamOk s (slicePort s u) then s
    else match pointCmd s u k 3 with
    | none => s
    | some (c, s) =>
      let (l, s) := readPoints s (fieldN c.w2 23 0) c.len
      if !hostUp s (slicePort s u) then qpComplete s u k c 2 0
      else
        let (ok, s) := postBursts s (slicePort s u) (some (slicePasid s u)) c.w1.toNat l
        qpComplete s u k c (if ok then 0 else 3) 0)

/-- PS_WRITE: writes one point; RESULT is the new SEQ. -/
def execPsWrite (n : BitVec 12) (q : BitVec 2) (genFail : Bool) (s : State) : Host.Outcome State Fault Refusal :=
  let s := txClear s
  .next (match pointCmd s n.toNat q.toNat 4 with
    | none => s
    | some (c, s) =>
      let p := fieldN c.w2 23 0
      let s := ptCheck (engCount (ptSettle (ptReach s 81 p) p) (ptHome p) 0) p
      let (seq, s) := ptWrite s p (gen c.w3) { writer := 0x1000 + n.toNat } genFail
      qpComplete s n.toNat q.toNat c 0 (w64 seq))

/-- PS_CW: compares one point with word 3 and writes word 1 where they are equal; RESULT is the value found. A failed or
poisoned value found cannot leave the module and ends the command UNCORRECTABLE (R141). -/
def execPsCw (n : BitVec 12) (q : BitVec 2) (genFail : Bool) (s : State) : Host.Outcome State Fault Refusal :=
  let s := txClear s
  .next (match pointCmd s n.toNat q.toNat 5 with
    | none => s
    | some (c, s) =>
      let p := fieldN c.w2 23 0
      let s := ptCheck (engCount (ptSettle (ptReach s 81 p) p) (ptHome p) 0) p
      let f := lineWord (ptGet s p) 0
      if badWord f then qpComplete s n.toNat q.toNat c 3 0
      else
        let s := if f.val = c.w3 then (ptWrite s p (gen c.w1) { writer := 0x1000 + n.toNat } genFail).2 else s
        qpComplete s n.toNat q.toNat c 0 f.val)

/-! ### Page registers (R397, R416, R419, R421) -/

/-- SQ_TAIL_WRITE: makes entries fetchable; discarded while the slice quiesces, with at most one notice in an epoch second
(R422); a tail that would pass the ring's size leaves it unchanged, with a notice (R317), whose code Table 21-4 does not give (log 118). -/
def sqTail (s : State) (n q tail : Nat) : State :=
  if sliceQuiescing s n then
    let sec := s.epoch / 100000000
    if (tenantOf s n).tailSec = sec + 1 then s
    else alm (updTenant s n (fun t => { t with tailSec := sec + 1 })) 0xA012 2 12 n q
  else if sqSize s n q < (tail + 65536 - (qpOf s n q).head) % 65536 then alm s 0xA012 2 12 n q
  else setR s .SLCE_SQ_TAIL (w64 tail) n q

/-- SQ_TAIL_WRITE. -/
def execSqTailWrite (n : BitVec 12) (q : BitVec 2) (tail : BitVec 16) (s : State) : Host.Outcome State Fault Refusal :=
  .next (if sliceBound s n.toNat && !regDead s ⟨.SLCE_QP_CTL, n.toNat, 0, 0⟩ then sqTail s n.toNat q.toNat tail.toNat else s)

/-- A write of CQ_HEAD: it may deassert the slice's source, and commands that waited for room begin; a head past CQ_TAIL leaves it
unchanged (DESIGN CHOICE, log 119). -/
def cqHead (s : State) (n q head : Nat) : State :=
  let tail := (qpOf s n q).tail
  let old := fieldN (getR s .SLCE_CQ_HEAD n q) 15 0
  if (tail + 65536 - old) % 65536 < (tail + 65536 - head) % 65536 then s
  else qpBegin (sliceMsix (setR s .SLCE_CQ_HEAD (w64 head) n q) n) n q

/-- CQ_HEAD_WRITE. -/
def execCqHeadWrite (n : BitVec 12) (q : BitVec 2) (head : BitVec 16) (s : State) : Host.Outcome State Fault Refusal :=
  .next (if sliceBound s n.toNat && !regDead s ⟨.SLCE_QP_CTL, n.toNat, 0, 0⟩ then cqHead (txClear s) n.toNat q.toNat head.toNat else s)

/-- RESUME of a queue pair: RUN again, waiting entries written, held COPYs resumed. -/
def qpResume (s : State) (n q : Nat) : State :=
  let s := cqPump (updQp s n q (fun p => { p with stopped := false })) n q
  qpBegin (foldS (fun s c => if (dmaOf s c).st = 2 then dmaResume s c else s) s (qpChans s n q)) n q

/-- ABORT of a queue pair: every command not yet complete ends ABORTED. -/
def qpAbort (s : State) (n q : Nat) : State :=
  let p := qpOf s n q
  let s := updQp s n q (fun p => { p with queue := [], begun := [] })
  let s := foldS (fun s c => qpComplete s n q c 1 (cmdResidue c)) s (p.begun ++ p.queue)
  foldS dmaAbort s (qpChans s n q)

/-- A write of SLCE_QP_CTL: ABORT, then RESUME. -/
def qpCtl (s : State) (n q : Nat) (v : Word) : State :=
  let s := if bit v 1 then qpAbort s n q else s
  if bit v 0 then qpResume s n q else s

/-- QP_RESUME. -/
def execQpResume (n : BitVec 12) (q : BitVec 2) (s : State) : Host.Outcome State Fault Refusal :=
  .next (if sliceBound s n.toNat && !regDead s ⟨.SLCE_QP_CTL, n.toNat, 0, 0⟩ then qpCtl (txClear s) n.toNat q.toNat 1 else s)
/-- QP_ABORT. -/
def execQpAbort (n : BitVec 12) (q : BitVec 2) (s : State) : Host.Outcome State Fault Refusal :=
  .next (if sliceBound s n.toNat && !regDead s ⟨.SLCE_QP_CTL, n.toNat, 0, 0⟩ then qpCtl (txClear s) n.toNat q.toNat 2 else s)

/-! ### Quiesce (R422) -/

/-- Quiesce begins: commands not begun and COPYs without a channel end QUIESCED, running COPYs end at their boundary, held
ones at once. -/
def sliceQuiesce (s : State) (n : Nat) : State :=
  let s := updTenant s n (fun t => { t with draining := true })
  let s := foldS (fun s q =>
    let p := qpOf s n q
    let copy (c : SqCmd) : Bool := decide (c.op ≤ 2)
    let s := updQp s n q (fun p => { p with queue := [], begun := p.begun.filter (fun c => !copy c) })
    foldS (fun s c => qpComplete s n q c 8 (cmdResidue c)) s (p.begun.filter copy ++ p.queue)) s (List.range 4)
  foldS (fun s c =>
    match (dmaOf s c).cmd with
    | some (m, _, _) => if m ≠ n then s else if (dmaOf s c).st = 2 then dmaEnd s c 8 else updDma s c (fun x => { x with quiesce := true })
    | none => s) s (SMap.keys s.dma)

/-- The slice is quiesced: entries that could not be written are discarded, QUIESCED and the manager event set (R421,
R422). -/
def sliceQuiesced (s : State) (n : Nat) : State :=
  let s := foldS (fun s q => updQp (cqPump s n q) n q (fun p => { p with done := [] })) s (List.range 4)
  let s := updTenant s n (fun t => { t with draining := false })
  let s := updR s .SLCE_STS (fun w => setBit w 0 (bit (getR s .SLCE_CTL 0 n) 0)) 0 n
  if sliceBound s n then mgrEvent s (slicePort s n) 0 else s

/-- Nothing of the slice stays in flight: what R422 drains has drained, running COPYs having ended at their bursts, and the slice is unbound
(R423). -/
def sliceCut (s : State) (n : Nat) : State :=
  let s := sliceQuiesce s n
  let l := (SMap.keys s.dma).filter (fun c => match (dmaOf s c).cmd with | some (m, _, _) => m == n | none => false)
  let s : State := { s with hostNet := s.hostNet.filter (fun r => !l.contains r.ch), hawsNet := s.hawsNet.filter (fun r => r.thread < 1024 || !l.contains (r.thread - 1024)) }
  sliceUnbind (sliceQuiesced (foldS (fun s c => dmaEnd s c 8) s l) n) n

/-- A write of SLCE_CTL[n] (R422, R423). -/
def sliceCtl (s : State) (who : Requester) (n : Nat) (v : Word) : State :=
  if !sliceAdmin s who n then refuseReg s ⟨.SLCE_CTL, 0, n, 0⟩ who
  else
    let s := if bit v 1 then (if bit (getR s .SLCE_STS 0 n) 0 then sliceRefuse (pageReset s n) n 0 else sliceRefuse s n 7) else s
    let was := bit (getR s .SLCE_CTL 0 n) 0
    let s := updR s .SLCE_CTL (fun w => setBit w 0 (bit v 0)) 0 n
    if bit v 0 && !was then sliceQuiesce s n
    else if !bit v 0 && was then updR s .SLCE_STS (fun w => setBit w 0 false) 0 n
    else s

/-- SLICE_QUIESCE: a write of QUIESCE = 1. -/
def execSliceQuiesce (who : Requester) (n : BitVec 12) (s : State) : Host.Outcome State Fault Refusal :=
  .next (regCmd (txClear s) ⟨.SLCE_CTL, 0, n.toNat, 0⟩ (fun s => sliceCtl s who n.toNat 1))

/-- SLICE_QUIESCED: due once nothing of a quiescing slice is in flight. -/
def execSliceQuiesced (n : BitVec 12) (s : State) : Host.Outcome State Fault Refusal :=
  let u := n.toNat
  .next (if sliceQuiescing s u && !bit (getR s .SLCE_STS 0 u) 0 && sliceInflight s u = 0 then sliceQuiesced (txClear s) u else s)

/-- SLICE_RESET: a write of RESET, QUIESCE as it stands. -/
def execSliceReset (who : Requester) (n : BitVec 12) (s : State) : Host.Outcome State Fault Refusal :=
  .next (regCmd (txClear s) ⟨.SLCE_CTL, 0, n.toNat, 0⟩ (fun s => sliceCtl s who n.toNat (setBit (getR s .SLCE_CTL 0 n.toNat) 1 true)))

end Sys2Proof.Machine
end

