-- ==== Sys2Proof/Machine/Host.lean ====
section
/-! DEFINITION. The host ports (ch. 16): configuration space, resets, link power, the expansion ROM, DOE, and inbound requests
to device memory. -/

namespace Sys2Proof.Machine

/-! ### The port -/

/-- Configuration requests complete successfully (R403, R405): the Rigging verify step has ended, and no reset event of the
port is in progress. -/
def hostReady (s : State) (h : Nat) : Bool :=
  s.boot.rails && decide (5 ≤ s.boot.step) && !hostInReset s h && !bit (getR s .HOST_STS h) 1

/-- The port's link goes down; a change asserts manager entry 0 (Table 16-7). -/
def linkDown (s : State) (h : Nat) : State :=
  if hostUp s h then
    msixAssert (updR s .HOST_STS (fun w => setField (setField (setField (setBit w 0 false) 7 5 0) 12 8 0) 15 14 0) h) h 0 srcLinkChange
  else s

/-- Memory requests are served: the link is up, no reset is in progress, D0, and Memory Space Enable (R392, R405, R407). -/
def hostMemOk (s : State) (h : Nat) : Bool := hostReady s h && !hostD3 s h && bit (getR s .HOST_STS h) 19

/-- The slices bound on port `h`. -/
def portSlices (s : State) (h : Nat) : List Nat := (List.range 4096).filter (fun n => sliceBound s n && slicePort s n = h)

/-- Channels at work on port `h` take a hold at their burst boundary, with HELD_BME (5) or HELD_RESET (6); of their reads nothing more is
requested (R407). -/
def holdPort (s : State) (h status : Nat) : State :=
  let s : State := { s with hostNet := (s.hostNet.map (fun r => if r.port = h then { r with len := min r.len r.asked } else r)).filter (fun r => r.port != h || r.asked != 0) }
  foldS (fun s c => if (dmaOf s c).st = 1 && onPort s (dmaOf s c) h then updDma s c (fun x => { x with hold := if x.hold = 6 then 6 else status }) else s) s (SMap.keys s.dma)

/-- Upstream requests are allowed again: held messages and completion entries go out (R402, R416). -/
def upstreamBack (s : State) (h : Nat) : State :=
  if upstreamOk s h then
    foldS (fun s n => foldS (fun s q => cqPump s n q) s (List.range 4)) (msixUnblock s h) (portSlices s h)
  else s

/-- Bus Master Enable changes (R407). -/
def setBme (s : State) (h : Nat) (on : Bool) : State :=
  let was := hostBme s h
  let s := updHost (updR s .HOST_STS (fun w => setBit w 18 on) h) h (fun p =>
    { p with cfg := SMap.set cfgDflt p.cfg 1 (fieldN (setBit (w64 (SMap.get cfgDflt p.cfg 1)) 2 on) 31 0) })
  if was && !on then holdPort s h 5 else if on && !was then upstreamBack s h else s

/-- The power state changes (R407): D3hot acts on upstream traffic as BME = 0. -/
def setDstate (s : State) (h d : Nat) : State :=
  let was := hostD3 s h
  let s := updR s .HOST_STS (fun w => setField w 17 16 d) h
  if d = 3 && !was then holdPort s h 5 else if d = 0 && was then upstreamBack s h else s

/-! ### DOE (R409) -/

/-- DOE Abort, and what a reset does to DOE: any object in progress is discarded. -/
def doeAbort (s : State) (h : Nat) : State :=
  updHost s h (fun p => { p with doeBusy := false, doeErr := false, doeReady := false, doeReq := [], doeResp := [] })

/-- The answer of DOE Discovery for an index: vendor, type and the next index. -/
def doeDiscovery (i : Nat) : List Byte :=
  let w := if i = 0 then 0x0001 + 0x00 * 2 ^ 16 + 1 * 2 ^ 24 else if i = 1 then 0x0001 + 0x01 * 2 ^ 16 else 0xFFFF
  leBytes 4 1 ++ leBytes 4 3 ++ leBytes 4 w

/-- A request object: Discovery is answered at once, CMA/SPDM goes to the responder with DOE Busy, and an object that is too
long or of another type sets DOE Error. -/
def doeTake (s : State) (h vendor ty : Nat) (obj : List Byte) : State :=
  if (hostOf s h).doeBusy then s
  else if 4096 < obj.length || vendor ≠ 1 || 1 < ty then updHost s h (fun p => { p with doeErr := true, doeReq := [] })
  else if ty = 0 then updHost s h (fun p => { p with doeReady := true, doeReq := [], doeResp := doeDiscovery (leAt obj 8 1) })
  else updHost s h (fun p => { p with doeBusy := true, doeReady := false, doeReq := obj, doeResp := [] })

/-! ### Resets (R404–R406, Table 16-8) -/

/-- A reset event of the port: PERST# (1), hot reset (2) or FLR (3). A second one runs on from where the first has reached. -/
def portReset (s : State) (h kind : Nat) : State :=
  let s := if kind = 3 then s else linkDown s h
  let s := updHost s h (fun p => { p with resetBy := if p.resetBy = 1 then 1 else kind })
  let s := doeAbort (updR s .HOST_STS (fun w => setBit w 20 true) h) h
  let s := { s with hostNet := s.hostNet.filter (fun r => r.port != h) }
  let s := foldS (fun s c =>
    if (dmaOf s c).st = 1 && (dmaOf s c).cmd.isNone && onPort s (dmaOf s c) h then updDma s c (fun x => { x with hold := 6, got := none }) else s) s (SMap.keys s.dma)
  foldS (fun s n => if (tenantOf s n).draining then s else sliceQuiesce s n) s (portSlices s h)

/-- Configuration dwords that are sticky: the AER registers and Link Control 2 (Table 16-3). -/
def cfgSticky (i : Nat) : Bool := (65 ≤ i && i ≤ 74) || i = 32

/-- Every item of Table 16-8 is complete. -/
def portItems (s : State) (h : Nat) : State :=
  let s := foldS (fun s n => sliceUnbind (sliceQuiesced s n) n) s (portSlices s h)
  let s := updR s .HOST_STS (fun w => setField w 19 16 0) h
  let s := updHost s h (fun p => { p with msix := [], src := p.src.filter (fun x => decide (x.2 < 2 ^ 16)), cfg := p.cfg.filter (fun e => cfgSticky e.1) })
  let s := setR (setR s .HOST_CTL (regReset .HOST_CTL) h) .HOST_APER (regReset .HOST_APER) h
  svcBankReset (msixDeassert s h 2 0) (.manager (BitVec.ofNat 1 h))

/-- No burst of a channel runs on the port. -/
def portQuiet (s : State) (h : Nat) : Bool :=
  (SMap.keys s.dma).all (fun c => !((dmaOf s c).st = 1 && onPort s (dmaOf s c) h))

/-- HOST_RESET_COMPLETE: due once every burst on the port has reached its boundary; while PERST# is held the port stays in
reset. -/
def execHostResetComplete (h : BitVec 1) (s : State) : Host.Outcome State Fault Refusal :=
  let n := h.toNat
  let by' := (hostOf s n).resetBy
  .next (if by' = 0 || by' = 4 || !portQuiet s n then s
    else
      let s := portItems (txClear s) n
      if bit (getR s .HOST_STS n) 1 then updHost s n (fun p => { p with resetBy := 4 })
      else updR (updHost s n (fun p => { p with resetBy := 0 })) .HOST_STS (fun w => setBit w 20 false) n)

/-- HOT_RESET: received over the link, which retrains. -/
def execHotReset (h : BitVec 1) (s : State) : Host.Outcome State Fault Refusal :=
  .next (if hostUp s h.toNat then portReset (txClear s) h.toNat 2 else s)

/-- FLR: Initiate Function Level Reset is written. -/
def execFlr (h : BitVec 1) (s : State) : Host.Outcome State Fault Refusal :=
  .next (if hostUp s h.toNat && hostReady s h.toNat then portReset (txClear s) h.toNat 3 else s)

/-- BME_CLEAR. -/
def execBmeClear (h : BitVec 1) (s : State) : Host.Outcome State Fault Refusal :=
  .next (if hostUp s h.toNat && hostReady s h.toNat then setBme (txClear s) h.toNat false else s)

/-- PERST_ASSERT; with the rails off only the pin's level is seen. -/
def execPerstAssert (h : BitVec 1) (s : State) : Host.Outcome State Fault Refusal :=
  let n := h.toNat
  let s := updR (txClear s) .HOST_STS (fun w => setBit w 1 true) n
  .next (if s.boot.rails then portReset s n 1 else s)

/-- PERST_DEASSERT (R24): the reference clock is selected; the port leaves reset where every item is complete, and link training
may start. -/
def execPerstDeassert (h : BitVec 1) (toggling : Bool) (s : State) : Host.Outcome State Fault Refusal :=
  let n := h.toNat
  .next (if !bit (getR s .HOST_STS n) 1 then s
    else
      let s := updR s .HOST_STS (fun w => setBit (setBit w 1 false) 4 toggling) n
      let s := updHost s n (fun p => { p with refLost := false })
      if (hostOf s n).resetBy = 4 then updR (updHost s n (fun p => { p with resetBy := 0 })) .HOST_STS (fun w => setBit w 20 false) n else s)

/-- REFCLK_LOSS (R24): in common-clock mode the link goes down, and no other reference is taken until PERST# cycles; that the link stays
down until then, also where REFCLK returns, is DESIGN CHOICE (log 111). -/
def execRefclkLoss (h : BitVec 1) (s : State) : Host.Outcome State Fault Refusal :=
  let n := h.toNat
  .next (if hostUp s n && bit (getR s .HOST_STS n) 4 then updHost (linkDown (txClear s) n) n (fun p => { p with refLost := true }) else s)

/-- Power domain 408 + h is on. -/
def hostDomOn (s : State) (h : Nat) : Bool := domState s (408 + h) = 1

/-- HOST_LINK_UP (R403): training needs PERST# deasserted, the Rails step ended, and a reference clock (log 111). -/
def execHostLinkUp (h : BitVec 1) (width : BitVec 5) (speed : BitVec 3) (s : State) : Host.Outcome State Fault Refusal :=
  let n := h.toNat
  if !(width = 4 || width = 8 || width = 16) || speed = 0 || 5 < speed.toNat then .fault .noSuchUnit
  else .next (if !s.boot.rails || bit (getR s .HOST_STS n) 1 || (hostOf s n).refLost || hostUp s n
      || (decide (5 ≤ s.boot.step) && !hostDomOn s n) then s
    else
      let s := updR (txClear s) .HOST_STS (fun w => setField (setField (setField (setBit w 0 true) 7 5 speed.toNat) 12 8 width.toNat) 15 14 0) n
      msixUnblock (msixAssert s n 0 srcLinkChange) n)

/-! ### Link power (R408) -/

/-- L0S_ENTRY: with ASPM L0s enabled in Link Control. -/
def execL0sEntry (h : BitVec 1) (s : State) : Host.Outcome State Fault Refusal :=
  let n := h.toNat
  .next (if hostUp s n && fieldN (getR s .HOST_STS n) 15 14 = 0 && (cfgDw s n 24).testBit 0 then
      updR s .HOST_STS (fun w => setField w 15 14 1) n else s)

/-- L1_ENTRY: with ASPM L1 enabled, or in D3hot; L1.1 follows where the host enables it for that case. -/
def execL1Entry (h : BitVec 1) (s : State) : Host.Outcome State Fault Refusal :=
  let n := h.toNat
  .next (if hostUp s n && fieldN (getR s .HOST_STS n) 15 14 ≤ 1 && ((cfgDw s n 24).testBit 1 || hostD3 s n) then
      let sub := if hostD3 s n then (cfgDw s n 102).testBit 1 else (cfgDw s n 102).testBit 3
      updR s .HOST_STS (fun w => setField w 15 14 (if sub then 3 else 2)) n else s)

/-- ELECTRICAL_IDLE_EXIT. -/
def execElectricalIdleExit (h : BitVec 1) (s : State) : Host.Outcome State Fault Refusal := .next (linkWake s h.toNat)

/-! ### Configuration space (R393, R394; field layouts of the Base specification, PRESUMED, log 60) -/

/-- The writable bits of a configuration dword. -/
def cfgMask (i : Nat) : Nat :=
  if i = 1 then 0x546 else if i = 3 then 0xFF else if i = 4 then 0xFC000000 else if i = 5 || i = 7 then 0xFFFFFFFF
  else if i = 6 then 0xF0000000 else if i = 12 then 0xFFF00001 else if i = 15 then 0xFF else if i = 22 then 0x7FFF
  else if i = 24 then 0x2CB else if i = 30 then 0x101F else if i = 32 then 0xF else if i = 44 then 0xC0000000
  else if i = 66 || i = 67 then 0x7FFF030 else if i = 69 then 0xF1C1 else if i = 70 then 0x140 else if i = 85 then 0x10000
  else if i = 102 then 0xA else 0

/-- The fixed bits of a configuration dword, and those that the port drives. -/
def cfgFixed (s : State) (h i : Nat) : Nat :=
  let p := hostOf s h
  let sts := getR s .HOST_STS h
  match i with
  | 0 => 0x09001FB3
  | 1 => 0x00100000
  | 2 => 0x120000B0
  | 4 => 0x4
  | 6 => 0xC
  | 11 => 0x1FB3 + (if Config.gradeH then 2 else 1) * 2 ^ 16
  | 13 => 0x40
  | 16 => 0x00035001
  | 17 => 0x8 + fieldN sts 17 16
  | 20 => 0x0002B010
  | 21 => 0x10008022
  | 23 => 0x0041BD05
  | 24 => (fieldN sts 7 5) * 2 ^ 16 + (fieldN sts 12 8) * 2 ^ 20 + b2n (bit sts 4) * 2 ^ 28
  | 29 => 0x0063001F
  | 31 => 0x3E
  | 44 => 0x07FF0011
  | 45 => 0x02000000
  | 46 => 0x02020000
  | 64 => 0x15020001
  | 65 => p.aer
  | 70 => 0xA0
  | 84 => 0x1601001B
  | 85 => 0x1400
  | 88 => 0x1801002E
  | 91 => b2n p.doeBusy + 4 * b2n p.doeErr + b2n p.doeReady * 2 ^ 31
  | 93 => if p.doeReady then leAt p.doeResp 0 4 else 0
  | 96 => 0x19010003
  | 97 => lo32 peerIdOwn.toNat
  | 98 => hi32 peerIdOwn.toNat
  | 100 => 0x1A01001E
  | 101 => 0x1A
  | 104 => 0x1C010019
  | 112 => 0x1E010026
  | 120 => 0x2001002A
  | 128 => 0x22010027
  | 136 => 0x0001000B
  | 137 => 0x01010001
  | 138 => 4160
  | 139 => 0x000F0000
  | _ => 0

/-- Reads a configuration dword. -/
def cfgRead (s : State) (h i : Nat) : Nat := Nat.lor (cfgFixed s h i) (cfgDw s h i)

/-- The bits that the enabled bytes of a write carry. -/
def beMask (be : BitVec 4) : Nat := (List.range 4).foldl (fun m j => if be.getLsbD j then m + 0xFF * 2 ^ (8 * j) else m) 0

/-- The object in the write mailbox goes to DOE (GO). -/
def doeGo (s : State) (h : Nat) : State :=
  let obj := (hostOf s h).doeReq
  if (hostOf s h).doeBusy then s else doeTake s h (leAt obj 0 2) (leAt obj 2 1) obj

/-- Writes a configuration dword. -/
def cfgWrite (s : State) (h i : Nat) (be : BitVec 4) (v : Nat) : State :=
  let m := beMask be
  let put (m : Nat) (s : State) : State := updHost s h (fun p =>
    let keep := (w64 (SMap.get cfgDflt p.cfg i) &&& ~~~ (w64 m)).toNat
    { p with cfg := SMap.set cfgDflt p.cfg i (Nat.lor keep (Nat.land v m)) })
  let s' := put (Nat.land m (cfgMask i)) s
  match i with
  | 1 =>
    let s' := updR s' .HOST_STS (fun w => setBit w 19 ((cfgDw s' h 1).testBit 1)) h
    let want := (cfgDw s' h 1).testBit 2
    if want == hostBme s h then s' else setBme s' h want
  | 17 => if be.getLsbD 0 && (v % 4 = 0 || v % 4 = 3) then setDstate s h (v % 4) else s
  | 22 => if be.getLsbD 1 && v.testBit 15 then portReset s' h 3 else s'
  | 44 => msixUnblock s' h
  | 65 => updHost s h (fun p => { p with aer := (w64 p.aer &&& ~~~ (w64 (Nat.land v m))).toNat })
  | 68 => updHost s h (fun p => { p with cfg := SMap.set cfgDflt p.cfg 68 (w64 (SMap.get cfgDflt p.cfg 68) &&& ~~~ (w64 (Nat.land v m))).toNat })
  | 90 =>
    if be.getLsbD 0 && v.testBit 0 then doeAbort s h
    else if be.getLsbD 3 && v.testBit 31 then doeGo s h else s
  | 92 => if (hostOf s h).doeBusy then s else updHost s h (fun p => { p with doeReq := (p.doeReq ++ leBytes 4 v).take 4100 })
  | 93 => updHost s h (fun p => let r := p.doeResp.drop 4; { p with doeResp := r, doeReady := p.doeReady && !r.isEmpty })
  | _ => s'

/-- HOST_CONFIG_REQUEST: Configuration Request Retry Status until the port is ready, then a successful completion. -/
def execHostConfigRequest (h : BitVec 1) (write : Bool) (dw : BitVec 10) (be : BitVec 4) (val : BitVec 32) (s : State) :
    Host.Outcome State Fault Refusal :=
  let n := h.toNat
  let s := txClear s
  .next (if !hostUp s n then s
    else if !hostReady s n then tx s (.cpl n 2 false [])
    else if write then cfgWrite (tx s (.cpl n 0 false [])) n dw.toNat be val.toNat
    else tx s (.cpl n 0 false (leBytes 4 (cfgRead s n dw.toNat))))

/-! ### DOE commands -/

/-- DOE_REQUEST. -/
def execDoeRequest (h : BitVec 1) (vendor : BitVec 16) (ty : BitVec 8) (obj : List (BitVec 8)) (s : State) : Host.Outcome State Fault Refusal :=
  .next (if hostUp s h.toNat && hostReady s h.toNat then doeTake s h.toNat vendor.toNat ty.toNat obj else s)

/-- DOE_ABORT. -/
def execDoeAbort (h : BitVec 1) (s : State) : Host.Outcome State Fault Refusal :=
  .next (if hostUp s h.toNat && hostReady s h.toNat then doeAbort s h.toNat else s)

/-- The response object of the responder: an SPDM message with the 8 bytes of the DOE header before it, LENGTH in units of 4 bytes
(log 116). -/
def doeAnswer (s : State) (req resp : List Byte) : List Byte :=
  let m := spdmAnswer s (req.drop 8) resp
  let m := m ++ List.replicate ((4 - m.length % 4) % 4) 0
  leBytes 4 0x00010001 ++ leBytes 4 ((8 + m.length) / 4) ++ m

/-- DOE_RESPONSE: the responder's object is ready; it holds the bytes that fit the mailbox. The operand is the SPDM message but for
its measurements (R389). -/
def execDoeResponse (h : BitVec 1) (obj : List (BitVec 8)) (s : State) : Host.Outcome State Fault Refusal :=
  .next (if (hostOf s h.toNat).doeBusy then
      updHost s h.toNat (fun p => { p with doeBusy := false, doeReady := true, doeReq := [], doeResp := (doeAnswer s (hostOf s h.toNat).doeReq obj).take 4096 }) else s)

/-! ### Unsupported requests and the ROM (R392, R398) -/

/-- A request is refused with Unsupported Request; a posted one is discarded. -/
def unsupported (s : State) (h : Nat) (posted : Bool) (hdr0 hdr1 : Word) : State :=
  let s := hostError s h 0 hdr0 hdr1
  if posted then s else tx s (.cpl h 1 false [])

/-- HOST_UNSUPPORTED_REQUEST. -/
def execHostUnsupportedRequest (h : BitVec 1) (posted : Bool) (hdr0 hdr1 : Word) (s : State) : Host.Outcome State Fault Refusal :=
  let s := txClear s
  .next (if hostUp s h.toNat then unsupported (linkWake s h.toNat) h.toNat posted hdr0 hdr1 else s)

/-- Bytes of the ROM image that the spec states (R398): signature, UEFI image header and PCIR structure; PCIR stands at 0x1C
(PRESUMED, log 60). -/
def romHead : List (Nat × List Byte) :=
  [(0, [0x55, 0xAA]), (4, [0xF1, 0x0E, 0, 0]), (0x0A, [0xBC, 0x0E]), (0x18, [0x1C, 0]), (0x1C, [0x50, 0x43, 0x49, 0x52]),
    (0x20, [0xB3, 0x1F, 0x00, 0x09]), (0x29, [0x00, 0x00, 0x12]), (0x30, [0x03, 0x80])]

/-- A byte of the ROM window. -/
def romAt (s : State) (h i : Nat) : Byte :=
  let m := (hostOf s h).manifest
  if 0xF0000 ≤ i then m.getD (i - 0xF0000) (Config.romTail i)
  else if i < (Config.romSize.toNat + 1) * 512 then
    match romHead.find? (fun e => e.1 ≤ i && i < e.1 + e.2.length) with
    | some e => e.2.getD (i - e.1) 0
    | none => Config.romByte i
  else 0xFF

/-- HOST_ROM_READ: served while the ROM BAR's Enable bit and Memory Space Enable are 1. -/
def execHostRomRead (h : BitVec 1) (off : BitVec 20) (len : BitVec 13) (s : State) : Host.Outcome State Fault Refusal :=
  let n := h.toNat
  let s := txClear s
  .next (if !hostUp s n then s
    else if !hostMemOk s n || !(cfgDw s n 12).testBit 0 then unsupported s n false 0 0
    else tx s (.cpl n 0 false ((List.range len.toNat).map (fun i => romAt s n (off.toNat + i)))))

/-! ### Device memory (R250, R251, R54, R57, R361) -/

/-- The stop of a host port. -/
def hostStop (h : Nat) : Nat := if h = 0 then 80 else 82

/-- The address is refused at the watermark (Table 15-1): some byte lies in secure memory. -/
def hostWorld (s : State) (a n : Nat) : Bool := (addrCls s a == .dram && a < secWm s) || (addrCls s (a + n - 1) == .dram && a + n - 1 < secWm s)

/-- The address reaches no DRAM (R54, R57). An aperture address counts as unmapped for a host also where a committed window covers it
(DESIGN CHOICE, log 112). -/
def hostUnmapped (s : State) (a n : Nat) : Bool := addrCls s a != .dram || addrCls s (a + n - 1) != .dram

/-- A refusal at the watermark: the security record, and Completer Abort (Table 15-1). -/
def hostDenied (s : State) (h a : Nat) (hdr0 hdr1 : Word) : State :=
  hostError (unitWorldRefusal s 10 h (hostStop h) 0 0 a) h 1 hdr0 hdr1

/-- The I/O agent of a host port (Table 2-3). -/
def hostAgent (h : Nat) : Nat := if h = 0 then 64 else 68

/-- LCRC failures on a link, each with its replay (Table 16-9). -/
def lcrcErrors (s : State) (h k : Nat) (hdr0 hdr1 : Word) : State := foldS (fun s _ => hostError s h 6 hdr0 hdr1) s (List.range k)

/-- HOST_MEMORY_WRITE: `replays` LCRC failures come before the request; with no bytes there is nothing but them (log 93). -/
def execHostMemoryWrite (h : BitVec 1) (addr : Word) (bytes : List (BitVec 8)) (ep ecrcOk : Bool) (replays : BitVec 8) (hdr0 hdr1 : Word) (s : State) :
    Host.Outcome State Fault Refusal :=
  let n := h.toNat
  let a := addr.toNat
  let s := txClear s
  .next (if !hostUp s n then s
    else
      let s := lcrcErrors (linkWake s n) n replays.toNat hdr0 hdr1
      if bytes.isEmpty then s
      else if !ecrcOk then hostError s n 3 hdr0 hdr1
      else if !hostMemOk s n then unsupported s n true hdr0 hdr1
      else
        let s := if ep then hostError s n 2 hdr0 hdr1 else s
        if hostWorld s a bytes.length then hostDenied s n a hdr0 hdr1
        else if hostUnmapped s a bytes.length then unsupported (recordUnmapped s (hostStop n) 0 0 5 a false) n true hdr0 hdr1
        else agentWriteBytes s a bytes ep (hostAgent n))

/-- HOST_MEMORY_READ: the completion carries EP = 1 where a word read is failed or poisoned (Table 5-3). -/
def execHostMemoryRead (h : BitVec 1) (addr : Word) (len : BitVec 13) (ecrcOk : Bool) (hdr0 hdr1 : Word) (s : State) :
    Host.Outcome State Fault Refusal :=
  let n := h.toNat
  let a := addr.toNat
  let s := txClear s
  .next (if !hostUp s n || len = 0 then s
    else
      let s := linkWake s n
      if !ecrcOk then hostError s n 3 hdr0 hdr1
      else if !hostMemOk s n then unsupported s n false hdr0 hdr1
      else if hostWorld s a len.toNat then tx (hostDenied s n a hdr0 hdr1) (.cpl n 4 false [])
      else if hostUnmapped s a len.toNat then unsupported (recordUnmapped s (hostStop n) 0 0 5 a false) n false hdr0 hdr1
      else
        let (bytes, sound, s) := agentBytes s a len.toNat (hostAgent n)
        let bad := !sound
        let s := if bad then alm s 0x9012 4 10 n (lo32 a) (hi32 a) else s
        tx s (.cpl n 0 bad bytes))

/-- MSIX_SEND: an asserted source sends its message, or sets its Pending bit (R402). -/
def execMsixSend (h : BitVec 1) (e : BitVec 13) (s : State) : Host.Outcome State Fault Refusal :=
  if 4160 ≤ e.toNat then .fault .noSuchUnit
  else .next (msixSend (txClear s) h.toNat e.toNat)

end Sys2Proof.Machine
end

