-- ==== Sys2Proof/Machine/MemCtl.lean ====
section
/-! DEFINITION. Commands of the memory controllers: reads and writes of lines, page-code transfers, initialisation, scrub,
calibration windows and the checker tests (R259–R280). -/

namespace Sys2Proof.Machine

/-- Line `ln` of the chunk that channel `m` holds of a page (R260). -/
def chunkLine (m page ln : Nat) : Nat := 64 * page + 4 * Nat.xor m (page % 16) + ln

/-! ### Calibration windows (R279) -/

/-- The channel is in its calibration window, of at most 100 ticks. -/
def inWindow (s : State) (m : Nat) : Bool := (chanOf s m).inCal && decide (s.epoch < (chanOf s m).calStart + 100)

/-- Takes the first page-code transfer that has arrived and satisfies `f`, its controls read from its word (R270). A channel in its
calibration window takes none (R279). -/
def takePc (s : State) (f : PcMsg → Bool) : Option (PcMsg × State) :=
  match s.pcNet.find? (fun m => f m && arrivedPkt s m.pkt && !inWindow s m.dst) with
  | some m => some (pcRead m, creditDone (ejectPkt { s with pcNet := s.pcNet.erase m } m.pkt) m.pkt)
  | none => none

/-! ### Reads and writes (R259, R271, R272) -/

/-- Answers a home's read; the entry of its request is freed (R225). -/
def memAnswer (s : State) (m : Msg) (d : Line) (ue : Bool) : State :=
  creditDone (sendMsg s { op := if ue then 0x3B else 0x30, holder := m.holder, line := m.line, data := d, ue := ue }) m.pkt

/-- A read keeps the other line of its pair, where it decodes, in the 64-entry pair buffer (R259). -/
def pairKeep (s : State) (m line : Nat) : State :=
  let other := Nat.xor line 1
  match readDecode s other with
  | (d, [], s) => updChan s m (fun c =>
      let b := (c.pairBuf.filter (fun e => e.1 != other)) ++ [(other, d)]
      { c with pairBuf := if b.length > 64 then b.drop 1 else b })
  | (_, _, s) => s

/-- A controller performs a MEM_READ: from a write that it holds back for the line, from its pair buffer without a DRAM access, or
from DRAM, where an uncorrectable word first asks for the repair of its page. -/
def memRead (s : State) (m : Msg) : State :=
  let ch := channelOf (64 * m.line)
  match ((chanOf s ch).heldWrites.filter (fun x => x.line == m.line)).getLast?, (chanOf s ch).pairBuf.find? (fun e => e.1 == m.line) with
  | some w, _ => memAnswer s m w.data false
  | none, some e => memAnswer s m e.2 false
  | none, none =>
    let s := pairKeep s ch m.line
    let (d, bad, s) := readDecode s m.line
    match bad with
    | [] => memAnswer s m d false
    | b :: _ =>
      let page := m.line / 64
      let s := updChan s ch (fun c => { c with repairReads := c.repairReads ++ [{ m with mask := w64 b, data := d }] })
      sendPc s { kind := .repair, page := page, dst := masterOf page, src := ch }

/-- A controller performs a MEM_WRITE, or holds it while its page is under repair (R271). -/
def memWrite (s : State) (m : Msg) : State :=
  let ch := channelOf (64 * m.line)
  if (chanOf s ch).holdPages.contains (m.line / 64) then updChan s ch (fun c => { c with heldWrites := c.heldWrites ++ [m] })
  else creditDone (sendMsg (ctlWrite s m.line m.data) { op := 0x31, holder := m.holder, line := m.line }) m.pkt

/-- Acts on a home's request. -/
def memAct (s : State) (m : Msg) : State := if m.op = 0x14 then memRead s m else memWrite s m

/-- A home's request at a controller; a calibration window holds it (R279). -/
def memRequest (s : State) (m : Msg) : State :=
  let ch := channelOf (64 * m.line)
  if inWindow s ch then updChan s ch (fun c => { c with calHeld := c.calHeld ++ [m] }) else memAct s m

/-! ### Page-code transfers (R267–R271) -/

/-- PC_NOTE: the master marks the page STALE and queues it for rebuild (R267). -/
def execPcNote (src : BitVec 4) (page : BitVec 26) (s : State) : Host.Outcome State Fault Refusal :=
  .next (match takePc s (fun m => m.kind == .note && !m.ack && m.src = src.toNat && m.page = page.toNat) with
    | some (_, s) => masterNote s page.toNat
    | none => s)

/-- The master asks every controller for its chunk of a page. -/
def sendGather (s : State) (m page : Nat) (hold : Bool) : State :=
  foldS (fun s c => sendPc s { kind := .gather, page := page, dst := c, src := m, hold := hold }) s (List.range 16)

/-- Starts a repair as master, at most four at a time (R271). -/
def startRepair (s : State) (m page req : Nat) : State :=
  let c := chanOf s m
  if (c.jobs.filter (fun j => j.repair)).length ≥ 4 then updChan s m (fun c => { c with repairQ := c.repairQ ++ [(page, req)] })
  else sendGather (updChan s m (fun c => { c with jobs := c.jobs ++ [{ page := page, repair := true, requesters := [req], got := [] }] })) m page true

/-- A REPAIR at the page master (R271). -/
def repairRequest (s : State) (m page req : Nat) : State :=
  let c := chanOf s m
  match c.jobs.find? (fun j => j.repair && j.page = page) with
  | some j => updChan s m (fun c => { c with jobs := c.jobs.map (fun k => if k == j then { k with requesters := k.requesters ++ [req] } else k) })
  | none =>
    if isStale s page then sendPc s { kind := .release, page := page, dst := req, src := m, fail := true, flags := 1 }
    else startRepair s m page req

/-- PC_REPAIR_REQUEST. -/
def execPcRepairRequest (src : BitVec 4) (page : BitVec 26) (s : State) : Host.Outcome State Fault Refusal :=
  .next (match takePc s (fun m => m.kind == .repair && m.src = src.toNat && m.page = page.toNat) with
    | some (m, s) => repairRequest s m.dst m.page m.src
    | none => s)

/-- PC_GATHER: a controller reads its chunk and returns four DATA transfers; with HOLD it holds writes to the page; the
page leaves its note filter (R267, R268, R271). -/
def execPcGather (ch : BitVec 4) (page : BitVec 26) (s : State) : Host.Outcome State Fault Refusal :=
  let c := ch.toNat
  .next (match takePc s (fun m => m.kind == .gather && m.dst = c && m.page = page.toNat) with
    | some (m, s) =>
      let s := updChan s c (fun k => { k with
        noteFilter := k.noteFilter.filter (fun e => e.1 != m.page)
        holdPages := if m.hold && !k.holdPages.contains m.page then k.holdPages ++ [m.page] else k.holdPages })
      foldS (fun s ln =>
        let (d, bad, s) := readDecode s (chunkLine c m.page ln)
        sendPc s { kind := .data, page := m.page, dst := m.src, src := c, line := ln, data := d, flags := bad.foldl (fun a b => a + 2 ^ b) 0 }) s (List.range 4)
    | none => s)

/-- Ends a job of a master and starts the next waiting repair (R271). -/
def endJob (s : State) (m : Nat) (j : PcJob) : State :=
  let s := updChan s m (fun c => { c with jobs := c.jobs.filter (fun k => k != j) })
  match (chanOf s m).repairQ with
  | (page, req) :: r => repairRequest (updChan s m (fun c => { c with repairQ := r })) m page req
  | [] => s

/-- Sends RELEASE to every controller and ends the job (R271). -/
def releaseAll (s : State) (m : Nat) (j : PcJob) (fail : Bool) : State :=
  endJob (foldS (fun s c => sendPc s { kind := .release, page := j.page, dst := c, src := m, fail := fail, flags := b2n fail }) s (List.range 16)) m j

/-- The indexes of the words of a page that its gathered chunks name as uncorrectable. -/
def gatheredBad (j : PcJob) : List Nat :=
  j.got.flatMap (fun g => ((List.range 8).filter (fun i => g.2.2.1.testBit i)).map (fun i => 8 * (4 * Nat.xor g.1 (j.page % 16) + g.2.1) + i))

/-- The words of a page from the chunks gathered. -/
def gatheredWords (j : PcJob) : List TWord :=
  (List.range 64).flatMap (fun i =>
    let ch := Nat.xor (i / 4) (j.page % 16)
    match j.got.find? (fun g => g.1 = ch && g.2.1 = i % 4) with
    | some g => g.2.2.2
    | none => Line.zero)

/-- The lines of a page that decoding changed from what was gathered: (line, corrected data). -/
def changedLines (j : PcJob) (words : List TWord) : List (Nat × Line) :=
  let old := gatheredWords j
  let bad := gatheredBad j
  (List.range 64).filterMap (fun i =>
    let l := (List.range 8).map (fun k => words.getD (8 * i + k) TWord.zero)
    if l == (List.range 8).map (fun k => old.getD (8 * i + k) TWord.zero) && (List.range 8).all (fun k => !bad.contains (8 * i + k)) then none
    else some (64 * j.page + i, l))

/-- A rebuild with the last chunk in hand (R268, steps 3 to 7): the check words go to a journal slot, then to the page-code region;
the page is CURRENT unless a NOTE came after the GATHER, and the slot is freed. The steps are one event (log 106). -/
def rebuildEnd (s : State) (m : Nat) (j : PcJob) : State :=
  let words := gatheredWords j
  let s := updChan s m (fun c => { c with journal := c.journal ++ [(j.page, pageCheckWords words)] })
  let s := rebuildPage s j.page words
  let s := if j.noted then markStale s j.page true else s
  updChan s m (fun c => { c with journal := c.journal.filter (fun e => e.1 != j.page) })

/-- The last chunk of a gathered page has arrived: a rebuild ends, its page queued again where a NOTE came meanwhile (R268); a repair
decodes the page and writes back what changed (R271). -/
def gatherDone (s : State) (m : Nat) (j : PcJob) : State :=
  if j.repair then
    match pageDecode s j.page (gatheredWords j) (gatheredBad j) with
    | none => releaseAll s m j true
    | some words =>
      match changedLines j words with
      | [] => releaseAll s m j false
      | l =>
        let s := updChan s m (fun c => { c with jobs := c.jobs.map (fun k => if k == j then { k with acksLeft := l.length } else k) })
        foldS (fun s e => sendPc s { kind := .write, page := j.page, dst := channelOf (64 * e.1), src := m, line := e.1 % 4, data := e.2 }) s l
  else endJob (rebuildEnd s m j) m j

/-- PC_DATA: the master takes one line of a gathered chunk (R268). -/
def execPcData (src : BitVec 4) (page : BitVec 26) (ln : BitVec 2) (s : State) : Host.Outcome State Fault Refusal :=
  .next (match takePc s (fun m => m.kind == .data && m.src = src.toNat && m.page = page.toNat && m.line = ln.toNat) with
    | some (x, s) =>
      match (chanOf s x.dst).jobs.find? (fun j => j.page = x.page && j.got.length < 64) with
      | some j =>
        let j' := { j with got := j.got ++ [(x.src, x.line, x.flags, x.data)] }
        let s := updChan s x.dst (fun c => { c with jobs := c.jobs.map (fun k => if k == j then j' else k) })
        if j'.got.length = 64 then gatherDone s x.dst j' else s
      | none => s
    | none => s)

/-- PC_WRITE: a controller writes a corrected line, reads it again, and answers PC_ACK (R270, R273). -/
def execPcWrite (ch : BitVec 4) (page : BitVec 26) (ln : BitVec 2) (s : State) : Host.Outcome State Fault Refusal :=
  .next (match takePc s (fun m => m.kind == .write && !m.ack && m.dst = ch.toNat && m.page = page.toNat && m.line = ln.toNat) with
    | some (x, s) => sendPc (rereadRow (putLine s (chunkLine x.dst x.page x.line) x.data) x.dst (chunkLine x.dst x.page x.line)) { kind := .write, ack := true, page := x.page, dst := x.src, src := x.dst }
    | none => s)

/-- PC_ACK: the master counts a written line, and releases the page after the last (R271). -/
def execPcAck (src : BitVec 4) (page : BitVec 26) (s : State) : Host.Outcome State Fault Refusal :=
  .next (match takePc s (fun m => m.ack && m.src = src.toNat && m.page = page.toNat) with
    | some (x, s) =>
      match (chanOf s x.dst).jobs.find? (fun j => j.repair && j.page = x.page) with
      | some j =>
        let j' := { j with acksLeft := j.acksLeft - 1 }
        let s := updChan s x.dst (fun c => { c with jobs := c.jobs.map (fun k => if k == j then j' else k) })
        if j'.acksLeft = 0 then releaseAll s x.dst j' false else s
      | none => s
    | none => s)

/-- Answers a read that waited for a repair (R272). -/
def repairAnswer (s : State) (ch : Nat) (fail : Bool) (m : Msg) : State :=
  let addr := 64 * m.line + 8 * m.mask.toNat
  let (d, bad, s) := readDecode s m.line
  if fail || !bad.isEmpty then
    let stale := isStale s (m.line / 64)
    let s := noteUncorrectable s ch addr (if stale then 2 else 1)
    let s := updR s .MCH_ERR_CNT (fun w => if stale then satInc w 7 0 else satInc w 15 8) ch
    let s := alm s 0x3011 4 5 ch (lo32 addr) (hi32 addr) (b2n stale)
    let l := poisonWords d bad
    memAnswer (ctlWrite s m.line l) { m with mask := 0 } l true
  else
    let s := noteUncorrectable s ch addr 0
    let s := updR s .MCH_ERR_CNT (fun w => satInc w 31 16) ch
    memAnswer (chanBucket (alm s 0x3010 2 5 ch (lo32 addr) (hi32 addr)) ch addr) { m with mask := 0 } d false

/-- PC_RELEASE: held writes proceed, and a requester answers its MEM_READ (R271, R272). -/
def execPcRelease (ch : BitVec 4) (page : BitVec 26) (s : State) : Host.Outcome State Fault Refusal :=
  let c := ch.toNat
  .next (match takePc s (fun m => m.kind == .release && m.dst = c && m.page = page.toNat) with
    | some (x, s) =>
      let k := chanOf s c
      let held := k.heldWrites.filter (fun m => m.line / 64 == x.page)
      let reads := k.repairReads.filter (fun m => m.line / 64 == x.page)
      let s := updChan s c (fun k => { k with
        holdPages := k.holdPages.filter (· != x.page)
        heldWrites := k.heldWrites.filter (fun m => m.line / 64 != x.page)
        repairReads := k.repairReads.filter (fun m => m.line / 64 != x.page) })
      let s := foldS (fun s m => repairAnswer s c x.fail m) s reads
      foldS memWrite s held
    | none => s)

/-- PAGE_REBUILD_START: the master takes a queued page once its delay has passed, and gathers it (R267, R268). -/
def execPageRebuildStart (m : BitVec 4) (page : BitVec 26) (s : State) : Host.Outcome State Fault Refusal :=
  let c := m.toNat
  .next (if (chanOf s c).rebuildQ.any (fun e => e.1 == page.toNat && decide (e.2 ≤ s.epoch)) && !inWindow s c && !(chanOf s c).jobs.any (fun j => j.page = page.toNat) then
      let s := updChan s c (fun k => { k with
        rebuildQ := k.rebuildQ.filter (fun e => e.1 != page.toNat)
        jobs := k.jobs ++ [{ page := page.toNat, repair := false, requesters := [], got := [] }] })
      sendGather s c page.toNat false
    else s)

/-- NOTE_FILTER_EXPIRE: a page leaves a note filter 100 µs after its entry (R267). -/
def execNoteFilterExpire (m : BitVec 4) (page : BitVec 26) (s : State) : Host.Outcome State Fault Refusal :=
  .next (updChan s m.toNat (fun c => { c with noteFilter := c.noteFilter.filter (fun e => !(e.1 == page.toNat && decide (e.2 + 10000 ≤ s.epoch))) }))

/-! ### Row sparing, initialisation and scrub (R273–R275) -/

/-- A channel enters DEGRADED (R273). -/
def degrade (s : State) (m : Nat) : State :=
  if (chanOf s m).degraded then s
  else alm (updChan s m (fun c => { c with degraded := true })) 0x3013 5 5 m (chanOf s m).spares

/-- ROW_SPARING: a row with a line that was still uncorrectable when it was read again after a repair moves to a spare row, its lines
repaired; with no spare row left, or when a spared row fails again on the same device, the channel becomes DEGRADED (R273). -/
def execRowSparing (m : BitVec 4) (bank : BitVec 5) (row : BitVec 16) (sameDevice : Bool) (s : State) : Host.Outcome State Fault Refusal :=
  let c := m.toNat
  let k := (bank.toNat, row.toNat)
  .next (if !(chanOf s c).reread.contains k then s
    else
      let s := updChan s c (fun x => { x with reread := x.reread.erase k })
      if ((chanOf s c).spared.contains k && sameDevice) || (chanOf s c).spares ≥ 2048 then degrade s c
      else
        let lines := ((s.memSyn.map (fun e => e.1 / 8)).dedup).filter (fun l => channelOf (64 * l) = c && bankRow s (64 * l) = k)
        let s := foldS (fun s l => (memReadLine s l).2.2) s lines
        updChan s c (fun x => { x with spared := if x.spared.contains k then x.spared else x.spared ++ [k], spares := x.spares + 1, reread := x.reread.erase k }))

/-- The first unscrubbed chunk of a channel: each run of 16 chunks of a page has one in every channel. -/
def firstUnscrubbed (s : State) (m : Nat) : Option Nat :=
  s.unscrubbed.findSome? (fun r =>
    ((List.range (min r.2 32)).map (r.1 + ·)).find? (fun c => channelOf (256 * c) = m))

/-- BACKGROUND_ZEROING: one unscrubbed chunk of the channel is zeroed and marked (R274). -/
def execBackgroundZeroing (m : BitVec 4) (s : State) : Host.Outcome State Fault Refusal :=
  .next (match (if inWindow s m.toNat then none else firstUnscrubbed s m.toNat) with
    | some c => zeroChunk s c
    | none => s)

/-- What a scrub position of channel `m` names: a line of the address map, or line `k` of the check words of a page (R275). -/
inductive ScrubAt where
  | line (n : Nat)
  | check (page k : Nat)
  deriving DecidableEq, Repr

/-- The place of a scrub position: the channel's 16 GiB, then its page-code region (R265, R275). -/
def scrubAt (m pos : Nat) : ScrubAt :=
  if pos < 2 ^ 28 then .line (chunkLine m (pos / 4) (pos % 4)) else .check (16 * ((pos - 2 ^ 28) / 4) + m) ((pos - 2 ^ 28) % 4)

/-- The page that a scrub position passes. -/
def ScrubAt.page : ScrubAt → Nat
  | .line n => n / 64
  | .check p _ => p

/-- The scrub reads a line: a corrected word is written back, and an uncorrectable one repaired; an unscrubbed chunk is skipped. -/
def scrubLine (s : State) (line : Nat) : State :=
  if isUnscrubbed s (line / 4) || (List.range 8).all (fun i => memSyndrome s (8 * line + i) == 0) then s
  else
    let (d, bad, s) := readDecode s line
    if bad.isEmpty then putLine s line d else (repairNow s line bad d).2.2

/-- The scrub reads a line of a page's check words: a corrected word is written back; for an uncorrectable one the page is decoded and
its code written again, or left STALE (R271, R272, R275). -/
def scrubCheck (s : State) (m page k : Nat) : State :=
  let ks := (List.range 8).map (8 * k + ·)
  let off (i : Nat) : Nat := 8 * (32 * (page / 16) + i)
  let syn (i : Nat) : Byte := (SMap.get (fun _ => (TWord.zero, 0)) s.pageCode (32 * page + i)).2
  let fix := ks.filter (fun i => syn i != 0 && !(checkWord s page i).2)
  let s := foldS (fun s i =>
    let x := (checkWord s page i).1
    chanCE { s with pageCode := SMap.set (fun _ => (TWord.zero, 0)) s.pageCode (32 * page + i) (x, 0) } m (off i)) s fix
  if !ks.any (fun i => (checkWord s page i).2) then s
  else
    let s := noteUncorrectable s m (4096 * page) 3
    let pw := pageWords s page
    match (if isStale s page then none else pageDecode s page pw.1 pw.2) with
    | some words =>
      let s := putCheck s page (pageCheckWords words)
      let s := updR s .MCH_ERR_CNT (fun w => satInc w 31 16) m
      chanBucket (alm s 0x3010 2 5 m (lo32 (4096 * page)) (hi32 (4096 * page))) m (4096 * page)
    | none =>
      let stale := isStale s page
      let s := updR s .MCH_ERR_CNT (fun w => if stale then satInc w 7 0 else satInc w 15 8) m
      markStale (alm s 0x3011 4 5 m (lo32 (4096 * page)) (hi32 (4096 * page)) (b2n stale)) page true

/-- PATROL_SCRUB: the scrub reads the next line, and as master queues a STALE page that its position passes (R275); in a calibration
window it waits (R279). -/
def execPatrolScrub (m : BitVec 4) (s : State) : Host.Outcome State Fault Refusal :=
  let c := m.toNat
  let w := getR s .MCH_SCRUB c
  let pos := fieldN w 33 0
  let at' := scrubAt c pos
  .next (if inWindow s c then s
    else
      let s := match at' with
        | .line n => scrubLine s n
        | .check p k => scrubCheck s c p k
      let page := at'.page
      let s := if masterOf page = c && isStale s page && !(chanOf s c).rebuildQ.any (fun e => e.1 == page) && (chanOf s c).rebuildQ.length < 1024 then
          queuePage s c page s.epoch else s
      if pos + 1 < 285212672 then setR s .MCH_SCRUB (setField w 33 0 (pos + 1)) c
      else setR s .MCH_SCRUB (satInc (setField w 33 0 0) 63 48) c)

/-- BANK_REFRESH: a request to the bank waits at most 190 ns (R279); nothing else changes. -/
def execBankRefresh (_m : BitVec 4) (_bank : BitVec 5) (s : State) : Host.Outcome State Fault Refusal := .next s

/-! ### Checker tests (R277, R278) -/

/-- A requester may write MCH_ registers (R280). -/
def mchWriter (who : Requester) : Bool := isMgmt who || isBowline who

/-- A write of MCH_DIAG: W1C bits, SPLIT unless Bowline locked it, and PATTERN where the rigging allows it. -/
def mchDiagWrite (s : State) (m : Nat) (v : Word) : State :=
  let s := updR s .MCH_DIAG (fun w => regWritten .MCH_DIAG w v (chanOf s m).splitLock) m
  if bit v 1 && s.rig.dev.patternAllowed then updChan s m (fun c => { c with patternRunning := true }) else s

/-- PATTERN_TEST_START: a write of MCH_DIAG with PATTERN = 1 (R277). -/
def execPatternTestStart (who : Requester) (m : BitVec 4) (val : Word) (s : State) : Host.Outcome State Fault Refusal :=
  .next (regCmd s ⟨.MCH_DIAG, m.toNat, 0, 0⟩ (fun s =>
    if mchWriter who then mchDiagWrite s m.toNat (setBit val 1 true) else refuseReg s ⟨.MCH_DIAG, m.toNat, 0, 0⟩ who))

/-- The pattern test of channel `c` ends: what it leaves in the test rows is open (R277, log 43). -/
def patternEnd (s : State) (c : Nat) (ok : Bool) : State :=
  let s := updChan s c (fun k => { k with patternRunning := false })
  let s := foldS (fun s i =>
    let (v, s) := freeW s
    let (x, s) := freeW s
    { s with testRows := SMap.set (fun _ => (0, 0)) s.testRows (1024 * c + i) (v, x.toNat % 65536) }) s (List.range 1024)
  let s := updR s .MCH_DIAG (fun w => setBit (if ok then w else setBit w 3 true) 2 true) c
  if ok then s else alm s 0x3014 4 5 c

/-- PATTERN_TEST_DONE: the test completes. -/
def execPatternTestDone (m : BitVec 4) (ok : Bool) (s : State) : Host.Outcome State Fault Refusal :=
  .next (if (chanOf s m.toNat).patternRunning then patternEnd s m.toNat ok else s)

/-- A split operation goes to DRAM or a test row, or is refused (R278): `none` is a refusal, `some none` a test row. -/
def splitTarget (s : State) (who : Requester) (m : Nat) (dram : Bool) (a : Nat) : Option (Option Nat) :=
  if dram then
    if reqSec s who && a < 2 ^ 35 && channelOf (8 * a) = m && decide (secWm s ≤ 8 * a) && addrCls s (8 * a) == .dram then some (some a) else none
  else if a < 1024 then some none else none

/-- A write of MCH_SPLIT_ADDR (R278): a calibration window holds the operation (R279). GO is ignored while SPLIT = 0; DRAM is written by the secure world alone. -/
def splitWrite (s : State) (who : Requester) (m : Nat) (v : Word) : State :=
  let old := getR s .MCH_SPLIT_ADDR m
  let w := setField (if reqSec s who then setBit old 61 (bit v 61) else old) 37 3 (fieldN v 37 3)
  let s := setR s .MCH_SPLIT_ADDR w m
  if !bit v 63 || !bit (getR s .MCH_DIAG m) 0 then s
  else if inWindow s m then updChan s m (fun c => { c with calSplit := c.calSplit ++ [(who, v)] })
  else
    let a := fieldN w 37 3
    match splitTarget s who m (bit w 61) a with
    | none => updR s .MCH_DIAG (fun d => setBit d 5 true) m
    | some t =>
      let data := getR s .MCH_SPLIT_DATA m
      let side := getR s .MCH_SPLIT_SIDE m
      let done (s : State) : State := updR s .MCH_DIAG (fun d => setBit d 4 true) m
      if bit v 62 then
        let (dv, chk, tal) : Word × Nat × Nat := match t with
          | some a =>
            let x := memWord s a
            (x.val, ((wordCheck x.val x.tal) ^^^ memSyndrome s a).toNat, x.tal.toNat)
          | none =>
            let x := SMap.get (fun _ => (0, 0)) s.testRows (1024 * m + a)
            (x.1, x.2 / 256, x.2 % 256)
        let syn := (wordCheck dv (BitVec.ofNat 8 tal) ^^^ BitVec.ofNat 8 chk).toNat
        let s := setR (setR s .MCH_SPLIT_DATA dv m) .MCH_SPLIT_SIDE (setField (setField 0 15 8 chk) 7 0 tal) m
        done (updR s .MCH_DIAG (fun d => setField d 23 16 syn) m)
      else match t with
        | some a =>
          let s := if isUnscrubbed s (a / 32) then zeroChunk s (a / 32) else s
          let tal := BitVec.ofNat 8 (fieldN side 7 0)
          let s := putWord s a ⟨data, tal⟩ (wordCheck data tal ^^^ BitVec.ofNat 8 (fieldN side 15 8))
          done (updChan s m (fun c => { c with pairBuf := c.pairBuf.filter (fun l => l.1 / 2 != a / 16) }))
        | none => done { s with testRows := SMap.set (fun _ => (0, 0)) s.testRows (1024 * m + a) (data, fieldN side 15 0) }

/-- SPLIT_WRITE: a write of MCH_SPLIT_ADDR with GO = 1 and OP = 0 (R278). -/
def execSplitWrite (who : Requester) (m : BitVec 4) (val : Word) (s : State) : Host.Outcome State Fault Refusal :=
  .next (regCmd s ⟨.MCH_SPLIT_ADDR, m.toNat, 0, 0⟩ (fun s =>
    if mchWriter who then splitWrite s who m.toNat (setBit (setBit val 63 true) 62 false)
    else refuseReg s ⟨.MCH_SPLIT_ADDR, m.toNat, 0, 0⟩ who))

/-- SPLIT_READ: a write of MCH_SPLIT_ADDR with GO = 1 and OP = 1 (R278). -/
def execSplitRead (who : Requester) (m : BitVec 4) (val : Word) (s : State) : Host.Outcome State Fault Refusal :=
  .next (regCmd s ⟨.MCH_SPLIT_ADDR, m.toNat, 0, 0⟩ (fun s =>
    if mchWriter who then splitWrite s who m.toNat (setBit (setBit val 63 true) 62 true)
    else refuseReg s ⟨.MCH_SPLIT_ADDR, m.toNat, 0, 0⟩ who))

/-! ### Windows as commands (R279) -/

/-- Home requests and split operations held by a window are served in order. -/
def windowEnd (s : State) (c len : Nat) : State :=
  let k := chanOf s c
  let s := updR s .MCH_CAL_STS (fun w => setField w 7 0 (max (min 100 len) (fieldN w 7 0))) c
  let s := foldS memAct (updChan s c (fun k => { k with inCal := false, calHeld := [], calSplit := [] })) k.calHeld
  foldS (fun s e => splitWrite s e.1 c e.2) s k.calSplit

/-- A window ends at its hundredth tick at the latest. -/
def windowSettle (s : State) (c : Nat) : State := if (chanOf s c).inCal && !inWindow s c then windowEnd s c 100 else s

/-- Every window that has reached its limit ends. -/
def windowsSettle (s : State) : State := if s.chans.any (fun e => e.2.inCal) then foldS windowSettle s (List.range 16) else s

/-- CALIBRATION_WINDOW_START: at its epoch tick, or in the first cycle after it where the epoch passes the tick (R284), a channel enters
its window. -/
def execCalibrationWindowStart (m : BitVec 4) (s : State) : Host.Outcome State Fault Refusal :=
  let c := m.toNat
  let s := windowSettle s c
  .next (if (s.epoch + 3200000 - 200000 * c) % 3200000 ≤ 1 && !(chanOf s c).inCal && (decide ((chanOf s c).calStart + 1 < s.epoch) || decide (s.epoch ≤ 1)) then
      updR (updChan s c (fun k => { k with inCal := true, calStart := s.epoch })) .MCH_CAL_STS (fun w => satInc w 63 32) c
    else s)

/-- CALIBRATION_WINDOW_END: the requests held are served in order. -/
def execCalibrationWindowEnd (m : BitVec 4) (s : State) : Host.Outcome State Fault Refusal :=
  let c := m.toNat
  .next (if (chanOf s c).inCal then windowEnd s c (s.epoch - (chanOf s c).calStart) else s)

/-- Delivers a home's request in flight to its controller. -/
def memCmd (op : BitVec 6) (line : BitVec 32) (s : State) : State :=
  let s := windowSettle s (channelOf (64 * line.toNat))
  match takeMsg s (fun m => m.op = op && m.line = line.toNat) with
  | some (m, s) => memRequest s m
  | none => s

/-- MEM_READ. -/
def execMemRead (line : BitVec 32) (s : State) : Host.Outcome State Fault Refusal := .next (memCmd 0x14 line s)
/-- MEM_WRITE. -/
def execMemWrite (line : BitVec 32) (s : State) : Host.Outcome State Fault Refusal := .next (memCmd 0x15 line s)

end Sys2Proof.Machine
end

