-- ==== Sys2Proof/Machine/Scopes.lean ====
section
/-! DEFINITION. Resets below the module (R459–R461): a quad, a bay, a partition, and the units of a power domain. -/

namespace Sys2Proof.Machine

/-- The registers of a block, for some of its units, return to their reset values. -/
def dropRegs (s : State) (places : List RegPlace) (us : List Nat) : State :=
  { s with regs := s.regs.filter (fun e => !(us.contains (e.1 / (16384 * 8192) % 4096) && places.any (fun p => p.reg.ctorIdx == e.1 / (4096 * 16384 * 8192)))) }

/-- Threads lose everything they hold, and what they had under way (R460). -/
def threadsReset (s : State) (f : Nat → Bool) : State :=
  let other (t : Nat) : Bool := decide (1024 ≤ t) || !f t
  let gone : List Pkt := (s.regNet.filter (fun m => !other m.thread)).map RegMsg.pkt ++ (s.psNet.filter (fun m => !other m.thread && m.answer.isNone)).map PsMsg.pkt ++ (s.tightNet.filter (fun m => !other m.thread)).map TightenMsg.pkt
  dropPkts { s with threads := s.threads.filter (fun e => other e.1), regNet := s.regNet.filter (fun m => other m.thread), psNet := s.psNet.filter (fun m => other m.thread), tightNet := s.tightNet.filter (fun m => other m.thread), hawsNet := s.hawsNet.filter (fun m => other m.thread), ps := { s.ps with wait := s.ps.wait.filter (fun e => other e.2) } } gone

/-- What a reset leaves of an L2: its outstanding requests and writebacks, with the lines of upgrades under way. -/
def quadCleared (k : QuadSt) : QuadSt := { track := k.track, l2 := k.l2.filter (fun e => k.track.any (fun t => t.1 == e.1)) }

/-- A quad reset: the L2 evicts every line, then the CORE_ and QUAD_ registers, caches and predictors reset. -/
def quadReset (s : State) (q : Nat) : State :=
  let s := foldS (fun s t => updThr s t (fun x => { x with stoodAt := s.epoch })) (threadsReset (quadEvictAll s q) (fun t => t / 16 == q)) (quadThreads q)
  let s := dropRegs (dropRegs s regPlacesCore (coresOf q)) regPlacesQuad [q]
  let s := irqClear { s with cores := s.cores.filter (fun e => e.1 / 4 != q) } (irqSrc .QUAD_CERR q)
  updQuad s q quadCleared

/-- Where the word of guarded output `o` of partition `p` stands: port, node and word (R338). -/
def guardPlace (s : State) (p o : Nat) : Option (Nat × Nat × Nat) :=
  ((knots s p).exch.find? (fun e => e.output && decide (e.guard ≤ o) && decide (o < e.guard + e.count))).map (fun e => (e.port, e.node, e.word + (o - e.guard)))

/-- Every stopper that `f` picks among the guarded outputs starts as R327 gives. -/
def stoppersStart (s : State) (f : Nat → Bool) : State :=
  foldS (fun s p => foldS (fun s r => if f r.output then setStopper s r.output (stopStart p r (guardPlace s p r.output)) else s) s (knots s p).guards) s (partIds s)
where
  /-- Replaces a stopper. -/
  setStopper (s : State) (o : Nat) (x : Stopper) : State := updStop s o (fun _ => x)

/-- A bay's units take their reset values, and its stoppers start (R339). -/
def bayReset (s : State) (b : Nat) : State :=
  let s := foldS (fun s l => irqClear s (irqSrc .FBAY_PORT_IRQ b l)) s (List.range 64)
  let s := dropRegs { s with ports := s.ports.filter (fun e => e.1 / 64 != b) } regPlacesFbay [b]
  let s := foldS (fun s p => foldS (fun s (r : PortRec) => if r.port / 64 = b then updPort s r.port (fun _ => { lastT := s.epoch, beacon := s.epoch }) else s) s (knots s p).ports) s (partIds s)
  stoppersStart { s with stoppers := s.stoppers.filter (fun e => e.1 / 4096 != b) } (fun o => o / 4096 == b)

/-- The ports that partition `p` owns. -/
def partPorts (s : State) (p : Nat) : List Nat := (knots s p).ports.map PortRec.port

/-- The quads of partition `p`. -/
def partQuads (s : State) (p : Nat) : List Nat := (List.range 64).filter (fun q => (knots s p).part.quads.getLsbD q)

/-- The registers of partition `p` that a partition reset resets, with the interrupts they drive. -/
def partRegsReset (s : State) (p : Nat) : State :=
  let s := foldS (fun s l =>
    let b := l / 64
    let k := l % 64
    let s := setR (setR (setR s .FBAY_PORT_CTL (regReset .FBAY_PORT_CTL) b k) .FBAY_PORT_IRQ 0 b k) .FBAY_RAW_RX (regReset .FBAY_RAW_RX) b k
    let s := setR (setR (setR s .FBAY_RAW_TX (regReset .FBAY_RAW_TX) b k) .FBAY_RAW_IDX 0 b k) .FBAY_RAW_CTL 0 b k
    irqClear s (irqSrc .FBAY_PORT_IRQ b k)) s (partPorts s p)
  let s := foldS (fun s i =>
    let g := 256 * p + i
    irqClear (setR (setR (setR s .PST_NQ_CFG (regReset .PST_NQ_CFG) 0 g) .PST_NQ_IDX 0 0 g) .PST_NQ_IRQ 0 0 g) (irqSrc .PST_NQ_IRQ 0 g)) s (List.range 256)
  let s := setR (setR s .PST_CLASS (regReset .PST_CLASS) 0 p) .RIG_SPLICE_IRQ 0 0 p
  irqClear s (irqSrc .RIG_SPLICE_IRQ 0 p)

/-- Banked registers that a module reset alone resets (the opening lines of PST_ARG, PST_CMD and PST_PEEK). -/
def moduleOnly (key : Nat) : Bool := [Reg.PST_ARG, Reg.PST_CMD, Reg.PST_PEEK].any (fun r => r.ctorIdx == key / (4096 * 16384 * 8192))

/-- The banks of partition `p`'s threads in registers banked per requester. -/
def partBanksReset (s : State) (p : Nat) : State :=
  { s with banked := s.banked.filter (fun e => let b := e.1 / (16384 * 8192) % 4096; moduleOnly e.1 || !(decide (b < 1024) && threadPart s b == some p)) }

/-- A partition reset of `p` (R459–R461, R294): its threads, calendar state, registers and quads; the partition is RIGGED, and
its DMA channels end ABORTED. -/
def partReset (s : State) (p : Nat) : State :=
  let s := foldS (fun s c => if (dmaOf s c).st = 0 then s else dmaEnd s c 1) s (partChans s p)
  let s := foldS quadReset (partBanksReset (partRegsReset s p) p) (partQuads s p)
  updPrun s p (fun r => { r with st := .rigged, park := .none, laxInForce := false, calRunning := false, runAt := 0, calFrom := 0, parkAt := 0, drainAt := 0 })

/-- The host port's units take their reset values; pins keep their levels. -/
def hostDomReset (s : State) (h : Nat) : State :=
  let w := getR s .HOST_STS h
  let lost := (hostOf s h).refLost
  let gen := (hostOf s h).manGen
  let man := (hostOf s h).manifest
  let s := updHost (dropRegs s regPlacesHost [h]) h (fun _ => { refLost := lost, manGen := gen, manifest := man })
  updR s .HOST_STS (fun v => setBit (setBit v 4 (bit w 4)) 1 (bit w 1)) h

/-- The Hawser port's units take their reset values. -/
def hawsDomReset (s : State) (k : Nat) : State :=
  let cable := (hawsOf s k).cable
  updHaws (dropRegs s regPlacesHaws [k]) k (fun _ => { cable := cable })

/-- The DMA engine and slice unit take their reset values. -/
def dmaDomReset (s : State) : State :=
  let s := foldS groupReset s (List.range 16)
  let s := foldS (fun s n => if sliceBound s n then sliceUnbind s n else s) s (List.range 4096)
  { dropRegs s (regPlacesDma) [0] with tenants := [], dma := [] }

/-- The units of a domain that switches on take the reset values of their reset domains (R447). -/
def domReset (s : State) (d : Nat) : State :=
  if d < 256 then
    let s := threadsReset { s with cores := s.cores.filter (fun e => e.1 != d) } (fun t => t / 4 == d)
    dropRegs s regPlacesCore [d]
  else if d < 320 then
    irqClear (updQuad (dropRegs s regPlacesQuad [d - 256]) (d - 256) quadCleared) (irqSrc .QUAD_CERR (d - 256))
  else if d < 400 then s
  else if d < 408 then bayReset s (d - 400)
  else if d < 410 then hostDomReset s (d - 408)
  else if d < 414 then hawsDomReset s (d - 410)
  else if d = 416 then dmaDomReset s
  else if d = 418 then vigilReset s
  else s

/-- What a domain that switches off writes back first (R210, R247). -/
def domWriteback (s : State) (d : Nat) : State :=
  if d < 256 then
    let ls := SMap.keys (coreOf s d).l1d
    foldS (fun s line => l1dRemove s d line true) s ls
  else if d < 320 then quadEvictAll s (d - 256)
  else s

end Sys2Proof.Machine
end

