-- ==== Sys2Proof/Machine/Vigil.lean ====
section
/-! DEFINITION. Vigil, the built-in self-test (R465, R468–R472). -/

namespace Sys2Proof.Machine

/-- The targets that the masks select, rising (R468). -/
def vigTargets (s : State) : List Nat :=
  let io := getR s .VIG_MASK_IO 0
  onesBelow 64 (getR s .VIG_MASK_QUAD 0).toNat ++ (onesBelow 64 (getR s .VIG_MASK_SLICE 0).toNat).map (64 + ·)
    ++ (onesBelow 16 io.toNat).map (128 + ·) ++ (onesBelow 8 (io.toNat / 65536)).map (144 + ·)

/-- The power domains of a target. -/
def vigDoms (t : Nat) : List Nat :=
  if t < 64 then coresOf t ++ [256 + t] else if t < 128 then [320 + (t - 64)] else if t < 144 then [384 + (t - 128)] else [400 + (t - 144)]

/-- The target is quiesced (R469); slices and controllers only during start-up. -/
def vigQuiesced (s : State) (t : Nat) : Bool :=
  if t < 64 then
    match quadPart s t with
    | some p => (prun s p).st == PState.parked
    | none => true
  else if t < 144 then s.boot.rails && decide (s.boot.step < 9)
  else (List.range 64).all (fun l => portMode s (64 * (t - 144) + l) == 0)

/-- Duration in ms of a target's test in a mode (Table 20-6). -/
def vigTime (t mode : Nat) : Nat :=
  let (l, m) := if t < 64 then (18, 40) else if t < 128 then (10, 60) else if t < 144 then (8, 4) else (12, 20)
  (if mode = 1 || mode = 3 then l else 0) + (if mode = 2 || mode = 3 then m else 0)

/-- The longest of the targets' times. -/
def vigLongest (ts : List Nat) (mode : Nat) : Nat := ts.foldl (fun a t => max a (vigTime t mode)) 0

/-- Shows a refusal in VIG_STS. -/
def vigRefused (s : State) (code target : Nat) : State :=
  updR s .VIG_STS (fun w => setField (setField w 42 40 code) 55 48 target) 0

/-- A requester for whom VIG_ registers act as the block's owner (R472). -/
def vigWriter (s : State) (who : Requester) : Bool := isBowline who || (blkState s 28 = 1 && ownsBlock s who 28)

/-- The block is being released: the write has no effect and records a notice (R376). -/
def vigReleasing (s : State) : Option State :=
  if blkState s 28 = 2 then some (alm s 0x8019 2 16 28 28) else none

/-- VIG_CMD.OP = START, with the checks of R469 in order. -/
def vigStart (s : State) (who : Requester) (mode : Nat) : State :=
  let ts := vigTargets s
  match vigReleasing s with
  | some s => s
  | none =>
    if !vigWriter s who then
      (if blkState s 28 = 1 then vigRefused (refuseReg s ⟨.VIG_CMD, 0, 0, 0⟩ who) 1 0 else refuseReg s ⟨.VIG_CMD, 0, 0, 0⟩ who)
    else if s.vigil.isSome then vigRefused s 2 0
    else if mode = 0 || ts.isEmpty then vigRefused s 5 0
    else match ts.find? (fun t => !vigQuiesced s t), ts.find? (fun t => (vigDoms t).any (fun d => domState s d != 1)) with
      | some t, _ => vigRefused s 3 t
      | none, some t => vigRefused s 4 t
      | none, none =>
        let s := { s with vigil := some (s.epoch, mode, ts) }
        let s := updR s .VIG_STS (fun w => setField (setField w 42 40 0) 2 0 1) 0
        foldS (fun s q => foldS (fun s c => updR s .CORE_MODE (fun w => setBit w 1 true) c) s (coresOf q)) s (ts.filter (fun t => decide (t < 64)))

/-- VIGIL_START. -/
def execVigilStart (who : Requester) (mode : BitVec 2) (s : State) : Host.Outcome State Fault Refusal :=
  .next (regCmd s ⟨.VIG_CMD, 0, 0, 0⟩ (fun s => vigStart s who mode.toNat))

/-- What follows every run: tested quads reset, tested bays start their stoppers, and PARKED partitions remember (R470). -/
def vigAfter (s : State) (ts : List Nat) : State :=
  let qs := ts.filter (fun t => decide (t < 64))
  let marked := qs.filter (fun q => match quadPart s q with | some p => (prun s p).st == PState.parked | none => false)
  let s := { s with vigil := none, vigilTested := s.vigilTested ++ marked.filter (fun q => !s.vigilTested.contains q) }
  let s := foldS quadReset s qs
  stoppersStart s (fun o => ts.contains (144 + o / 4096))

/-- The run in progress ends as ABORTED (R470). -/
def vigAbort (s : State) : State :=
  match s.vigil with
  | none => s
  | some (since, _, ts) =>
    vigAfter (updR s .VIG_STS (fun w => setField (setField w 23 8 ((s.epoch - since) / 100000)) 2 0 3) 0) ts

/-- VIGIL_ABORT: OP = ABORT, by the owner or Bowline. -/
def execVigilAbort (who : Requester) (s : State) : Host.Outcome State Fault Refusal :=
  .next (regCmd s ⟨.VIG_CMD, 0, 0, 0⟩ (fun s => match vigReleasing s with
    | some s => s
    | none => if vigWriter s who then vigAbort s else refuseReg s ⟨.VIG_CMD, 0, 0, 0⟩ who))

/-- A target is fenced (R465): a quad's or a bay's domains are off until the next module reset. -/
def vigFence (s : State) (t : Nat) : State :=
  let off (s : State) : State := foldS (fun s d => updR s .PWR_DOM_STS (fun w => setField w 2 0 0) 0 d) s (vigDoms t)
  if t < 64 then updR (off s) .VIG_FENCE_QUAD (fun w => setBit w t true) 0
  else if 144 ≤ t then updR (off s) .VIG_FENCE_BAY (fun w => setBit w (t - 144) true) 0
  else s

/-- Stores one target's outcome: its signature, the mode of the expected one, and its pass bit. -/
def vigStore (s : State) (t mode : Nat) (sig : Word) : State :=
  let ok := sig == Config.vigilExp t mode
  let s := setR (setR s .VIG_SIG sig 0 t) .VIG_EXP (w64 mode) 0 t
  if t < 64 then updR s .VIG_PASS_QUAD (fun w => setBit w t ok) 0
  else if t < 128 then updR s .VIG_PASS_SLICE (fun w => setBit w (t - 64) ok) 0
  else updR s .VIG_PASS_IO (fun w => setBit w (t - 128) ok) 0

/-- Start-up stops at the Vigil step (R464, R465). -/
def vigStop (s : State) : State :=
  let s := alm s 0xD012 6 0 0 5
  { s with boot := { s.boot with stopped := true } }

/-- VIGIL_RUN_COMPLETE: the run has lasted the longest of its targets' times; a target that fails is fenced (R471), and a slice
or controller that fails ends start-up (R465). -/
def execVigilRunComplete (sigs : List (BitVec 64)) (s : State) : Host.Outcome State Fault Refusal :=
  match s.vigil with
  | none => .next s
  | some (since, mode, ts) =>
    if sigs.length ≠ ts.length then .fault .noSuchUnit
    else if s.epoch < since + vigLongest ts mode * 100000 then .next s
    else
      let res := ts.zip sigs
      let s := foldS (fun s (e : Nat × Word) => vigStore s e.1 mode e.2) s res
      let bad := res.filter (fun e => e.2 != Config.vigilExp e.1 mode)
      let s := foldS (fun s (e : Nat × Word) => alm s 0xD014 4 19 e.1 mode (lo32 e.2.toNat) (hi32 e.2.toNat)) s bad
      let s := updR s .VIG_STS (fun w =>
        setField (setBit (setField w 23 8 ((s.epoch - since) / 100000)) 3 (bit w 3 || !bad.isEmpty)) 2 0 2) 0
      let s := vigAfter s ts
      let s := foldS (fun s (e : Nat × Word) => vigFence s e.1) s bad
      .next (if bad.any (fun e => decide (64 ≤ e.1) && decide (e.1 < 144)) then vigStop s else s)

/-- A quad of partition `p` is under test (R470). -/
def underTest (s : State) (p : Nat) : Bool :=
  match s.vigil with
  | some (_, _, ts) => ts.any (fun t => decide (t < 64) && quadPart s t == some p)
  | none => false

/-- A domain belongs to a target under test. -/
def domTested (s : State) (d : Nat) : Bool :=
  match s.vigil with
  | some (_, _, ts) => ts.any (fun t => (vigDoms t).contains d)
  | none => false

/-- The domain is fenced off. -/
def domFenced (s : State) (d : Nat) : Bool :=
  (List.range 64).any (fun q => bit (getR s .VIG_FENCE_QUAD 0) q && (vigDoms q).contains d)
    || (decide (400 ≤ d) && decide (d < 408) && bit (getR s .VIG_FENCE_BAY 0) (d - 400))

/-- A fenced quad or bay keeps partition `p` from running (R465). -/
def partFenced (s : State) (p : Nat) : Bool :=
  (partQuads s p).any (fun q => bit (getR s .VIG_FENCE_QUAD 0) q) || (partPorts s p).any (fun l => bit (getR s .VIG_FENCE_BAY 0) (l / 64))

end Sys2Proof.Machine
end

