-- ==== Sys2Proof/Machine/Power.lean ====
section
/-! DEFINITION. Power domains and clocks (R442–R451): requests, gating, sensors, throttling and trips. -/

namespace Sys2Proof.Machine

/-! ### Domains (Tables 19-2, 19-3) -/

/-- Policy of a domain, with the domains that act as ALWAYS_ON (R445); without a POWER knot, SOFTWARE. -/
def domPolicy (s : State) (d : Nat) : Nat := s.rig.dev.power.getD d 1

/-- The domain acts as ALWAYS_ON. -/
def alwaysOn (s : State) (d : Nat) : Bool :=
  (decide (320 ≤ d) && decide (d < 400)) || d = 414 || d = 417 || d = 419 || domPolicy s d = 0

/-- STATE of a domain at start-up (Table 19-3). -/
def domInitial (s : State) (d : Nat) : Nat :=
  let quad := if d < 256 then some (d / 4) else if d < 320 then some (d - 256) else none
  if alwaysOn s d then 1
  else if domPolicy s d = 3 then 0
  else match quad with
    | some q => if (quadPart s q).isNone then 0 else 1
    | none => 1

/-- Sets STATE of a domain. -/
def setDom (s : State) (d st : Nat) : State := updR s .PWR_DOM_STS (fun w => setField w 2 0 st) 0 d

/-- CHG of a domain. -/
def domChg (s : State) (d : Nat) : Nat := fieldN (getR s .PWR_DOM_STS 0 d) 63 48

/-- STEPS[q]: bit 0 ÷2, bit 1 ÷3, bit 2 ÷4. -/
def quadSteps (s : State) (q : Nat) : Nat := (s.rig.dev.clock.getD q (7, 2)).1

/-- The step allows a divider. -/
def stepAllowed (s : State) (q div : Nat) : Bool := decide (2 ≤ div) && decide (div ≤ 4) && (quadSteps s q).testBit (div - 2)

/-- SOL_DIV of a quad: 2 where Solstice never raised it (R455). -/
def solDiv (s : State) (q : Nat) : Nat := SMap.get (fun _ => 2) s.flash.solDiv q
/-- REQ of a quad. -/
def reqDiv (s : State) (q : Nat) : Nat := fieldN (getR s .CLK_QUAD 0 q) 22 20
/-- THR_DIV of a quad. -/
def thrDiv (s : State) (q : Nat) : Nat := fieldN (getR s .CLK_QUAD 0 q) 14 12
/-- The effective divider (R443). -/
def effDiv (s : State) (q : Nat) : Nat := max (reqDiv s q) (max (solDiv s q) (thrDiv s q))

/-- The splice-able blocks of a domain. -/
def domBlocks (d : Nat) : List Nat := (List.range 31).filter (fun b => blkDomain b = d)

/-- Secure-owned for power and clock requests (R379). -/
def secureOwned (s : State) (d : Nat) : Bool :=
  (domBlocks d).any (fun b => blkState s b ≠ 0 && (blkOwner s b).1 = 3)
    || (decide (384 ≤ d) && decide (d < 400)) || (decide (320 ≤ d) && decide (d < 384) && s.rig.pool.getLsbD (d - 320))
    || (decide (d < 256) && (threadsOf d).any (fun t => (thr s t).world == .secure)) || d = 414

/-- The domain is in use (Table 19-5), for OFF and CLK_STOP, or for ON. -/
def domInUse (s : State) (d : Nat) (on : Bool) : Bool :=
  if on then decide (d < 256) && domState s (256 + d / 4) = 0
  else
    (decide (d < 256) && (threadsOf d).any (fun t => (thr s t).run != .held && (thr s t).run != .halted))
      || (decide (256 ≤ d) && decide (d < 320) && (coresOf (d - 256)).any (fun c => domState s c ≠ 0))
      || (decide (400 ≤ d) && decide (d < 408) && (List.range 64).any (fun l => portMode s (64 * (d - 400) + l) ≠ 0))
      || (decide (408 ≤ d) && decide (d < 410) && (hostUp s (d - 408) || !(portSlices s (d - 408)).isEmpty))
      || (decide (410 ≤ d) && decide (d < 414) && hawsState s (d - 410) ≠ 0)
      || domTested s d

/-! ### The management view (R457) -/

/-- A Solstice pass runs. -/
def solRunning (s : State) : Bool := !s.pow.solTodo.isEmpty

/-- SOL_STS: PASSES and DAYS from flash, and the domain being measured. -/
def solSts (s : State) : Word :=
  w64 (s.flash.passes * 2 ^ 48 + s.flash.days * 2 ^ 32 + s.pow.solTodo.headD 0 * 2 ^ 14 + b2n (solRunning s))

/-- Cordage takes a snapshot with the next GEN; the last 8 are kept. -/
def takeSnapshot (s : State) : State :=
  let g := (s.mgmt.gen + 1) % 2 ^ 32
  let sn : Snapshot := { gen := g, chg := (List.range 420).foldl (fun m d => SMap.set (fun _ => 0) m d (domChg s d)) [], passes := s.flash.passes, solState := b2n (solRunning s), parts := (List.range 16).map (fun p => (prun s p).st), splice := (List.range 31).map (fun b => getR s .RIG_SPLICE 0 b) }
  { s with mgmt := { s.mgmt with gen := g, snaps := (sn :: s.mgmt.snaps).take 8 } }

/-- A periodic snapshot, which the next follows after 100 ms. -/
def snapshotNow (s : State) : State := takeSnapshot { s with mgmt := { s.mgmt with snapAt := s.epoch } }

/-- An answer to the management controller. -/
def mgmtReply (s : State) (l : List Byte) : State := { s with mgmt := { s.mgmt with resp := l } }

/-! ### Requests (R446, R447) -/

/-- A bank's status when its request ends. -/
def powDone (s : State) (r : PowReq) (status : Nat) : State :=
  let s := setB s .PWR_REQ_STS r.who (setBit (setField (getB s .PWR_REQ_STS r.who) 15 8 status) 0 true &&& ~~~ 2#64)
  let s := updR s .PWR_DOM_STS (fun w => setField w 15 8 status) 0 r.dom
  if r.mgmt then takeSnapshot (mgmtReply s (leBytes 1 status)) else s

/-- The requester may act on the domain (Table 19-4, check 2). -/
def powPermitted (s : State) (who : Requester) (d : Nat) : Bool :=
  match who with
  | .mgmt _ => true
  | .bowline => true
  | .thread t => (thr s t.toNat).level == .M
      && ((decide (d < 256) && quadPart s (d / 4) == threadPart s t.toNat) || (decide (256 ≤ d) && decide (d < 320) && quadPart s (d - 256) == threadPart s t.toNat))
      && (threadPart s t.toNat).isSome
  | _ => false

/-- Check 4: Table 19-3, the domains closed to normal-world requesters, the STEP divider, and domains that are fenced. -/
def powPolicy (s : State) (r : PowReq) : Bool :=
  let d := r.dom
  ((r.op = 2 || r.op = 3) && alwaysOn s d) || (r.op = 1 && !alwaysOn s d && domPolicy s d = 3)
    || ((d = 415 || d = 416 || d = 418) && !reqSec s r.who)
    || (r.op = 5 && (!(decide (256 ≤ d) && decide (d < 320)) || !stepAllowed s (d - 256) r.div))
    || (r.op = 1 && domFenced s d)

/-- The first of checks 2 to 8 of Table 19-4 that fails, 0 for none. -/
def powCheck (s : State) (r : PowReq) : Nat :=
  let d := r.dom
  let stop := r.op = 2 || r.op = 3
  if !powPermitted s r.who d then 2
  else if r.exp.any (fun e => e != domChg s d) then 3
  else if powPolicy s r then 4
  else if stop && !reqSec s r.who && secureOwned s d then 5
  else if stop && (domBlocks d).any (fun b => blkState s b = 2 || blkState s b = 3) then 6
  else if s.pow.trip ≠ 0 then 7
  else if (stop || r.op = 1) && domInUse s d (r.op = 1) then 8
  else 0

/-- Takes the request at the front of the queue: its checks, then SWITCHING until it completes. -/
def powTake (s : State) (fuel : Nat := 64) : State :=
  match fuel with
  | 0 => s
  | fuel + 1 =>
    match s.pow.reqs with
    | [] => s
    | r :: rest =>
      if r.taken then s
      else
        let code := powCheck s r
        if code ≠ 0 then
          let s := if code = 5 then alm s 0x8014 2 14 r.dom r.dom else s
          powTake (powDone { s with pow := { s.pow with reqs := rest } } r code) fuel
        else
          let before := domState s r.dom
          let s := { s with pow := { s.pow with reqs := { r with taken := true, before := before } :: rest } }
          if r.op = 5 then s else setDom s r.dom 4

/-- The bank has a PWR_ bank (R458, as R370). -/
def hasBank : Requester → Bool
  | .tenant _ => false
  | .host _ => false
  | _ => true

/-- A write of PWR_DOM_REQ. -/
def powRequest (s : State) (who : Requester) (exp : Option Nat) (d op div : Nat) (mgmt : Bool := false) : State :=
  if !hasBank who then refuseReg s ⟨.PWR_DOM_REQ, 0, 0, 0⟩ who
  else if op = 0 || 5 < op || 420 ≤ d then s
  else
    let r : PowReq := { who := who, dom := d, op := op, div := div, exp := exp, mgmt := mgmt }
    let sts := getB s .PWR_REQ_STS who
    if bit sts 1 then
      let s := updR (setB s .PWR_REQ_STS who (setBit (setField sts 15 8 1) 0 true)) .PWR_DOM_STS (fun w => setField w 15 8 1) 0 d
      if mgmt then takeSnapshot (mgmtReply s [1]) else s
    else powTake { setB s .PWR_REQ_STS who (setBit sts 1 true) with pow := { s.pow with reqs := s.pow.reqs ++ [r] } }

/-- Releases under way in a domain that has switched off are complete at once (R447, Table 15-8). -/
def offReleases (s : State) (d : Nat) : State :=
  foldS (fun s b => if blkState s b = 2 || blkState s b = 3 then releaseEnd (blockReset s b) b else s) s (domBlocks d)

/-- The domain is on again: a Hawser port that may train does so (R431). -/
def onPorts (s : State) (d : Nat) : State := if 410 ≤ d && d < 414 then hawsRetrain s (d - 410) else s

/-- The completion of an accepted request (R447). ON of a domain that has power resets none of its units, and starts a stopped clock
(DEDUCED, log 120). -/
def powEffect (s : State) (r : PowReq) : State :=
  let d := r.dom
  let s := match r.op with
    | 1 => if r.before = 0 then onPorts (setDom (domReset s d) d 1) d else setDom s d (if r.before = 2 then 1 else r.before)
    | 2 => offReleases (setDom (updCore (domWriteback s d) d (fun c => if d < 256 then { c with gated := false } else c)) d 0) d
    | 3 => setDom s d (if r.before = 0 then 0 else 2)
    | 4 => setDom s d (if r.before = 2 then 1 else r.before)
    | _ => updR s .CLK_QUAD (fun w => setField w 22 20 r.div) 0 (d - 256)
  updR s .PWR_DOM_STS (fun w => setField w 63 48 (fieldN w 63 48 + 1)) 0 d

/-- Ends the request at the front of the queue, and takes the next. -/
def powComplete (s : State) : State :=
  match s.pow.reqs with
  | [] => s
  | r :: rest => if r.taken then powTake (powDone (powEffect { s with pow := { s.pow with reqs := rest } } r) r 0) else s

/-- The commands name a domain of the module. -/
def powCommand (who : Requester) (exp : Option (BitVec 16)) (d : BitVec 9) (op div : Nat) (s : State) : Host.Outcome State Fault Refusal :=
  if 420 ≤ d.toNat then .fault .noSuchUnit else .next (regCmd s ⟨.PWR_DOM_REQ, 0, 0, 0⟩ (fun s => powRequest s who (exp.map BitVec.toNat) d.toNat op div))

/-- DOMAIN_ON. -/
def execDomainOn (who : Requester) (exp : Option (BitVec 16)) (dom : BitVec 9) (s : State) : Host.Outcome State Fault Refusal := powCommand who exp dom 1 0 s
/-- DOMAIN_OFF. -/
def execDomainOff (who : Requester) (exp : Option (BitVec 16)) (dom : BitVec 9) (s : State) : Host.Outcome State Fault Refusal := powCommand who exp dom 2 0 s
/-- CLK_STOP. -/
def execClkStop (who : Requester) (exp : Option (BitVec 16)) (dom : BitVec 9) (s : State) : Host.Outcome State Fault Refusal := powCommand who exp dom 3 0 s
/-- CLK_RUN. -/
def execClkRun (who : Requester) (exp : Option (BitVec 16)) (dom : BitVec 9) (s : State) : Host.Outcome State Fault Refusal := powCommand who exp dom 4 0 s
/-- STEP. -/
def execStep (who : Requester) (exp : Option (BitVec 16)) (dom : BitVec 9) (div : BitVec 4) (s : State) : Host.Outcome State Fault Refusal :=
  powCommand who exp dom 5 div.toNat s

/-- The domain may switch off: an L2 has given up every line and its homes have acknowledged (R247). -/
def offReady (s : State) (r : PowReq) : Bool :=
  r.op ≠ 2 || !(decide (256 ≤ r.dom) && decide (r.dom < 320)) || ((quadOf s (r.dom - 256)).l2.isEmpty && (quadOf s (r.dom - 256)).track.isEmpty)

/-- DOMAIN_SWITCH_COMPLETE: the request in progress is on this domain; during a Solstice hold of it, it waits, and an L2 that is to
switch off first evicts every line (R247). -/
def execDomainSwitchComplete (dom : BitVec 9) (s : State) : Host.Outcome State Fault Refusal :=
  if 420 ≤ dom.toNat then .fault .noSuchUnit
  else .next (match s.pow.reqs with
    | r :: _ => if !r.taken || r.dom ≠ dom.toNat || s.pow.solHold == some r.dom then s
      else if offReady s r then powComplete s
      else domWriteback s r.dom
    | [] => s)

/-! ### Gating (R448) -/

/-- A RELEASE slot of a running calendar names the thread. -/
def releaseNamed (s : State) (t : Nat) : Bool :=
  match threadPart s t with
  | some p => (prun s p).calRunning && (match (knots s p).cal with
      | some c => c.slots.any (fun k => k.act == SlotAct.release && k.target == t)
      | none => false)
  | none => false

/-- CORE_GATE: due for an ON core under IDLE_GATE whose threads have all waited for 10 µs; caches are written back and emptied, thread
state is kept. -/
def execCoreGate (c : BitVec 8) (s : State) : Host.Outcome State Fault Refusal :=
  let n := c.toNat
  let idle := (threadsOf n).all (fun t =>
    let r := (thr s t).run
    (r == .wfi || r == .waitslot || r == .held || r == .halted) && decide ((thr s t).stoodAt + 1000 ≤ s.epoch) && (thr s t).stores.isEmpty && !releaseNamed s t && !(r == .wfi && anyPending s t))
  .next (if domPolicy s n = 2 && domState s n = 1 && !(coreOf s n).gated && idle then
      let s := domWriteback s n
      let s := foldS (fun s t => sideClear (updThr s t l0Empty) t) s (threadsOf n)
      updCore s n (fun x => { x with l1d := [], l1i := [], gated := true })
    else s)

/-- CORE_UNGATE: due once an interrupt is pending at a thread of the gated core; a release ungates it itself. -/
def execCoreUngate (c : BitVec 8) (s : State) : Host.Outcome State Fault Refusal :=
  .next (if (coreOf s c.toNat).gated && (threadsOf c.toNat).any (fun t => anyPending s t || (thr s t).run == .run) then ungate s c.toNat else s)

/-! ### Trips (R451, R381) -/

/-- A thermal (1) or supply (2) trip begins. -/
def tripBegin (s : State) (kind : Nat) : State :=
  if s.pow.trip ≠ 0 || !s.boot.rails then s
  else
    let th := getR s .PWR_THERM 0
    let s := { s with faultN := false }
    let s := if kind = 1 then recordAcceptOp s 0xC013 5 14 (fieldN th 56 48) (fieldN th 7 4) (fieldN th 56 48) (fieldN th 47 40) true
      else recordAcceptOp s 0xC014 5 0 0 (fieldN (getR s .PWR_IN 0) 63 48) 0 0 true
    let s := foldS (fun s r => powDone (if r.taken && r.op ≠ 5 then setDom s r.dom r.before else s) r 7) s s.pow.reqs
    let s := vigAbort (bowlSet s (irqSrc .PWR_THERM 0) true)
    let s := foldS (fun s b => if blkState s b = 2 || blkState s b = 3 then
        releaseEnd (blockReset (updSplice s b (fun x => { x with nextKind := 0, nextNo := 0 })) b) b else s) s (List.range 31)
    let sec := (List.range 31).filter (fun b => blkState s b = 1 && (blkOwner s b).1 = 3)
    let s := foldS drainStart s sec
    { s with pow := { s.pow with reqs := [], trip := kind, tripAt := s.epoch, tripSec := sec, tripOff := false, solHold := none } }

/-- SUPPLY_TRIP. -/
def execSupplyTrip (_high : Bool) (s : State) : Host.Outcome State Fault Refusal := .next (tripBegin s 2)

/-- A block's work has drained (Table 15-7). -/
def blkDrained (s : State) (b : Nat) : Bool :=
  if b < 8 then true
  else if b < 24 then (List.range 16).all (fun i => (dmaOf s (16 * (b - 8) + i)).st ≠ 1)
  else if b < 28 then !s.hawsNet.any (fun r => r.port = b - 24)
  else if b = 28 then s.vigil.isNone
  else s.svc.pend.all (fun p => p.who != .manager (BitVec.ofNat 1 (b - 29)) || p.drop)

/-- TRIP_DOMAINS_OFF: at the deadline domains 0–413, 415, 416 and 418 switch off with all that they hold, and Almanac's flush
begins. -/
def execTripDomainsOff (s : State) : Host.Outcome State Fault Refusal :=
  let p := s.pow
  .next (if p.trip = 0 || p.tripOff || s.epoch < p.tripAt + (if p.trip = 1 then 100000 else 10000) then s
    else
      let mask := (p.tripSec.filter (blkDrained s)).foldl (fun m b => m + 2 ^ b) 0
      let s := recordAcceptOp s 0x8015 5 14 0 mask 0 0 true
      let s := foldS (fun s k => if hawsState s k = 0 then s else hawsDown s k) s (List.range 4)
      let s := foldS linkDown s (List.range 2)
      let s := foldS (fun s d => setDom s d 0) s (List.range 414 ++ [415, 416, 418])
      let s := { s with threads := [], cores := [], quads := [], slices := [], chans := [], net := [], regNet := [], psNet := [], tightNet := [], pcNet := [], credits := [], agentBuf := [], dma := [], hostNet := [], hawsNet := [], ports := [] }
      let s := foldS (fun s i => updPrun s i (fun r => { r with calRunning := false, park := .none })) s (List.range 16)
      { s with pow := { s.pow with tripOff := true, solTodo := [] }, alm := { s.alm with flushing := true } })

/-- A record of the ring has yet to go to the mirror. -/
def almUnmirrored (s : State) : Bool :=
  !s.alm.mStop && s.alm.ring.any (fun e => match e.2 with | some r => r.due || (s.alm.flushing && decide (4 ≤ r.sev) && !r.mirrored) | none => false)

/-- TRIP_FLUSH_COMPLETE: once the flush has ended, or 100 ms after the trip, every rail but the housekeeping rail switches off, and
PWR_EN must be low for 100 ms before the next start. FAULT_N stays low (R37). -/
def execTripFlushComplete (s : State) : Host.Outcome State Fault Refusal :=
  .next (if s.pow.tripOff && (!almUnmirrored s || decide (s.pow.tripAt + 10000000 ≤ s.epoch)) then
      { powerOff { s with boot := { s.boot with needLow := true } } with faultN := false } else s)

/-! ### Sensors (R449) -/

/-- A signed 16-bit reading. -/
def reading (v : BitVec 16) : Int := v.toInt

/-- The outlet limit L, and the inlet maximum, of the grade, in units of 0.01 °C. -/
def outletLimit : Int := if Config.gradeH then 6200 else 5700
/-- The inlet maximum (Table 1-9). -/
def inletMax : Int := if Config.gradeH then 5000 else 4500

/-- The hottest domain and its temperature. -/
def hottest (temps : List (BitVec 8)) : Nat × Nat :=
  temps.zipIdx.foldl (fun a e => if a.2 < e.1.toNat then (e.2, e.1.toNat) else a) (0, 0)

/-- A PlatformEventMessage tells of a change of thermal state (R456; layout PRESUMED, log 61). -/
def thermEvent (s : State) (before after : Nat) : State :=
  if before = after || !s.mgmt.smbus then s
  else { s with mgmt := { s.mgmt with resp := [0x01, 0x80, 0x02, 0x0A, 0x01, 0x01, 0x00, 0x07, 0x00, 0x01, 0x00] ++ leBytes 1 after ++ leBytes 1 before } }

/-- SENSOR_SAMPLE: every 1 ms; WARN, THROTTLE and trips are entered or ended by Table 19-6. -/
def execSensorSample (temps : List (BitVec 8)) (inlet outlet vin iin pin : BitVec 16) (s : State) : Host.Outcome State Fault Refusal :=
  if temps.length ≠ 420 then .fault .noSuchUnit
  else .next (if !s.boot.rails then s
    else
      let (dom, hot) := hottest temps
      let p := s.pow
      let over' := if pin.toNat > s.rig.dev.cap then p.overCap + 1 else 0
      let outTrip := if reading outlet ≥ outletLimit + 300 then p.outletTrip + 1 else 0
      let junction := decide (95 ≤ hot)
      let outC := decide (reading outlet ≥ outletLimit - 200)
      let inC := decide (reading inlet > inletMax)
      let capC := decide (10 ≤ over')
      let warnOk := if hot < 93 && decide (reading outlet < outletLimit - 300) && !inC then p.warnOk + 1 else 0
      let thrOk := if hot < 97 && decide (reading outlet < outletLimit - 100) && decide (pin.toNat + 20 < s.rig.dev.cap) then p.thrOk + 1 else 0
      let warnC := junction || outC || inC
      let thrC := decide (100 ≤ hot) || decide (reading outlet ≥ outletLimit) || capC
      let warn := warnC || (p.warn && decide (warnOk < 1000))
      let throttle := thrC || (p.thr && decide (thrOk < 1000))
      let state := if throttle then 2 else if warn then 1 else 0
      let before := fieldN (getR s .PWR_THERM 0) 1 0
      let cause := b2n junction + 2 * b2n outC + 4 * b2n capC + 8 * b2n inC
      let s := foldS (fun s (e : BitVec 8 × Nat) => updR s .PWR_DOM_STS (fun w => setField w 39 32 e.1.toNat) 0 e.2) s temps.zipIdx
      let s := updR s .PWR_IN (fun w => setField (setField (setField w 63 48 vin.toNat) 47 32 iin.toNat) 31 16 pin.toNat) 0
      let s := updR s .PWR_COOLANT (fun w => setField (setField w 63 48 inlet.toNat) 47 32 outlet.toNat) 0
      let s := updR s .PWR_THERM (fun w => setField (setField (setField (setField w 56 48 dom) 47 40 hot) 7 4 (if state = 0 then 0 else cause)) 1 0 state) 0
      let s := { s with pow := { s.pow with overCap := over', outletTrip := outTrip, warnOk := warnOk, thrOk := thrOk, warn := warn, thr := throttle, capNoted := p.capNoted && throttle, thrAt := if throttle && !p.thr then s.epoch else p.thrAt } }
      let s := if warn && !p.warn then { alm s 0xC010 3 14 dom cause dom hot with mgmt := { s.mgmt with alertN := false } } else s
      let s := if throttle && !p.thr then alm s 0xC011 3 14 dom cause dom hot else s
      let s := thermEvent s before state
      if 105 ≤ hot || 1000 ≤ outTrip then tripBegin s 1 else s)

/-! ### Throttling (R450) -/

/-- The quads in the order in which THROTTLE takes them: in no partition, then of partitions without TIMING_ISOLATED, then of
isolated ones, by id. -/
def thrOrder (s : State) : List Nat :=
  let iso (q : Nat) : Bool := match quadPart s q with | some p => (knots s p).part.isolated | none => false
  (List.range 64).filter (fun q => (quadPart s q).isNone) ++ (List.range 64).filter (fun q => (quadPart s q).isSome && !iso q)
    ++ (List.range 64).filter iso

/-- Sets THR_DIV. -/
def setThrDiv (s : State) (q v : Nat) : State := updR s .CLK_QUAD (fun w => setField w 14 12 v) 0 q

/-- THROTTLE_STEP: due 10 ms after the last step. -/
def execThrottleStep (s : State) : Host.Outcome State Fault Refusal :=
  .next (if s.epoch < s.pow.thrAt + 1000000 then s
    else
      let s' : State := { s with pow := { s.pow with thrAt := s.epoch } }
      if s.pow.thr then
        match (thrOrder s).find? (fun q => decide (thrDiv s q < 4)) with
        | some q => setThrDiv s' q (thrDiv s q + 1)
        | none =>
          if fieldN (getR s .PWR_IN 0) 31 16 > s.rig.dev.cap && (List.range 64).all (fun q => effDiv s q == 4) && !s.pow.capNoted then
            { alm s' 0xC012 4 0 0 (fieldN (getR s .PWR_IN 0) 31 16) with pow := { s'.pow with capNoted := true } }
          else s'
      else match (thrOrder s).reverse.find? (fun q => decide (2 < thrDiv s q)) with
        | some q => setThrDiv s' q (thrDiv s q - 1)
        | none => s)

/-! ### CLK_ROOT (R442) -/

/-- CLK_ROOT_LOCK_LOSS: a fatal event and a module reset that holds at the Bowline ROM step. -/
def execClkRootLockLoss (s : State) : Host.Outcome State Fault Refusal :=
  .next (if s.boot.rails then
      let s := moduleReset (alm s 0xC015 6 0 0) 2
      { s with boot := { s.boot with lockLost := true } }
    else s)

/-- CLK_ROOT_RELOCK_TIMEOUT: the rails turn off, FAULT_N is low, and the module waits for PWR_EN to go low. -/
def execClkRootRelockTimeout (s : State) : Host.Outcome State Fault Refusal :=
  .next (if s.boot.rails && s.boot.lockLost then { powerOff s with faultN := false } else s)

end Sys2Proof.Machine
end

