-- ==== Sys2Proof/Machine/RigImage.lean ====
section
/-! DEFINITION. The rigging image (R62–R79, R486–R489): its header, its knots, and checks 1 to 10 of Table 3-15. -/

namespace Sys2Proof.Machine

/-- A failed check: its status, and KNOT, AREA and OFFSET (R488). -/
structure RigFail where
  status : Nat
  knot : Nat := 0xFFFF
  area : Nat := 2
  off : Nat := 0
  deriving DecidableEq, Repr

/-- One knot of an image (Table 3-2b), with its index in the image. -/
structure Knot where
  idx : Nat
  ty : Nat
  seq : Nat
  part : Nat
  flags : Nat
  hdr : List Byte
  body : List Byte
  deriving DecidableEq, Repr

/-- The device-wide values that field rules of per-partition knots need (R487). -/
structure RigEnv where
  secWm : Nat
  colours : Nat
  ptBase : Nat
  ptSize : Nat
  deriving DecidableEq, Repr

/-- What an image is verified for (check 1). -/
inductive RigUse where
  | full | partialOnly | either
  deriving DecidableEq, Repr

/-- A list with one offset, when the condition holds. -/
def badIf (c : Bool) (o : Nat) : List Nat := if c then [o] else []

/-- The nonzero bytes of a reserved field (R63). -/
def zeros (l : List Byte) (o n : Nat) : List Nat := ((List.range n).map (o + ·)).filter (fun i => leAt l i 1 ≠ 0)

/-- IMAGE_LEN of a header. -/
def imageLen (l : List Byte) : Nat := leAt l 0x008 4

/-! ### Checks 1 to 6 -/

/-- Check 1: the header fields, in the order of Table 3-15. -/
def rigCheck1 (l : List Byte) (use : RigUse) (room : Nat) : Option RigFail :=
  let f (n : Nat) : Option RigFail := some { status := 0x01, off := n }
  let len := imageLen l
  let kind := leAt l 0x13 1
  let target := leAt l 0x1C 1
  let count := leAt l 0x18 4
  let reserved := zeros l 0x1D 3 ++ zeros l 0x60 160
  if slice l 0 4 != [0x4B, 0x47, 0x52, 0x47] then f 0
  else if leAt l 4 2 ≠ 3 then f 4
  else if leAt l 6 2 ≠ 0x100 then f 6
  else if len % 8 ≠ 0 || len < 384 || 67108864 < len || room < len then f 8
  else if 1 < kind then f 0x13
  else if (kind = 0 && target ≠ 0xFF) || (kind = 1 && 15 < target) then f 0x1C
  else if (kind = 1 && use == .full) || (kind = 0 && use == .partialOnly) then f 0x13
  else if 64 < leAt l 0x14 4 then f 0x14
  else if count = 0 || 65535 < count then f 0x18
  else if 4 ≤ leAt l 0x11 1 then f 0x11
  else if leAt l 0x20 8 = 0 then f 0x20
  else if kind = 0 && leAt l 0x28 8 ≠ 0 then f 0x28
  else match reserved with
    | o :: _ => f o
    | [] => none

/-- Check 2: the part, grade and stepping. -/
def rigCheck2 (l : List Byte) : Option RigFail :=
  if leAt l 0x0C 4 ≠ 0x4B390256 then some { status := 0x02, off := 0x0C }
  else if !(leAt l 0x11 1).testBit (if Config.gradeH then 1 else 0) then some { status := 0x02, off := 0x11 }
  else if leAt l 0x12 1 ≠ 0xB0 && leAt l 0x12 1 ≠ 0 then some { status := 0x02, off := 0x12 }
  else none

/-- Check 3: the owner key slot, then the signature block's reserved bytes. -/
def rigCheck3 (s : State) (l : List Byte) : Option RigFail :=
  let k := leAt l 0x10 1
  let sb := l.drop (imageLen l - 112)
  if 7 < k || (SMap.get (fun _ => {}) s.flash.keys k : OwnerSlot).st ≠ 1 || leAt sb 0 1 ≠ k then some { status := 0x03, area := 3, off := 0 }
  else match zeros sb 1 15 with
    | o :: _ => some { status := 0x0A, area := 3, off := o }
    | [] => none

/-- Check 4: anti-rollback (R386). -/
def rigCheck4 (s : State) (l : List Byte) : Option RigFail := if leAt l 0x14 4 < s.flash.rbRig then some { status := 0x04, off := 0x14 } else none

/-- Check 5: the signature over header and knots (R65). -/
def rigCheck5 (s : State) (l : List Byte) : Option RigFail :=
  let k : OwnerSlot := SMap.get (fun _ => {}) s.flash.keys (leAt l 0x10 1)
  let n := imageLen l - 112
  if ecdsaVerify k.keyX k.keyY (slice l 0 n) (slice l (n + 16) 96) then none else some { status := 0x05, area := 3, off := 0x10 }

/-- Check 6: BODY_DIGEST. -/
def rigCheck6 (l : List Byte) : Option RigFail :=
  if beNat (slice l 0x30 48) = sha384 (slice l 0x100 (imageLen l - 112 - 0x100)) then none else some { status := 0x06, off := 0x30 }

/-! ### Check 7: the knot walk -/

/-- The knots from an offset on: `n` knots that end exactly at `fin`. -/
def knotWalk (l : List Byte) (fin : Nat) : Nat → Nat → Nat → List Knot → List Knot ⊕ RigFail
  | 0, _, o, acc => if o = fin then .inl acc.reverse else .inr { status := 0x07, off := 0x18 }
  | n + 1, i, o, acc =>
    let h := slice l o 16
    let len := leAt h 4 4
    if fin < o + 16 || len % 8 ≠ 0 || 16777216 < len || fin < o + 16 + len then .inr { status := 0x07, knot := i, area := 1, off := 4 }
    else knotWalk l fin n (i + 1) (o + 16 + len)
      ({ idx := i, ty := leAt h 0 2, seq := leAt h 8 4, part := leAt h 12 1, flags := leAt h 13 1, hdr := h, body := slice l (o + 16) len } :: acc)

/-- The knots of an image. -/
def rigKnots (l : List Byte) : List Knot ⊕ RigFail := knotWalk l (imageLen l - 112) (leAt l 0x18 4) 0 0x100 []

/-! ### Knot types (Table 3-3) -/

/-- Scopes of a type: per partition, device-wide. -/
def knotScope (ty : Nat) : Bool × Bool :=
  if ty = 2 || ty = 3 || ty = 8 then (true, true) else if ty ≤ 9 || ty = 0xC then (true, false) else (false, true)

/-- Bytes of a body's head and of each record; a record size of 0 is a body without records. -/
def knotForm (ty : Nat) (dev : Bool) : Nat × Nat :=
  match ty with
  | 1 => (64, 0)
  | 2 => (8, 16)
  | 3 => if dev then (32, 0) else (8, 16)
  | 4 => (16, 8)
  | 5 => (0, 16)
  | 6 => (0, 16)
  | 7 => (0, 48)
  | 8 => if dev then (32, 0) else (0, 16)
  | 9 => (0, 24)
  | 0xA => (128, 0)
  | 0xB => (424, 0)
  | 0xC => (8, 0)
  | 0xD => (8, 8)
  | 0xE => (64, 0)
  | 0xF => (0, 8)
  | 0x10 => (8, 0)
  | _ => (8, 4)

/-- COUNT of a head. -/
def headCount (ty : Nat) (b : List Byte) : Nat :=
  match ty with
  | 2 => leAt b 0 4
  | 3 => leAt b 0 2
  | 4 => leAt b 4 2
  | 0xD => leAt b 1 1
  | _ => leAt b 6 2

/-- The knot is device-wide. -/
def Knot.dev (k : Knot) : Bool := k.part = 0xFF

/-- The type may be continued by APPEND knots (R486). -/
def canAppend (ty : Nat) (dev : Bool) : Bool := (knotForm ty dev).2 ≠ 0

/-- The body's length is of the form of its type. -/
def lengthOk (k : Knot) : Bool :=
  let f := knotForm k.ty k.dev
  let n := k.body.length
  if f.2 = 0 then n = f.1 else if f.1 = 0 then n % f.2 = 0 else decide (f.1 ≤ n) && n = f.1 + f.2 * headCount k.ty k.body

/-- The records of a body. -/
def recsOf (k : Knot) : List (List Byte) :=
  let f := knotForm k.ty k.dev
  if f.2 = 0 then [] else (List.range ((k.body.length - f.1) / f.2)).map (fun i => slice k.body (f.1 + f.2 * i) f.2)

/-- Same (TYPE, PARTITION) pair. -/
def samePair (a b : Knot) : Bool := a.ty == b.ty && a.part == b.part

/-- Check 8: every TYPE is known (R68). -/
def rigCheck8 (ks : List Knot) : Option RigFail :=
  (ks.find? (fun k => k.ty = 0 || 0x11 < k.ty)).map (fun k => { status := 0x08, knot := k.idx, area := 1, off := 0 })

/-- Check 9: order, SEQUENCE and APPEND (R66, R67, R486). -/
def rigCheck9 : Option Knot → List Knot → Option RigFail
  | _, [] => none
  | prev, k :: r =>
    let app := k.flags % 2 = 1
    let f (o : Nat) : Option RigFail := some { status := 0x09, knot := k.idx, area := 1, off := o }
    let here : Option RigFail := match prev with
      | none => if app then f 0xD else none
      | some p =>
        if k.ty < p.ty then f 0
        else if k.ty = p.ty && k.part < p.part then f 0xC
        else if k.seq ≤ p.seq then f 8
        else if samePair k p then (if !canAppend k.ty k.dev || !app then f 0xD else none)
        else if app then f 0xD else none
    match here with
    | some x => some x
    | none => rigCheck9 (some k) r

/-! ### Check 10: the fields of each knot -/

/-- An entry's region holds a stop. -/
def inRegion (e : Word) (n : Nat) : Bool :=
  let p := stopXY n
  decide (fieldN e 19 16 ≤ p.1) && decide (p.1 ≤ fieldN e 27 24) && decide (fieldN e 23 20 ≤ p.2) && decide (p.2 ≤ fieldN e 31 28)

/-- A route entry breaks R71 or R220 at this stop and index. -/
def entryBad (e : Word) (stop index : Nat) : Bool :=
  let lo := fieldN e 50 44
  let hi := fieldN e 57 51
  fieldN e 62 61 ≠ 0 || fieldN e 43 32 ≠ 0 || fieldN e 15 0 ≠ 0
    || (index = 127 && (e &&& ~~~ (maskBits 60 60)) ≠ 0x8E98000098000000#64)
    || (bit e 63 && (fieldN e 27 24 < fieldN e 19 16 || fieldN e 31 28 < fieldN e 23 20 || 8 < fieldN e 27 24 || 9 < fieldN e 31 28 || hi < lo || 83 < hi
      || !inRegion e stop || !((List.range (hi + 1 - lo)).all (fun i => inRegion e (lo + i)))))

/-- Two ranges given by first element and length overlap; an empty one overlaps none. -/
def overlaps (a n b m : Nat) : Bool := decide (a < b + m) && decide (b < a + n) && n != 0 && m != 0

/-- Field rules of a ROUTE record at offset `o`, after the records `pre` of its pair. -/
def routeBad (pre : List (List Byte)) (r : List Byte) (o : Nat) : List Nat :=
  let x := leAt r 0 1
  let y := leAt r 1 1
  let i := leAt r 2 1
  match stopAt x y with
  | none => [o]
  | some n => badIf (127 < i || pre.any (fun q => slice q 0 3 == slice r 0 3)) (o + 2) ++ (zeros r 3 5).map (o + ·) ++ badIf (entryBad (w64 (leAt r 8 8)) n i) (o + 8)

/-- Field rules of a MEMORY range. -/
def rangeBad (e : RigEnv) (r : List Byte) (o : Nat) : List Nat :=
  let b := leAt r 0 8
  let n := leAt r 8 8
  badIf (b % 0x200000 ≠ 0 || b < e.secWm || 0x4000000000 ≤ b || overlaps b (max n 1) e.ptBase e.ptSize) o
    ++ badIf (n = 0 || n % 0x200000 ≠ 0 || 0x4000000000 < b + n) (o + 8)

/-- Field rules of a CALENDAR slot. -/
def slotBad (cycle : Nat) (pre : List (List Byte)) (r : List Byte) (o : Nat) : List Nat :=
  let prev := leAt (pre.getLastD []) 0 4
  badIf (cycle ≤ leAt r 0 4 || leAt r 0 4 < prev) o ++ badIf (3 < leAt r 4 1) (o + 4) ++ (zeros r 5 1).map (o + ·)

/-- Field rules of a FIELD_PORT record. -/
def portBad (pre : List (List Byte)) (r : List Byte) (o : Nat) : List Nat :=
  let mode := leAt r 2 1
  let et := leAt r 4 2
  let mul := leAt r 6 2
  badIf (511 < leAt r 0 2 || pre.any (fun q => leAt q 0 2 = leAt r 0 2)) o ++ badIf (1 < mode) (o + 2)
    ++ badIf (leAt r 3 1 = 0 || 8 < leAt r 3 1) (o + 3) ++ badIf (if mode = 1 then et ≠ 0 else et < 0x600) (o + 4)
    ++ badIf (if mode = 1 then mul ≠ 0 else mul = 0) (o + 6) ++ (zeros r 8 8).map (o + ·)

/-- LEN of a node: one more than its highest output word (R309), over EXCHANGE records. -/
def lenOf (rs : List (List Byte)) (port node : Nat) : Nat :=
  rs.foldl (fun m r => if leAt r 2 2 = port && leAt r 4 1 = node && leAt r 5 1 = 1 then max m (leAt r 6 2 + leAt r 0xE 1) else m) 0

/-- Field rules of an EXCHANGE record (R308, Table 3-8), between the records `pre` and `post` of its pair; the LEN sum of a port is
located in the port's last output record. -/
def exchBad (pre post : List (List Byte)) (r : List Byte) (o : Nat) : List Nat :=
  let ctx := leAt r 0 2
  let port := leAt r 2 2
  let dir := leAt r 5 1
  let word := leAt r 6 2
  let pt := leAt r 8 4
  let g := leAt r 0xC 2
  let n := leAt r 0xE 1
  let sum := (List.range 8).foldl (fun a k => a + lenOf (pre ++ [r]) port k) 0
  badIf (pre.any (fun q => leAt q 0 2 = ctx)) o ++ badIf (511 < port || port / 64 ≠ ctx / 8192) (o + 2) ++ badIf (7 < leAt r 4 1) (o + 4)
    ++ badIf (1 < dir) (o + 5)
    ++ badIf (184 < word + n || (184 < sum && dir = 1 && !post.any (fun q => leAt q 2 2 = port && leAt q 5 1 = 1)) || pre.any (fun q => leAt q 2 2 = port && leAt q 4 1 = leAt r 4 1 && leAt q 5 1 = dir && overlaps word n (leAt q 6 2) (leAt q 0xE 1))) (o + 6)
    ++ badIf (2 ^ 24 ≤ pt || pre.any (fun q => overlaps pt n (leAt q 8 4) (leAt q 0xE 1))) (o + 8)
    ++ badIf (if dir = 0 then g ≠ 0xFFFF else g / 4096 ≠ ctx / 8192 || (g + max n 1 - 1) / 4096 ≠ ctx / 8192) (o + 0xC)
    ++ badIf (n = 0 || 8 < n) (o + 0xE) ++ (zeros r 0xF 1).map (o + ·)

/-- Field rules of a GUARD record (R326, Table 3-9). -/
def guardBad (pre : List (List Byte)) (r : List Byte) (o : Nat) : List Nat :=
  let f := leAt r 2 1 = 1
  let w (i : Nat) : Word := w64 (leAt r i 8)
  let nf (i : Nat) : Bool := f && notFinite (w i)
  badIf (32767 < leAt r 0 2 || pre.any (fun q => leAt q 0 2 = leAt r 0 2)) o ++ badIf (1 < leAt r 2 1) (o + 2) ++ (zeros r 3 1).map (o + ·)
    ++ badIf (leAt r 4 4 = 0) (o + 4) ++ badIf (nf 8) (o + 8) ++ badIf (nf 0x10 || gLt f (w 0x10) (w 8)) (o + 0x10)
    ++ badIf (nf 0x18 || !gLt f 0 (w 0x18)) (o + 0x18) ++ badIf (nf 0x20 || gLt f (w 0x20) (w 8) || gLt f (w 0x10) (w 0x20)) (o + 0x20)
    ++ badIf (leAt r 0x28 4 = 0) (o + 0x28) ++ (zeros r 0x2C 4).map (o + ·)

/-- Field rules of a per-partition POINT_REGION record (R344, Table 3-10). -/
def pointBad (e : RigEnv) (pre post : List (List Byte)) (r : List Byte) (o : Nat) : List Nat :=
  let a := leAt r 0 4
  let n := leAt r 4 4
  badIf (e.ptSize / 64 ≤ a || (64 ≤ pre.length && post.isEmpty) || pre.any (fun q => overlaps a n (leAt q 0 4) (leAt q 4 4))) o
    ++ badIf (n = 0 || e.ptSize / 64 < a + n) (o + 4) ++ badIf (15 < leAt r 8 1) (o + 8) ++ badIf (7 < leAt r 9 1) (o + 9)
    ++ (zeros r 0xA 6).map (o + ·)

/-- Field rules of a SLICE_RANGE record (Table 3-11). -/
def sliceBad (r : List Byte) (o : Nat) : List Nat :=
  let a := leAt r 0 2
  let n := leAt r 2 2
  badIf (4095 < a) o ++ badIf (n = 0 || 4096 < a + n) (o + 2) ++ badIf (3 < leAt r 4 1) (o + 4) ++ badIf (leAt r 5 1 = 0 || 4 < leAt r 5 1) (o + 5)
    ++ badIf (7 < leAt r 6 1) (o + 6) ++ (zeros r 7 1 ++ zeros r 0x10 8).map (o + ·)

/-- Field rules of a SPLICE_DEFAULTS record (R79, R395, Table 3-14). -/
def spliceBad (pre : List (List Byte)) (r : List Byte) (o : Nat) : List Nat :=
  let kind := leAt r 0 1
  let n := leAt r 1 1
  let ok := leAt r 2 1
  let own := leAt r 4 2
  let size := match kind with
    | 0 => 8
    | 1 => 16
    | 2 => 4
    | 3 => 1
    | _ => 2
  badIf (4 < kind) o ++ badIf (size ≤ n || pre.any (fun q => slice q 0 2 == slice r 0 2)) (o + 1)
    ++ badIf (4 < ok || (kind = 4 && ok ≠ 2 && ok ≠ 3)) (o + 2) ++ (zeros r 3 1).map (o + ·)
    ++ badIf (if ok = 1 then 15 < own else if ok = 4 then 4095 < own else own ≠ 0) (o + 4)
    ++ badIf (leAt r 6 2 = 0 || 60000 < leAt r 6 2) (o + 6)

/-- Field rules of an ERROR_POLICY bucket record (R477, R489). -/
def bucketBad (pre : List (List Byte)) (r : List Byte) (o : Nat) : List Nat :=
  let c := leAt r 0 1
  badIf (c < 2 || 5 < c || pre.any (fun q => leAt q 0 1 = c)) o ++ (zeros r 1 1).map (o + ·) ++ badIf (leAt r 2 2 = 0) (o + 2) ++ badIf (leAt r 4 4 = 0) (o + 4)

/-- Field rules of one record of a knot. -/
def recBad (e : RigEnv) (k : Knot) (pre post : List (List Byte)) (r : List Byte) (o : Nat) : List Nat :=
  match k.ty with
  | 2 => routeBad pre r o
  | 3 => rangeBad e r o
  | 4 => slotBad (leAt k.body 0 4) pre r o
  | 5 => portBad pre r o
  | 6 => exchBad pre post r o
  | 7 => guardBad pre r o
  | 8 => pointBad e pre post r o
  | 9 => sliceBad r o
  | 0xD => bucketBad pre r o
  | 0xF => spliceBad pre r o
  | _ => badIf (419 < leAt r 0 2) o ++ badIf (60 < leAt r 2 2) (o + 2)

/-- Field rules of a HAWSER knot. -/
def hawsBad (b : List Byte) : List Nat :=
  (List.range 4).flatMap (fun k =>
    let o := 16 * k
    let role := leAt b (o + 1) 1
    let fl := leAt b (o + 2) 1
    let src (i : Nat) : Bool := (leAt b (16 * i + 2) 1).testBit 1
    badIf (leAt b o 1 ≠ k) o ++ badIf (3 < role) (o + 1)
      ++ badIf (7 < fl || (fl.testBit 2 && role ≠ 1 && role ≠ 2) || (src k && (List.range k).any src)) (o + 2)
      ++ zeros b (o + 3) 5 ++ badIf (role = 0 && leAt b (o + 8) 8 ≠ 0) (o + 8))

/-- Field rules of a knot's head, or of a body without records; `first` is the first knot of its pair, and `total` the records of the
pair up to the end of this knot. Bits [7:3] of a STEPS byte of CLOCK are taken as reserved: DESIGN CHOICE (log 113). -/
def headBad (e : RigEnv) (k : Knot) (first : Knot) (total : Nat) (last : Bool) : List Nat :=
  let b := k.body
  let f := first.body
  let same (o n : Nat) : List Nat := badIf (slice b o n != slice f o n) o
  match k.ty with
  | 1 =>
    let iso := (leAt b 0x11 1).testBit 0
    badIf (leAt b 0 8 = 0) 0 ++ badIf (iso && leAt b 8 8 = 0) 8 ++ badIf (8 < leAt b 0x10 1 || (iso && leAt b 0x10 1 = 0)) 0x10
      ++ badIf (15 < leAt b 0x11 1) 0x11 ++ zeros b 0x12 6 ++ zeros b 0x20 32
  | 2 => zeros b 4 4
  | 3 =>
    if k.dev then
      let wm := leAt b 0 8
      let c := leAt b 8 1
      badIf (wm % 0x40000000 ≠ 0 || wm = 0 || 255 * 0x40000000 < wm) 0 ++ badIf (c ≠ 0 && c ≠ 8 && c ≠ 16 && c ≠ 32) 8 ++ zeros b 9 23
    else badIf (last && (16 < total || total = 0)) 0 ++ zeros b 2 2 ++ badIf (2 ^ e.colours ≤ leAt b 4 4) 4 ++ same 4 4
  | 4 =>
    badIf (leAt b 0 4 < 6250 || 16777216 < leAt b 0 4) 0 ++ same 0 4 ++ badIf (last && (4096 < total || total = 0)) 4 ++ zeros b 6 2
      ++ badIf (leAt b 0 4 ≤ leAt b 8 4) 8 ++ same 8 4 ++ zeros b 12 4
  | 8 =>
    if k.dev then
      let base := leAt b 0 8
      let n := leAt b 8 8
      badIf (base % 0x40000000 ≠ 0 || 0x4000000000 ≤ base || base < e.secWm) 0 ++ badIf (n % 0x4000000 ≠ 0 || n = 0 || 0x40000000 < n) 8 ++ zeros b 16 16
    else []
  | 0xA =>
    (List.range 64).flatMap (fun q =>
      let st := leAt b (2 * q) 1
      let i := leAt b (2 * q + 1) 1
      badIf (!st.testBit 2 || 7 < st) (2 * q) ++ badIf (i < 2 || 4 < i || !st.testBit (i - 2)) (2 * q + 1))
  | 0xB => (List.range 420).flatMap (fun d => badIf (3 < leAt b d 1) d) ++ badIf (leAt b 0x1A4 2 < 300 || 800 < leAt b 0x1A4 2) 0x1A4 ++ zeros b 0x1A6 2
  | 0xC => badIf (1 < leAt b 0 1) 0 ++ zeros b 1 7
  | 0xD =>
    badIf (3 < leAt b 0 1) 0 ++ same 0 1 ++ badIf (last && 32 < total) 1 ++ zeros b 2 2 ++ badIf (leAt b 4 4 < 60 || 10080 < leAt b 4 4) 4 ++ same 4 4
  | 0xE => hawsBad b
  | 0x10 =>
    badIf (leAt b 0 1 < 3 || 6 < leAt b 0 1) 0 ++ badIf (1 < leAt b 1 1) 1 ++ badIf (leAt b 2 2 = 0 || 1000 < leAt b 2 2) 2 ++ zeros b 4 4
  | 0x11 => same 0 4 ++ badIf (60 < leAt b 4 2) 4 ++ same 4 2
  | _ => []

/-- The smallest of some offsets. -/
def minOff : List Nat → Option Nat
  | [] => none
  | a :: r => some (r.foldl min a)

/-- Check 10 on one knot, between the earlier and the later knots of its pair. -/
def knotBad (e : RigEnv) (before after : List Knot) (k : Knot) : Option RigFail :=
  let hdr (st o : Nat) : Option RigFail := some { status := st, knot := k.idx, area := 1, off := o }
  let scope := if k.dev then (knotScope k.ty).2 else decide (k.part < 16) && (knotScope k.ty).1
  match zeros k.hdr 2 2, scope && !lengthOk k, badIf (!scope) 0xC ++ badIf (1 < k.flags) 0xD ++ zeros k.hdr 14 2 with
  | o :: _, _, _ => hdr 0x0A o
  | [], true, _ => hdr 0x07 4
  | [], false, o :: _ => hdr 0x0A o
  | [], false, [] =>
      let pre := before.flatMap recsOf
      let post := after.flatMap recsOf
      let recs := recsOf k
      let f := knotForm k.ty k.dev
      let inHead := headBad e k (before.headD k) (pre.length + recs.length) after.isEmpty
      let inRecs := (recs.zipIdx).flatMap (fun x => recBad e k (pre ++ recs.take x.2) (recs.drop (x.2 + 1) ++ post) x.1 (f.1 + f.2 * x.2))
      (minOff (inHead ++ inRecs)).map (fun o => { status := 0x0A, knot := k.idx, area := 0, off := o })

/-- Check 10: the first knot in image order that fails, at its lowest offset. -/
def rigCheck10 (e : RigEnv) : List Knot → List Knot → Option RigFail
  | _, [] => none
  | before, k :: r =>
    match knotBad e (before.filter (samePair k)).reverse (r.filter (samePair k)) k with
    | some x => some x
    | none => rigCheck10 e (k :: before) r

end Sys2Proof.Machine
end

