-- ==== Sys2Proof/Machine/RigConflict.lean ====
section
/-! DEFINITION. What an image's knots mean (Tables 3-4 to 3-14), and the rules that relate knots: check 11 of Table 3-15 and
check 14 of Table 3-16c (R70–R78, R86, R237, R261, R308, R487, R488). -/

namespace Sys2Proof.Machine

/-! ### From knots to structure -/

/-- The records of a pair, in knot order. -/
def joined (ks : List Knot) (ty part : Nat) : List (List Byte) := (ks.filter (fun k => k.ty = ty && k.part = part)).flatMap recsOf

/-- The body of a pair's first knot. -/
def bodyOf (ks : List Knot) (ty part : Nat) : Option (List Byte) := (ks.find? (fun k => k.ty = ty && k.part = part)).map Knot.body

/-- A ROUTE record. -/
def routeOf (r : List Byte) : RouteRec := { x := leAt r 0 1, y := leAt r 1 1, index := leAt r 2 1, entry := w64 (leAt r 8 8) }

/-- A PARTITION body. -/
def partBody (b : List Byte) : PartKnot :=
  { quads := w64 (leAt b 0 8), slices := w64 (leAt b 8 8), credits := leAt b 0x10 1, isolated := (leAt b 0x11 1).testBit 0, autorun := (leAt b 0x11 1).testBit 1, selfParkOnly := (leAt b 0x11 1).testBit 2, secureEntry := (leAt b 0x11 1).testBit 3, bootPc := w64 (leAt b 0x18 8) }

/-- A calendar slot's ACTION. -/
def actOf (n : Nat) : SlotAct := if n = 0 then .release else if n = 1 then .start else if n = 2 then .exchange else .deadline

/-- An EXCHANGE record. -/
def exchOf (r : List Byte) : ExchRec :=
  { ctx := leAt r 0 2, port := leAt r 2 2, node := leAt r 4 1, output := leAt r 5 1 = 1, word := leAt r 6 2, point := leAt r 8 4, guard := leAt r 0xC 2, count := leAt r 0xE 1 }

/-- A GUARD record. -/
def guardOf (r : List Byte) : GuardRec :=
  { output := leAt r 0 2, float := leAt r 2 1 = 1, stale := leAt r 4 4, min := w64 (leAt r 8 8), max := w64 (leAt r 0x10 8), slew := w64 (leAt r 0x18 8), safe := w64 (leAt r 0x20 8), ramp := leAt r 0x28 4 }

/-- The knots of partition `p`: those of the image, else those of `base` (R86). -/
def partOf (ks : List Knot) (p : Nat) (base : PartKnots) : PartKnots :=
  let j (ty : Nat) : List (List Byte) := joined ks ty p
  let has (ty : Nat) : Bool := (bodyOf ks ty p).isSome
  let b (ty : Nat) : List Byte := (bodyOf ks ty p).getD []
  let k := base
  let k := if has 1 then { k with part := partBody (b 1) } else k
  let k := if has 2 then { k with routes := (j 2).map routeOf } else k
  let k := if has 3 then { k with colourMask := leAt (b 3) 4 4, ranges := (j 3).map (fun r => (leAt r 0 8, leAt r 8 8)) } else k
  let k := if has 4 then { k with cal := some { cycle := leAt (b 4) 0 4, phase := leAt (b 4) 8 4, slots := (j 4).map (fun r => { offset := leAt r 0 4, act := actOf (leAt r 4 1), target := leAt r 6 2 }) } } else k
  let k := if has 5 then { k with ports := (j 5).map (fun r => { port := leAt r 0 2, raw := leAt r 2 1 = 1, nodes := leAt r 3 1, ethertype := leAt r 4 2, multiple := leAt r 6 2 }) } else k
  let k := if has 6 then { k with exch := (j 6).map exchOf } else k
  let k := if has 7 then { k with guards := (j 7).map guardOf } else k
  let k := if has 8 then { k with points := (j 8).map (fun r => { first := leAt r 0 4, count := leAt r 4 4, cls := leAt r 8 1, read := (leAt r 9 1).testBit 0, write := (leAt r 9 1).testBit 1, sub := (leAt r 9 1).testBit 2 }) } else k
  let k := if has 9 then { k with slices := (j 9).map (fun r => { first := leAt r 0 2, count := leAt r 2 2, ports := leAt r 4 1, qpairs := leAt r 5 1, priority := leAt r 6 1, ptFirst := leAt r 8 4, ptCount := leAt r 0xC 4 }) } else k
  if has 0xC then { k with lax := leAt (b 0xC) 0 1 = 1 } else k

/-- Owner kinds of Table 3-14. -/
def ownerOf (n : Nat) : OwnerKind :=
  if n = 0 then .unowned else if n = 1 then .partition else if n = 2 then .cordage else if n = 3 then .secure else .slice

/-- The device-wide knots of an image. -/
def devOf (ks : List Knot) : DevKnots :=
  let j (ty : Nat) : List (List Byte) := joined ks ty 0xFF
  let has (ty : Nat) : Bool := (bodyOf ks ty 0xFF).isSome
  let b (ty : Nat) : List Byte := (bodyOf ks ty 0xFF).getD []
  let d : DevKnots := { routes := (j 2).map routeOf }
  let d := if has 3 then { d with secWm := leAt (b 3) 0 8, colours := leAt (b 3) 8 1 } else d
  let d := if has 8 then { d with ptBase := leAt (b 8) 0 8, ptSize := leAt (b 8) 8 8 } else d
  let d := if has 0xA then { d with clock := (List.range 64).map (fun q => (leAt (b 0xA) (2 * q) 1, leAt (b 0xA) (2 * q + 1) 1)) } else d
  let d := if has 0xB then { d with power := (List.range 420).map (fun i => leAt (b 0xB) i 1), cap := leAt (b 0xB) 0x1A4 2 } else d
  let d := if has 0xD then { d with patternAllowed := (leAt (b 0xD) 0 1).testBit 0, splitAllowed := (leAt (b 0xD) 0 1).testBit 1, scrub := leAt (b 0xD) 4 4, buckets := (j 0xD).map (fun r => (leAt r 0 1, leAt r 2 2, leAt r 4 4)) } else d
  let d := if has 0xE then { d with hawser := (List.range 4).map (fun i => let r := slice (b 0xE) (16 * i) 16; { role := leAt r 1 1, acceptTallies := (leAt r 2 1).testBit 0, epochSource := (leAt r 2 1).testBit 1, mirror := (leAt r 2 1).testBit 2, peerId := w64 (leAt r 8 8) }) } else d
  let d := { d with splice := (j 0xF).map (fun r => { kind := leAt r 0 1, index := leAt r 1 1, owner := ownerOf (leAt r 2 1), ownerNo := leAt r 4 2, timeout := leAt r 6 2 }) }
  let d := if has 0x10 then { d with mirrorSev := leAt (b 0x10) 0 1, trace := leAt (b 0x10) 1 1 = 1, clampRate := leAt (b 0x10) 2 2 } else d
  if has 0x11 then { d with ageInterval := leAt (b 0x11) 0 4, ageBand := leAt (b 0x11) 4 2, ageOverride := (j 0x11).map (fun r => (leAt r 0 2, leAt r 2 2)) } else d

/-- The device-wide values for check 10. -/
def envOf (d : DevKnots) : RigEnv := { secWm := d.secWm, colours := d.colours, ptBase := d.ptBase, ptSize := d.ptSize }

/-- The structure that a verified full image sets; its home set (R237). -/
def rigOf (l : List Byte) (ks : List Knot) : Rig :=
  let ps := (List.range 16).filter (fun p => (bodyOf ks 1 p).isSome)
  let parts : SMap (Option PartKnots) := ps.map (fun p => (p, some (partOf ks p {})))
  let ded : Word := parts.foldl (fun w e => w ||| (e.2.getD {}).part.slices) 0
  { unrigged := false, imageId := w64 (leAt l 0x20 8), bodyDigest := slice l 0x30 48, dev := devOf ks, parts := parts, pool := ~~~ded }

/-! ### Where a failure lies (R488) -/

/-- A field of a pair: of record `rec` of its joined table, or of its head. -/
structure Site where
  ty : Nat
  part : Nat
  row : Option Nat := none
  off : Nat
  deriving DecidableEq, Repr

/-- The knot that holds record `i` of a pair, and the record's offset in its body. -/
def siteRow (i : Nat) : List Knot → Option (Nat × Nat)
  | [] => none
  | k :: r =>
    let n := (recsOf k).length
    let f := knotForm k.ty k.dev
    if i < n then some (k.idx, f.1 + f.2 * i) else siteRow (i - n) r

/-- A site in the image: knot and offset; none where the image does not hold it. -/
def siteIn (ks : List Knot) (x : Site) : Option (Nat × Nat) :=
  let mine := ks.filter (fun k => k.ty = x.ty && k.part = x.part)
  match x.row with
  | some i => (siteRow i mine).map (fun e => (e.1, e.2 + x.off))
  | none => mine.getLast?.map (fun k => (k.idx, x.off))

/-- A rule that is broken: the fields it finds wrong, and the knots it relates in which no one field is wrong (their last APPEND
knot stands for them). -/
structure Breach where
  at_ : List Site
  else_ : List Site := []
  deriving DecidableEq, Repr

/-- The last of some places in the image. -/
def lastPlace (l : List (Nat × Nat)) : Option (Nat × Nat) := l.foldl (fun b x => match b with | some y => if y.1 < x.1 || (y.1 = x.1 && y.2 < x.2) then some x else b | none => some x) none

/-- Where a breach is located: the last knot involved, at the field found wrong; no offset where that knot holds no one such field
(R488, log 65). -/
def breachAt (ks : List Knot) (b : Breach) : Nat × Option Nat :=
  match lastPlace (b.at_.filterMap (siteIn ks)), lastPlace (b.else_.filterMap (siteIn ks)) with
  | some x, some y => if x.1 < y.1 then (y.1, none) else (x.1, some x.2)
  | some x, none => (x.1, some x.2)
  | none, some y => (y.1, none)
  | none, none => (Config.rigKnot % max ks.length 1, none)

/-- The first place is before the second: by knot, then by offset. -/
def placeBefore (x y : Nat × Option Nat) : Bool :=
  x.1 < y.1 || (x.1 = y.1 && match x.2, y.2 with | some a, some b => decide (a < b) | some _, none => true | none, _ => false)

/-- The first breach in image order, at its lowest offset. -/
def firstBreach (ks : List Knot) (status : Nat) (l : List Breach) : Option RigFail :=
  let best := (l.map (breachAt ks)).foldl (fun (b : Option (Nat × Option Nat)) x => match b with
    | some y => if placeBefore x y then some x else b
    | none => some x) none
  best.map (fun x => { status := status, knot := x.1, area := 0, off := x.2.getD (Config.rigOffset x.1) })

/-- A breach when the condition holds. -/
def breachIf (c : Bool) (l : List Site) (e : List Site := []) : List Breach := if c then [{ at_ := l, else_ := e }] else []

/-! ### Rules within one partition -/

/-- The block of a bank colour (R261). -/
def colourBlock (d : DevKnots) (c : Nat) : Nat × Nat := (c * (0x4000000000 / max d.colours 1), 0x4000000000 / max d.colours 1)

/-- Every address of a range lies in the blocks of the mask's colours. -/
def inColours (d : DevKnots) (mask a n : Nat) : Bool :=
  let size := 0x4000000000 / max d.colours 1
  (List.range ((a + n - 1) / size + 1 - a / size)).all (fun i => mask.testBit (a / size + i))

/-- A partition's records with this right cover some points. -/
def covers (ps : List PointRange) (right : PointRange → Bool) (a n : Nat) (fuel : Nat := 4096) : Bool :=
  match fuel with
  | 0 => false
  | fuel + 1 =>
    if n = 0 then true
    else match ps.find? (fun r => right r && decide (r.first ≤ a) && decide (a < r.first + r.count)) with
      | some r => covers ps right (r.first + r.count) (n - min n (r.first + r.count - a)) fuel
      | none => false

/-- Power domains whose units are assigned to the partition (R78), each with the field that assigns them. -/
def assigned (p : Nat) (k : PartKnots) : List (Nat × Site) :=
  ((List.range 256).filter (fun c => k.part.quads.getLsbD (c / 4))).map (fun c => (c, ⟨1, p, none, 0⟩))
    ++ ((List.range 64).filter (fun q => k.part.quads.getLsbD q)).map (fun q => (256 + q, ⟨1, p, none, 0⟩))
    ++ ((List.range 64).filter (fun q => k.part.slices.getLsbD q)).map (fun q => (320 + q, ⟨1, p, none, 8⟩))
    ++ k.ports.zipIdx.map (fun e => (400 + e.1.port / 64, ⟨5, p, some e.2, 0⟩))

/-- Domains that act as ALWAYS_ON whatever their policy (R445). -/
def neverOff : List Nat := (List.range 80).map (320 + ·) ++ [414, 417, 419]

/-- The channel group of a DMA channel is owned by the partition. -/
def groupOwned (own : Nat → Option Nat) (p ch : Nat) : Bool := decide (ch < 256) && own (8 + ch / 16) == some p

/-- Breaches of the calendar's references (R73). -/
def calBreach (own : Nat → Option Nat) (p : Nat) (k : PartKnots) : List Breach :=
  match k.cal with
  | none => []
  | some c => c.slots.zipIdx.flatMap (fun e =>
      let t := e.1.target
      let s : Site := ⟨4, p, some e.2, 6⟩
      match e.1.act with
      | .release => breachIf (1023 < t || !k.part.quads.getLsbD (t / 16)) [s, ⟨1, p, none, 0⟩]
      | .deadline => breachIf (1023 < t || !k.part.quads.getLsbD (t / 16)) [s, ⟨1, p, none, 0⟩]
      | .start => breachIf (!groupOwned own p t) [s] [⟨0xF, 0xFF, none, 0⟩]
      | .exchange => breachIf (!k.ports.any (fun r => r.port = t)) [s] [⟨5, p, none, 0⟩])

/-- Breaches of ports and contexts (R74, R75, R308); `other` says that another partition guards an output. -/
def exchBreach (other : Nat → Bool) (p : Nat) (k : PartKnots) : List Breach :=
  let ports := k.ports.zipIdx.flatMap (fun e =>
    if e.1.raw then [] else match k.cal with
      | none => breachIf true [⟨5, p, some e.2, 2⟩]
      | some c => breachIf (e.1.multiple * c.cycle < 25000) [⟨5, p, some e.2, 6⟩, ⟨4, p, none, 0⟩])
  let ctxs := k.exch.zipIdx.flatMap (fun e =>
    let x := e.1
    let s (o : Nat) : Site := ⟨6, p, some e.2, o⟩
    let port := k.ports.zipIdx.find? (fun r => r.1.port = x.port && !r.1.raw)
    breachIf port.isNone [s 2] [⟨5, p, none, 0⟩]
      ++ (match port with | some r => breachIf (r.1.nodes ≤ x.node) [s 4, ⟨5, p, some r.2, 3⟩] | none => [])
      ++ breachIf (!covers k.points (fun r => r.write) x.point x.count) [s 8] [⟨8, p, none, 0⟩]
      ++ (if x.output then
        (List.range x.count).flatMap (fun i => breachIf (!k.guards.any (fun g => g.output = x.guard + i) && !other (x.guard + i)) [s 0xC] [⟨7, p, none, 0⟩])
      else []))
  let bound (o : Nat) : List (ExchRec × Nat) := k.exch.zipIdx.filter (fun e => e.1.output && decide (e.1.guard ≤ o) && decide (o < e.1.guard + e.1.count))
  let guards := k.guards.zipIdx.flatMap (fun e =>
    let b := bound e.1.output
    breachIf (b.length ≠ 1) (⟨7, p, some e.2, 0⟩ :: b.map (fun x => ⟨6, p, some x.2, 0xC⟩)) (if b.isEmpty then [⟨6, p, none, 0⟩] else []))
  ports ++ ctxs ++ guards

/-- Breaches within the knots of one partition and the device-wide knots. -/
def selfBreach (d : DevKnots) (own : Nat → Option Nat) (other : Nat → Bool) (p : Nat) (k : PartKnots) : List Breach :=
  let quadTile (r : RouteRec) : Bool := match stopAt r.x r.y with | some n => decide (n < 64) && k.part.quads.getLsbD n | none => false
  let boot := k.part.bootPc.toNat
  let size := 0x4000000000 / max d.colours 1
  breachIf k.ranges.isEmpty [] [⟨1, p, none, 0⟩]
    ++ breachIf (!k.ranges.any (fun r => decide (r.1 ≤ boot) && decide (boot < r.1 + r.2))) [⟨1, p, none, 0x18⟩] [⟨3, p, none, 8⟩]
    ++ breachIf (k.part.isolated && k.colourMask = 0) [⟨3, p, none, 4⟩, ⟨1, p, none, 0x11⟩]
    ++ k.routes.zipIdx.flatMap (fun e => breachIf (!quadTile e.1) [⟨2, p, some e.2, 0⟩, ⟨1, p, none, 0⟩])
    ++ (if k.colourMask = 0 then [] else
      k.ranges.zipIdx.flatMap (fun e => breachIf (!inColours d k.colourMask e.1.1 e.1.2) [⟨3, p, some e.2, 0⟩])
        ++ breachIf ((onesBelow 32 k.colourMask).any (fun c => c * size < d.secWm)) [⟨3, p, none, 4⟩, ⟨3, 0xFF, none, 0⟩]
        ++ breachIf ((onesBelow 32 k.colourMask).any (fun c => overlaps (c * size) size d.ptBase d.ptSize)) [⟨3, p, none, 4⟩, ⟨8, 0xFF, none, 0⟩])
    ++ calBreach own p k ++ exchBreach other p k
    ++ k.slices.zipIdx.flatMap (fun e => breachIf (!covers k.points (fun r => r.read) e.1.ptFirst e.1.ptCount) [⟨9, p, some e.2, 8⟩] [⟨8, p, none, 0⟩])
    ++ (assigned p k).flatMap (fun x => breachIf (d.power.getD x.1 1 = 3) [⟨0xB, 0xFF, none, x.1⟩, x.2])
    ++ d.routes.zipIdx.flatMap (fun e => breachIf (quadTile e.1) [⟨2, 0xFF, some e.2, 0⟩, ⟨1, p, none, 0⟩])

/-! ### Rules between partitions -/

/-- Pairs of rows of two tables that clash. -/
def clash {α β : Type} (a : List α) (b : List β) (f : α → β → Bool) : List (Nat × Nat) :=
  a.zipIdx.flatMap (fun x => (b.zipIdx.filter (fun y => f x.1 y.1)).map (fun y => (x.2, y.2)))

/-- Resources that both partitions hold (Table 3-16b). -/
def sharedBreach (p q : Nat) (a b : PartKnots) : List Breach :=
  let two (ty o : Nat) (l : List (Nat × Nat)) : List Breach := l.map (fun e => { at_ := [⟨ty, p, some e.1, o⟩, ⟨ty, q, some e.2, o⟩] })
  breachIf (a.part.quads &&& b.part.quads != 0) [⟨1, p, none, 0⟩, ⟨1, q, none, 0⟩]
    ++ breachIf (a.part.slices &&& b.part.slices != 0) [⟨1, p, none, 8⟩, ⟨1, q, none, 8⟩]
    ++ breachIf ((w64 a.colourMask &&& w64 b.colourMask) != 0) [⟨3, p, none, 4⟩, ⟨3, q, none, 4⟩]
    ++ two 3 0 (clash a.ranges b.ranges (fun x y => overlaps x.1 x.2 y.1 y.2))
    ++ two 5 0 (clash a.ports b.ports (fun x y => x.port = y.port))
    ++ two 6 0 (clash a.exch b.exch (fun x y => x.ctx = y.ctx))
    ++ two 7 0 (clash a.guards b.guards (fun x y => x.output = y.output))
    ++ two 8 0 (clash a.points b.points (fun x y => x.write && y.write && overlaps x.first x.count y.first y.count))
    ++ two 9 0 (clash a.slices b.slices (fun x y => overlaps x.first x.count y.first y.count))

/-- Rules between two partitions that are not about holding a resource: a range in another's dedicated colour (R72), a point bound by
contexts of both (R308). -/
def relateBreach (d : DevKnots) (p q : Nat) (a b : PartKnots) : List Breach :=
  let blocks (ra : List (Nat × Nat)) (mask pa pm : Nat) : List Breach :=
    ra.zipIdx.flatMap (fun e => breachIf ((onesBelow 32 mask).any (fun c => overlaps e.1.1 e.1.2 (colourBlock d c).1 (colourBlock d c).2)) [⟨3, pa, some e.2, 0⟩, ⟨3, pm, none, 4⟩])
  blocks a.ranges b.colourMask p q ++ blocks b.ranges a.colourMask q p
    ++ (clash a.exch b.exch (fun x y => overlaps x.point x.count y.point y.count)).map (fun e => { at_ := [⟨6, p, some e.1, 8⟩, ⟨6, q, some e.2, 8⟩] })

/-- The unordered pairs of a list. -/
def pairsOf {α : Type} : List α → List (α × α)
  | [] => []
  | a :: r => r.map (fun b => (a, b)) ++ pairsOf r

/-! ### Checks 11, 13 and 14 -/

/-- The owner that SPLICE_DEFAULTS gives a block, when it is a partition. -/
def spliceOwn (d : DevKnots) (b : Nat) : Option Nat :=
  (d.splice.find? (fun r => decide (r.owner = OwnerKind.partition) && (match r.kind with | 0 => r.index | 1 => 8 + r.index | 2 => 24 + r.index | 3 => 28 | _ => 29 + r.index) = b)).map (fun r => r.ownerNo)

/-- Check 11 of a full image. -/
def rigCheck11 (l : List Byte) (ks : List Knot) : Option RigFail :=
  let g := rigOf l ks
  let ps : List (Nat × PartKnots) := g.parts.map (fun e => (e.1, e.2.getD {}))
  let orphan := ks.find? (fun k => decide (k.part < 16) && (bodyOf ks 1 k.part).isNone)
  let power (p : Nat) : List Breach := g.dev.splice.zipIdx.flatMap (fun e =>
    let d := match e.1.kind with | 0 => 400 + e.1.index | 1 => 416 | 2 => 410 + e.1.index | 3 => 418 | _ => 408 + e.1.index
    breachIf (decide (e.1.owner = OwnerKind.partition) && e.1.ownerNo = p && g.dev.power.getD d 1 = 3) [⟨0xF, 0xFF, some e.2, 4⟩])
  let all := ps.flatMap (fun e => selfBreach g.dev (spliceOwn g.dev) (fun _ => false) e.1 e.2 ++ power e.1)
    ++ (pairsOf ps).flatMap (fun e => sharedBreach e.1.1 e.2.1 e.1.2 e.2.2 ++ relateBreach g.dev e.1.1 e.2.1 e.1.2 e.2.2)
    ++ neverOff.flatMap (fun x => breachIf (g.dev.power.getD x 1 = 3) [⟨0xB, 0xFF, none, x⟩])
    ++ breachIf (g.pool = 0) ((ps.filter (fun e => e.2.part.slices != 0)).map (fun e => ⟨1, e.1, none, 8⟩))
  let found := firstBreach ks 0x0B all
  match orphan, found with
  | some k, some f => if k.idx ≤ f.knot then some { status := 0x0B, knot := k.idx, area := 1, off := 0xC } else some f
  | some k, none => some { status := 0x0B, knot := k.idx, area := 1, off := 0xC }
  | none, f => f

/-- Another partition than `p` guards the output. -/
def guardedElsewhere (s : State) (p o : Nat) : Bool := (partIds s).any (fun q => q ≠ p && (knots s q).guards.any (fun g => g.output = o))

/-- Check 13 of Table 3-16c for partition `p`. -/
def rigCheck13 (s : State) (ks : List Knot) (p : Nat) (k : PartKnots) : Option RigFail :=
  let own (b : Nat) : Option Nat := if blkState s b = 1 && (blkOwner s b).1 = 1 then some (blkOwner s b).2 else none
  if (knots? s p).isNone && ((bodyOf ks 1 p).isNone || (bodyOf ks 3 p).isNone) then some { status := 0x0B, off := 0x1C }
  else
    let d := s.rig.dev
    firstBreach ks 0x0B (selfBreach d own (guardedElsewhere s p) p k
      ++ ((partIds s).filter (· ≠ p)).flatMap (fun q => relateBreach d p q k (knots s q)))

/-- Check 14: what other partitions, and the home set, hold. -/
def rigCheck14 (s : State) (ks : List Knot) (p : Nat) (k : PartKnots) : Option RigFail :=
  let outs := k.exch.zipIdx.flatMap (fun e =>
    if e.1.output then breachIf ((List.range e.1.count).any (fun i => guardedElsewhere s p (e.1.guard + i) && !k.guards.any (fun g => g.output = e.1.guard + i))) [⟨6, p, some e.2, 0xC⟩] else [])
  firstBreach ks 0x0F (((partIds s).filter (· ≠ p)).flatMap (fun q => sharedBreach p q k (knots s q))
    ++ breachIf (k.part.slices &&& s.rig.pool != 0) [⟨1, p, none, 8⟩] ++ outs)

/-! ### Verification (Tables 3-15, 3-16c) -/

/-- Checks 1 to 6. -/
def rigHead (s : State) (l : List Byte) (use : RigUse) (room : Nat) : Option RigFail :=
  rigCheck1 l use room |>.orElse fun _ => rigCheck2 l |>.orElse fun _ => rigCheck3 s l |>.orElse fun _ =>
  rigCheck4 s l |>.orElse fun _ => rigCheck5 s l |>.orElse fun _ => rigCheck6 l

/-- A full image: its structure, or the first check that fails (R80). -/
def verifyFull (s : State) (l : List Byte) (room : Nat) (use : RigUse := .full) : Rig ⊕ RigFail :=
  match rigHead s l use room with
  | some f => .inr f
  | none => match rigKnots l with
    | .inr f => .inr f
    | .inl ks =>
      match rigCheck8 ks |>.orElse fun _ => rigCheck9 none ks |>.orElse fun _ => rigCheck10 (envOf (devOf ks)) [] ks |>.orElse fun _ => rigCheck11 l ks with
      | some f => .inr f
      | none => .inl (rigOf l ks)

/-- A partial image: the partition and its knots, or the first check that fails (R86, Table 3-16c). -/
def verifyPartial (s : State) (l : List Byte) (room : Nat) (use : RigUse := .partialOnly) : (Nat × PartKnots) ⊕ RigFail :=
  match rigHead s l use room with
  | some f => .inr f
  | none =>
    if s.rig.unrigged || w64 (leAt l 0x28 8) != s.rig.imageId then .inr { status := 0x0E, off := 0x28 }
    else match rigKnots l with
      | .inr f => .inr f
      | .inl ks =>
        let p := leAt l 0x1C 1
        let k := partOf ks p (knots s p)
        let wrong : Option RigFail := (ks.find? (fun x => x.part ≠ p)).map (fun x => { status := 0x0E, knot := x.idx, area := 1, off := 0xC })
        match rigCheck8 ks |>.orElse fun _ => rigCheck9 none ks |>.orElse fun _ => wrong |>.orElse fun _ => rigCheck10 (envOf s.rig.dev) [] ks
            |>.orElse fun _ => rigCheck13 s ks p k |>.orElse fun _ => rigCheck14 s ks p k with
        | some f => .inr f
        | none => .inl (p, k)

end Sys2Proof.Machine
end

