-- ==== Sys2Proof/Machine/Solstice.lean ====
section
/-! DEFINITION. Solstice, the ageing margin re-plan (R452–R455), and the management endpoint (R456, R457). -/

namespace Sys2Proof.Machine

/-! ### Margins (R454, R455) -/

/-- A domain's entry in the margin table. -/
def marginOf (s : State) (d : Nat) : Margin := SMap.get (fun _ => {}) s.flash.margins d
/-- Writes an entry of the margin table. -/
def setMargin (s : State) (d : Nat) (m : Margin) : State := { s with flash := { s.flash with margins := SMap.set (fun _ => {}) s.flash.margins d m } }

/-- BAND of a domain (AGEING knot). -/
def bandOf (s : State) (d : Nat) : Nat :=
  match s.rig.dev.ageOverride.find? (fun e => e.1 == d) with
  | some e => e.2
  | none => s.rig.dev.ageBand

/-- One more day has passed: DAYS and every AGE count it. -/
def dayTick (s : State) : State :=
  let up (n : Nat) : Nat := min (n + 1) 65535
  let m := (List.range 420).foldl (fun m d => let x := marginOf s d; SMap.set (fun _ => {}) m d { x with age := up x.age }) s.flash.margins
  { s with flash := { s.flash with days := up s.flash.days, margins := m } }

/-! ### A pass (R452, R453) -/

/-- A pass starts unless one runs: it measures every domain that is on. -/
def solStart (s : State) : State :=
  if solRunning s || !s.boot.rails || s.pow.trip ≠ 0 then s
  else { s with pow := { s.pow with solTodo := (List.range 420).filter (fun d => domState s d = 1), solHold := none, solSince := s.epoch } }

/-- The pass goes on with these domains, or has completed. -/
def solNext (s : State) (todo : List Nat) : State :=
  let s : State := { s with pow := { s.pow with solTodo := todo, solHold := none } }
  if todo.isEmpty then { s with flash := { s.flash with passes := min (s.flash.passes + 1) 65535, days := 0 } } else s

/-- SOLSTICE_PASS_START: INTERVAL days after the last pass. -/
def execSolsticePassStart (s : State) : Host.Outcome State Fault Refusal :=
  .next (if s.rig.dev.ageInterval ≠ 0 && decide (s.rig.dev.ageInterval ≤ s.flash.days) then solStart s else s)

/-- SOL_CMD.START, by Cordage or Bowline (R458). -/
def solCmd (s : State) (who : Requester) (v : Word) : State :=
  if !isMgmt who && !isBowline who then refuseReg s ⟨.SOL_CMD, 0, 0, 0⟩ who
  else if bit v 0 then solStart s else s

/-- SOL_CMD_START. -/
def execSolCmdStart (who : Requester) (s : State) : Host.Outcome State Fault Refusal := .next (regCmd s ⟨.SOL_CMD, 0, 0, 0⟩ (fun s => solCmd s who 1))

/-- A calendar-critical thread leaves no hold span now: it runs, and it is not parked in WAITSLOT with its completion flag set
and no release due within 2,500 ticks. -/
def holdBlocker (s : State) (t : Nat) : Bool :=
  let x := thr s t
  let p := (threadPart s t).getD 0
  let soon := match (knots s p).cal with
    | some c => (prun s p).calRunning && c.slots.zipIdx.any (fun e =>
        e.1.act == SlotAct.release && e.1.target == t && decide (slotNext s p c e.2 e.1.offset (prun s p).calFrom ≤ s.epoch + 2500))
    | none => false
  calCritical s t && x.run != .held && x.run != .halted && !(x.run == .waitslot && x.complete && !soon)

/-- A hold of the domain may start (R453). -/
def holdSpan (s : State) (d : Nat) : Bool :=
  if d < 320 then (quadThreads (if d < 256 then d / 4 else d - 256)).all (fun t => !holdBlocker s t)
  else if d < 384 then
    match slicePart s (d - 320) with
    | some p => !(knots s p).part.isolated || (partThreads s p).all (fun t => !holdBlocker s t)
    | none => true
  else if d < 400 then inWindow s (d - 384)
  else true

/-- The domains that the pass has still to measure: those that are no longer on are passed over. -/
def solLeft (s : State) : List Nat := s.pow.solTodo.dropWhile (fun d => domState s d = 0 || domState s d = 2)

/-- SOLSTICE_HOLD: the pass has reached the domain and a hold span is open. -/
def execSolsticeHold (d : BitVec 9) (s : State) : Host.Outcome State Fault Refusal :=
  if 420 ≤ d.toNat then .fault .noSuchUnit
  else .next (if !solRunning s || s.pow.solHold.isSome || s.pow.trip ≠ 0 then s
    else match solLeft s with
      | [] => solNext s []
      | x :: r =>
        if x = d.toNat && domState s x = 1 && holdSpan s x && !domTested s x then
          { s with pow := { s.pow with solTodo := x :: r, solHold := some x } }
        else s)

/-- The next divider above the effective one that STEPS allows. -/
def nextDiv (s : State) (q : Nat) : Option Nat := [3, 4].find? (fun v => decide (effDiv s q < v) && stepAllowed s q v)

/-- What a measurement of domain `d` commits (R454). -/
def solCommit (s : State) (d need : Nat) (rest : List Nat) : State :=
  let m : Margin := { marginOf s d with need := need, age := 0 }
  let band := bandOf s d
  let q := if d < 256 then d / 4 else d - 256
  if need ≤ band then solNext (setMargin s d { m with offset := max need (m.offset - 4) }) rest
  else match if d < 320 then nextDiv s q else none with
    | some v =>
      let others := ((coresOf q) ++ [256 + q]).filter (fun x => x != d && domState s x = 1)
      let s := setMargin s d m
      let s := { s with flash := { s.flash with solDiv := SMap.set (fun _ => 2) s.flash.solDiv q v } }
      solNext (alm s 0xC016 3 14 d need v) (d :: others ++ rest.filter (fun x => !others.contains x))
    | none => solNext (alm (setMargin s d { m with offset := band, fail := true }) 0xC017 5 14 d need) rest

/-- SOLSTICE_MEASURE: the hold of a domain has yielded this NEED. -/
def execSolsticeMeasure (need : BitVec 8) (s : State) : Host.Outcome State Fault Refusal :=
  .next (match s.pow.solHold with
    | some d => solCommit s d need.toNat (s.pow.solTodo.drop 1)
    | none => s)

/-- SOLSTICE_SKIP: no hold span arose for the domain within 24 hours. -/
def execSolsticeSkip (d : BitVec 9) (s : State) : Host.Outcome State Fault Refusal :=
  if 420 ≤ d.toNat then .fault .noSuchUnit
  else .next (match solLeft s with
    | x :: r =>
      if x = d.toNat && s.pow.solHold.isNone && decide (s.pow.solSince + 8640000000000 ≤ s.epoch) then
        solNext (alm (updR s .SOL_DOM (fun w => setBit w 1 true) 0 x) 0xC018 2 14 x) r
      else s
    | [] => s)

/-! ### The management endpoint (R456, R457) -/

/-- MANAGEMENT_SNAPSHOT: due every 100 ms once Cordage runs. -/
def execManagementSnapshot (s : State) : Host.Outcome State Fault Refusal :=
  .next (if s.boot.step = 9 && !s.boot.stopped && decide (s.mgmt.snapAt + 10000000 ≤ s.epoch) then snapshotNow s else s)

/-- The kept snapshot with this GEN. -/
def snapOf (s : State) (gen : Nat) : Option Snapshot := s.mgmt.snaps.find? (fun n => n.gen == gen)

/-- State of a partition as a number (Table 3-16a). -/
def pstateNo : PState → Nat
  | .absent => 0
  | .rigged => 1
  | .running => 2
  | .parked => 3
  | .faulted => 4

/-- A snapshot as GET_VIEW returns it (layout: DESIGN CHOICE, log 61). -/
def viewBytes (n : Snapshot) : List Byte :=
  [0] ++ leBytes 4 n.gen ++ leBytes 2 n.passes ++ leBytes 1 n.solState ++ (List.range 420).flatMap (fun d => leBytes 2 (SMap.get (fun _ => 0) n.chg d))
    ++ n.parts.flatMap (fun p => leBytes 1 (pstateNo p)) ++ n.splice.flatMap (fun w => leBytes 8 w.toNat)

/-- GET_VIEW: the current snapshot; its GEN asks for nothing (DESIGN CHOICE, log 61). -/
def execGetView (_gen : BitVec 32) (s : State) : Host.Outcome State Fault Refusal :=
  .next (if !s.mgmt.smbus then s
    else match s.mgmt.snaps with
      | n :: _ => takeSnapshot (mgmtReply s (viewBytes n))
      | [] => s)

/-- POWER_REQUEST: an in-band request with EXPECT = CHG of the snapshot. -/
def execPowerRequest (gen : BitVec 32) (op : BitVec 4) (dom : BitVec 9) (div : BitVec 4) (s : State) : Host.Outcome State Fault Refusal :=
  if 420 ≤ dom.toNat then .fault .noSuchUnit
  else .next (if !s.mgmt.smbus then s
    else match snapOf s gen.toNat with
      | some n => powRequest s (.mgmt 0) (some (SMap.get (fun _ => 0) n.chg dom.toNat)) dom.toNat op.toNat div.toNat true
      | none => mgmtReply s [3])

/-- SOLSTICE_START: SOL_CMD.START unless PASSES or STATE has changed since the snapshot. -/
def execSolsticeStart (gen : BitVec 32) (s : State) : Host.Outcome State Fault Refusal :=
  .next (if !s.mgmt.smbus then s
    else match snapOf s gen.toNat with
      | some n => if n.passes = s.flash.passes && n.solState = b2n (solRunning s) then takeSnapshot (mgmtReply (solStart s) [0]) else mgmtReply s [3]
      | none => mgmtReply s [3])

/-- MCTP control messages (DSP0236; PRESUMED, log 61). -/
def mctpControl (s : State) (inst cmd : Byte) (data : List Byte) : State :=
  let head : List Byte := [0, inst &&& 0x1F#8, cmd]
  if cmd = 1 then
    let op := (data.getD 0 0).toNat % 4
    let eid := data.getD 1 0
    if op < 2 && eid != 0 && eid != 0xFF then
      mgmtReply { s with mgmt := { s.mgmt with eid := eid.toNat } } (head ++ [0, 0, eid, 0])
    else mgmtReply s (head ++ [2])
  else if cmd = 2 then mgmtReply s (head ++ [0] ++ leBytes 1 s.mgmt.eid ++ [0, 0])
  else if cmd = 4 then
    let t := data.getD 0 0
    if t = 0xFF || t = 0 || t = 1 || t = 5 then mgmtReply s (head ++ [0, 1, 0xF1, 0xF3, 0xF1, 0x00])
    else mgmtReply s (head ++ [0x80])
  else if cmd = 5 then mgmtReply s (head ++ [0, 3, 0, 1, 5])
  else mgmtReply s (head ++ [5])

/-- The commands that a PLDM type supports. -/
def pldmCmds (ty : Nat) : List Nat := if ty = 0 then [2, 3, 4, 5] else if ty = 2 then [0x11, 0x21, 0x50, 0x51] else []

/-- A numeric sensor: inlet, outlet, hottest junction, VIN, IIN and PIN. -/
def sensorBytes (s : State) (id : Nat) : List Byte :=
  let cool := getR s .PWR_COOLANT 0
  let pin := getR s .PWR_IN 0
  if id = 1 then leBytes 2 (fieldN cool 63 48) else if id = 2 then leBytes 2 (fieldN cool 47 32)
  else if id = 3 then leBytes 2 (fieldN (getR s .PWR_THERM 0) 47 40) else if id = 4 then leBytes 2 (fieldN pin 63 48)
  else if id = 5 then leBytes 2 (fieldN pin 47 32) else leBytes 2 (fieldN pin 31 16)

/-- A state sensor: 7 the thermal state, 8 + p the state of partition p. -/
def stateSensor (s : State) (id : Nat) : Nat := if id = 7 then fieldN (getR s .PWR_THERM 0) 1 0 else pstateNo (prun s (id - 8)).st

/-- PLDM messages of types 0 and 2 (DSP0240, DSP0248; PRESUMED, log 61). -/
def pldmMessage (s : State) (inst ty cmd : Byte) (data : List Byte) : State :=
  let head : List Byte := [1, inst &&& 0x1F#8, ty, cmd]
  let t := ty.toNat % 64
  let c := cmd.toNat
  let arg := data.getD 0 0
  if t ≠ 0 && t ≠ 2 && t ≠ 0x3F then mgmtReply s (head ++ [0x20])
  else if !(pldmCmds t).contains c then mgmtReply s (head ++ [5])
  else if t = 0 then
    if c = 2 then mgmtReply s (head ++ [0, 1])
    else if c = 3 then mgmtReply s (head ++ [0, 0, 0, 0, 0, 5, 0xF1, 0xF0, 0xF0, 0x00])
    else if c = 4 then mgmtReply s (head ++ [0] ++ leBytes 8 (2 ^ 0 + 2 ^ 2 + 2 ^ 63))
    else mgmtReply s (head ++ [0] ++ leBytes 32 ((pldmCmds arg.toNat).foldl (fun m k => m + 2 ^ k) 0))
  else if c = 0x11 then
    let id := leAt data 0 2
    if 1 ≤ id && id ≤ 6 then mgmtReply s (head ++ [0, 3, 0, 0, 1, 1, 1] ++ sensorBytes s id) else mgmtReply s (head ++ [0x80])
  else if c = 0x21 then
    let id := leAt data 0 2
    if 7 ≤ id && id ≤ 23 then mgmtReply s (head ++ [0, 1, 0] ++ leBytes 1 (stateSensor s id) ++ [0, 0]) else mgmtReply s (head ++ [0x80])
  else if c = 0x50 then mgmtReply s (head ++ [0, 0] ++ List.replicate 26 0 ++ leBytes 4 22 ++ leBytes 4 0 ++ leBytes 4 0 ++ [0])
  else mgmtReply s (head ++ [0] ++ leBytes 4 (leAt data 0 4 + 1) ++ leBytes 4 0 ++ [5] ++ leBytes 2 (Config.pdr (leAt data 0 4)).length ++ Config.pdr (leAt data 0 4))

/-- The 7-bit SMBus address: 0x64 + 2 × MADDR1 + MADDR0, as the straps were sampled (R34). -/
def smbusAddr (s : State) : Nat := 0x64 + s.boot.maddr

/-- MCTP_MESSAGE: an SMBus write, which begins with the 7-bit address above a 0, as on the bus (log 61); answered at the module's own address
(R34): the message type, then the message; types other than 0 and 1 are not answered here. -/
def execMctpMessage (bytes : List (BitVec 8)) (s : State) : Host.Outcome State Fault Refusal :=
  .next (match bytes with
    | dest :: message =>
      if !s.mgmt.smbus || dest.toNat ≠ 2 * smbusAddr s then s
      else match message with
        | 0 :: inst :: cmd :: data => mctpControl s inst cmd data
        | 1 :: inst :: ty :: cmd :: data => pldmMessage s inst ty cmd data
        | _ => s
    | [] => s)

/-- SMBUS_ALERT_RESPONSE: ALERT_N is released (R37). -/
def execSmbusAlertResponse (s : State) : Host.Outcome State Fault Refusal :=
  .next (if s.mgmt.smbus then { s with mgmt := { s.mgmt with alertN := true } } else s)

end Sys2Proof.Machine
end

