-- ==== Sys2Proof/Machine/Rigging.lean ====
section
/-! DEFINITION. The rigging loader: applying images (R81, R82, R86–R89, R238, R346), and the commands of RIG_CMD with the
states of a partition (R83–R85, R90, R291, R294, R365, R466). -/

namespace Sys2Proof.Machine

/-! ### Applying a full image (R81, R82) -/

/-- Writes route entries (R222). -/
def routesWrite (s : State) (l : List RouteRec) : State :=
  foldS (fun s r => match stopAt r.x r.y with | some n => setR s .MESH_ROUTE r.entry 0 n r.index | none => s) s l

/-- The number of a splice-able block from KIND and INDEX (Table 15-5). -/
def blkNo (r : SpliceRec) : Nat :=
  match r.kind with
  | 0 => r.index
  | 1 => 8 + r.index
  | 2 => 24 + r.index
  | 3 => 28
  | _ => 29 + r.index

/-- OWNER_KIND of an owner. -/
def kindNo : OwnerKind → Nat
  | .unowned => 0
  | .partition => 1
  | .cordage => 2
  | .secure => 3
  | .slice => 4

/-- RIG_SPLICE of a block at start-up: SPLICE_DEFAULTS, or Cordage with 1,000 ms (R79). -/
def spliceInit (d : DevKnots) (b : Nat) : Word :=
  match d.splice.find? (fun r => blkNo r = b) with
  | some r => w64 (r.timeout * 2 ^ 48 + r.ownerNo * 2 ^ 16 + kindNo r.owner * 2 ^ 8 + (if r.owner = .unowned then 0 else 1))
  | none => w64 (1000 * 2 ^ 48 + 2 * 2 ^ 8 + 1)

/-- The structure of a full image, or of an unrigged start-up, takes effect: routes, blocks, clocks, power domains, partition
states and manifests. -/
def rigApply (s : State) (g : Rig) : State :=
  let s : State := { s with rig := g, ps := { s.ps with mem := [] } }
  let s := routesWrite s (g.dev.routes ++ g.parts.flatMap (fun e => (e.2.getD {}).routes))
  let s := foldS (fun s b => setR s .RIG_SPLICE (spliceInit g.dev b) 0 b) s (List.range 31)
  let s := foldS (fun s q => updR s .CLK_QUAD (fun w => setField w 22 20 (g.dev.clock.getD q (7, 2)).2) 0 q) s (List.range 64)
  let s := foldS (fun s d => setDom s d (domInitial s d)) s (List.range 420)
  let s := foldS (fun s p => updPrun s p (fun _ => { st := .rigged })) s (partIds s)
  let s := updR s .RIG_STS (fun w => setBit w 1 g.unrigged) 0
  foldS hawsRetrain (foldS manifestRebuild s [0, 1]) (List.range 4)

/-! ### Entering RUNNING (R90, R291, R294, R365) -/

/-- Bowline prepares the secure bank of each thread of the partition (R365). -/
def secureReady (s : State) (p : Nat) : State :=
  let v := getR s .BOWL_STVEC 0
  foldS (fun s t => updThr s t (fun x => { x with sS := { x.sS with tvec := v, status := 0 } })) s (partThreads s p)

/-- The partition enters RUNNING: at START its thread 0 of the lowest core starts at BOOT_PC; at RESUME its halted threads go on,
latches cleared and completion flags set. -/
def enterRunning (s : State) (p : Nat) (resume : Bool) : State :=
  let k := knots s p
  let s := updPrun s p (fun r => { r with st := .running, park := .none, calRunning := false, runAt := s.epoch, laxInForce := if resume then r.laxInForce else k.lax })
  let s := if resume then
      foldS (fun s t => updThr s t (fun x => { x with latch := none, complete := true, run := if x.run == .halted then (match x.wait with | some (.slot _) => .waitslot | _ => .run) else x.run })) s (partThreads s p)
    else match (partThreads s p).head? with
      | some t => updThr s t (fun x => { x with run := .run, level := .M, world := .normal, pc := k.part.bootPc &&& ~~~ 3#64, slot := .none, wait := none })
      | none => s
  secureReady s p

/-! ### Requesters (R90) -/

/-- A requester whose write of RIG_CMD is a command: a thread at M level, Cordage, the manager, or Bowline. -/
def rigCommander (s : State) : Requester → Bool
  | .thread t => (thr s t.toNat).level == .M && (thr s t.toNat).world == .normal
  | .mgmt _ => true
  | .manager _ => true
  | .bowline => true
  | _ => false

/-- The requester is a partition thread. -/
def isThread : Requester → Bool
  | .thread _ => true
  | _ => false

/-- A thread that acts on a partition other than its own. -/
def otherPart (s : State) (who : Requester) (p : Nat) : Bool := isThread who && reqPart s who != some p

/-- Runs a command of RIG_CMD, or refuses the write. -/
def rigCommand (s : State) (who : Requester) (f : State → State) : State :=
  regCmd s ⟨.RIG_CMD, 0, 0, 0⟩ (fun s => if rigCommander s who then f s else refuseReg s ⟨.RIG_CMD, 0, 0, 0⟩ who)

/-- The loader is idle. -/
def rigIdle (s : State) : Bool := fieldN (getR s .RIG_STS 0) 3 2 = 0

/-- A verification's end in RIG_STS. -/
def rigEnd (s : State) : Option RigFail → State
  | some f => rigDone s f.status f.knot f.area f.off
  | none => rigDone s 0 0 0 0

/-! ### VERIFY, STORE and SELECT (R80, R466) -/

/-- Bytes of the staging buffer and of an image slot. -/
def slotRoom : Nat := 67108864

/-- The staged image. -/
def staged (s : State) : List Byte :=
  let byte (i : Nat) : Byte := SMap.get (fun _ => 0) s.stage i
  let head := (List.range 12).map byte
  (List.range (min (max (imageLen head) 384) slotRoom)).map byte

/-- A verification without its result. -/
def failOf {α : Type} : α ⊕ RigFail → Option RigFail
  | .inr f => some f
  | .inl _ => none

/-- The image in a slot; none that counts while its VALID bit is clear (R466). -/
def slotImage (s : State) (n : Nat) : List Byte := if s.flash.valid.testBit n then SMap.get (fun _ => []) s.flash.slots n else []

/-- OP 1 VERIFY. -/
def verifyOp (s : State) : State :=
  if !rigIdle s then cmdDone s 0x0C
  else
    let l := staged s
    rigEnd s (if leAt l 0x13 1 = 1 then failOf (verifyPartial s l slotRoom .either) else failOf (verifyFull s l slotRoom .either))

/-- VERIFY. -/
def execVerify (who : Requester) (s : State) : Host.Outcome State Fault Refusal := .next (rigCommand s who verifyOp)

/-- OP 3 STORE into a slot. A partition thread is refused NOT_PERMITTED also while the loader is busy: the spec gives both statuses and no
order (DESIGN CHOICE, log 109). A failed read-back leaves VALID clear and a status that the spec does not give (a free value, log 2). -/
def rigStoreOp (who : Requester) (n : Nat) (readBackOk : Bool) (s : State) : State :=
  if isThread who then cmdDone s 0x0F
  else if !rigIdle s then cmdDone s 0x0C
  else
    let l := staged s
    match verifyFull s l (if n < 8 then slotRoom else 0) with
    | .inr f => rigEnd s (some f)
    | .inl _ =>
      let old := s.flash.valid
      let v := if readBackOk then Nat.lor old (2 ^ n) else old - (if old.testBit n then 2 ^ n else 0)
      let s : State := { s with flash := { s.flash with slots := SMap.set (fun _ => []) s.flash.slots n l, valid := v } }
      if readBackOk then rigEnd s none
      else
        let (w, s) := freeW s
        cmdDone s (1 + w.toNat % 255)

/-- STORE. -/
def execStore (who : Requester) (slot : BitVec 4) (readBackOk : Bool) (s : State) : Host.Outcome State Fault Refusal :=
  .next (rigCommand s who (rigStoreOp who slot.toNat readBackOk))

/-- OP 4 SELECT a slot; the order of its refusals is that of STORE (log 109). -/
def selectOp (who : Requester) (n : Nat) (s : State) : State :=
  if isThread who then cmdDone s 0x0F
  else if !rigIdle s then cmdDone s 0x0C
  else match verifyFull s (slotImage s n) slotRoom with
    | .inr f => rigEnd s (some f)
    | .inl _ => rigEnd { s with flash := { s.flash with active := n, fallback := s.flash.active } } none

/-- SELECT. -/
def execSelect (who : Requester) (slot : BitVec 4) (s : State) : Host.Outcome State Fault Refusal := .next (rigCommand s who (selectOp who slot.toNat))

/-! ### START, PARK, RESUME and RESET (R83–R85, R90) -/

/-- OP 5 START. -/
def startOp (who : Requester) (p : Nat) (s : State) : State :=
  if otherPart s who p then cmdDone s 0x0F
  else if (prun s p).rewiring || underTest s p then cmdDone s 0x0C
  else if (prun s p).st != .rigged then cmdDone s 0x0D
  else if partFenced s p then cmdDone s 0x0F
  else cmdDone (enterRunning s p false) 0

/-- START. -/
def execStartPart (who : Requester) (p : BitVec 4) (s : State) : Host.Outcome State Fault Refusal := .next (rigCommand s who (startOp who p.toNat))

/-- A thread that drains: one whose device, Point Store or uncached access is on its way stands until the answer (R84). -/
def drainThread (now : Nat) (x : Thread) : Thread :=
  match x.run, x.wait with
  | .run, some (.point _ _) => x
  | .run, some (.regRead _ _) => x
  | .run, some .regWrite => x
  | .run, some (.once _ _ _ _ _ _) => x
  | .run, some (.wrAck _) => x
  | .run, some (.hawser _ _ _ _ _ _) => x
  | .run, some (.guard _) => x
  | _, _ => haltThread now x

/-- The drain of a PARK begins: the calendar stands, threads halt, and the partition's DMA channels end at their boundaries. -/
def drainBegin (s : State) (p : Nat) (at_ : Nat) : State :=
  let s := updPrun s p (fun r => { r with park := .draining, calRunning := false, drainAt := at_ })
  let s := foldS (fun s t => updThr s t (drainThread s.epoch)) s (partThreads s p)
  foldS (fun s c => if (dmaOf s c).st = 1 then updDma s c (fun x => { x with park := true }) else s) s (partChans s p)

/-- OP 6 PARK. A SELF_PARK_ONLY partition is parked by its own threads alone, whatever its state (R90). -/
def parkOp (who : Requester) (p : Nat) (s : State) : State :=
  let r := prun s p
  if otherPart s who p || ((knots s p).part.selfParkOnly && !isThread who) then cmdDone s 0x0F
  else if r.rewiring then cmdDone s 0x0C
  else if r.st != .running then cmdDone s 0x0D
  else if r.park != .none then s
  else match r.calRunning, (knots s p).cal with
    | true, some c => updPrun s p (fun r => { r with park := .waiting, parkAt := cycleStart c ((s.epoch - c.phase) / c.cycle + 1) })
    | _, _ => drainBegin s p s.epoch

/-- PARK. -/
def execPark (who : Requester) (p : BitVec 4) (s : State) : Host.Outcome State Fault Refusal := .next (rigCommand s who (parkOp who p.toNat))

/-- PARK_DRAIN_START: the cycle has ended and every slot of it has acted (R291). -/
def execParkDrainStart (p : BitVec 4) (s : State) : Host.Outcome State Fault Refusal :=
  let r := prun s p.toNat
  let left := match (knots s p.toNat).cal with
    | some c => c.slots.zipIdx.any (fun e => e.1.act != .exchange && decide (slotNext s p.toNat c e.2 e.1.offset r.calFrom < r.parkAt))
    | none => false
  .next (if r.park == .waiting && decide (r.parkAt ≤ s.epoch) && !left then drainBegin s p.toNat r.parkAt else s)

/-- A quad has a miss outstanding: a request of its L2 that no grant has answered. -/
def quadMissing (s : State) (q : Nat) : Bool :=
  (quadOf s q).track.any (fun e => match e.2 with | some t => t.st == LSt.IS || t.st == LSt.IM || t.st == LSt.SM | none => false)

/-- Every thread of the partition stands at a boundary with no access under way, its quads' outstanding misses have completed, and no
channel of it is active (R84). -/
def drained (s : State) (p : Nat) : Bool :=
  (partThreads s p).all (fun t =>
    let x := thr s t
    x.stores.isEmpty && (x.run != .run || x.wait.isNone) && !s.regNet.any (fun m => m.thread = t) && !s.psNet.any (fun m => m.thread = t))
    && (partQuads s p).all (fun q => !quadMissing s q) && (partChans s p).all (fun c => (dmaOf s c).st ≠ 1)

/-- PARK_COMPLETE: the drain has completed within its 10 ms. -/
def execParkComplete (p : BitVec 4) (s : State) : Host.Outcome State Fault Refusal :=
  let r := prun s p.toNat
  .next (if r.park == .draining && drained s p.toNat && decide (s.epoch ≤ r.drainAt + 1000000) then
      cmdDone (haltThreads (updPrun s p.toNat (fun r => { r with st := .parked, park := .none })) p.toNat) 0
    else s)

/-- PARK_DRAIN_TIMEOUT: the partition enters FAULTED (R84). -/
def execParkDrainTimeout (p : BitVec 4) (s : State) : Host.Outcome State Fault Refusal :=
  let r := prun s p.toNat
  .next (if r.park == .draining && decide (r.drainAt + 1000000 ≤ s.epoch) then faultPartition (alm s 0xE012 4 15 p.toNat) p.toNat else s)

/-- A PARKED partition of which a quad was tested (R470). -/
def partTested (s : State) (p : Nat) : Bool := (partQuads s p).any (fun q => s.vigilTested.contains q)

/-- The quads of a partition no longer count as tested while PARKED. -/
def untest (s : State) (p : Nat) : State := { s with vigilTested := s.vigilTested.filter (fun q => !(partQuads s p).contains q) }

/-- OP 7 RESUME. -/
def resumeOp (who : Requester) (p : Nat) (s : State) : State :=
  if otherPart s who p then cmdDone s 0x0F
  else if (prun s p).rewiring || underTest s p then cmdDone s 0x0C
  else if (prun s p).st != .parked then cmdDone s 0x0D
  else if partFenced s p || partTested s p then cmdDone s 0x0F
  else cmdDone (enterRunning s p true) 0

/-- RESUME. -/
def execResume (who : Requester) (p : BitVec 4) (s : State) : Host.Outcome State Fault Refusal := .next (rigCommand s who (resumeOp who p.toNat))

/-- OP 8 RESET. -/
def resetOp (who : Requester) (p : Nat) (s : State) : State :=
  if otherPart s who p then cmdDone s 0x0F
  else if (prun s p).rewiring || underTest s p then cmdDone s 0x0C
  else if (prun s p).st != .parked && (prun s p).st != .faulted then cmdDone s 0x0D
  else cmdDone (untest (partReset s p) p) 0

/-- RESET. -/
def execReset (who : Requester) (p : BitVec 4) (s : State) : Host.Outcome State Fault Refusal := .next (rigCommand s who (resetOp who p.toNat))

/-! ### Partial re-rig (R86–R89, R238, R346) -/

/-- OP 2 REWIRE: verification, then the beginning of application. -/
def rewireOp (who : Requester) (s : State) : State :=
  let l := staged s
  if !rigIdle s then cmdDone s 0x0C
  else match rigHead s l .partialOnly slotRoom with
    | some f => rigEnd s (some f)
    | none =>
      if otherPart s who (leAt l 0x1C 1) then rigEnd s (some { status := 0x0F, off := 0x1C })
      else match verifyPartial s l slotRoom with
        | .inr f => rigEnd s (some f)
        | .inl (p, _) =>
          let st := (prun s p).st
          if underTest s p then cmdDone s 0x0C
          else if st != .absent && st != .parked && st != .faulted then cmdDone s 0x0D
          else
            let s := updPrun s p (fun r => { r with rewiring := true })
            let s := updR s .RIG_STS (fun w => setField w 3 2 2) 0
            { s with rewire := some { part := p, image := l, since := s.epoch } }

/-- REWIRE. -/
def execRewire (who : Requester) (s : State) : Host.Outcome State Fault Refusal := .next (rigCommand s who (rewireOp who))

/-- A byte address lies in some ranges. -/
def inAny (rs : List (Nat × Nat)) (a : Nat) : Bool := rs.any (fun r => decide (r.1 ≤ a) && decide (a < r.1 + r.2))

/-- What is left of a range outside another. -/
def rangeMinus (r m : Nat × Nat) : List (Nat × Nat) :=
  let lo := max r.1 m.1
  let hi := min (r.1 + r.2) (m.1 + m.2)
  if hi ≤ lo then [r] else ((if r.1 < lo then [(r.1, lo - r.1)] else []) ++ (if hi < r.1 + r.2 then [(hi, r.1 + r.2 - hi)] else []))

/-- Ranges outside others. -/
def rangesMinus (rs ms : List (Nat × Nat)) : List (Nat × Nat) := ms.foldl (fun rs m => rs.flatMap (fun r => rangeMinus r m)) rs

/-- A line holds data newer than DRAM: in an L2, a writeback buffer, the slice, a transaction, or a write or data message in flight. -/
def lineDirty (s : State) (line : Nat) : Bool :=
  let n := homeOf s line
  let carries (m : Msg) : Bool := m.line == line && [0x05, 0x06, 0x07, 0x22, 0x39, 0x2C, 0x2D, 0x2F].contains m.op.toNat
  (List.range 64 ++ [71]).any (fun q =>
      (match l2 s q line with | some (st, c) => st == LSt.M || st == LSt.E || c.dirty | none => false)
        || (match track s q line with | some t => t.st == LSt.MI | none => false))
    || (match llc s n line with | some c => c.dirty | none => false)
    || (match txnOf s n line with | some t => t.dataDirty | none => false) || !(homeWrites s n line).isEmpty || s.net.any carries

/-- A line leaves every cache, buffer and message: its newest value goes to memory first, behind writes that wait there (R88, R238). -/
def lineFlush (s : State) (line : Nat) : State :=
  let n := homeOf s line
  let (d, _, s) := cohPeek s line
  let s := if lineDirty s line then sendMsg s { op := 0x15, holder := 72, line := line, data := d } else s
  let s := foldS (fun s q => setTrack (setL2 (quadPurge s q line) q line none) q line none) s (List.range 64 ++ [71])
  let k := sliceOf s n
  let gone : List Msg := (k.txns.map Txn.req ++ k.waitq).filter (fun m => m.line == line) ++ s.net.filter (fun m => m.line == line && m.op ≠ 0x15)
  let s := updSlice (setLlc s n line none) n (fun k => { k with dir := k.dir.filter (fun e => e.1 != line), txns := k.txns.filter (fun t => t.req.line != line), waitq := k.waitq.filter (fun m => m.line != line) })
  dropPkts { s with agentBuf := s.agentBuf.filter (fun e => e.2.1 != line), net := s.net.filter (fun m => m.line != line || m.op = 0x15) } (gone.map Msg.pkt)

/-- Writes on their way to a line's memory take effect at once. -/
def writesSettle (s : State) (line : Nat) : State :=
  let c := channelOf (64 * line)
  let ws := memWrites s line
  let mine (m : Msg) : Bool := m.line == line && m.op = 0x15
  let s := updChan { s with net := s.net.filter (fun m => !mine m) } c (fun k => { k with heldWrites := k.heldWrites.filter (fun m => !mine m), calHeld := k.calHeld.filter (fun m => !mine m) })
  dropPkts (foldS (fun s m => ctlWrite s line m.data) s ws) (ws.map Msg.pkt)

/-- The lines that `f` picks among those that a cache, a buffer, a home or a message holds. -/
def linesHeld (s : State) (f : Nat → Bool) : List Nat :=
  let quad (q : Nat) : List Nat := SMap.keys (quadOf s q).l2 ++ SMap.keys (quadOf s q).track
  let slice (n : Nat) : List Nat :=
    let k := sliceOf s n
    SMap.keys k.llc ++ SMap.keys k.dir ++ k.txns.map (fun t => t.req.line) ++ k.waitq.map Msg.line
  (((List.range 64 ++ [71]).flatMap quad ++ (List.range 64).flatMap slice ++ s.net.map Msg.line ++ s.agentBuf.map (fun e => e.2.1)).filter f).dedup

/-- Lines of a partition leave every cache, directory and transaction, what is on its way with them, and their memory holds the newest
value (R88, R238). -/
def homesFlush (s : State) (old : List (Nat × Nat)) : State :=
  foldS (fun s line => writesSettle (lineFlush s line) line) s (linesHeld s (fun line => inAny old (64 * line)))

/-- Every cached point entry goes to DRAM, so that re-rigging finds it there. -/
def pointsFlush (s : State) : State :=
  foldS (fun s n =>
    foldS (fun s (e : Nat × Option CLine) => match ptOfLine s e.1, e.2 with
      | some pt, some c => setLlc (setPointLine s pt c.data) n e.1 none
      | _, _ => s) s (sliceOf s n).llc) s (List.range 64)

/-- Point entries after a partial re-rig (R346): `old` gives word 6 as rigging gave it before. -/
def pointsRewire (s : State) (old : Nat → Word) : State :=
  foldS (fun s (e : Nat × Option Line) =>
    let d := e.2.getD (riggedEntry s e.1)
    let o := old e.1
    let n := rigWord6 s e.1
    let sameOwner := bit o 39 == bit n 39 && (fieldN o 43 40 == fieldN n 43 40)
    if sameOwner then
      let cur := (lineWord d 6).val
      let keep := maskBits 63 48 ||| maskBits 38 0
      setPointLine s e.1 ((d.set 6 (gen ((cur &&& keep) ||| (n &&& ~~~keep)))).set 7 (gen (rigWord7 s e.1)))
    else setPointLine s e.1 (riggedEntry s e.1)) s s.ps.mem

/-- A port that a re-rig removes or adds has no Lanyard cycle, no BEACON and no misses (R305, R314). -/
def portFresh (s : State) (l : Nat) : State := setR (setR s .FBAY_PORT_STS 0 (l / 64) (l % 64)) .FBAY_NODE_STS 0 (l / 64) (l % 64)

/-- Stoppers after a partial re-rig (R88, R89, R327, R338). -/
def stoppersRewire (s : State) (p : Nat) (old : PartKnots) (guardKnot : Bool) : State :=
  let new := knots s p
  let s := foldS (fun s (g : GuardRec) =>
    if new.guards.any (fun n => n.output = g.output) then s
    else updStop s g.output (fun x => { x with st := 4, newRec := none, rstep := gRamp x.float x.out x.safe (limitsSeen x).slew x.ramp })) s old.guards
  let bound (x : Stopper) : Bool := match x.place with
    | some (l, n, w) => new.exch.any (fun e => e.output && e.port = l && e.node = n && decide (e.word ≤ w) && decide (w < e.word + e.count))
    | none => false
  let s : State := { s with stoppers := s.stoppers.filter (fun e => !(e.2.st = 4 && bound e.2)) }
  foldS (fun s (g : GuardRec) =>
    let place := guardPlace s p g.output
    if !old.guards.any (fun n => n.output = g.output) then updStop s g.output (fun _ => stopStart p g place)
    else updStop s g.output (fun x => { x with place := place, newRec := if guardKnot then some g else x.newRec })) s new.guards

/-- The ports of a partition after a partial re-rig (R88, R315): a port that leaves stops at once, with the orphaned stoppers that it
steps (R338); one that comes begins afresh; one that changes between Lanyard and raw mode does both (log 136). -/
def portsRewire (s : State) (old new : List PortRec) : State :=
  let kept (rs : List PortRec) (r : PortRec) : Bool := rs.any (fun n => n.port = r.port && n.raw == r.raw)
  let gone := old.filter (fun r => !kept new r)
  let s := foldS (fun s (r : PortRec) => updPort (portFresh s r.port) r.port (fun _ => {})) s gone
  let stops (x : Stopper) : Bool := x.st = 4 && x.place.any (fun w => gone.any (fun r => r.port = w.1))
  let s : State := { s with stoppers := s.stoppers.map (fun e => if stops e.2 then (e.1, { e.2 with place := none }) else e) }
  foldS (fun s (r : PortRec) => if kept old r then s else updPort (portFresh s r.port) r.port (fun _ => { lastT := s.epoch, beacon := s.epoch })) s new

/-- The change of R87: partition `p` takes the knots `k` of a partial image. -/
def rewireApply (s : State) (p : Nat) (k : PartKnots) (has : Nat → Bool) (id : Word) (digest : List Byte) : State :=
  let old := knots s p
  let fresh := (knots? s p).isNone
  let grid := gridCal s p
  let removed := rangesMinus old.ranges k.ranges
  let s := if old.part.slices != k.part.slices || !removed.isEmpty then homesFlush s old.ranges else s
  let s := if fresh then s else partReset s p
  let s := foldS quadReset s ((List.range 64).filter (fun q => k.part.quads.getLsbD q && !old.part.quads.getLsbD q))
  let s := untest (pointsFlush s) p
  let word6 (n : Nat) : Word := rigWord6 s n
  let s := foldS (fun s (r : RouteRec) => match stopAt r.x r.y with
    | some n => setR s .MESH_ROUTE (regDefault .MESH_ROUTE n r.index) 0 n r.index
    | none => s) s old.routes
  let s : State := { s with rig := { s.rig with parts := SMap.set (fun _ => none) s.rig.parts p (some k) } }
  let s := routesWrite s k.routes
  let s := pointsRewire s word6
  let out (page : Nat) : Bool := removed.any (fun r => decide (r.1 ≤ 4096 * page) && decide (4096 * page < r.1 + r.2))
  let s : State := { s with unscrubbed := s.unscrubbed ++ removed.map (fun r => (r.1 / 256, r.2 / 256)), pageCode := s.pageCode.filter (fun e => !out (e.1 / 32)), stale := s.stale.filter (fun e => !out e.1) }
  let s := stoppersRewire s p old (has 7)
  let s := portsRewire s old.ports k.ports
  let s := foldS (fun s n => if sliceBound s n && (sliceRec s n).isNone then sliceCut s n else s) s (List.range 4096)
  let s := foldS (fun s n => if sliceBound s n && (sliceRec s n).any (fun e => e.1 = p) && !winFits s p (getR s .SLCE_WIN 0 n) then setR s .SLCE_WIN 0 0 n else s) s (List.range 4096)
  let s := updPrun s p (fun r => { r with st := .rigged, rewiring := false, partialId := id.toNat % 2 ^ 32, partialDigest := digest, rewires := min (r.rewires + 1) 65535 })
  let s := match k.cal with
    | some c => if has 4 || fresh then updPrun s p (fun r => { r with oldCal := if fresh then none else grid, gridFrom := firstStart c s.epoch }) else s
    | none => s
  foldS manifestRebuild s [0, 1]

/-- REWIRE_COMPLETE: application completes within 200 ms of its command. -/
def execRewireComplete (s : State) : Host.Outcome State Fault Refusal :=
  .next (match s.rewire with
    | none => s
    | some w =>
      if w.since + 20000000 < s.epoch then s
      else match rigKnots w.image with
        | .inl ks =>
          let s' := rewireApply { s with rewire := none } w.part (partOf ks w.part (knots s w.part)) (fun ty => (bodyOf ks ty w.part).isSome) (w64 (leAt w.image 0x20 8)) (slice w.image 0x30 48)
          rigDone s' 0 0 0 0
        | .inr _ => s)

/-- REWIRE_TIMEOUT: the old knots stand, and the command ends TIMEOUT. -/
def execRewireTimeout (s : State) : Host.Outcome State Fault Refusal :=
  .next (match s.rewire with
    | none => s
    | some w =>
      if w.since + 20000000 ≤ s.epoch then
        rigDone (updPrun { s with rewire := none } w.part (fun r => { r with rewiring := false })) 0x10 0xFFFF 2 0
      else s)

/-- A write of RIG_CMD: OP, PART and SLOT. -/
def rigCmdWrite (s : State) (who : Requester) (v : Word) : State :=
  let p := fieldN v 11 8
  rigCommand s who (match fieldN v 3 0 with
    | 1 => verifyOp
    | 2 => rewireOp who
    | 3 => rigStoreOp who (fieldN v 15 12) true
    | 4 => selectOp who (fieldN v 15 12)
    | 5 => startOp who p
    | 6 => parkOp who p
    | 7 => resumeOp who p
    | 8 => resetOp who p
    | _ => id)

end Sys2Proof.Machine
end

