-- ==== Sys2Proof/Machine/Splice.lean ====
section
/-! DEFINITION. Service calls of Bowline (R370, R371): splice calls (R374–R378), ownership, firmware and debug (R383–R388), and the
limit of a secure call (R366). -/

namespace Sys2Proof.Machine

/-! ### Calls (R370) -/

/-- Argument `i` of a requester's bank. -/
def svcArg (s : State) (who : Requester) (i : Nat) : Nat := (getB s .RIG_SVC_ARG who i).toNat

/-- A call ends with a status: DONE is set, and the manager's MSI-X entry 2 asserted. -/
def svcEnd (s : State) (who : Requester) (status : Nat) : State :=
  let s := setB s .RIG_SVC_STS who (setBit (setBit (setField (getB s .RIG_SVC_STS who) 15 8 status) 1 false) 0 true)
  match who with
  | .manager h => msixAssert s h.toNat 2 0
  | _ => s

/-- A call is accepted with PENDING. -/
def svcPending (s : State) (who : Requester) : State := setB s .RIG_SVC_STS who (setBit (setField (getB s .RIG_SVC_STS who) 15 8 1) 1 true)

/-- A write of RIG_SVC_CMD: it completes at once with BUSY where its bank's call still runs, or where Bowline's queue of 64 is full. -/
def svcCall (s : State) (who : Requester) (f : State → State) : State :=
  regCmd s ⟨.RIG_SVC_CMD, 0, 0, 0⟩ (fun s =>
    if !hasBank who then refuseReg s ⟨.RIG_SVC_CMD, 0, 0, 0⟩ who
    else
      let sts := getB s .RIG_SVC_STS who
      if bit sts 1 || decide (64 ≤ s.svc.pend.length + s.svc.fw.length) then setB s .RIG_SVC_STS who (setBit (setField sts 15 8 2) 0 true) else f s)

/-- The bytes of a buffer argument: RIG_STAGE, or DRAM within the caller's reach (R370). -/
def bufRead (s : State) (who : Requester) (a n : Nat) : Option (List Byte) :=
  if 2 ^ 63 ≤ a then
    let o := a - 2 ^ 63
    if o + n ≤ slotRoom then some ((List.range n).map (fun i => SMap.get (fun _ => 0) s.stage (o + i))) else none
  else
    let mine (x : Nat) : Bool := addrCls s x == .dram && decide (secWm s ≤ x) && (match who with | .thread t => (threadPart s t.toNat).any (fun p => inRanges s p x) | _ => true)
    if (List.range n).all (fun i => mine (a + i)) then
      let r := cohBytes s a n
      if r.2 then some r.1 else none
    else none

/-- Writes a buffer argument. -/
def bufWrite (s : State) (a : Nat) (l : List Byte) : State :=
  if 2 ^ 63 ≤ a then { s with stage := foldS (fun m (e : Byte × Nat) => SMap.set (fun _ => 0) m (a - 2 ^ 63 + e.2) e.1) s.stage l.zipIdx }
  else agentWriteBytes s a l false 71

/-- Cordage or the manager. -/
def cordOrMgr (who : Requester) : Bool := isMgmt who || isManager who

/-! ### Splice calls (R374–R378) -/

/-- The caller may name this owner (R375). -/
def mayName (s : State) (who : Requester) (kind no : Nat) : Bool :=
  reqSec s who || (match who with
    | .thread t => kind = 1 && (thr s t.toNat).level == .M && threadPart s t.toNat == some no
    | .mgmt _ => kind = 2 || kind = 4
    | .manager h => kind = 4 && sliceBound s no && slicePort s no = h.toNat
    | _ => false)

/-- Owner kind and owner are values of Table 3-14. -/
def ownerOk (kind no : Nat) : Bool := (kind = 1 && decide (no < 16)) || ((kind = 2 || kind = 3) && no = 0) || (kind = 4 && decide (no < 4096))

/-- SPLICE_ACQUIRE: ARG0 block, ARG1 owner kind, ARG2 owner. -/
def acquireOp (who : Requester) (s : State) : State :=
  let b := svcArg s who 0
  let kind := svcArg s who 1
  let no := svcArg s who 2
  if 30 < b || !ownerOk kind no then svcEnd s who 4
  else if !mayName s who kind no then svcEnd s who 3
  else if blkState s b ≠ 0 then svcEnd s who 6
  else
    let s := updR s .RIG_SPLICE (fun w => setField (setField (setField w 27 16 no) 10 8 kind) 2 0 1) 0 b
    svcEnd (ownerChanged s b) who 0

/-- SPLICE_ACQUIRE. -/
def execSpliceAcquire (who : Requester) (s : State) : Host.Outcome State Fault Refusal := .next (svcCall s who (acquireOp who))

/-- The caller may release the block (Table 15-6). -/
def mayRelease (s : State) (who : Requester) (b : Nat) : Bool :=
  let o := blkOwner s b
  reqSec s who || (match who with
    | .thread t => o.1 = 1 && (thr s t.toNat).level == .M && threadPart s t.toNat == some o.2
    | .mgmt _ => o.1 = 2 || o.1 = 4
    | .manager h => o.1 = 4 && sliceBound s o.2 && slicePort s o.2 = h.toNat
    | _ => false)

/-- SPLICE_RELEASE: ARG0 block, ARG1 and ARG2 the next owner or kind 0. -/
def releaseOp (who : Requester) (s : State) : State :=
  let b := svcArg s who 0
  let kind := svcArg s who 1
  let no := svcArg s who 2
  if 30 < b || (kind ≠ 0 && !ownerOk kind no) then svcEnd s who 4
  else if blkState s b ≠ 1 then svcEnd s who 6
  else if !mayRelease s who b || (kind ≠ 0 && !mayName s who kind no) then svcEnd s who 3
  else svcEnd (releaseBegin s b kind (if kind = 0 then 0 else no)) who 0

/-- SPLICE_RELEASE. -/
def execSpliceRelease (who : Requester) (s : State) : Host.Outcome State Fault Refusal := .next (svcCall s who (releaseOp who))

/-- The demand notice to a block's owner (R374). -/
def demandNotice (s : State) (b : Nat) : State :=
  let o := blkOwner s b
  let src := irqSrc .RIG_SPLICE 0 b
  match o.1 with
  | 1 =>
    let s := updR s .RIG_SPLICE_IRQ (fun w => setBit w 17 true) 0 o.2
    irqByDest s (irqSrc .RIG_SPLICE_IRQ 0 o.2) (getR s .RIG_SPLICE_IRQ 0 o.2) (some o.2) true
  | 2 => mgmtSet s src true
  | 3 => bowlSet s src true
  | _ => qpPost s o.2 0 2 (w64 b)

/-- SPLICE_DEMAND: ARG0 block. -/
def demandOp (who : Requester) (s : State) : State :=
  let b := svcArg s who 0
  if 30 < b then svcEnd s who 4
  else if blkState s b ≠ 1 || bit (getR s .RIG_SPLICE 0 b) 3 then svcEnd s who 6
  else if !(reqSec s who || (isMgmt who && (blkOwner s b).1 = 4)) then svcEnd s who 3
  else
    let s := updSplice (updR s .RIG_SPLICE (fun w => setBit w 3 true) 0 b) b (fun x => { x with demandAt := s.epoch })
    let s := demandNotice s b
    svcEnd (if b ≥ 29 then manifestRebuild (msixAssert s (b - 29) 3 srcDemand) (b - 29) else s) who 0

/-- SPLICE_DEMAND. -/
def execSpliceDemand (who : Requester) (s : State) : Host.Outcome State Fault Refusal := .next (svcCall s who (demandOp who))

/-- The command names a block. -/
def blkCommand (b : BitVec 5) (f : Nat → State) : Host.Outcome State Fault Refusal := if 30 < b.toNat then .fault .noSuchUnit else .next (f b.toNat)

/-- SPLICE_REVOKE: a demanded block's TIMEOUT has passed. -/
def execSpliceRevoke (b : BitVec 5) (s : State) : Host.Outcome State Fault Refusal :=
  blkCommand b (fun b =>
    let w := getR s .RIG_SPLICE 0 b
    if blkState s b = 1 && bit w 3 && decide ((spliceOf s b).demandAt + fieldN w 63 48 * 100000 ≤ s.epoch) then revokeBlock s b else s)

/-- The block passes to RESETTING, and is reset. -/
def resetBegin (s : State) (b : Nat) : State := blockReset (updR s .RIG_SPLICE (fun w => setField w 2 0 3) 0 b) b

/-- SPLICE_DRAIN_COMPLETE. -/
def execSpliceDrainComplete (b : BitVec 5) (s : State) : Host.Outcome State Fault Refusal :=
  blkCommand b (fun b =>
    if blkState s b ≠ 2 then s
    else
      let s := if b = 28 then vigAbort s else s
      if blkDrained s b then resetBegin s b else s)

/-- SPLICE_DRAIN_TIMEOUT: 10 ms after the release began. -/
def execSpliceDrainTimeout (b : BitVec 5) (s : State) : Host.Outcome State Fault Refusal :=
  blkCommand b (fun b =>
    if blkState s b = 2 && decide ((spliceOf s b).relAt + 1000000 ≤ s.epoch) then
      resetBegin (alm (if b = 28 then vigAbort s else s) 0x8013 4 16 b) b
    else s)

/-- SPLICE_RESET_COMPLETE. -/
def execSpliceResetComplete (b : BitVec 5) (s : State) : Host.Outcome State Fault Refusal :=
  blkCommand b (fun b => if blkState s b = 3 then releaseEnd s b else s)

/-! ### Ownership (R383–R386) -/

/-- Owner key slot `k`. -/
def ownerSlot (s : State) (k : Nat) : OwnerSlot := SMap.get (fun _ => {}) s.flash.keys k
/-- Replaces an owner key slot. -/
def setOwner (s : State) (k : Nat) (x : OwnerSlot) : State := { s with flash := { s.flash with keys := SMap.set (fun _ => {}) s.flash.keys k x } }

/-- The lowest EMPTY slot. -/
def emptySlot (s : State) : Option Nat := (List.range 8).find? (fun k => (ownerSlot s k).st = 0)

/-- ASCII bytes of a tag. -/
def tagBytes (a b c d : Nat) : List Byte := [BitVec.ofNat 8 a, BitVec.ofNat 8 b, BitVec.ofNat 8 c, BitVec.ofNat 8 d]

/-- The 48 bytes of DEVICE_DIGEST. -/
def digestBytes : List Byte := beBytes 48 Config.deviceDigest.toNat

/-- A signed message verifies under the ACTIVE slot named by the call (R384). -/
def signedBy (s : State) (k : Nat) (msg : List Byte) (sig : Option (List Byte)) : Bool :=
  let x := ownerSlot s k
  decide (k < 8) && x.st = 1 && (match sig with | some g => ecdsaVerify x.keyX x.keyY msg g | none => false)

/-- A call waits for a press (R385). -/
def awaitPress (s : State) (who : Requester) (p : SvcPend) (code : Nat) : State :=
  svcPending (alm { s with svc := { s.svc with pend := s.svc.pend ++ [p] } } 0x8016 2 17 0 code) who

/-- COMMISSION: ARG0 key buffer, ARG1 admission signature buffer or 0, ARG2 signing slot. -/
def commissionOp (who : Requester) (s : State) : State :=
  if !cordOrMgr who then svcEnd s who 3
  else if (emptySlot s).isNone then svcEnd s who 7
  else match bufRead s who (svcArg s who 0) 96 with
    | none => svcEnd s who 4
    | some key =>
      let x := beNat (key.take 48)
      let y := beNat (key.drop 48)
      if !onCurve x y then svcEnd s who 4
      else if (List.range 8).any (fun k => (ownerSlot s k).st = 1)
          && !signedBy s (svcArg s who 2) (tagBytes 0x4B 0x47 0x41 0x44 ++ digestBytes ++ key) (bufRead s who (svcArg s who 1) 96) then svcEnd s who 5
      else awaitPress s who { who := who, revoke := false, slot := 0, keyX := x, keyY := y, since := s.epoch } 4

/-- COMMISSION. -/
def execCommission (who : Requester) (s : State) : Host.Outcome State Fault Refusal := .next (svcCall s who (commissionOp who))

/-- REVOKE_OWNER: ARG0 slot, ARG1 signature buffer, ARG2 signing slot. -/
def revokeOwnerOp (who : Requester) (s : State) : State :=
  let k := svcArg s who 0
  if !cordOrMgr who then svcEnd s who 3
  else if 7 < k then svcEnd s who 4
  else if (ownerSlot s k).st ≠ 1 then svcEnd s who 6
  else if !signedBy s (svcArg s who 2) (tagBytes 0x4B 0x47 0x52 0x56 ++ digestBytes ++ leBytes 1 k ++ [0, 0, 0]) (bufRead s who (svcArg s who 1) 96) then svcEnd s who 5
  else awaitPress s who { who := who, revoke := true, slot := k, since := s.epoch } 5

/-- REVOKE_OWNER. -/
def execRevokeOwner (who : Requester) (s : State) : Host.Outcome State Fault Refusal := .next (svcCall s who (revokeOwnerOp who))

/-- A waiting call ends; the results of a bank that was reset are discarded. -/
def pendEnd (s : State) (p : SvcPend) (status : Nat) (arg0 : Option Nat) : State :=
  let s : State := { s with svc := { s.svc with pend := s.svc.pend.erase p } }
  if p.drop then s
  else svcEnd (match arg0 with | some v => setB s .RIG_SVC_ARG p.who (w64 v) 0 | none => s) p.who status

/-- PRESENCE_TIMEOUT: 60 s without a press. -/
def execPresenceTimeout (s : State) : Host.Outcome State Fault Refusal :=
  .next (match s.svc.pend.find? (fun p => !p.pressed && decide (p.since + 6000000000 ≤ s.epoch)) with
    | some p => pendEnd s p 8 none
    | none => s)

/-- SLOT_PROGRAMMING_COMPLETE: the oldest call with its press. -/
def execSlotProgrammingComplete (ok : Bool) (s : State) : Host.Outcome State Fault Refusal :=
  .next (match s.svc.pend.find? (fun p => p.pressed) with
    | none => s
    | some p =>
      if p.revoke then pendEnd (setOwner s p.slot { ownerSlot s p.slot with st := 2 }) p (if ok then 0 else 0x0B) none
      else match emptySlot s with
        | none => pendEnd s p 7 none
        | some k =>
          let d := sha384 (beBytes 48 p.keyX ++ beBytes 48 p.keyY)
          if ok then pendEnd (setOwner s k { st := 1, digest := d, keyX := p.keyX, keyY := p.keyY }) p 0 (some k)
          else pendEnd (setOwner s k { st := 2 }) p 0x0B none)

/-- ADVANCE_ROLLBACK: ARG0 counter. -/
def advanceOp (who : Requester) (s : State) : State :=
  let c := svcArg s who 0
  let f := s.flash
  let (now, run) : Nat × Nat := if c = 0 then (f.rbBowl, s.boot.bowlRoll) else if c = 1 then (f.rbCord, s.boot.cordRoll) else (f.rbRig, s.boot.imgRoll)
  if !cordOrMgr who then svcEnd s who 3
  else if 2 < c then svcEnd s who 4
  else if run ≤ now then svcEnd s who 9
  else
    let f := if c = 0 then { f with rbBowl := run } else if c = 1 then { f with rbCord := run } else { f with rbRig := run }
    svcEnd (setB { s with flash := f } .RIG_SVC_ARG who (w64 run) 0) who 0

/-- ADVANCE_ROLLBACK. -/
def execAdvanceRollback (who : Requester) (s : State) : Host.Outcome State Fault Refusal := .next (svcCall s who (advanceOp who))

/-! ### Debug (R387) -/

/-- DEBUG_NONCE: a fresh value (free, log 2). -/
def nonceOp (who : Requester) (s : State) : State :=
  if !cordOrMgr who then svcEnd s who 3
  else
    let (a, s) := freeW s
    let (b, s) := freeW s
    svcEnd (setB (setB { s with svc := { s.svc with nonce := some (a, b) } } .RIG_SVC_ARG who a 0) .RIG_SVC_ARG who b 1) who 0

/-- DEBUG_NONCE. -/
def execDebugNonce (who : Requester) (s : State) : Host.Outcome State Fault Refusal := .next (svcCall s who (nonceOp who))

/-- DEBUG_UNLOCK: ARG0 token buffer, the message of Table 15-9 and its signature (PRESUMED, log 62); ARG1 signing slot. -/
def unlockOp (who : Requester) (s : State) : State :=
  if !cordOrMgr who then svcEnd s who 3
  else match bufRead s who (svcArg s who 0) 168, s.svc.nonce with
    | none, _ => svcEnd s who 4
    | some t, nonce =>
      let msg := t.take 72
      let want : List Byte := tagBytes 0x4B 0x47 0x44 0x42 ++ digestBytes ++ (match nonce with | some (a, b) => leBytes 8 a.toNat ++ leBytes 8 b.toNat | none => []) ++ [1, 0, 0, 0]
      if leAt t 68 1 ≠ 1 then svcEnd s who 4
      else if nonce.isNone || msg != want || !signedBy s (svcArg s who 1) msg (some (t.drop 72)) then svcEnd s who 5
      else svcEnd (alm { s with boot := { s.boot with debug := true } } 0x8017 3 17 0) who 0

/-- DEBUG_UNLOCK. -/
def execDebugUnlock (who : Requester) (s : State) : Host.Outcome State Fault Refusal := .next (svcCall s who (unlockOp who))

/-! ### Firmware and attestation (R369, R388, R467) -/

/-- FW_INSTALL: ARG0 buffer, ARG1 length; the images' signatures and rollback values are what their verification finds. -/
def fwOp (who : Requester) (sigOk : Bool) (rb rc : Nat) (s : State) : State :=
  if !isMgmt who then svcEnd s who 3
  else match bufRead s who (svcArg s who 0) (svcArg s who 1) with
    | none | some [] => svcEnd s who 4
    | some l =>
      if !sigOk then svcEnd s who 5
      else if rb < s.flash.rbBowl || rc < s.flash.rbCord then svcEnd s who 0x0A
      else svcPending { s with flash := { s.flash with updating := true }, svc := { s.svc with fw := s.svc.fw ++ [(who, l)] } } who

/-- FW_INSTALL. -/
def execFwInstall (who : Requester) (sigOk : Bool) (rbBowl rbCord : BitVec 7) (s : State) : Host.Outcome State Fault Refusal :=
  .next (svcCall s who (fwOp who sigOk rbBowl.toNat rbCord.toNat))

/-- FW_INSTALL_COMPLETE: the oldest install is done, and the other bank is active from the next module reset. -/
def execFwInstallComplete (s : State) : Host.Outcome State Fault Refusal :=
  .next (match s.svc.fw with
    | [] => s
    | (who, l) :: r =>
      let other := 1 - s.flash.bank
      svcEnd { s with flash := { s.flash with updating := !r.isEmpty, bank := other, fw := SMap.set Config.fwFactory s.flash.fw other l }, svc := { s.svc with fw := r } } who 0)

/-- SPDM_RELAY: Bowline's response goes to the response buffer; its measurements are the machine's own, its other bytes the
operand's (log 87). -/
def relayOp (who : Requester) (resp : List Byte) (s : State) : State :=
  if !isMgmt who then svcEnd s who 3
  else match bufRead s who (svcArg s who 0) (svcArg s who 1), bufRead s who (svcArg s who 2) (svcArg s who 3) with
    | some req, some _ =>
      let resp := spdmAnswer s req resp
      if svcArg s who 3 < resp.length then svcEnd s who 4
      else svcEnd (setB (bufWrite s (svcArg s who 2) resp) .RIG_SVC_ARG who (w64 resp.length) 0) who 0
    | _, _ => svcEnd s who 4

/-- SPDM_RELAY. -/
def execSpdmRelay (who : Requester) (resp : List (BitVec 8)) (s : State) : Host.Outcome State Fault Refusal := .next (svcCall s who (relayOp who resp))

/-! ### The secure-call limit (R366) -/

/-- SECURE_CALL_LIMIT: the call ends as by a double trap in the secure world. -/
def execSecureCallLimit (t : BitVec 10) (s : State) : Host.Outcome State Fault Refusal :=
  let n := t.toNat
  let limit := fieldN (getR s .BOWL_CALL_LIMIT 0) 19 0
  .next (match (thr s n).callStart with
    | some c =>
      if limit ≠ 0 && decide (c + limit * 100 ≤ s.epoch) then
        trapNormal (endSecureCall (alm s 0x8011 4 1 n (thr s n).wEntry.toNat) n) n 0x07 false 0 .M
      else s
    | none => s)

end Sys2Proof.Machine
end

