-- ==== Sys2Proof/Machine/RegRead.lean ====
section
/-! DEFINITION. Reads of registers: the value of every register with the fields that other parts of the state drive, the access
rule of every block, and the two byte-addressed windows (R2–R9, R59–R61). -/

namespace Sys2Proof.Machine

/-! ### Fields that other state drives -/

/-- Registers banked per requester (R355, R370, R458, R485). -/
def isBanked : Reg → Bool
  | .RIG_SVC_CMD => true
  | .RIG_SVC_STS => true
  | .RIG_SVC_ARG => true
  | .PST_ARG => true
  | .PST_CMD => true
  | .PST_PEEK => true
  | .PWR_DOM_REQ => true
  | .PWR_REQ_STS => true
  | .ALM_SEEK => true
  | .ALM_MPAGE => true
  | _ => false

/-- The stored fields of a register, in the requester's bank where it is banked. -/
def storedReg (s : State) (who : Requester) (r : RegRef) : Word :=
  if isBanked r.reg then getB s r.reg who r.i else getR s r.reg r.u r.i r.j

/-- Stores the plain fields of a register, in the requester's bank where it is banked. -/
def storeReg (s : State) (who : Requester) (r : RegRef) (v : Word) : State :=
  if isBanked r.reg then setB s r.reg who v r.i else setR s r.reg v r.u r.i r.j

/-- RIG_PART_STS[p]. -/
def partSts (s : State) (p : Nat) : Word :=
  let r := prun s p
  setField (setBit (setField (setField 0 63 32 r.partialId) 31 16 (min r.rewires 65535)) 3 r.rewiring) 2 0 (pstateNo r.st)

/-- RIG_SEC_STS. -/
def secSts (s : State) : Word :=
  let w := (List.range 8).foldl (fun w k => setField w (9 + 2 * k) (8 + 2 * k) (ownerSlot s k).st) (0 : Word)
  let w := setField (setField (setField w 46 40 s.flash.rbRig) 38 32 s.flash.rbCord) 30 24 s.flash.rbBowl
  setField (setBit (setBit (setField w 50 50 s.boot.bank) 49 (s.svc.pend.any (fun p => !p.pressed))) 48 s.boot.debug) 7 0 (secWm s / 2 ^ 30)

/-- RIG_SPLICE[b]: LEFT counts the milliseconds before revocation (R374). -/
def spliceReg (s : State) (b : Nat) (w : Word) : Word :=
  if bit w 3 then setField w 47 32 (fieldN w 63 48 - (s.epoch - (spliceOf s b).demandAt) / 100000) else setField w 47 32 0

/-- CORE_ID. -/
def coreId (s : State) (c : Nat) (w : Word) : Word :=
  let w := setField w 7 0 c
  match quadPart s (c / 4) with
  | some p => setField (setBit w 20 true) 19 16 p
  | none => w

/-- What a thread waits for is a result that has not returned within the L1D hit latency (R169). -/
def demoted (x : Thread) : Bool :=
  match x.wait with
  | some (.fill _ _) => true
  | some (.own _ _) => true
  | some (.regRead _ _) => true
  | some (.point _ _) => true
  | some (.once _ _ _ _ _ _) => true
  | some (.hawser _ _ _ _ _ _) => true
  | _ => false

/-- CORE_THSTS.STATE. -/
def runNo : RunSt → Nat
  | .held => 0
  | .run => 1
  | .waitslot => 2
  | .wfi => 3
  | .halted => 4

/-- Thread 0 of the lowest core of a RIGGED partition waits for START (R460): it reads as HALTED, the others as HELD (log 66). -/
def waitsStart (s : State) (t : Nat) : Bool :=
  match threadPart s t with
  | some p => (prun s p).st == .rigged && (partThreads s p).head? == some t
  | none => false

/-- CORE_THSTS. -/
def thSts (s : State) (t : Nat) : Word :=
  let x := thr s t
  let w := setField (setField (0 : Word) 2 0 (if waitsStart s t then 4 else runNo x.run)) 10 9 (levelNo x.level)
  let w := setBit (setBit (setBit w 11 x.latch.isSome) 8 (x.world == .secure)) 7 (isKeyed s t)
  setBit (setBit (setBit w 6 x.loop) 5 x.runAhead) 4 (demoted x)

/-- CORE_STMIRROR. -/
def stMirror (s : State) (t : Nat) : Word :=
  let x := thr s t
  let w := setField (setField (0 : Word) 51 48 (fieldN x.wStatus 3 0)) 40 32 (fieldN x.sS.status 8 0)
  setField (setField w 24 16 (fieldN x.sN.status 8 0)) 8 0 (fieldN x.m.status 8 0)

/-- SLC_HOME. -/
def slcHome (s : State) (n : Nat) : Word :=
  let k := sliceOf s n
  let w := setField (setField (0 : Word) 40 24 ((k.dir.filter (fun e => e.2.isSome)).length)) 23 16 k.txns.length
  let w := setBit w 5 (bit s.rig.pool n)
  match slicePart s n with
  | some p => setField (setBit w 4 true) 3 0 p
  | none => w

/-- MCH_STS: the spare rows in use and DEGRADED, with what the channel does now. -/
def mchSts (s : State) (m : Nat) (w : Word) : Word :=
  let k := chanOf s m
  let trained := decide (7 ≤ s.boot.step)
  let w := setBit (setField (setField w 19 16 ((k.jobs.filter (fun j => j.repair)).length)) 63 32 k.spares) 2 k.degraded
  setBit (setBit (setBit w 3 (trained && (firstUnscrubbed s m).isNone)) 1 (inWindow s m)) 0 trained

/-- CLK_CAL_STS[p]. -/
def calSts (s : State) (p : Nat) : Word :=
  match (knots s p).cal with
  | none => 0
  | some c =>
    let r := prun s p
    let w := setField (setBit (0 : Word) 0 true) 28 16 c.slots.length
    let w := setBit (setBit w 1 r.calRunning) 2 (r.park == .waiting)
    match gridCal s p with
    | some g => setField w 63 32 ((cycleNo g s.epoch).getD 0 % 2 ^ 32)
    | none => w

/-- CLK_CAL_START[p]. -/
def calStartReg (s : State) (p : Nat) : Word :=
  match gridCal s p with
  | some g => w64 (match cycleNo g s.epoch with
    | some k => cycleStart g k
    | none => 0)
  | none => 0

/-- ACTION of a slot. -/
def actNo : SlotAct → Nat
  | .release => 0
  | .start => 1
  | .exchange => 2
  | .deadline => 3

/-- CLK_CAL_SLOT[p][i]; slots at and above COUNT read zero. -/
def calSlotReg (s : State) (p i : Nat) : Word :=
  match (knots s p).cal with
  | none => 0
  | some c =>
    match c.slots[i]? with
    | some x => setField (setField (setField (0 : Word) 63 48 x.target) 41 40 (actNo x.act)) 31 0 x.offset
    | none => 0

/-- FBAY_PORT_CFG of port `l`. -/
def portCfg (s : State) (l : Nat) : Word :=
  match portRec s l with
  | none => 0
  | some (p, r) =>
    let w := setField (setField (setField (0 : Word) 23 20 p) 19 16 r.nodes) 1 0 (if r.raw then 2 else 1)
    if r.raw then w else setField (setField w 63 48 r.ethertype) 47 32 r.multiple

/-- FBAY_PORT_STS.STATE. -/
def portState (s : State) (l : Nat) : Nat :=
  let m := portMode s l
  if m = 2 && bit (getR s .FBAY_RAW_CTL (l / 64) (l % 64)) 1 then 3 else m

/-- The context of bay `b`'s local number `c`, with its partition. -/
def ctxRec (s : State) (b c : Nat) : Option (Nat × ExchRec) :=
  (partIds s).findSome? (fun p => ((knots s p).exch.find? (fun e => e.ctx == 8192 * b + c)).map (fun e => (p, e)))

/-- FBAY_CTX[c]. -/
def ctxReg (s : State) (b c : Nat) : Word :=
  match ctxRec s b c with
  | none => 0
  | some (_, e) =>
    let w := setField (setField (setBit (setBit (0 : Word) 63 true) 62 e.output) 61 56 (e.port % 64)) 55 53 e.node
    let w := setField (setField (setField w 52 45 e.word) 44 41 e.count) 35 12 e.point
    if e.output then setField w 11 0 (e.guard % 4096) else w

/-- STOP_STS. -/
def stopSts (x : Stopper) : Word :=
  if x.st = 0 then 0
  else
    let w := setField (setField (0 : Word) 63 32 (min x.age 0xFFFFFFFF)) 2 0 x.st
    let w := setBit (setBit w 11 x.tightened) 10 x.float
    if x.st = 4 then w else setField w 15 12 x.part

/-- TARGET: SAFE in SAFE, RAMP and ORPHAN. -/
def stopTarget (x : Stopper) : Word := if x.st = 0 then 0 else if x.st = 2 then x.target else x.safe

/-- DMA_CH_STS[n]. -/
def chSts (s : State) (n : Nat) : Word :=
  let c := dmaOf s n
  let w := setField (setField (setField (0 : Word) 63 32 c.residue) 31 16 (min c.desc 65535)) 15 8 c.status
  setField (setBit (setBit w 5 c.pend) 4 (c.cmd.isSome && decide (c.st = 1))) 2 0 c.st

/-- SLCE_QP_STS[q] of slice `n`. -/
def qpSts (s : State) (n q : Nat) : Word :=
  let p := qpOf s n q
  let w := setField (setField (0 : Word) 43 40 (qpInflight s n q)) 33 32 (qpState s n q)
  setField (setField w 31 16 p.tail) 15 0 p.head

/-- HAWS_WIN_ACT[w].DIFF. -/
def winDiff (s : State) (k w : Nat) : Bool :=
  SMap.get (fun _ => (0, 0)) (hawsOf s k).active w != (getR s .HAWS_WIN_LOC k w, getR s .HAWS_WIN_PEER k w)

/-- PWR_DOM_STS[d]: a gated core shows STATE 3 (R448). -/
def domSts (s : State) (d : Nat) (w : Word) : Word :=
  let w := setField w 5 4 (domPolicy s d)
  if d < 256 && (coreOf s d).gated && fieldN w 2 0 = 1 then setField w 2 0 3 else w

/-- CLK_QUAD[q]. -/
def clkQuad (s : State) (q : Nat) (w : Word) : Word :=
  setField (setField (setField w 26 24 (quadSteps s q)) 18 16 (solDiv s q)) 10 8 (effDiv s q)

/-- SOL_DOM[d]. -/
def solDom (s : State) (d : Nat) (w : Word) : Word :=
  let m := marginOf s d
  let w := setField (setField (setField w 63 56 (bandOf s d)) 55 48 m.offset) 47 40 m.need
  setBit (setField w 31 16 (min m.age 65535)) 0 m.fail

/-- The SEQ before `n` (R475). -/
def seqPrev (n : Nat) : Nat := if n = 0 then 0xFFFFFFFE else n - 1

/-- ALM_MIRROR. -/
def almMirror (s : State) : Word :=
  let pend := (s.alm.ring.filter (fun e => e.2.any (fun r => r.due))).length
  setField (setField (setField (0 : Word) 63 32 s.alm.mSeq) 22 12 s.alm.mRetired.length) 11 0 (min pend 4095)

/-- Every field of a register as it stands (R5). -/
def liveReg (s : State) (who : Requester) (r : RegRef) : Word :=
  let w := storedReg s who r
  let t := 4 * r.u + r.i
  let l := 64 * r.u + r.i
  let stp := limitsSeen (stopOf s (4096 * r.u + r.i))
  match r.reg with
  | .RIG_IMAGE_ID => if s.rig.unrigged then 0 else s.rig.imageId
  | .RIG_SLOTS => setField (setField (setField (0 : Word) 15 8 s.flash.valid) 6 4 s.flash.fallback) 2 0 s.flash.active
  | .RIG_PART_STS => partSts s r.i
  | .RIG_SEC_STS => secSts s
  | .RIG_SPLICE => spliceReg s r.i w
  | .CORE_ID => coreId s r.u w
  | .CORE_MODE => setBit w 0 (coreBoot s r.u)
  | .CORE_TALLY_STS => setBit w 0 (match quadPart s (r.u / 4) with
    | some p => (prun s p).laxInForce
    | none => false)
  | .CORE_THCFG => setBit w 1 (calNamed s t)
  | .CORE_THSTS => thSts s t
  | .CORE_STMIRROR => stMirror s t
  | .CORE_IRQ_PEND => irqPend s t
  | .SLC_HOME => slcHome s r.u
  | .QUAD_COH => setField w 40 32 ((quadOf s r.u).track.filter (fun e => e.2.isSome)).length
  | .MCH_STS => mchSts s r.u w
  | .MCH_ECC_CTL => setField (setField w 63 48 (bucketCfg s 5).1) 47 16 (bucketCfg s 5).2
  | .MCH_CE_BUCKET => setField w 15 0 (chanOf s r.u).bucket
  | .MCH_SCRUB => setField w 47 34 s.rig.dev.scrub
  | .MCH_PC_STS => setField w 10 0 (chanOf s r.u).rebuildQ.length
  | .CLK_EPOCH => w64 s.epoch
  | .CLK_CAL_CFG => (match (knots s r.i).cal with
    | some c => setField (setField (0 : Word) 55 32 c.phase) 24 0 c.cycle
    | none => 0)
  | .CLK_CAL_STS => calSts s r.i
  | .CLK_CAL_START => calStartReg s r.i
  | .CLK_CAL_SLOT => calSlotReg s r.i r.j
  | .FBAY_ID => setField (setBit (setField (0 : Word) 55 8 Config.macBase.toNat) 3 (decide (4 ≤ r.u))) 2 0 r.u
  | .FBAY_PORT_CFG => portCfg s l
  | .FBAY_PORT_STS => setField w 1 0 (portState s l)
  | .FBAY_CTX => ctxReg s r.u r.i
  | .STOP_TIME => if stp.st = 0 then 0 else setField (setField (0 : Word) 63 32 stp.ramp) 31 0 stp.stale
  | .STOP_MIN => if stp.st = 0 then 0 else stp.min
  | .STOP_MAX => if stp.st = 0 then 0 else stp.max
  | .STOP_SLEW => if stp.st = 0 then 0 else stp.slew
  | .STOP_SAFE => if stp.st = 0 then 0 else stp.safe
  | .STOP_OUT => if stp.st = 0 then 0 else stp.out
  | .STOP_TARGET => stopTarget stp
  | .STOP_STS => stopSts stp
  | .PST_REGION => setField (setField (0 : Word) 51 30 (s.rig.dev.ptBase / 2 ^ 30)) 4 0 (s.rig.dev.ptSize / 2 ^ 26)
  | .HOST_STS => setBit (setBit w 3 (managerHeld s r.u)) 2 (hostReady s r.u)
  | .DMA_CH_STS => chSts s r.i
  | .SLCE_STS => setField w 37 32 (sliceInflight s r.i)
  | .SLCE_QP_STS => qpSts s r.u r.i
  | .HAWS_STS => setField w 11 10 (hawsKnot s r.u).role
  | .HAWS_WIN_ACT => setBit w 54 (winDiff s r.u r.i)
  | .PWR_DOM_STS => domSts s r.i w
  | .PWR_IN => setField w 15 0 s.rig.dev.cap
  | .PWR_COOLANT => setField w 31 16 outletLimit.toNat
  | .CLK_QUAD => clkQuad s r.i w
  | .SOL_STS => solSts s
  | .SOL_DOM => solDom s r.i w
  | .VIG_EXP => Config.vigilExp r.i (if w = 0 then 3 else w.toNat)
  | .ALM_STS => setBit (setField (setField (0 : Word) 63 32 (seqPrev s.alm.nextSeq)) 31 16 s.alm.newestSlot) 0 s.alm.mStop
  | .ALM_MIRROR => almMirror s
  | _ => w

/-! ### Access rules -/

/-- What a requester may do with a register: read it, have its reads clear RC fields, and have its writes act. -/
structure Rights where
  read : Bool
  clears : Bool
  write : Bool
  deriving DecidableEq, Repr, Inhabited

/-- A thread of partition `p`. -/
def ofPart (s : State) (who : Requester) (p : Nat) : Bool := reqPart s who == some p

/-- Bowline or Cordage. -/
def firmware (who : Requester) : Bool := isBowline who || isMgmt who

/-- Readers named in most rules: Bowline, Cordage and the manager. -/
def overseer (who : Requester) : Bool := firmware who || isManager who

/-- Rights of one owner-like group: those for whom fields act, and further readers. -/
def rights (acts reads : Bool) : Rights := { read := acts || reads, clears := acts, write := acts }

/-- The partition of a register of bay `b`: of its port, context or stopper. -/
def bayPart (s : State) (r : RegRef) : Option Nat :=
  match r.reg with
  | .FBAY_CTX => (ctxRec s r.u r.i).map Prod.fst
  | .FBAY_CTX_STS => (ctxRec s r.u r.i).map Prod.fst
  | _ => (portRec s (64 * r.u + r.i)).map Prod.fst

/-- The partition that owns a stopper; none for an ORPHAN or UNRIGGED one. -/
def stopPart (s : State) (o : Nat) : Option Nat :=
  let x := stopOf s o
  if x.st = 0 || x.st = 4 then none else some x.part

/-- Access rule of the bay block (R324, R341). -/
def bayRights (s : State) (who : Requester) (r : RegRef) : Rights :=
  let stopper : Bool := match r.reg with
    | .STOP_TIME => true
    | .STOP_MIN => true
    | .STOP_MAX => true
    | .STOP_SLEW => true
    | .STOP_SAFE => true
    | .STOP_OUT => true
    | .STOP_TARGET => true
    | .STOP_STS => true
    | .STOP_CNT => true
    | _ => false
  match r.reg with
  | .FBAY_ID => { read := true, clears := false, write := false }
  | .FBAY_ERR => rights (isBowline who || ownsBlock s who r.u) (!blkClosed s who r.u)
  | .STOP_EVT => rights (isBowline who || ownsBlock s who r.u) (!blkClosed s who r.u)
  | _ =>
    match if stopper then stopPart s (4096 * r.u + r.i) else bayPart s r with
    | some p => rights (isBowline who || ofPart s who p) (overseer who)
    | none => rights (isBowline who) (overseer who)

/-- Access rule of the Point Store registers (R358). -/
def pstRights (s : State) (who : Requester) (r : RegRef) : Rights :=
  match r.reg with
  | .PST_ENG_CNT => rights (firmware who) true
  | .PST_ERR => rights (firmware who) true
  | .PST_REGION => { read := true, clears := false, write := false }
  | .PST_CLASS =>
    let mThread := match who with | .thread t => (thr s t.toNat).level == .M | _ => false
    { read := overseer who || ofPart s who r.i, clears := false, write := isBowline who || (ofPart s who r.i && mThread) }
  | .PST_ARG => rights (hasPstBank who) false
  | .PST_CMD => rights (hasPstBank who) false
  | .PST_PEEK => rights (hasPstBank who) false
  | _ => rights (firmware who || ofPart s who (r.i / 256)) (isManager who)

/-- Access rule of the power, clock and ageing block (R301, R458). -/
def pwrRights (s : State) (who : Requester) (r : RegRef) : Rights :=
  let cal := rights (firmware who || ofPart s who r.i) (isManager who)
  match r.reg with
  | .CLK_CAL_CFG => cal
  | .CLK_CAL_STS => cal
  | .CLK_CAL_START => cal
  | .CLK_CAL_MISS => cal
  | .CLK_CAL_SLOT => cal
  | .PWR_DOM_REQ => rights (hasBank who) true
  | _ => rights (firmware who) true

/-- The channel runs a command of a slice that partition `p` serves. -/
def servedChan (s : State) (who : Requester) (ch : Nat) : Bool :=
  match (dmaOf s ch).cmd with
  | some (n, _, _) => (match sliceRec s n with
    | some (p, _) => ofPart s who p
    | none => false)
  | none => false

/-- Access rule of the DMA and slices block (R429). -/
def dmaRights (s : State) (who : Requester) (r : RegRef) : Rights :=
  let chan : Bool := match r.reg with
    | .DMA_CH_CFG => true
    | .DMA_CH_DESC => true
    | .DMA_CH_CTL => true
    | .DMA_CH_STS => true
    | .DMA_CH_IRQ => true
    | _ => false
  if chan then
    rights (chanWriter s who r.i) ((overseer who || servedChan s who r.i) && !blkClosed s who (chanBlock r.i))
  else match r.reg with
    | .DMA_GRP_CTL => rights (firmware who) false
    | .DMA_MGR_EVT => rights (firmware who || who == .manager (BitVec.ofNat 1 r.i)) false
    | _ =>
      let serving := match sliceRec s r.i with | some (p, _) => ofPart s who p | none => false
      { read := sliceAdmin s who r.i || serving || (isManager who && !sliceBound s r.i), clears := true, write := true }

/-- Access rule of the rigging loader's registers (R90, R370, R390; log 63). -/
def rigRights (s : State) (who : Requester) (r : RegRef) : Rights :=
  match r.reg with
  | .RIG_SVC_CMD => rights (hasBank who) false
  | .RIG_SVC_STS => rights (hasBank who) false
  | .RIG_SVC_ARG => rights (hasBank who) false
  | .RIG_SPLICE_IRQ => rights (isBowline who || ofPart s who r.i) false
  | .RIG_CMD => rights (rigCommander s who) true
  | .RIG_STS => rights (rigCommander s who) true
  | _ => { read := true, clears := false, write := false }

/-- The access rule of every block. -/
def regRights (s : State) (who : Requester) (b : Blk) (r : RegRef) : Rights :=
  match b with
  | .core => { read := coreReader s who r.u, clears := true, write := coreWriter s who r.u }
  | .quad => { read := coreReader s who (4 * r.u), clears := true, write := coreWriter s who (4 * r.u) }
  | .slc => (match slicePart s r.u with
    | some p => { read := firmware who || ofPart s who p, clears := true, write := isBowline who || ofPart s who p }
    | none => rights (firmware who) false)
  | .mesh => { read := overseer who, clears := true, write := firmware who }
  | .mch => { read := overseer who, clears := true, write := firmware who }
  | .pwr => pwrRights s who r
  | .fbay => bayRights s who r
  | .pst => pstRights s who r
  | .host =>
    let acts := firmware who || who == .manager (BitVec.ofNat 1 r.u)
    let open' := match r.reg with | .HOST_STS => true | .HOST_CNT => true | .HOST_ERR => true | _ => false
    rights acts open'
  | .dma => dmaRights s who r
  | .page => { read := true, clears := true, write := true }
  | .haws => rights (hawsWriter s who r.u) (overseer who && !blkClosed s who (24 + r.u))
  | .alm => (match r.reg with
    | .ALM_MPAGE => rights (almReader who) false
    | _ => { read := almReader who, clears := firmware who, write := firmware who })
  | .vig => rights (isBowline who || ownsBlock s who 28) (overseer who && !blkClosed s who 28)
  | .rig => rigRights s who r
  | .bowl => { read := reqSec s who, clears := false, write := isBowline who }

/-! ### Reads -/

/-- The word of RIG_STAGE at an offset of the window. -/
def stageWord (s : State) (off : Nat) : Word :=
  w64 (leNat ((List.range 8).map (fun i => SMap.get (fun _ => 0) s.stage (off + i))))

/-- The word at an offset of the Almanac block's windows, if it lies in one; the mirror window shows the page of the requester's
ALM_MPAGE. -/
def almWindow (s : State) (who : Requester) (off : Nat) : Option Word :=
  if 0x400000 ≤ off && off < 0x600000 then some (ringWord s ((off - 0x400000) / 32) (off / 8 % 4))
  else if 0x800000 ≤ off && off < 0x900000 then
    some (mirrorWord s (fieldN (getB s .ALM_MPAGE who) 7 0 * 32768 + (off - 0x800000) / 32) (off / 8 % 4))
  else none

/-- RC fields that a read of the bytes in `mask` returns whole clear (R4). -/
def readClears (r : Reg) (old mask : Word) : Word :=
  r.fields.foldl (fun w f =>
    match f.acc with
    | .rc => if maskBits f.hi f.lo &&& ~~~ mask = 0 then setField w f.hi f.lo 0 else w
    | _ => w) old

/-- Bits shown of a register: FBAY_NODE_STS has one field group for each node. -/
def shownReg (r : Reg) (v : Word) (sec : Bool) : Word :=
  match r with
  | .FBAY_NODE_STS => v
  | _ => regShown r v sec

/-- What a read of a word of register space finds: its value, and the state after it. -/
def readReg (s : State) (who : Requester) (addr : Nat) (mask : Word) : Word × State :=
  let a := addr / 8 * 8
  match blkOf a with
  | none => (0, s)
  | some (b, u, off) =>
    if blkDead s b u off then (0, s)
    else if b == .rig && decide (0x1000000 ≤ off) && decide (off < 0x5000000) then
      (if rigCommander s who then (stageWord s (off - 0x1000000), s) else (0, refusalNotice s 0xE001 a who))
    else match (if b == .alm then almWindow s who off else none) with
      | some w => if almReader who then (w, s) else (0, refusalNotice s 0xF001 a who)
      | none =>
        match regInBlk b u off with
        | none => (0, s)
        | some r =>
          let k := regRights s who b r
          if !k.read then (0, refusalNotice s (blkCode b off + 1) a who)
          else
            let v := shownReg r.reg (liveReg s who r) (reqSec s who)
            let old := storedReg s who r
            let new := if k.clears then readClears r.reg old mask else old
            (v, if new = old then s else storeReg s who r new)

end Sys2Proof.Machine
end

