-- ==== Sys2Proof/Machine/RegFile.lean ====
section
/-! DEFINITION. Writes of registers (R4, R7), the effects of the fields that have one, and the commands that access registers:
by address, over the mesh (R59), and through the BARs of a host port (R396, R397, R401). -/

namespace Sys2Proof.Machine

/-! ### Service calls by their code (R370, Table 15-3) -/

/-- Open bytes (R12). -/
def freeBytes (s : State) : Nat → List Byte × State
  | 0 => ([], s)
  | n + 1 =>
    let (l, s) := freeBytes s n
    let (w, s) := freeW s
    (byteOf w 0 :: l, s)

/-- The call that a code names; what the firmware finds in calls 9 and 10 is open here (log 64). -/
def svcByCode (who : Requester) (code : Nat) (s : State) : State :=
  match code with
  | 1 => acquireOp who s
  | 2 => releaseOp who s
  | 3 => demandOp who s
  | 4 => commissionOp who s
  | 5 => revokeOwnerOp who s
  | 6 => advanceOp who s
  | 7 => nonceOp who s
  | 8 => unlockOp who s
  | 9 =>
    let (ok, s) := freeB s
    let (a, s) := freeW s
    let (b, s) := freeW s
    fwOp who ok (a.toNat % 128) (b.toNat % 128) s
  | 10 =>
    let (n, s) := freeW s
    let (l, s) := freeBytes s (n.toNat % 4097)
    relayOp who l s
  | _ => svcEnd s who 4

/-! ### Words and lanes (R4, R7) -/

/-- The value that a write of the bytes in `mask` gives a register: fields that hold a value keep the other bytes, and the
fields that act where they are written see only the bytes that the write carries. -/
def laneWord (r : Reg) (old v mask : Word) : Word :=
  r.fields.foldl (fun w f =>
    match f.acc with
    | .rw => setField w f.hi f.lo (fieldN ((v &&& mask) ||| (old &&& ~~~ mask)) f.hi f.lo)
    | .rwl => setField w f.hi f.lo (fieldN ((v &&& mask) ||| (old &&& ~~~ mask)) f.hi f.lo)
    | .so => setField w f.hi f.lo (fieldN ((v &&& mask) ||| (old &&& ~~~ mask)) f.hi f.lo)
    | _ => setField w f.hi f.lo (fieldN (v &&& mask) f.hi f.lo)) 0

/-- A field of a value that reads as zero is taken as one. -/
def zeroAsOne (w : Word) (hi lo : Nat) : Word := if fieldN w hi lo = 0 then setField w hi lo 1 else w

/-- The plain fields of a register after a write (R7). -/
def plainWrite (s : State) (who : Requester) (r : RegRef) (x : Word) : State :=
  storeReg s who r (regWritten r.reg (storedReg s who r) x)

/-! ### Effects, by block -/

/-- Writes of the rigging loader's registers. -/
def rigWrite (s : State) (who : Requester) (r : RegRef) (x mask : Word) : State :=
  match r.reg with
  | .RIG_CMD => if bit mask 0 then rigCmdWrite s who x else s
  | .RIG_SVC_CMD => if bit mask 0 then svcCall s who (svcByCode who (fieldN x 7 0)) else s
  | .RIG_SVC_STS =>
    let s := plainWrite s who r x
    (match who with
    | .manager h => if bit x 0 then msixDeassert s h.toNat 2 0 else s
    | _ => s)
  | .RIG_SPLICE_IRQ =>
    let s := plainWrite s who r x
    let w := getR s .RIG_SPLICE_IRQ 0 r.i
    irqByDest s (irqSrc .RIG_SPLICE_IRQ 0 r.i) w (some r.i) (bit w 17)
  | _ => plainWrite s who r x

/-- Writes of a core's registers (R194). -/
def coreRegWrite (s : State) (who : Requester) (r : RegRef) (x mask : Word) : State :=
  let t := 4 * r.u + r.i
  match r.reg with
  | .CORE_MODE => if bit mask 0 then bootWrite s r.u x else s
  | .CORE_CTL => coreCtlWrite s r.u x
  | .CORE_TALLY_INJ => tallyInjWrite s r.u x
  | .CORE_CTXID => if bit mask 0 then ctxidWrite s t x else s
  | .CORE_THSTART => thstartWrite s t x
  | .CORE_L0CTL => if bit mask 0 then l0ctlWrite s t x else s
  | .CORE_PMC_SEL =>
    let x := if r.j < 2 then setField x 7 0 (fieldN (storedReg s who r) 7 0) else x
    plainWrite s who r x
  | _ => plainWrite s who r x

/-- The interrupt of a bucket overflow is brought up to date (R213). -/
def cerrIrq (s : State) (r : RegRef) : State :=
  match r.reg with
  | .QUAD_CERR => irqByDest s (irqSrc .QUAD_CERR r.u) (getR s .QUAD_CERR_DEST r.u) (quadPart s r.u) (fieldN (getR s .QUAD_CERR r.u) 1 0 ≠ 0)
  | .QUAD_CERR_DEST => irqByDest s (irqSrc .QUAD_CERR r.u) (getR s .QUAD_CERR_DEST r.u) (quadPart s r.u) (fieldN (getR s .QUAD_CERR r.u) 1 0 ≠ 0)
  | .SLC_CERR => irqByDest s (irqSrc .SLC_CERR r.u) (getR s .SLC_CERR_DEST r.u) (slicePart s r.u) ((slicePart s r.u).isSome && bit (getR s .SLC_CERR r.u) 0)
  | .SLC_CERR_DEST => irqByDest s (irqSrc .SLC_CERR r.u) (getR s .SLC_CERR_DEST r.u) (slicePart s r.u) ((slicePart s r.u).isSome && bit (getR s .SLC_CERR r.u) 0)
  | _ => s

/-- Writes of a memory channel's registers. -/
def mchRegWrite (s : State) (who : Requester) (r : RegRef) (x : Word) : State :=
  match r.reg with
  | .MCH_ECC_CTL => plainWrite s who r (zeroAsOne x 15 0)
  | .MCH_DIAG => mchDiagWrite s r.u x
  | .MCH_SPLIT_ADDR => splitWrite s who r.u x
  | .MCH_CE_BUCKET =>
    let s := plainWrite s who r x
    if bit x 63 then mgmtSet s (irqSrc .MCH_CE_BUCKET r.u) false else s
  | _ => plainWrite s who r x

/-- Writes of the power, clock and ageing registers. -/
def pwrRegWrite (s : State) (who : Requester) (r : RegRef) (x mask : Word) : State :=
  match r.reg with
  | .CLK_EPOCH_CTL => epochCtlWrite s who x
  | .PWR_DOM_REQ =>
    if bit mask 0 then powRequest s who (if bit x 63 then some (fieldN x 47 32) else none) (fieldN x 24 16) (fieldN x 3 0) (fieldN x 7 4) else s
  | .SOL_CMD => solCmd s who x
  | _ => plainWrite s who r x

/-- Writes of a bay's registers (R317, R320, R321, R324). -/
def bayRegWrite (s : State) (who : Requester) (r : RegRef) (x : Word) : State :=
  let l := 64 * r.u + r.i
  match r.reg with
  | .FBAY_PORT_CTL => plainWrite s who r (zeroAsOne x 22 16)
  | .FBAY_PORT_IRQ => portIrq (plainWrite s who r x) l
  | .FBAY_RAW_IDX =>
    let idx := getR s .FBAY_RAW_IDX r.u r.i
    let s := if fieldN x 31 16 = fieldN idx 31 16 then s else rawTail s l false (fieldN x 31 16)
    if fieldN x 63 48 = fieldN idx 63 48 then s else rawTail s l true (fieldN x 63 48)
  | .FBAY_RAW_CTL => rawCtl s l x
  | _ => plainWrite s who r x

/-- Writes of the Point Store registers. -/
def pstRegWrite (s : State) (who : Requester) (r : RegRef) (x : Word) : State :=
  match r.reg with
  | .PST_CMD => pstCmd s who x
  | .PST_NQ_CFG => nqIrq (plainWrite s who r x) r.i
  | .PST_NQ_IRQ => nqIrq (plainWrite s who r x) r.i
  | .PST_NQ_IDX => nqTail s who r.i (fieldN x 31 16)
  | _ => plainWrite s who r x

/-- Writes of a host port's registers. -/
def hostRegWrite (s : State) (who : Requester) (r : RegRef) (x : Word) : State :=
  match r.reg with
  | .HOST_CTL => plainWrite s who r (zeroAsOne (zeroAsOne x 31 16) 15 8)
  | .HOST_ERR =>
    let s := plainWrite s who r x
    if bit x 63 then msixDeassert s r.u 0 0 else s
  | _ => plainWrite s who r x

/-- Writes of the DMA and slice registers that have a rule of their own. -/
def dmaRegWrite (s : State) (who : Requester) (r : RegRef) (x mask : Word) : State :=
  match r.reg with
  | .DMA_CH_CTL => chCtl s who r.i x
  | .DMA_CH_IRQ => dmaIrq (plainWrite s who r x) r.i
  | .DMA_MGR_EVT =>
    let s := plainWrite s who r x
    let s := if bit x 0 then msixDeassert s r.i 4 0 else s
    if bit x 1 then msixDeassert s r.i 5 1 else s
  | .SLCE_BIND => bindWrite s who r.i x
  | .SLCE_PT => grantWrite s who r.i x
  | .SLCE_WIN => winWrite s who r.i x
  | .SLCE_POST => if bit mask 0 then postWrite s who r.i x else s
  | .SLCE_CTL => if bit mask 0 then sliceCtl s who r.i x else s
  | _ => plainWrite s who r x

/-- Writes of a slice page's registers (R416, R421). -/
def pageRegWrite (s : State) (who : Requester) (r : RegRef) (x mask : Word) : State :=
  let enabled := bit (getR s .SLCE_QP_CFG r.u r.i) 0
  match r.reg with
  | .SLCE_SQ_BASE => if enabled then s else plainWrite s who r x
  | .SLCE_CQ_BASE => if enabled then s else plainWrite s who r x
  | .SLCE_QP_CFG => sliceMsix (qpBegin (plainWrite s who r x) r.u r.i) r.u
  | .SLCE_SQ_TAIL => if bit mask 0 then sqTail s r.u r.i (fieldN x 15 0) else s
  | .SLCE_CQ_HEAD => if bit mask 0 then cqHead s r.u r.i (fieldN x 15 0) else s
  | .SLCE_QP_CTL => qpCtl s r.u r.i x
  | _ => plainWrite s who r x

/-- Writes of the Vigil registers (R469, R470, R376). -/
def vigRegWrite (s : State) (who : Requester) (r : RegRef) (x : Word) : State :=
  match r.reg with
  | .VIG_CMD =>
    if fieldN x 1 0 = 1 then vigStart s who (fieldN x 5 4)
    else if fieldN x 1 0 = 2 then (match vigReleasing s with
      | some s => s
      | none => if vigWriter s who then vigAbort s else refuseReg s r who)
    else s
  | _ => plainWrite s who r x

/-- A register whose own write rule decides who may write it. -/
def selfChecked : Reg → Bool
  | .RIG_SVC_CMD => true
  | .CORE_IPI => true
  | .CLK_EPOCH_CTL => true
  | .PWR_DOM_REQ => true
  | .SOL_CMD => true
  | .PST_CMD => true
  | .PST_NQ_IDX => true
  | .DMA_CH_CTL => true
  | .SLCE_BIND => true
  | .SLCE_PT => true
  | .SLCE_WIN => true
  | .SLCE_POST => true
  | .SLCE_CTL => true
  | .VIG_CMD => true
  | .ALM_SEEK => true
  | _ => false

/-- The effect of a write on a register of a block. -/
def writeEffect (s : State) (who : Requester) (b : Blk) (r : RegRef) (x mask : Word) : State :=
  match b with
  | .rig => rigWrite s who r x mask
  | .core => if r.reg == .CORE_IPI then (if bit mask 0 then ipiWrite s who x else s) else coreRegWrite s who r x mask
  | .quad => cerrIrq (plainWrite s who r x) r
  | .slc => cerrIrq (plainWrite s who r x) r
  | .mch => mchRegWrite s who r x
  | .pwr => pwrRegWrite s who r x mask
  | .fbay => bayRegWrite s who r x
  | .pst => pstRegWrite s who r x
  | .host => hostRegWrite s who r x
  | .dma => dmaRegWrite s who r x mask
  | .page => pageRegWrite s who r x mask
  | .haws => if r.reg == .HAWS_WIN_COMMIT then (if bit mask 0 then windowCommit s r.u (fieldN x 15 0) else s) else plainWrite s who r x
  | .alm => if r.reg == .ALM_SEEK then (if bit mask 63 then almSeek s who (fieldN x 63 32) else s) else plainWrite s who r x
  | .vig => vigRegWrite s who r x
  | .mesh => plainWrite s who r x
  | .bowl => plainWrite s who r x

/-- Bytes of RIG_STAGE take a write while the loader is IDLE; otherwise it is discarded. -/
def stageWrite (s : State) (off : Nat) (v mask : Word) : State :=
  if rigIdle s then
    { s with stage := foldS (fun m i => if bit mask (8 * i) then SMap.set (fun _ => 0) m (off + i) (byteOf v i) else m) s.stage (List.range 8) }
  else s

/-- A write by the manager of a notify group's registers has no effect, and none is recorded (R358). -/
def quietWrite (who : Requester) (r : Reg) : Bool := isManager who && (r == .PST_NQ_CFG || r == .PST_NQ_IRQ)

/-- A write of the bytes in `mask` of a word of register space (R3, R4, R7, R60). -/
def writeReg (s : State) (who : Requester) (addr : Nat) (v mask : Word) : State :=
  let a := addr / 8 * 8
  match blkOf a with
  | none => s
  | some (b, u, off) =>
    if blkDead s b u off then s
    else if b == .rig && decide (0x1000000 ≤ off) && decide (off < 0x5000000) then
      (if rigCommander s who then stageWrite s (off - 0x1000000) v mask else refusalNotice s 0xE001 a who)
    else if b == .alm && (almWindow s who off).isSome then
      (if firmware who then s else refusalNotice s 0xF001 a who)
    else
      match regInBlk b u off with
      | none => s
      | some r =>
        if !selfChecked r.reg && !(regRights s who b r).write then (if quietWrite who r.reg then s else refusalNotice s (blkCode b off + 1) a who)
        else writeEffect s who b r (laneWord r.reg (storedReg s who r) v mask) mask

/-- Every byte of a word. -/
def fullMask : Word := ~~~ 0

/-- The address is the Bowline block's (R8). -/
def isBowlAddr (a : Nat) : Bool :=
  match blkOf a with
  | some (.bowl, _, _) => true
  | _ => false

/-- Why a write at an address reaches no register. -/
inductive Stray where
  | misaligned | closed | unmapped
  deriving DecidableEq, Repr

/-- What keeps a 64-bit write from every register: its alignment (R3, R4), the world (R8), or an unmapped address (R54, R57). -/
def strayOf (s : State) (who : Requester) (a : Nat) : Option Stray :=
  let cls := addrCls s a
  if cls == .unmapped || cls == .point then some .unmapped
  else if cls != .register then none
  else if a % 8 ≠ 0 then some .misaligned
  else if isBowlAddr a && !reqSec s who then some .closed
  else none

/-- A thread that stands before an instruction takes a trap there; the address is its TVAL (log 114). -/
def strayTrap (s : State) (t cause a : Nat) : State :=
  let x := thr s t
  if x.run == .run && x.wait.isNone && !draining s t then applyAct t 1 false (.trap s cause (w64 a)) else s

/-- A port answers a stray write: Unsupported Request, or Completer Abort where the world is refused (R4, R54, Table 15-1). The header that
the port's error registers keep is open here (log 114). -/
def strayHost (s : State) (h a : Nat) (x : Stray) : State :=
  if !hostUp s h then s
  else
    let (h0, s) := freeW s
    let (h1, s) := freeW s
    match x with
    | .misaligned => unsupported s h true h0 h1
    | .closed => hostDenied s h a h0 h1
    | .unmapped => unsupported (recordUnmapped s (hostStop h) 0 0 5 a false) h true h0 h1

/-- The outcome of a write that reaches no register, by requester: nothing is written. -/
def strayWrite (s : State) (who : Requester) (a : Nat) (x : Stray) : State :=
  match who with
  | .thread t => (match x with
    | .misaligned => strayTrap s t.toNat 0x09 a
    | .closed => strayTrap (threadWorldRefusal s t.toNat a) t.toNat 0x07 a
    | .unmapped => threadUnmapped s t.toNat 2 a)
  | .mgmt c => (match x with
    | .misaligned => s
    | .closed => unitWorldRefusal s 18 c.toNat 83 1 0 a
    | .unmapped => recordUnmapped s 83 1 0 2 a false)
  | .bowline => (match x with
    | .unmapped => recordUnmapped s 83 1 0 2 a true
    | _ => s)
  | .manager h => strayHost s h.toNat a x
  | .host h => strayHost s h.toNat a x
  | .tenant n => strayHost s (slicePort s n.toNat) a x

/-- REGISTER_WRITE: a 64-bit write by a requester (R7); one that reaches no register is answered by its requester's kind (R3, R4, R8,
R54), and one outside register space writes none. -/
def execRegisterWrite (who : Requester) (addr : BitVec 52) (val : Word) (s : State) : Host.Outcome State Fault Refusal :=
  let s := txClear s
  .next (match strayOf s who addr.toNat with
    | some x => strayWrite s who addr.toNat x
    | none => writeReg s who addr.toNat val fullMask)

/-! ### Accesses of threads over the mesh (R59, R61, R141) -/

/-- The access of thread `t` that waits at its server. -/
def regAccess (s : State) (t : Nat) (write : Bool) : Option RegMsg :=
  s.regNet.find? (fun m => m.thread = t && !m.answer && m.write == write && arrivedPkt s m.pkt)

/-- The server answers an access, and is finished with its packet. -/
def regAnswer (s : State) (m : RegMsg) (w : TWord) : State :=
  let s := creditDone (ejectPkt { s with regNet := s.regNet.erase m } m.pkt) m.pkt
  let (p, s) := mkPkt s (serverUnit (regServer m.addr)) (m.thread / 16) (m.thread / 4 % 4) (if m.write then 0x34 else 0x33) false 1
  { s with regNet := s.regNet ++ [{ m with answer := true, word := w, pkt := p }] }

/-- REG_READ: the value leaves with a generated tally. -/
def execRegRead (t : BitVec 10) (s : State) : Host.Outcome State Fault Refusal :=
  .next (match regAccess s t.toNat false with
    | none => s
    | some m =>
      let (v, s) := readReg s (.thread t) m.addr fullMask
      regAnswer s m (gen v))

/-- A register write whose word is failed or poisoned is discarded (R141, Table 5-3). -/
def regDiscarded (s : State) (cls src addr stop : Nat) : State := alm s 0x0016 4 cls src (lo32 addr) (hi32 addr) stop

/-- REG_WRITE: the word's tally is checked, and the write performed. -/
def execRegWrite (t : BitVec 10) (s : State) : Host.Outcome State Fault Refusal :=
  .next (match regAccess s t.toNat true with
    | none => s
    | some m =>
      let s := txClear s
      let s := if badWord m.word then regDiscarded s 1 t.toNat m.addr (t.toNat / 16) else writeReg s (.thread t) m.addr m.word.val fullMask
      regAnswer s m m.word)

/-! ### The BARs (R4, R396, R397, R401) -/

/-- The bytes of a word that an access of 4 or 8 bytes at an offset reaches. -/
def laneMask (off size : Nat) : Word := if size = 8 then fullMask else if off % 8 = 4 then maskBits 63 32 else maskBits 31 0

/-- The bytes of a word that a read of 4 or 8 bytes returns. -/
def laneBytes (off size : Nat) (v : Word) : List Byte := ((List.range 8).map (byteOf v)).drop (off % 8) |>.take size

/-- The value of a write, in the lanes of its word. -/
def laneValue (off size : Nat) (v : Word) : Word := if size = 8 then v else if off % 8 = 4 then w64 (fieldN v 31 0 * 2 ^ 32) else v &&& maskBits 31 0

/-- The MSI-X table's words and the PBA's. -/
def msixWord (s : State) (h off : Nat) : Word :=
  if off < 66560 then
    let e := msixEnt s h (off / 16)
    if off % 16 < 8 then e.addr else setBit (setField 0 31 0 e.data) 32 e.masked
  else if 0x20000 ≤ off && off < 0x20000 + 520 then
    (List.range 64).foldl (fun w i => setBit w i (msixEnt s h ((off - 0x20000) / 8 * 64 + i)).pending) 0
  else 0

/-- A write into the MSI-X table; the PBA and the rest of the range take none. -/
def msixWrite (s : State) (h off : Nat) (v mask : Word) : State :=
  if off < 66560 then
    let e := off / 16
    let x := msixEnt s h e
    let w := (v &&& mask) ||| (msixWord s h off &&& ~~~ mask)
    if off % 16 < 8 then setMsix s h e { x with addr := w &&& ~~~ 3#64 }
    else msixUnblock (setMsix s h e { x with data := fieldN w 31 0, masked := bit w 32 }) h
  else s

/-- What a BAR0 offset reaches (Table 16-4). -/
inductive BarTarget where
  | none
  | msix (off : Nat)
  | reg (addr : Nat)
  deriving DecidableEq, Repr

/-- Decodes a BAR0 offset. -/
def bar0Target (s : State) (h off : Nat) : BarTarget :=
  if off < 0x1000000 then .reg (blkBase .host h + off)
  else if off < 0x2000000 then .reg (blkBase .dma 0 + (off - 0x1000000))
  else if off < 0x2040000 then .msix (off - 0x2000000)
  else if 0x2100000 ≤ off && off < 0x2200000 then .reg (blkBase .rig 0 + (off - 0x2100000))
  else if 0x3000000 ≤ off && off < 0x4000000 then .reg (regBase + fieldN (getR s .HOST_APER h) 7 0 * 0x1000000 + (off - 0x3000000))
  else .none

/-- The requester that a BAR0 access is made as (R395). -/
def barWho (s : State) (h : BitVec 1) : Requester := if managerHeld s h.toNat then .manager h else .host h

/-- A write that reached its target, or a poisoned one, which is discarded (Table 5-1, R410). -/
def barWrite (s : State) (h addr : Nat) (ep : Bool) (hdr0 hdr1 : Word) (f : State → State) : State :=
  if ep then regDiscarded (hostError s h 2 hdr0 hdr1) 10 h addr (hostStop h) else f s

/-- HOST_BAR0_ACCESS (R396). -/
def execHostBar0Access (h : BitVec 1) (write : Bool) (off : BitVec 26) (size : BitVec 4) (val : Word) (ep : Bool) (hdr0 hdr1 : Word)
    (s : State) : Host.Outcome State Fault Refusal :=
  let n := h.toNat
  let o := off.toNat
  let z := size.toNat
  let s := txClear s
  let mask := laneMask o z
  .next (if !hostUp s n then s
    else
      let s := linkWake s n
      if !hostMemOk s n || (z ≠ 4 && z ≠ 8) || o % z ≠ 0 then unsupported s n write hdr0 hdr1
      else
        match bar0Target s n o with
        | .none => if write then s else tx s (.cpl n 0 false (laneBytes o z 0))
        | .msix m =>
          if write then barWrite s n m ep hdr0 hdr1 (fun s => msixWrite s n (m / 8 * 8) (laneValue o z val) mask)
          else tx s (.cpl n 0 false (laneBytes o z (msixWord s n (m / 8 * 8))))
        | .reg a =>
          if addrCls s a != .register then unsupported (recordUnmapped s (hostStop n) 0 0 5 a false) n write hdr0 hdr1
          else if isBowlAddr a then
            let s := hostDenied s n a hdr0 hdr1
            if write then s else tx s (.cpl n 4 false [])
          else if write then barWrite s n a ep hdr0 hdr1 (fun s => writeReg s (barWho s h) a (laneValue o z val) mask)
          else
            let (v, s) := readReg s (barWho s h) a mask
            tx s (.cpl n 0 false (laneBytes o z v)))

/-- A BAR2 request is accepted (R397). -/
def barAccepted (s : State) (h n : Nat) (pasid : Option (BitVec 20)) : Bool :=
  sliceBound s n && slicePort s n = h && (match pasid with
    | some p => p.toNat = slicePasid s n
    | none => !bit (getR s .HOST_CTL h) 0)

/-- A BAR2 request that is not accepted is counted, with one notice for each slice in an epoch second (R397). -/
def barRefused (s : State) (h n : Nat) : State :=
  let s := updR s .HOST_CNT (fun w => satInc w 31 0) h 5
  let sec := s.epoch / 100000000
  if (tenantOf s n).barSec = sec + 1 then s
  else alm (updTenant s n (fun t => { t with barSec := sec + 1 })) 0x9011 2 12 n n

/-- Reads a word of a slice's page. -/
def pageRead (s : State) (n : Nat) (h : BitVec 1) (o : Nat) : Word :=
  match regInBlk .page n (o / 8 * 8) with
  | some r => if blkDead s .page n 0 then 0 else shownReg r.reg (liveReg s (.host h) r) false
  | none => 0

/-- Writes bytes of a slice's page. -/
def pageWrite (s : State) (n : Nat) (h : BitVec 1) (o : Nat) (v mask : Word) : State :=
  match regInBlk .page n (o / 8 * 8) with
  | some r => if blkDead s .page n 0 then s else writeEffect s (.host h) .page r (laneWord r.reg (storedReg s (.host h) r) v mask) mask
  | none => s

/-- HOST_BAR2_ACCESS (R397). -/
def execHostBar2Access (h : BitVec 1) (write : Bool) (off : BitVec 28) (size : BitVec 4) (val : Word) (pasid : Option (BitVec 20)) (ep : Bool)
    (hdr0 hdr1 : Word) (s : State) : Host.Outcome State Fault Refusal :=
  let p := h.toNat
  let n := off.toNat / 65536
  let o := off.toNat % 65536
  let z := size.toNat
  let s := txClear s
  .next (if !hostUp s p then s
    else
      let s := linkWake s p
      if !hostMemOk s p || (z ≠ 4 && z ≠ 8) || o % z ≠ 0 then unsupported s p write hdr0 hdr1
      else if !barAccepted s p n pasid then
        let s := barRefused s p n
        if write then s else tx s (.cpl p 0 false (laneBytes o z 0))
      else if write then barWrite s p off.toNat ep hdr0 hdr1 (fun s => pageWrite s n h o (laneValue o z val) (laneMask o z))
      else tx s (.cpl p 0 false (laneBytes o z (pageRead s n h o))))

end Sys2Proof.Machine
end

