-- ==== Sys2Proof/Machine/Startup.lean ====
section
/-! DEFINITION. Power, pins and start-up (R19–R21, R34–R41, R277, R281, R369, R463–R467). -/

namespace Sys2Proof.Machine

/-! ### Pins and rails (R19–R21, R35, R36) -/

/-- The start-up sequence begins, unless PWR_EN must first be low for 100 ms. -/
def startBegin (s : State) : State :=
  let b := s.boot
  if b.hk && b.pwrEn && !b.needLow && !b.rails && b.step = 0 then { s with boot := { b with step := 1, kind := 1, stopped := false } } else s

/-- PWR_EN_RISE: `low100` says that PWR_EN had been low for at least 100 ms. -/
def execPwrEnRise (low100 : Bool) (s : State) : Host.Outcome State Fault Refusal :=
  .next (if s.boot.pwrEn then s
    else startBegin { s with boot := { s.boot with pwrEn := true, needLow := s.boot.needLow && !low100 } })

/-- PWR_EN_FALL: a loss of power (R36). -/
def execPwrEnFall (s : State) : Host.Outcome State Fault Refusal :=
  .next (if s.boot.pwrEn then { powerOff s with boot := { (powerOff s).boot with pwrEn := false } } else s)

/-- HOUSEKEEPING_ON: the straps are sampled; with PWR_EN high, start-up begins. -/
def execHousekeepingOn (maddr : BitVec 2) (commissionHigh : Bool) (s : State) : Host.Outcome State Fault Refusal :=
  .next (if s.boot.hk then s else startBegin { s with boot := { s.boot with hk := true, maddr := maddr.toNat, commOk := commissionHigh } })

/-- HOUSEKEEPING_OFF. -/
def execHousekeepingOff (s : State) : Host.Outcome State Fault Refusal :=
  .next (if s.boot.hk then { powerOff s with boot := { (powerOff s).boot with hk := false } } else s)

/-- OVERVOLTAGE_SHUTDOWN. -/
def execOvervoltageShutdown (s : State) : Host.Outcome State Fault Refusal :=
  .next { powerOff s with boot := { (powerOff s).boot with needLow := true } }

/-- A low level of RESET_N of this many ns counts as a reset: below 1 µs never, from 10 µs always, between them one or the other. -/
def resetTaken (ns : Nat) (s : State) : Bool × State := if 10000 ≤ ns then (true, s) else if ns < 1000 then (false, s) else freeB s

/-- RESET_N_ASSERT. -/
def execResetNAssert (ns : BitVec 32) (s : State) : Host.Outcome State Fault Refusal :=
  let r := resetTaken ns.toNat s
  .next (if r.1 then
      let s := if r.2.boot.rails then moduleReset r.2 2 else r.2
      { s with boot := { s.boot with heldReset := true } }
    else r.2)

/-- RESET_N_RELEASE: start-up goes on at the Bowline ROM step. -/
def execResetNRelease (s : State) : Host.Outcome State Fault Refusal := .next { s with boot := { s.boot with heldReset := false } }

/-- MODULE_RESET. -/
def execModuleReset (s : State) : Host.Outcome State Fault Refusal := .next (if s.boot.rails then moduleReset s 2 else s)

/-- COMMISSION_PRESS (R39): COMMISSION_N, high for at least 50 ms before when `high50`, has been low for `ms`. The oldest call that
awaited a press before it has its press (R385). -/
def execCommissionPress (ms : BitVec 16) (high50 : Bool) (s : State) : Host.Outcome State Fault Refusal :=
  let began := s.epoch - ms.toNat * 100000
  let rec press : List SvcPend → List SvcPend
    | [] => []
    | p :: r => if !p.pressed && decide (p.since < began) && decide (began ≤ p.since + 6000000000) then { p with pressed := true } :: r else p :: press r
  .next (if s.boot.hk && (s.boot.commOk || high50) then
      { s with boot := { s.boot with commOk := true }, svc := { s.svc with pend := if 50 ≤ ms.toNat then press s.svc.pend else s.svc.pend } }
    else s)

/-- DEBUG_TAP_INSTRUCTION (R41). -/
def execDebugTapInstruction (tap : TapInstr) (s : State) : Host.Outcome State Fault Refusal :=
  let done : TapInstr := match tap with
    | .idcode => .idcode
    | .bypass => .bypass
    | .other c => if s.boot.debug then .other c else .bypass
  .next { s with boot := { s.boot with tap := done } }

/-! ### The steps of start-up (Table 20-4) -/

/-- Step `n` of Table 20-4 runs now; RESET_N held low keeps start-up at the Bowline ROM step with the rails on (R35). -/
def stepDue (s : State) (n : Nat) : Bool := s.boot.step = n && !s.boot.stopped && (n = 1 || (s.boot.rails && !s.boot.heldReset))

/-- Start-up goes on to step `n`. -/
def stepNext (s : State) (n : Nat) : State := { s with boot := { s.boot with step := n } }

/-- Start-up stops. -/
def stepStop (s : State) : State := { s with boot := { s.boot with stopped := true } }

/-- STARTUP_RAILS: the epoch starts at 0 and its source is chosen (R281, R285); a failure turns the rails off with FAULT_N low. -/
def execStartupRails (ok : Bool) (s : State) : Host.Outcome State Fault Refusal :=
  .next (if !stepDue s 1 then s
    else if ok then evalSource { s with epoch := 0, epochFrac := 0, boot := { s.boot with rails := true, step := 2 } }
    else { powerOff s with faultN := false })

/-- STARTUP_BOWLINE_ROM: after a loss of CLK_ROOT lock it begins only once CLK_ROOT is locked again; after a module reset the epoch
restarts at 0, while a cold power-on has started it in the Rails step (R281). -/
def execStartupBowlineRom (locked : Bool) (s : State) : Host.Outcome State Fault Refusal :=
  .next (if !stepDue s 2 || (s.boot.lockLost && !locked) then s
    else evalSource { s with epoch := if s.boot.kind = 2 then 0 else s.epoch, epochFrac := if s.boot.kind = 2 then 0 else s.epochFrac, alm := { s.alm with startNext := true }, boot := { s.boot with lockLost := false, step := 3, bank := s.flash.bank } })

/-- The bank to use, tried from `first`, with its rollback value: its image verified, at or above the counter (R369). -/
def bankPick (first : Nat) (a b : Option (BitVec 7)) (least : Nat) : Option (Nat × Nat) :=
  let ok (n : Nat) : Option (Nat × Nat) := match if n = 0 then a else b with
    | some r => if least ≤ r.toNat then some (n, r.toNat) else none
    | none => none
  match ok first with
  | some x => some x
  | none => ok (1 - first)

/-- The firmware that a bank holds. -/
def bankBytes (s : State) (n : Nat) : List Byte := SMap.get Config.fwFactory s.flash.fw n

/-- STARTUP_BOWLINE_IMAGE: for each bank the rollback value of an image whose signature and part code verify. -/
def execStartupBowlineImage (bankA bankB : Option (BitVec 7)) (s : State) : Host.Outcome State Fault Refusal :=
  .next (if !stepDue s 3 then s
    else match bankPick s.boot.bank bankA bankB s.flash.rbBowl with
      | none => stepStop (alm s 0xD012 6 0 0 2)
      | some (n, r) =>
        let s : State := { s with boot := { s.boot with step := 4, bank := n, bowlRoll := r, bowlImage := Config.fwPart 0 (bankBytes s n) }, alm := { s.alm with mWait := false } }
        alm s 0xD010 1 17 0 s.boot.kind n)

/-- Neither copy of the margin table is valid (R455): every OFFSET is BAND and every SOL_DIV 4; NEED and FAIL are open (log 92). -/
def marginsLost (s : State) : State :=
  let s := foldS (fun s d =>
    let (n, s) := freeW s
    let (f, s) := freeB s
    setMargin s d { marginOf s d with offset := bandOf s d, need := n.toNat % 256, fail := f }) s (List.range 420)
  let s : State := { s with flash := { s.flash with solDiv := (List.range 64).foldl (fun m q => SMap.set (fun _ => 2) m q 4) s.flash.solDiv } }
  alm s 0xC019 5 0 0

/-- STARTUP_RIGGING: the active slot, else the fallback slot, else unrigged (R80–R82); `marginOk` says that a copy of the margin
table is valid (R455). Bowline locks the fields that ERROR_POLICY does not allow (R164, R278). -/
def execStartupRigging (marginOk : Bool) (s : State) : Host.Outcome State Fault Refusal :=
  .next (if !stepDue s 4 then s
    else
      let s := if s.flash.updating then alm s 0xD013 3 17 0 (1 - s.flash.bank) else s
      let active := slotImage s s.flash.active
      let apply (s : State) (g : Rig) (l : List Byte) : State := rigApply { s with boot := { s.boot with imgRoll := leAt l 0x14 4 } } g
      let s := match verifyFull s active slotRoom with
        | .inl g => apply s g active
        | .inr f =>
          let other := slotImage s s.flash.fallback
          match verifyFull s other slotRoom with
          | .inl g => alm (apply s g other) 0xE010 4 17 0 s.flash.active f.status f.knot
          | .inr _ => alm (apply s {} []) 0xE011 5 17 0
      let s := if marginOk then s else marginsLost s
      let s := foldS (fun s m => updChan s m (fun c => { c with splitLock := !s.rig.dev.splitAllowed })) s (List.range 16)
      stepNext { s with boot := { s.boot with injLock := !s.rig.dev.patternAllowed } } 5)

/-- STARTUP_VIGIL: the signatures of the 152 targets in mode BOTH; failing quads and bays are fenced, and another failure stops
start-up (R465). -/
def execStartupVigil (sigs : List (BitVec 64)) (s : State) : Host.Outcome State Fault Refusal :=
  if sigs.length ≠ 152 then .fault .noSuchUnit
  else .next (if !stepDue s 5 then s
    else
      let res := sigs.zipIdx.map (fun e => (e.2, e.1))
      let s := foldS (fun s (e : Nat × Word) => vigStore s e.1 3 e.2) s res
      let bad := res.filter (fun e => e.2 != Config.vigilExp e.1 3)
      let s := foldS (fun s (e : Nat × Word) => vigFence (alm s 0xD011 5 19 e.1 3 (lo32 e.2.toNat) (hi32 e.2.toNat)) e.1) s bad
      let s := updR s .VIG_STS (fun w => setField (setBit (setField w 23 8 (vigLongest (List.range 152) 3)) 3 (!bad.isEmpty)) 2 0 2) 0
      if bad.any (fun e => decide (64 ≤ e.1) && decide (e.1 < 144)) then vigStop s else stepNext s 6)

/-- The journal of a channel is redone (R269). -/
def journalRedo (s : State) (m : Nat) : State :=
  let s' := foldS (fun s (j : Nat × List Word) =>
    let s := markStale (putCheck s j.1 j.2) j.1 true
    if (chanOf s m).rebuildQ.any (fun e => e.1 == j.1) then s else queuePage s m j.1 s.epoch) s (chanOf s m).journal
  updChan s' m (fun c => { c with journal := [] })

/-- What the address map holds after training: every chunk outside the Point Store region is unscrubbed, the page-code region is zero
and every page CURRENT (R274, R346). -/
def unscrub (s : State) : State :=
  let a := s.rig.dev.ptBase / 256
  let b := (s.rig.dev.ptBase + s.rig.dev.ptSize) / 256
  { s with pageCode := [], stale := [], unscrubbed := (if a = 0 then [] else [(0, a)]) ++ (if b < 0x40000000 then [(b, 0x40000000 - b)] else []) }

/-- Stoppers start and ports become enabled (R327); calendars take their grids from now on. -/
def fieldStart (s : State) : State :=
  let s := stoppersStart s (fun _ => true)
  foldS (fun s p =>
    let s := match (knots s p).cal with
      | some c => updPrun s p (fun r => { r with gridFrom := firstStart c s.epoch })
      | none => s
    foldS (fun s l => updPort s l (fun x => { x with lastT := s.epoch, beacon := s.epoch })) s (partPorts s p)) s (partIds s)

/-- STARTUP_DRAM_TRAINING: bit m of `patFail` is a failed pattern test of channel m. -/
def execStartupDramTraining (ok : Bool) (patFail : BitVec 16) (s : State) : Host.Outcome State Fault Refusal :=
  .next (if !stepDue s 6 then s
    else if !ok then stepStop (alm s 0xD012 6 0 0 6)
    else
      let s := foldS journalRedo (unscrub s) (List.range 16)
      let s := foldS (fun s m => patternEnd s m (!patFail.getLsbD m)) s (List.range 16)
      stepNext (fieldStart s) 7)

/-- STARTUP_CORDAGE_LOAD: as for Bowline, from the same bank first; SMBus then answers (R34). -/
def execStartupCordageLoad (bankA bankB : Option (BitVec 7)) (s : State) : Host.Outcome State Fault Refusal :=
  .next (if !stepDue s 7 then s
    else match bankPick s.boot.bank bankA bankB s.flash.rbCord with
      | none => stepStop (alm s 0x8018 6 17 0)
      | some (n, r) => { s with boot := { s.boot with step := 8, cordRoll := r, cordBank := n, cordImage := Config.fwPart 1 (bankBytes s n) }, mgmt := { s.mgmt with smbus := true } })

/-- STARTUP_CORDAGE_INIT: the first snapshot; AUTORUN partitions that no fence holds enter RUNNING. -/
def execStartupCordageInit (s : State) : Host.Outcome State Fault Refusal :=
  .next (if !stepDue s 8 then s
    else
      let s := snapshotNow (stepNext s 9)
      foldS (fun s p => if (knots s p).part.autorun && !partFenced s p && (prun s p).st == .rigged then enterRunning s p false else s) s (partIds s))

end Sys2Proof.Machine
end

