-- ==== Sys2Proof/Machine/Dispatch.lean ====
section
/-! DEFINITION. The meaning of every command: one arm for each constructor, in the order of the opcode table. -/

namespace Sys2Proof.Machine

/-- A command's effect on everything but the queue. -/
def exec (i : Instr) (s : State) : Host.Outcome State Fault Refusal :=
  match i with
  | .pwrEnRise low100 => Sys2Proof.Machine.execPwrEnRise low100 s
  | .pwrEnFall => Sys2Proof.Machine.execPwrEnFall s
  | .housekeepingOn maddr commissionHigh => Sys2Proof.Machine.execHousekeepingOn maddr commissionHigh s
  | .housekeepingOff => Sys2Proof.Machine.execHousekeepingOff s
  | .supplyTrip high => Sys2Proof.Machine.execSupplyTrip high s
  | .overvoltageShutdown => Sys2Proof.Machine.execOvervoltageShutdown s
  | .resetNAssert ns => Sys2Proof.Machine.execResetNAssert ns s
  | .resetNRelease => Sys2Proof.Machine.execResetNRelease s
  | .moduleReset => Sys2Proof.Machine.execModuleReset s
  | .commissionPress ms high50 => Sys2Proof.Machine.execCommissionPress ms high50 s
  | .debugTapInstruction tap => Sys2Proof.Machine.execDebugTapInstruction tap s
  | .refclkLoss h => Sys2Proof.Machine.execRefclkLoss h s
  | .perstAssert h => Sys2Proof.Machine.execPerstAssert h s
  | .perstDeassert h toggling => Sys2Proof.Machine.execPerstDeassert h toggling s
  | .fieldImmunityEvent port lost symbols => Sys2Proof.Machine.execFieldImmunityEvent port lost symbols s
  | .startupRails ok => Sys2Proof.Machine.execStartupRails ok s
  | .startupBowlineRom locked => Sys2Proof.Machine.execStartupBowlineRom locked s
  | .startupBowlineImage bankA bankB => Sys2Proof.Machine.execStartupBowlineImage bankA bankB s
  | .startupRigging marginOk => Sys2Proof.Machine.execStartupRigging marginOk s
  | .startupVigil sigs => Sys2Proof.Machine.execStartupVigil sigs s
  | .startupDramTraining ok patFail => Sys2Proof.Machine.execStartupDramTraining ok patFail s
  | .startupCordageLoad bankA bankB => Sys2Proof.Machine.execStartupCordageLoad bankA bankB s
  | .startupCordageInit => Sys2Proof.Machine.execStartupCordageInit s
  | .verify who => Sys2Proof.Machine.execVerify who s
  | .rewire who => Sys2Proof.Machine.execRewire who s
  | .rewireComplete => Sys2Proof.Machine.execRewireComplete s
  | .rewireTimeout => Sys2Proof.Machine.execRewireTimeout s
  | .store who slot readBackOk => Sys2Proof.Machine.execStore who slot readBackOk s
  | .select who slot => Sys2Proof.Machine.execSelect who slot s
  | .startPart who p => Sys2Proof.Machine.execStartPart who p s
  | .park who p => Sys2Proof.Machine.execPark who p s
  | .parkDrainStart p => Sys2Proof.Machine.execParkDrainStart p s
  | .parkComplete p => Sys2Proof.Machine.execParkComplete p s
  | .parkDrainTimeout p => Sys2Proof.Machine.execParkDrainTimeout p s
  | .resume who p => Sys2Proof.Machine.execResume who p s
  | .reset who p => Sys2Proof.Machine.execReset who p s
  | .registerWrite who addr val => Sys2Proof.Machine.execRegisterWrite who addr val s
  | .add t gd ga gb => Sys2Proof.Machine.execAdd t gd ga gb s
  | .sub t gd ga gb => Sys2Proof.Machine.execSub t gd ga gb s
  | .and t gd ga gb => Sys2Proof.Machine.execAnd t gd ga gb s
  | .or t gd ga gb => Sys2Proof.Machine.execOr t gd ga gb s
  | .xor t gd ga gb => Sys2Proof.Machine.execXor t gd ga gb s
  | .andn t gd ga gb => Sys2Proof.Machine.execAndn t gd ga gb s
  | .sll t gd ga gb => Sys2Proof.Machine.execSll t gd ga gb s
  | .srl t gd ga gb => Sys2Proof.Machine.execSrl t gd ga gb s
  | .sra t gd ga gb => Sys2Proof.Machine.execSra t gd ga gb s
  | .clt t gd ga gb => Sys2Proof.Machine.execClt t gd ga gb s
  | .cltu t gd ga gb => Sys2Proof.Machine.execCltu t gd ga gb s
  | .min t gd ga gb => Sys2Proof.Machine.execMin t gd ga gb s
  | .max t gd ga gb => Sys2Proof.Machine.execMax t gd ga gb s
  | .minu t gd ga gb => Sys2Proof.Machine.execMinu t gd ga gb s
  | .maxu t gd ga gb => Sys2Proof.Machine.execMaxu t gd ga gb s
  | .clz t gd ga gb => Sys2Proof.Machine.execClz t gd ga gb s
  | .popc t gd ga gb => Sys2Proof.Machine.execPopc t gd ga gb s
  | .addi t gd ga imm => Sys2Proof.Machine.execAddi t gd ga imm s
  | .andi t gd ga imm => Sys2Proof.Machine.execAndi t gd ga imm s
  | .ori t gd ga imm => Sys2Proof.Machine.execOri t gd ga imm s
  | .xori t gd ga imm => Sys2Proof.Machine.execXori t gd ga imm s
  | .clti t gd ga imm => Sys2Proof.Machine.execClti t gd ga imm s
  | .cltiu t gd ga imm => Sys2Proof.Machine.execCltiu t gd ga imm s
  | .slli t gd ga imm => Sys2Proof.Machine.execSlli t gd ga imm s
  | .srli t gd ga imm => Sys2Proof.Machine.execSrli t gd ga imm s
  | .srai t gd ga imm => Sys2Proof.Machine.execSrai t gd ga imm s
  | .immh t gd imm => Sys2Proof.Machine.execImmh t gd imm s
  | .pcadd t gd imm => Sys2Proof.Machine.execPcadd t gd imm s
  | .luh t gd imm => Sys2Proof.Machine.execLuh t gd imm s
  | .mul t gd ga gb => Sys2Proof.Machine.execMul t gd ga gb s
  | .mulhi t gd ga gb => Sys2Proof.Machine.execMulhi t gd ga gb s
  | .mulhiu t gd ga gb => Sys2Proof.Machine.execMulhiu t gd ga gb s
  | .mulhix t gd ga gb => Sys2Proof.Machine.execMulhix t gd ga gb s
  | .madd t gd ga gb => Sys2Proof.Machine.execMadd t gd ga gb s
  | .div t gd ga gb => Sys2Proof.Machine.execDiv t gd ga gb s
  | .divu t gd ga gb => Sys2Proof.Machine.execDivu t gd ga gb s
  | .rem t gd ga gb => Sys2Proof.Machine.execRem t gd ga gb s
  | .remu t gd ga gb => Sys2Proof.Machine.execRemu t gd ga gb s
  | .ld t gd ga imm => Sys2Proof.Machine.execLd t gd ga imm s
  | .lw t gd ga imm => Sys2Proof.Machine.execLw t gd ga imm s
  | .lwu t gd ga imm => Sys2Proof.Machine.execLwu t gd ga imm s
  | .lh t gd ga imm => Sys2Proof.Machine.execLh t gd ga imm s
  | .lhu t gd ga imm => Sys2Proof.Machine.execLhu t gd ga imm s
  | .lb t gd ga imm => Sys2Proof.Machine.execLb t gd ga imm s
  | .lbu t gd ga imm => Sys2Proof.Machine.execLbu t gd ga imm s
  | .lda t gd ga imm => Sys2Proof.Machine.execLda t gd ga imm s
  | .sd t gs ga imm => Sys2Proof.Machine.execSd t gs ga imm s
  | .sw t gs ga imm => Sys2Proof.Machine.execSw t gs ga imm s
  | .sh t gs ga imm => Sys2Proof.Machine.execSh t gs ga imm s
  | .sb t gs ga imm => Sys2Proof.Machine.execSb t gs ga imm s
  | .sdr t gs ga imm => Sys2Proof.Machine.execSdr t gs ga imm s
  | .ll t gd ga gb aq rl w => Sys2Proof.Machine.execLl t gd ga gb aq rl w s
  | .sc t gd ga gb aq rl w => Sys2Proof.Machine.execSc t gd ga gb aq rl w s
  | .atomSwap t gd ga gb aq rl w => Sys2Proof.Machine.execAtomSwap t gd ga gb aq rl w s
  | .atomAdd t gd ga gb aq rl w => Sys2Proof.Machine.execAtomAdd t gd ga gb aq rl w s
  | .atomAnd t gd ga gb aq rl w => Sys2Proof.Machine.execAtomAnd t gd ga gb aq rl w s
  | .atomOr t gd ga gb aq rl w => Sys2Proof.Machine.execAtomOr t gd ga gb aq rl w s
  | .atomXor t gd ga gb aq rl w => Sys2Proof.Machine.execAtomXor t gd ga gb aq rl w s
  | .atomMax t gd ga gb aq rl w => Sys2Proof.Machine.execAtomMax t gd ga gb aq rl w s
  | .atomMin t gd ga gb aq rl w => Sys2Proof.Machine.execAtomMin t gd ga gb aq rl w s
  | .atomMaxu t gd ga gb aq rl w => Sys2Proof.Machine.execAtomMaxu t gd ga gb aq rl w s
  | .atomMinu t gd ga gb aq rl w => Sys2Proof.Machine.execAtomMinu t gd ga gb aq rl w s
  | .fence t gd ga imm => Sys2Proof.Machine.execFence t gd ga imm s
  | .syncI t gd ga gb => Sys2Proof.Machine.execSyncI t gd ga gb s
  | .xlsync t gd ga gb => Sys2Proof.Machine.execXlsync t gd ga gb s
  | .beq t ga gb a disp => Sys2Proof.Machine.execBeq t ga gb a disp s
  | .bne t ga gb a disp => Sys2Proof.Machine.execBne t ga gb a disp s
  | .blt t ga gb a disp => Sys2Proof.Machine.execBlt t ga gb a disp s
  | .bge t ga gb a disp => Sys2Proof.Machine.execBge t ga gb a disp s
  | .bltu t ga gb a disp => Sys2Proof.Machine.execBltu t ga gb a disp s
  | .bgeu t ga gb a disp => Sys2Proof.Machine.execBgeu t ga gb a disp s
  | .j t disp => Sys2Proof.Machine.execJ t disp s
  | .jlnk t disp => Sys2Proof.Machine.execJlnk t disp s
  | .jind t gd ga imm => Sys2Proof.Machine.execJind t gd ga imm s
  | .fadd t gd ga gb => Sys2Proof.Machine.execFadd t gd ga gb s
  | .fsub t gd ga gb => Sys2Proof.Machine.execFsub t gd ga gb s
  | .fmul t gd ga gb => Sys2Proof.Machine.execFmul t gd ga gb s
  | .fdiv t gd ga gb => Sys2Proof.Machine.execFdiv t gd ga gb s
  | .fsqrt t gd ga gb => Sys2Proof.Machine.execFsqrt t gd ga gb s
  | .fmin t gd ga gb => Sys2Proof.Machine.execFmin t gd ga gb s
  | .fmax t gd ga gb => Sys2Proof.Machine.execFmax t gd ga gb s
  | .feq t gd ga gb => Sys2Proof.Machine.execFeq t gd ga gb s
  | .flt t gd ga gb => Sys2Proof.Machine.execFlt t gd ga gb s
  | .fle t gd ga gb => Sys2Proof.Machine.execFle t gd ga gb s
  | .itof t gd ga gb => Sys2Proof.Machine.execItof t gd ga gb s
  | .utof t gd ga gb => Sys2Proof.Machine.execUtof t gd ga gb s
  | .ftoi t gd ga gb => Sys2Proof.Machine.execFtoi t gd ga gb s
  | .ftou t gd ga gb => Sys2Proof.Machine.execFtou t gd ga gb s
  | .fcps t gd ga gb => Sys2Proof.Machine.execFcps t gd ga gb s
  | .fcpsn t gd ga gb => Sys2Proof.Machine.execFcpsn t gd ga gb s
  | .fmadd t gd ga gb gc => Sys2Proof.Machine.execFmadd t gd ga gb gc s
  | .fmsub t gd ga gb gc => Sys2Proof.Machine.execFmsub t gd ga gb gc s
  | .fnmadd t gd ga gb gc => Sys2Proof.Machine.execFnmadd t gd ga gb gc s
  | .fnmsub t gd ga gb gc => Sys2Proof.Machine.execFnmsub t gd ga gb gc s
  | .vadd t vd va vb vc => Sys2Proof.Machine.execVadd t vd va vb vc s
  | .vsub t vd va vb vc => Sys2Proof.Machine.execVsub t vd va vb vc s
  | .vand t vd va vb vc => Sys2Proof.Machine.execVand t vd va vb vc s
  | .vor t vd va vb vc => Sys2Proof.Machine.execVor t vd va vb vc s
  | .vxor t vd va vb vc => Sys2Proof.Machine.execVxor t vd va vb vc s
  | .vsll t vd va vb vc => Sys2Proof.Machine.execVsll t vd va vb vc s
  | .vsrl t vd va vb vc => Sys2Proof.Machine.execVsrl t vd va vb vc s
  | .vsra t vd va vb vc => Sys2Proof.Machine.execVsra t vd va vb vc s
  | .vmul t vd va vb vc => Sys2Proof.Machine.execVmul t vd va vb vc s
  | .vfadd t vd va vb vc => Sys2Proof.Machine.execVfadd t vd va vb vc s
  | .vfsub t vd va vb vc => Sys2Proof.Machine.execVfsub t vd va vb vc s
  | .vfmul t vd va vb vc => Sys2Proof.Machine.execVfmul t vd va vb vc s
  | .vfdiv t vd va vb vc => Sys2Proof.Machine.execVfdiv t vd va vb vc s
  | .vfmin t vd va vb vc => Sys2Proof.Machine.execVfmin t vd va vb vc s
  | .vfmax t vd va vb vc => Sys2Proof.Machine.execVfmax t vd va vb vc s
  | .vfeq t vd va vb vc => Sys2Proof.Machine.execVfeq t vd va vb vc s
  | .vflt t vd va vb vc => Sys2Proof.Machine.execVflt t vd va vb vc s
  | .vfmadd t vd va vb vc => Sys2Proof.Machine.execVfmadd t vd va vb vc s
  | .vfmsub t vd va vb vc => Sys2Proof.Machine.execVfmsub t vd va vb vc s
  | .vfnmadd t vd va vb vc => Sys2Proof.Machine.execVfnmadd t vd va vb vc s
  | .vfnmsub t vd va vb vc => Sys2Proof.Machine.execVfnmsub t vd va vb vc s
  | .vld t vd ga imm => Sys2Proof.Machine.execVld t vd ga imm s
  | .vst t vd ga imm => Sys2Proof.Machine.execVst t vd ga imm s
  | .vins t vd g lane => Sys2Proof.Machine.execVins t vd g lane s
  | .vext t vd g lane => Sys2Proof.Machine.execVext t vd g lane s
  | .vbcast t vd g lane => Sys2Proof.Machine.execVbcast t vd g lane s
  | .psrd t gd ga gb gc => Sys2Proof.Machine.execPsrd t gd ga gb gc s
  | .pswr t gd ga gb gc => Sys2Proof.Machine.execPswr t gd ga gb gc s
  | .pscw t gd ga gb gc => Sys2Proof.Machine.execPscw t gd ga gb gc s
  | .pssub t gd ga gb gc => Sys2Proof.Machine.execPssub t gd ga gb gc s
  | .tallyGen t gd ga gb => Sys2Proof.Machine.execTallyGen t gd ga gb s
  | .tallyChk t gd ga gb => Sys2Proof.Machine.execTallyChk t gd ga gb s
  | .tallyPsn t gd ga gb => Sys2Proof.Machine.execTallyPsn t gd ga gb s
  | .l0inv t ga imm => Sys2Proof.Machine.execL0inv t ga imm s
  | .l1dClean t ga imm => Sys2Proof.Machine.execL1dClean t ga imm s
  | .l1dCleanInvalidate t ga imm => Sys2Proof.Machine.execL1dCleanInvalidate t ga imm s
  | .l1dInvalidate t ga imm => Sys2Proof.Machine.execL1dInvalidate t ga imm s
  | .l2Clean t ga imm => Sys2Proof.Machine.execL2Clean t ga imm s
  | .l2CleanInvalidate t ga imm => Sys2Proof.Machine.execL2CleanInvalidate t ga imm s
  | .llcClean t ga imm => Sys2Proof.Machine.execLlcClean t ga imm s
  | .l1iInvalidate t ga imm => Sys2Proof.Machine.execL1iInvalidate t ga imm s
  | .l1dCleanInvalidateAll t ga imm => Sys2Proof.Machine.execL1dCleanInvalidateAll t ga imm s
  | .prefetchL1d t ga imm => Sys2Proof.Machine.execPrefetchL1d t ga imm s
  | .prefetchL2 t ga imm => Sys2Proof.Machine.execPrefetchL2 t ga imm s
  | .guardTighten t gd ga gb fn => Sys2Proof.Machine.execGuardTighten t gd ga gb fn s
  | .waitslot t gd ga gb fn => Sys2Proof.Machine.execWaitslot t gd ga gb fn s
  | .wcall t ga imm => Sys2Proof.Machine.execWcall t ga imm s
  | .wret t ga imm => Sys2Proof.Machine.execWret t ga imm s
  | .crrd t gd ga cr => Sys2Proof.Machine.execCrrd t gd ga cr s
  | .crwr t gd ga cr => Sys2Proof.Machine.execCrwr t gd ga cr s
  | .crset t gd ga cr => Sys2Proof.Machine.execCrset t gd ga cr s
  | .crclr t gd ga cr => Sys2Proof.Machine.execCrclr t gd ga cr s
  | .syscall t gd ga => Sys2Proof.Machine.execSyscall t gd ga s
  | .break t gd ga => Sys2Proof.Machine.execBreak t gd ga s
  | .rftS t gd ga => Sys2Proof.Machine.execRftS t gd ga s
  | .rftM t gd ga => Sys2Proof.Machine.execRftM t gd ga s
  | .wfi t gd ga => Sys2Proof.Machine.execWfi t gd ga s
  | .interruptTaken t => Sys2Proof.Machine.execInterruptTaken t s
  | .deadlineTrap t => Sys2Proof.Machine.execDeadlineTrap t s
  | .storeDrain t => Sys2Proof.Machine.execStoreDrain t s
  | .loadFill t => Sys2Proof.Machine.execLoadFill t s
  | .waitTableClear c => Sys2Proof.Machine.execWaitTableClear c s
  | .coreCtxidWrite who t val => Sys2Proof.Machine.execCoreCtxidWrite who t val s
  | .coreIpiWrite who c val => Sys2Proof.Machine.execCoreIpiWrite who c val s
  | .coreThstartGo who t val => Sys2Proof.Machine.execCoreThstartGo who t val s
  | .coreModeBootWrite who c val => Sys2Proof.Machine.execCoreModeBootWrite who c val s
  | .coreCtlWrite who c val => Sys2Proof.Machine.execCoreCtlWrite who c val s
  | .coreL0ctlWrite who t val => Sys2Proof.Machine.execCoreL0ctlWrite who t val s
  | .tallyInjectArm who c val => Sys2Proof.Machine.execTallyInjectArm who c val s
  | .bucketLeak b => Sys2Proof.Machine.execBucketLeak b s
  | .flitHcrcFail stop dir replayed failures => Sys2Proof.Machine.execFlitHcrcFail stop dir replayed failures s
  | .malformedFlit stop dir => Sys2Proof.Machine.execMalformedFlit stop dir s
  | .credit src dst val => Sys2Proof.Machine.execCredit src dst val s
  | .creditReturnTimeout src dst => Sys2Proof.Machine.execCreditReturnTimeout src dst s
  | .rdShared h line spec => Sys2Proof.Machine.execRdShared h line spec s
  | .rdOwn h line => Sys2Proof.Machine.execRdOwn h line s
  | .upgrade h line => Sys2Proof.Machine.execUpgrade h line s
  | .rdOnce h line => Sys2Proof.Machine.execRdOnce h line s
  | .wrFull h line data ep => Sys2Proof.Machine.execWrFull h line data ep s
  | .wrPartial h line data mask ep => Sys2Proof.Machine.execWrPartial h line data mask ep s
  | .wrBack h line => Sys2Proof.Machine.execWrBack h line s
  | .evictClean h line => Sys2Proof.Machine.execEvictClean h line s
  | .cleanLine h line => Sys2Proof.Machine.execCleanLine h line s
  | .flushLine h line => Sys2Proof.Machine.execFlushLine h line s
  | .snpShared h line => Sys2Proof.Machine.execSnpShared h line s
  | .snpInv h line => Sys2Proof.Machine.execSnpInv h line s
  | .snpRead h line => Sys2Proof.Machine.execSnpRead h line s
  | .snpClean h line => Sys2Proof.Machine.execSnpClean h line s
  | .memRead line => Sys2Proof.Machine.execMemRead line s
  | .memWrite line => Sys2Proof.Machine.execMemWrite line s
  | .pcNote src page => Sys2Proof.Machine.execPcNote src page s
  | .pcGather ch page => Sys2Proof.Machine.execPcGather ch page s
  | .pcData src page ln => Sys2Proof.Machine.execPcData src page ln s
  | .pcWrite ch page ln => Sys2Proof.Machine.execPcWrite ch page ln s
  | .pcRepairRequest src page => Sys2Proof.Machine.execPcRepairRequest src page s
  | .pcRelease ch page => Sys2Proof.Machine.execPcRelease ch page s
  | .pcAck src page => Sys2Proof.Machine.execPcAck src page s
  | .pageRebuildStart m page => Sys2Proof.Machine.execPageRebuildStart m page s
  | .noteFilterExpire m page => Sys2Proof.Machine.execNoteFilterExpire m page s
  | .rowSparing m bank row sameDevice => Sys2Proof.Machine.execRowSparing m bank row sameDevice s
  | .backgroundZeroing m => Sys2Proof.Machine.execBackgroundZeroing m s
  | .patrolScrub m => Sys2Proof.Machine.execPatrolScrub m s
  | .bankRefresh m bank => Sys2Proof.Machine.execBankRefresh m bank s
  | .calibrationWindowStart m => Sys2Proof.Machine.execCalibrationWindowStart m s
  | .calibrationWindowEnd m => Sys2Proof.Machine.execCalibrationWindowEnd m s
  | .patternTestStart who m val => Sys2Proof.Machine.execPatternTestStart who m val s
  | .patternTestDone m ok => Sys2Proof.Machine.execPatternTestDone m ok s
  | .splitWrite who m val => Sys2Proof.Machine.execSplitWrite who m val s
  | .splitRead who m val => Sys2Proof.Machine.execSplitRead who m val s
  | .regRead t => Sys2Proof.Machine.execRegRead t s
  | .regWrite t => Sys2Proof.Machine.execRegWrite t s
  | .irqSet t vector on p => Sys2Proof.Machine.execIrqSet t vector on p s
  | .gntS h line => Sys2Proof.Machine.execGntS h line s
  | .gntE h line => Sys2Proof.Machine.execGntE h line s
  | .gntM h line => Sys2Proof.Machine.execGntM h line s
  | .gntUpg h line => Sys2Proof.Machine.execGntUpg h line s
  | .gntSUe h line => Sys2Proof.Machine.execGntSUe h line s
  | .gntEUe h line => Sys2Proof.Machine.execGntEUe h line s
  | .gntMUe h line => Sys2Proof.Machine.execGntMUe h line s
  | .dataOnce h line => Sys2Proof.Machine.execDataOnce h line s
  | .dataOnceUe h line => Sys2Proof.Machine.execDataOnceUe h line s
  | .refused h line => Sys2Proof.Machine.execRefused h line s
  | .denied h line => Sys2Proof.Machine.execDenied h line s
  | .missNote h line => Sys2Proof.Machine.execMissNote h line s
  | .compAck h line => Sys2Proof.Machine.execCompAck h line s
  | .wrAck h line => Sys2Proof.Machine.execWrAck h line s
  | .snpRspI h line => Sys2Proof.Machine.execSnpRspI h line s
  | .snpRspS h line => Sys2Proof.Machine.execSnpRspS h line s
  | .snpRspDataI h line => Sys2Proof.Machine.execSnpRspDataI h line s
  | .snpRspDataKeep h line => Sys2Proof.Machine.execSnpRspDataKeep h line s
  | .snpRspEvictC h line => Sys2Proof.Machine.execSnpRspEvictC h line s
  | .snpRspEvictD h line => Sys2Proof.Machine.execSnpRspEvictD h line s
  | .memData line => Sys2Proof.Machine.execMemData line s
  | .memDataUe line => Sys2Proof.Machine.execMemDataUe line s
  | .memAck line => Sys2Proof.Machine.execMemAck line s
  | .regData t => Sys2Proof.Machine.execRegData t s
  | .regAck t => Sys2Proof.Machine.execRegAck t s
  | .psRsp t => Sys2Proof.Machine.execPsRsp t s
  | .transactionTimeout line => Sys2Proof.Machine.execTransactionTimeout line s
  | .engineRead t => Sys2Proof.Machine.execEngineRead t s
  | .engineWrite t genFail => Sys2Proof.Machine.execEngineWrite t genFail s
  | .engineCw t genFail => Sys2Proof.Machine.execEngineCw t genFail s
  | .engineSub t => Sys2Proof.Machine.execEngineSub t s
  | .exchangeRead port p => Sys2Proof.Machine.execExchangeRead port p s
  | .exchangeWrite port node p val epoch quality genFail => Sys2Proof.Machine.execExchangeWrite port node p val epoch quality genFail s
  | .mirrorWrite p val tal epoch word2 genFail => Sys2Proof.Machine.execMirrorWrite p val tal epoch word2 genFail s
  | .entryFetchComplete p => Sys2Proof.Machine.execEntryFetchComplete p s
  | .notificationRecord => Sys2Proof.Machine.execNotificationRecord s
  | .setDeadband who p fmt => Sys2Proof.Machine.execSetDeadband who p fmt s
  | .peek who p => Sys2Proof.Machine.execPeek who p s
  | .nqTailWrite who g tail => Sys2Proof.Machine.execNqTailWrite who g tail s
  | .todMessage line => Sys2Proof.Machine.execTodMessage line s
  | .time1ppsEdge ns => Sys2Proof.Machine.execTime1ppsEdge ns s
  | .alignmentHoldover => Sys2Proof.Machine.execAlignmentHoldover s
  | .epochStepArm who => Sys2Proof.Machine.execEpochStepArm who s
  | .timeSourceEnable who en => Sys2Proof.Machine.execTimeSourceEnable who en s
  | .slotRelease p ix => Sys2Proof.Machine.execSlotRelease p ix s
  | .slotStart p ix => Sys2Proof.Machine.execSlotStart p ix s
  | .slotExchange p ix => Sys2Proof.Machine.execSlotExchange p ix s
  | .slotDeadline p ix => Sys2Proof.Machine.execSlotDeadline p ix s
  | .calendarStartRunning p => Sys2Proof.Machine.execCalendarStartRunning p s
  | .lanyardCycleStart port gens lost => Sys2Proof.Machine.execLanyardCycleStart port gens lost s
  | .callTransmit port => Sys2Proof.Machine.execCallTransmit port s
  | .replyFrame port fcsOk frame sfd => Sys2Proof.Machine.execReplyFrame port fcsOk frame sfd s
  | .plcaBeacon port => Sys2Proof.Machine.execPlcaBeacon port s
  | .plcaLost port => Sys2Proof.Machine.execPlcaLost port s
  | .rawRxFrame port fcsOk frame sfd => Sys2Proof.Machine.execRawRxFrame port fcsOk frame sfd s
  | .rawTxFrame port => Sys2Proof.Machine.execRawTxFrame port s
  | .rawTailWrite who port tx tail => Sys2Proof.Machine.execRawTailWrite who port tx tail s
  | .rawResume who port => Sys2Proof.Machine.execRawResume who port s
  | .rawEnable who port en => Sys2Proof.Machine.execRawEnable who port en s
  | .tightenRequest o => Sys2Proof.Machine.execTightenRequest o s
  | .spliceAcquire who => Sys2Proof.Machine.execSpliceAcquire who s
  | .spliceRelease who => Sys2Proof.Machine.execSpliceRelease who s
  | .spliceDemand who => Sys2Proof.Machine.execSpliceDemand who s
  | .spliceRevoke b => Sys2Proof.Machine.execSpliceRevoke b s
  | .spliceDrainComplete b => Sys2Proof.Machine.execSpliceDrainComplete b s
  | .spliceDrainTimeout b => Sys2Proof.Machine.execSpliceDrainTimeout b s
  | .spliceResetComplete b => Sys2Proof.Machine.execSpliceResetComplete b s
  | .commission who => Sys2Proof.Machine.execCommission who s
  | .revokeOwner who => Sys2Proof.Machine.execRevokeOwner who s
  | .presenceTimeout => Sys2Proof.Machine.execPresenceTimeout s
  | .slotProgrammingComplete ok => Sys2Proof.Machine.execSlotProgrammingComplete ok s
  | .advanceRollback who => Sys2Proof.Machine.execAdvanceRollback who s
  | .debugNonce who => Sys2Proof.Machine.execDebugNonce who s
  | .debugUnlock who => Sys2Proof.Machine.execDebugUnlock who s
  | .fwInstall who sigOk rbBowl rbCord => Sys2Proof.Machine.execFwInstall who sigOk rbBowl rbCord s
  | .fwInstallComplete => Sys2Proof.Machine.execFwInstallComplete s
  | .spdmRelay who resp => Sys2Proof.Machine.execSpdmRelay who resp s
  | .secureCallLimit t => Sys2Proof.Machine.execSecureCallLimit t s
  | .hostConfigRequest h write dw be val => Sys2Proof.Machine.execHostConfigRequest h write dw be val s
  | .bmeClear h => Sys2Proof.Machine.execBmeClear h s
  | .flr h => Sys2Proof.Machine.execFlr h s
  | .hotReset h => Sys2Proof.Machine.execHotReset h s
  | .hostResetComplete h => Sys2Proof.Machine.execHostResetComplete h s
  | .hostBar0Access h write off size val ep hdr0 hdr1 => Sys2Proof.Machine.execHostBar0Access h write off size val ep hdr0 hdr1 s
  | .hostBar2Access h write off size val pasid ep hdr0 hdr1 => Sys2Proof.Machine.execHostBar2Access h write off size val pasid ep hdr0 hdr1 s
  | .hostRomRead h off len => Sys2Proof.Machine.execHostRomRead h off len s
  | .hostMemoryWrite h addr bytes ep ecrcOk replays hdr0 hdr1 => Sys2Proof.Machine.execHostMemoryWrite h addr bytes ep ecrcOk replays hdr0 hdr1 s
  | .hostMemoryRead h addr len ecrcOk hdr0 hdr1 => Sys2Proof.Machine.execHostMemoryRead h addr len ecrcOk hdr0 hdr1 s
  | .hostUnsupportedRequest h posted hdr0 hdr1 => Sys2Proof.Machine.execHostUnsupportedRequest h posted hdr0 hdr1 s
  | .hostCompletion h ch status ep ecrcOk data hdr0 hdr1 => Sys2Proof.Machine.execHostCompletion h ch status ep ecrcOk data hdr0 hdr1 s
  | .completionTimeout h sq n q hdr0 hdr1 => Sys2Proof.Machine.execCompletionTimeout h sq n q hdr0 hdr1 s
  | .msixSend h e => Sys2Proof.Machine.execMsixSend h e s
  | .doeRequest h vendor ty obj => Sys2Proof.Machine.execDoeRequest h vendor ty obj s
  | .doeAbort h => Sys2Proof.Machine.execDoeAbort h s
  | .doeResponse h obj => Sys2Proof.Machine.execDoeResponse h obj s
  | .l0sEntry h => Sys2Proof.Machine.execL0sEntry h s
  | .l1Entry h => Sys2Proof.Machine.execL1Entry h s
  | .sliceBind who n val => Sys2Proof.Machine.execSliceBind who n val s
  | .sliceUnbind who n => Sys2Proof.Machine.execSliceUnbind who n s
  | .sliceGrant who n val => Sys2Proof.Machine.execSliceGrant who n val s
  | .windowWrite who n val => Sys2Proof.Machine.execWindowWrite who n val s
  | .slicePost who n val => Sys2Proof.Machine.execSlicePost who n val s
  | .sliceQuiesce who n => Sys2Proof.Machine.execSliceQuiesce who n s
  | .sliceQuiesced n => Sys2Proof.Machine.execSliceQuiesced n s
  | .sliceReset who n => Sys2Proof.Machine.execSliceReset who n s
  | .sqTailWrite n q tail => Sys2Proof.Machine.execSqTailWrite n q tail s
  | .cqHeadWrite n q head => Sys2Proof.Machine.execCqHeadWrite n q head s
  | .qpResume n q => Sys2Proof.Machine.execQpResume n q s
  | .qpAbort n q => Sys2Proof.Machine.execQpAbort n q s
  | .sqFetch n q status ep data hdr0 hdr1 => Sys2Proof.Machine.execSqFetch n q status ep data hdr0 hdr1 s
  | .copyIn n q => Sys2Proof.Machine.execCopyIn n q s
  | .copyOut n q => Sys2Proof.Machine.execCopyOut n q s
  | .psRead n q => Sys2Proof.Machine.execPsRead n q s
  | .psWrite n q genFail => Sys2Proof.Machine.execPsWrite n q genFail s
  | .psCw n q genFail => Sys2Proof.Machine.execPsCw n q genFail s
  | .dmaGo who ch => Sys2Proof.Machine.execDmaGo who ch s
  | .dmaResume who ch => Sys2Proof.Machine.execDmaResume who ch s
  | .dmaAbort who ch => Sys2Proof.Machine.execDmaAbort who ch s
  | .descriptorFetch ch => Sys2Proof.Machine.execDescriptorFetch ch s
  | .dmaBurstBoundary ch => Sys2Proof.Machine.execDmaBurstBoundary ch s
  | .dmaRetry ch => Sys2Proof.Machine.execDmaRetry ch s
  | .hcprsChange k absent => Sys2Proof.Machine.execHcprsChange k absent s
  | .hawserTrained k => Sys2Proof.Machine.execHawserTrained k s
  | .hawserTrainingTimeout k => Sys2Proof.Machine.execHawserTrainingTimeout k s
  | .hawserHello k peerId sigOk role flags wins => Sys2Proof.Machine.execHawserHello k peerId sigOk role flags wins s
  | .hawserLinkLoss k => Sys2Proof.Machine.execHawserLinkLoss k s
  | .hawserReplay k again => Sys2Proof.Machine.execHawserReplay k again s
  | .hawserInboundRequest k win gen addr write mask data tals psn => Sys2Proof.Machine.execHawserInboundRequest k win gen addr write mask data tals psn s
  | .hawserResponse k req addr refused data tals psn => Sys2Proof.Machine.execHawserResponse k req addr refused data tals psn s
  | .staleWindow k req addr => Sys2Proof.Machine.execStaleWindow k req addr s
  | .windowCommit who k mask => Sys2Proof.Machine.execWindowCommit who k mask s
  | .announce k wins => Sys2Proof.Machine.execAnnounce k wins s
  | .announceAck k => Sys2Proof.Machine.execAnnounceAck k s
  | .announceTimeout k => Sys2Proof.Machine.execAnnounceTimeout k s
  | .hawserTimeRequest k => Sys2Proof.Machine.execHawserTimeRequest k s
  | .hawserTimeAnswer k t1 t2 t3 t4 => Sys2Proof.Machine.execHawserTimeAnswer k t1 t2 t3 t4 s
  | .mirroredWrite k p val tal epoch word2 genFail => Sys2Proof.Machine.execMirroredWrite k p val tal epoch word2 genFail s
  | .domainOn who exp dom => Sys2Proof.Machine.execDomainOn who exp dom s
  | .domainOff who exp dom => Sys2Proof.Machine.execDomainOff who exp dom s
  | .clkStop who exp dom => Sys2Proof.Machine.execClkStop who exp dom s
  | .clkRun who exp dom => Sys2Proof.Machine.execClkRun who exp dom s
  | .step who exp dom div => Sys2Proof.Machine.execStep who exp dom div s
  | .domainSwitchComplete dom => Sys2Proof.Machine.execDomainSwitchComplete dom s
  | .coreGate c => Sys2Proof.Machine.execCoreGate c s
  | .coreUngate c => Sys2Proof.Machine.execCoreUngate c s
  | .sensorSample temps inlet outlet vin iin pin => Sys2Proof.Machine.execSensorSample temps inlet outlet vin iin pin s
  | .throttleStep => Sys2Proof.Machine.execThrottleStep s
  | .tripDomainsOff => Sys2Proof.Machine.execTripDomainsOff s
  | .tripFlushComplete => Sys2Proof.Machine.execTripFlushComplete s
  | .clkRootLockLoss => Sys2Proof.Machine.execClkRootLockLoss s
  | .clkRootRelockTimeout => Sys2Proof.Machine.execClkRootRelockTimeout s
  | .solsticePassStart => Sys2Proof.Machine.execSolsticePassStart s
  | .solCmdStart who => Sys2Proof.Machine.execSolCmdStart who s
  | .solsticeHold d => Sys2Proof.Machine.execSolsticeHold d s
  | .solsticeMeasure need => Sys2Proof.Machine.execSolsticeMeasure need s
  | .solsticeSkip d => Sys2Proof.Machine.execSolsticeSkip d s
  | .managementSnapshot => Sys2Proof.Machine.execManagementSnapshot s
  | .mctpMessage bytes => Sys2Proof.Machine.execMctpMessage bytes s
  | .getView gen => Sys2Proof.Machine.execGetView gen s
  | .powerRequest gen op dom div => Sys2Proof.Machine.execPowerRequest gen op dom div s
  | .solsticeStart gen => Sys2Proof.Machine.execSolsticeStart gen s
  | .vigilStart who mode => Sys2Proof.Machine.execVigilStart who mode s
  | .vigilAbort who => Sys2Proof.Machine.execVigilAbort who s
  | .vigilRunComplete sigs => Sys2Proof.Machine.execVigilRunComplete sigs s
  | .recordAccept code sev cls src p0 p1 p2 => Sys2Proof.Machine.execRecordAccept code sev cls src p0 p1 p2 s
  | .almanacMirrorRecord slotOk ok => Sys2Proof.Machine.execAlmanacMirrorRecord slotOk ok s
  | .almSeekWrite who seq => Sys2Proof.Machine.execAlmSeekWrite who seq s
  | .epochCompareMatch t => Sys2Proof.Machine.execEpochCompareMatch t s
  | .hostLinkUp h width speed => Sys2Proof.Machine.execHostLinkUp h width speed s
  | .electricalIdleExit h => Sys2Proof.Machine.execElectricalIdleExit h s
  | .smbusAlertResponse => Sys2Proof.Machine.execSmbusAlertResponse s
  | .peerTimeRequest k t1 t2 t3 => Sys2Proof.Machine.execPeerTimeRequest k t1 t2 t3 s

end Sys2Proof.Machine
end

