-- ==== Sys2Proof/Machine/Idle.lean ====
section
/-! DEFINITION. What the module does while no command waits: one cycle of EPOCHCLK (R281, R282). -/

namespace Sys2Proof.Machine

/-- Ticks of an epoch day. -/
def dayTicks : Nat := 8640000000000

/-- One EPOCHCLK cycle passes: CLK_EPOCH advances, a calibration window that has lasted its 100 ticks ends (R279), and each new epoch day counts in SOL_STS.DAYS and every SOL_DOM.AGE (log 48). With the rails off the
clock is stopped. -/
def idleTick (s : State) : State :=
  if !s.boot.rails then s
  else
    let s' := windowsSettle (epochTick s)
    if s.epoch / dayTicks < s'.epoch / dayTicks then dayTick s' else s'

end Sys2Proof.Machine
end

