-- ==== Sys2Proof/WellFormed.lean ====
section
/-! DEFINITION. Which commands are well formed: every operand names a unit that the G9 has, and every list of words has the length of
the packet that carries it. A command that is not well formed cannot be sent. -/

namespace Sys2Proof

/-- A power domain of Table 19-2. -/
def isDomain (d : BitVec 9) : Bool := decide (d.toNat < 420)

/-- A holder of lines: the 64 L2s and the 8 I/O agents (R235). -/
def isHolder (h : BitVec 7) : Bool := decide (h.toNat < 72)

/-- A splice-able block of Table 15-5. -/
def isBlock (b : BitVec 5) : Bool := decide (b.toNat < 31)

/-- Every operand of the command names a unit of the module. -/
def WellFormed (i : Instr) : Bool :=
  match i with
  | .pwrEnRise _ => true
  | .pwrEnFall => true
  | .housekeepingOn _ _ => true
  | .housekeepingOff => true
  | .supplyTrip _ => true
  | .overvoltageShutdown => true
  | .resetNAssert _ => true
  | .resetNRelease => true
  | .moduleReset => true
  | .commissionPress _ _ => true
  | .debugTapInstruction _ => true
  | .refclkLoss _ => true
  | .perstAssert _ => true
  | .perstDeassert _ _ => true
  | .fieldImmunityEvent _ _ _ => true
  | .startupRails _ => true
  | .startupBowlineRom _ => true
  | .startupBowlineImage _ _ => true
  | .startupRigging _ => true
  | .startupVigil sigs => decide (sigs.length = 152)
  | .startupDramTraining _ _ => true
  | .startupCordageLoad _ _ => true
  | .startupCordageInit => true
  | .verify _ => true
  | .rewire _ => true
  | .rewireComplete => true
  | .rewireTimeout => true
  | .store _ _ _ => true
  | .select _ _ => true
  | .startPart _ _ => true
  | .park _ _ => true
  | .parkDrainStart _ => true
  | .parkComplete _ => true
  | .parkDrainTimeout _ => true
  | .resume _ _ => true
  | .reset _ _ => true
  | .registerWrite _ _ _ => true
  | .add _ _ _ _ => true
  | .sub _ _ _ _ => true
  | .and _ _ _ _ => true
  | .or _ _ _ _ => true
  | .xor _ _ _ _ => true
  | .andn _ _ _ _ => true
  | .sll _ _ _ _ => true
  | .srl _ _ _ _ => true
  | .sra _ _ _ _ => true
  | .clt _ _ _ _ => true
  | .cltu _ _ _ _ => true
  | .min _ _ _ _ => true
  | .max _ _ _ _ => true
  | .minu _ _ _ _ => true
  | .maxu _ _ _ _ => true
  | .clz _ _ _ _ => true
  | .popc _ _ _ _ => true
  | .addi _ _ _ _ => true
  | .andi _ _ _ _ => true
  | .ori _ _ _ _ => true
  | .xori _ _ _ _ => true
  | .clti _ _ _ _ => true
  | .cltiu _ _ _ _ => true
  | .slli _ _ _ _ => true
  | .srli _ _ _ _ => true
  | .srai _ _ _ _ => true
  | .immh _ _ _ => true
  | .pcadd _ _ _ => true
  | .luh _ _ _ => true
  | .mul _ _ _ _ => true
  | .mulhi _ _ _ _ => true
  | .mulhiu _ _ _ _ => true
  | .mulhix _ _ _ _ => true
  | .madd _ _ _ _ => true
  | .div _ _ _ _ => true
  | .divu _ _ _ _ => true
  | .rem _ _ _ _ => true
  | .remu _ _ _ _ => true
  | .ld _ _ _ _ => true
  | .lw _ _ _ _ => true
  | .lwu _ _ _ _ => true
  | .lh _ _ _ _ => true
  | .lhu _ _ _ _ => true
  | .lb _ _ _ _ => true
  | .lbu _ _ _ _ => true
  | .lda _ _ _ _ => true
  | .sd _ _ _ _ => true
  | .sw _ _ _ _ => true
  | .sh _ _ _ _ => true
  | .sb _ _ _ _ => true
  | .sdr _ _ _ _ => true
  | .ll _ _ _ _ _ _ _ => true
  | .sc _ _ _ _ _ _ _ => true
  | .atomSwap _ _ _ _ _ _ _ => true
  | .atomAdd _ _ _ _ _ _ _ => true
  | .atomAnd _ _ _ _ _ _ _ => true
  | .atomOr _ _ _ _ _ _ _ => true
  | .atomXor _ _ _ _ _ _ _ => true
  | .atomMax _ _ _ _ _ _ _ => true
  | .atomMin _ _ _ _ _ _ _ => true
  | .atomMaxu _ _ _ _ _ _ _ => true
  | .atomMinu _ _ _ _ _ _ _ => true
  | .fence _ _ _ _ => true
  | .syncI _ _ _ _ => true
  | .xlsync _ _ _ _ => true
  | .beq _ _ _ _ _ => true
  | .bne _ _ _ _ _ => true
  | .blt _ _ _ _ _ => true
  | .bge _ _ _ _ _ => true
  | .bltu _ _ _ _ _ => true
  | .bgeu _ _ _ _ _ => true
  | .j _ _ => true
  | .jlnk _ _ => true
  | .jind _ _ _ _ => true
  | .fadd _ _ _ _ => true
  | .fsub _ _ _ _ => true
  | .fmul _ _ _ _ => true
  | .fdiv _ _ _ _ => true
  | .fsqrt _ _ _ _ => true
  | .fmin _ _ _ _ => true
  | .fmax _ _ _ _ => true
  | .feq _ _ _ _ => true
  | .flt _ _ _ _ => true
  | .fle _ _ _ _ => true
  | .itof _ _ _ _ => true
  | .utof _ _ _ _ => true
  | .ftoi _ _ _ _ => true
  | .ftou _ _ _ _ => true
  | .fcps _ _ _ _ => true
  | .fcpsn _ _ _ _ => true
  | .fmadd _ _ _ _ _ => true
  | .fmsub _ _ _ _ _ => true
  | .fnmadd _ _ _ _ _ => true
  | .fnmsub _ _ _ _ _ => true
  | .vadd _ _ _ _ _ => true
  | .vsub _ _ _ _ _ => true
  | .vand _ _ _ _ _ => true
  | .vor _ _ _ _ _ => true
  | .vxor _ _ _ _ _ => true
  | .vsll _ _ _ _ _ => true
  | .vsrl _ _ _ _ _ => true
  | .vsra _ _ _ _ _ => true
  | .vmul _ _ _ _ _ => true
  | .vfadd _ _ _ _ _ => true
  | .vfsub _ _ _ _ _ => true
  | .vfmul _ _ _ _ _ => true
  | .vfdiv _ _ _ _ _ => true
  | .vfmin _ _ _ _ _ => true
  | .vfmax _ _ _ _ _ => true
  | .vfeq _ _ _ _ _ => true
  | .vflt _ _ _ _ _ => true
  | .vfmadd _ _ _ _ _ => true
  | .vfmsub _ _ _ _ _ => true
  | .vfnmadd _ _ _ _ _ => true
  | .vfnmsub _ _ _ _ _ => true
  | .vld _ _ _ _ => true
  | .vst _ _ _ _ => true
  | .vins _ _ _ _ => true
  | .vext _ _ _ _ => true
  | .vbcast _ _ _ _ => true
  | .psrd _ _ _ _ _ => true
  | .pswr _ _ _ _ _ => true
  | .pscw _ _ _ _ _ => true
  | .pssub _ _ _ _ _ => true
  | .tallyGen _ _ _ _ => true
  | .tallyChk _ _ _ _ => true
  | .tallyPsn _ _ _ _ => true
  | .l0inv _ _ _ => true
  | .l1dClean _ _ _ => true
  | .l1dCleanInvalidate _ _ _ => true
  | .l1dInvalidate _ _ _ => true
  | .l2Clean _ _ _ => true
  | .l2CleanInvalidate _ _ _ => true
  | .llcClean _ _ _ => true
  | .l1iInvalidate _ _ _ => true
  | .l1dCleanInvalidateAll _ _ _ => true
  | .prefetchL1d _ _ _ => true
  | .prefetchL2 _ _ _ => true
  | .guardTighten _ _ _ _ _ => true
  | .waitslot _ _ _ _ _ => true
  | .wcall _ _ _ => true
  | .wret _ _ _ => true
  | .crrd _ _ _ _ => true
  | .crwr _ _ _ _ => true
  | .crset _ _ _ _ => true
  | .crclr _ _ _ _ => true
  | .syscall _ _ _ => true
  | .break _ _ _ => true
  | .rftS _ _ _ => true
  | .rftM _ _ _ => true
  | .wfi _ _ _ => true
  | .interruptTaken _ => true
  | .deadlineTrap _ => true
  | .storeDrain _ => true
  | .loadFill _ => true
  | .waitTableClear _ => true
  | .coreCtxidWrite _ _ _ => true
  | .coreIpiWrite _ _ _ => true
  | .coreThstartGo _ _ _ => true
  | .coreModeBootWrite _ _ _ => true
  | .coreCtlWrite _ _ _ => true
  | .coreL0ctlWrite _ _ _ => true
  | .tallyInjectArm _ _ _ => true
  | .bucketLeak _ => true
  | .flitHcrcFail stop dir _ _ => decide (stop.toNat < 84) && (decide (stop.toNat < 64) || decide (dir = 0))
  | .malformedFlit stop _ => decide (stop.toNat < 84)
  | .credit src dst _ => decide (src.toNat < 84) && decide (dst.toNat < 84)
  | .creditReturnTimeout src dst => decide (src.toNat < 84) && decide (dst.toNat < 84)
  | .rdShared h _ _ => isHolder h
  | .rdOwn h _ => isHolder h
  | .upgrade h _ => isHolder h
  | .rdOnce h _ => isHolder h
  | .wrFull h _ data _ => isHolder h && decide (64 ≤ h.toNat) && decide (data.length = 8)
  | .wrPartial h _ data _ _ => isHolder h && decide (data.length = 8)
  | .wrBack h _ => isHolder h
  | .evictClean h _ => isHolder h
  | .cleanLine h _ => isHolder h
  | .flushLine h _ => isHolder h
  | .snpShared h _ => isHolder h
  | .snpInv h _ => isHolder h
  | .snpRead h _ => isHolder h
  | .snpClean h _ => isHolder h
  | .memRead _ => true
  | .memWrite _ => true
  | .pcNote _ _ => true
  | .pcGather _ _ => true
  | .pcData _ _ _ => true
  | .pcWrite _ _ _ => true
  | .pcRepairRequest _ _ => true
  | .pcRelease _ _ => true
  | .pcAck _ _ => true
  | .pageRebuildStart _ _ => true
  | .noteFilterExpire _ _ => true
  | .rowSparing _ _ _ _ => true
  | .backgroundZeroing _ => true
  | .patrolScrub _ => true
  | .bankRefresh _ _ => true
  | .calibrationWindowStart _ => true
  | .calibrationWindowEnd _ => true
  | .patternTestStart _ _ _ => true
  | .patternTestDone _ _ => true
  | .splitWrite _ _ _ => true
  | .splitRead _ _ _ => true
  | .regRead _ => true
  | .regWrite _ => true
  | .irqSet _ _ _ _ => true
  | .gntS h _ => isHolder h
  | .gntE h _ => isHolder h
  | .gntM h _ => isHolder h
  | .gntUpg h _ => isHolder h
  | .gntSUe h _ => isHolder h
  | .gntEUe h _ => isHolder h
  | .gntMUe h _ => isHolder h
  | .dataOnce h _ => isHolder h
  | .dataOnceUe h _ => isHolder h
  | .refused h _ => isHolder h
  | .denied h _ => isHolder h
  | .missNote h _ => isHolder h
  | .compAck h _ => isHolder h
  | .wrAck h _ => isHolder h
  | .snpRspI h _ => isHolder h
  | .snpRspS h _ => isHolder h
  | .snpRspDataI h _ => isHolder h
  | .snpRspDataKeep h _ => isHolder h
  | .snpRspEvictC h _ => isHolder h
  | .snpRspEvictD h _ => isHolder h
  | .memData _ => true
  | .memDataUe _ => true
  | .memAck _ => true
  | .regData _ => true
  | .regAck _ => true
  | .psRsp _ => true
  | .transactionTimeout _ => true
  | .engineRead _ => true
  | .engineWrite _ _ => true
  | .engineCw _ _ => true
  | .engineSub _ => true
  | .exchangeRead _ _ => true
  | .exchangeWrite _ _ _ _ _ _ _ => true
  | .mirrorWrite _ _ _ _ _ _ => true
  | .entryFetchComplete _ => true
  | .notificationRecord => true
  | .setDeadband _ _ _ => true
  | .peek _ _ => true
  | .nqTailWrite _ _ _ => true
  | .todMessage _ => true
  | .time1ppsEdge ns => decide (ns.toNat < 10)
  | .alignmentHoldover => true
  | .epochStepArm _ => true
  | .timeSourceEnable _ _ => true
  | .slotRelease _ _ => true
  | .slotStart _ _ => true
  | .slotExchange _ _ => true
  | .slotDeadline _ _ => true
  | .calendarStartRunning _ => true
  | .lanyardCycleStart _ _ _ => true
  | .callTransmit _ => true
  | .replyFrame _ _ _ _ => true
  | .plcaBeacon _ => true
  | .plcaLost _ => true
  | .rawRxFrame _ _ _ _ => true
  | .rawTxFrame _ => true
  | .rawTailWrite _ _ _ _ => true
  | .rawResume _ _ => true
  | .rawEnable _ _ _ => true
  | .tightenRequest _ => true
  | .spliceAcquire _ => true
  | .spliceRelease _ => true
  | .spliceDemand _ => true
  | .spliceRevoke b => isBlock b
  | .spliceDrainComplete b => isBlock b
  | .spliceDrainTimeout b => isBlock b
  | .spliceResetComplete b => isBlock b
  | .commission _ => true
  | .revokeOwner _ => true
  | .presenceTimeout => true
  | .slotProgrammingComplete _ => true
  | .advanceRollback _ => true
  | .debugNonce _ => true
  | .debugUnlock _ => true
  | .fwInstall _ _ _ _ => true
  | .fwInstallComplete => true
  | .spdmRelay _ _ => true
  | .secureCallLimit _ => true
  | .hostConfigRequest _ _ _ _ _ => true
  | .bmeClear _ => true
  | .flr _ => true
  | .hotReset _ => true
  | .hostResetComplete _ => true
  | .hostBar0Access _ _ _ _ _ _ _ _ => true
  | .hostBar2Access _ _ _ _ _ _ _ _ _ => true
  | .hostRomRead _ _ _ => true
  | .hostMemoryWrite _ _ _ _ _ _ _ _ => true
  | .hostMemoryRead _ _ _ _ _ _ => true
  | .hostUnsupportedRequest _ _ _ _ => true
  | .hostCompletion _ _ _ _ _ _ _ _ => true
  | .completionTimeout _ _ _ _ _ _ => true
  | .msixSend _ e => decide (e.toNat < 4160)
  | .doeRequest _ _ _ _ => true
  | .doeAbort _ => true
  | .doeResponse _ _ => true
  | .l0sEntry _ => true
  | .l1Entry _ => true
  | .sliceBind _ _ _ => true
  | .sliceUnbind _ _ => true
  | .sliceGrant _ _ _ => true
  | .windowWrite _ _ _ => true
  | .slicePost _ _ _ => true
  | .sliceQuiesce _ _ => true
  | .sliceQuiesced _ => true
  | .sliceReset _ _ => true
  | .sqTailWrite _ _ _ => true
  | .cqHeadWrite _ _ _ => true
  | .qpResume _ _ => true
  | .qpAbort _ _ => true
  | .sqFetch _ _ _ _ data _ _ => decide (data.length = 4)
  | .copyIn _ _ => true
  | .copyOut _ _ => true
  | .psRead _ _ => true
  | .psWrite _ _ _ => true
  | .psCw _ _ _ => true
  | .dmaGo _ _ => true
  | .dmaResume _ _ => true
  | .dmaAbort _ _ => true
  | .descriptorFetch _ => true
  | .dmaBurstBoundary _ => true
  | .dmaRetry _ => true
  | .hcprsChange _ _ => true
  | .hawserTrained _ => true
  | .hawserTrainingTimeout _ => true
  | .hawserHello _ _ _ _ _ _ => true
  | .hawserLinkLoss _ => true
  | .hawserReplay _ _ => true
  | .hawserInboundRequest _ _ _ _ _ _ _ _ _ => true
  | .hawserResponse _ _ _ _ _ _ _ => true
  | .staleWindow _ _ _ => true
  | .windowCommit _ _ _ => true
  | .announce _ _ => true
  | .announceAck _ => true
  | .announceTimeout _ => true
  | .hawserTimeRequest _ => true
  | .hawserTimeAnswer _ _ _ _ _ => true
  | .mirroredWrite _ _ _ _ _ _ _ => true
  | .domainOn _ _ dom => isDomain dom
  | .domainOff _ _ dom => isDomain dom
  | .clkStop _ _ dom => isDomain dom
  | .clkRun _ _ dom => isDomain dom
  | .step _ _ dom _ => isDomain dom
  | .domainSwitchComplete dom => isDomain dom
  | .coreGate _ => true
  | .coreUngate _ => true
  | .sensorSample temps _ _ _ _ _ => decide (temps.length = 420)
  | .throttleStep => true
  | .tripDomainsOff => true
  | .tripFlushComplete => true
  | .clkRootLockLoss => true
  | .clkRootRelockTimeout => true
  | .solsticePassStart => true
  | .solCmdStart _ => true
  | .solsticeHold d => isDomain d
  | .solsticeMeasure _ => true
  | .solsticeSkip d => isDomain d
  | .managementSnapshot => true
  | .mctpMessage _ => true
  | .getView _ => true
  | .powerRequest _ _ dom _ => isDomain dom
  | .solsticeStart _ => true
  | .vigilStart _ _ => true
  | .vigilAbort _ => true
  | .vigilRunComplete _ => true
  | .recordAccept _ _ _ _ _ _ _ => true
  | .almanacMirrorRecord _ _ => true
  | .almSeekWrite _ _ => true
  | .epochCompareMatch _ => true
  | .hostLinkUp _ width speed => (decide (width = 4) || decide (width = 8) || decide (width = 16)) && decide (speed ≠ 0) && decide (speed.toNat ≤ 5)
  | .electricalIdleExit _ => true
  | .smbusAlertResponse => true
  | .peerTimeRequest _ _ _ _ => true

end Sys2Proof
end

