-- ==== Sys2Proof/Safety.lean ====
section
/-! DEFINITION. The terms in which claims about the machine are stated: a thread that begins an instruction, its completion, sound
words, the canonical form of stored data, and what an instruction may leave changed. -/

namespace Sys2Proof.Machine

/-- Thread `t` begins an instruction: it stands in RUN in a partition that is not draining, nothing of it waits, nothing is taken
before it at this boundary (R132), and the fetch at its pc (R55, R140, R173, R361) raises nothing and leaves `s'`. -/
structure Ready (s : State) (t : Nat) (s' : State) : Prop where
  running : (thr s t).run = .run
  notDraining : draining s t = false
  noWait : (thr s t).wait = none
  quiet : boundaryTrap s t = false
  fetched : instrFetch s t = (none, s')

/-- The instruction completes in `s`: the pc moves past it, and it is counted. -/
def finish (s : State) (t uops : Nat) (breaks : Bool) : State := commitCount (retire s t) t uops breaks

/-- The instruction ends in cause `c` with trap value `v` (R133): what it waited for and what it owed the counters is gone. -/
def trapped (s : State) (t c : Nat) (v : Word) : State :=
  trapEnter (updThr s t (fun x => { x with wait := none, owed := [] })) t c false v

/-- The general register holds a sound word (R137). -/
def SoundReg (s : State) (t : Nat) (r : BitVec 6) : Prop := isSound (rg s t r) = true

/-- Every lane of the vector register holds a sound word (R137). -/
def SoundVec (s : State) (t : Nat) (r : BitVec 5) : Prop := ∀ x ∈ lanes s t r, isSound x = true

/-- The stored bytes, tallies and codes are in canonical form: equal contents are equal lists. -/
def CanonicalMemory (s : State) : Prop :=
  Memory.wf s.mem = true ∧ SMap.wf (fun _ => 0) s.memTally = true ∧ SMap.wf (fun _ => 0) s.memSyn = true

/-- Nothing but thread `t`, the registers and the Almanac of the module differs: every byte of DRAM with its tally and code, every
cache and every other thread stands as it was. -/
structure OnlyThread (s s2 : State) (t : Nat) : Prop where
  mem : ∀ a, memByte s2 a = memByte s a
  tally : s2.memTally = s.memTally
  syn : s2.memSyn = s.memSyn
  others : ∀ u, u ≠ t → thr s2 u = thr s u
  cores : s2.cores = s.cores
  quads : s2.quads = s.quads
  slices : s2.slices = s.slices
  points : s2.ps = s.ps
  stoppers : s2.stoppers = s.stoppers

/-- How many units have a block of registers of this kind (Table 2-6). -/
def blkUnits : Blk → Nat
  | .core => 256
  | .quad => 64
  | .slc => 64
  | .mch => 16
  | .fbay => 8
  | .host => 2
  | .haws => 4
  | _ => 1

/-- A field's value after a write of `v` over `old`, by its access code (Table 0-5): RW takes the value, W1C clears and W1S sets
where the value has a one, and any other field stands. -/
def fieldAfter (a : Acc) (old v : Word) (hi lo : Nat) : Nat :=
  match a with
  | .rw => fieldN v hi lo
  | .rwl => fieldN v hi lo
  | .w1c => fieldN (old &&& ~~~ v) hi lo
  | .w1s => fieldN (old ||| v) hi lo
  | _ => fieldN old hi lo

end Sys2Proof.Machine
end

