-- ==== Sys2Proof/Certificates/Slice0/Obligations.lean ====
section
/-! DEFINITION. The statements for the provers: what the commands do, from the numbered rules of the spec. -/

section

open Sys2Proof Sys2Proof.Machine

/-! ### The queue -/

/-- A step runs the command at the front of the queue on the state with the queue's rest. -/
def Obligations.StepRunsFront : Prop :=
  ∀ (s : State) (c : Instr) (r : List Instr), s.pending = c :: r → step s = exec c { s with pending := r }

/-- With no command waiting and the rails on, one EPOCHCLK cycle adds 1 + RATE × 2^−32 to CLK_EPOCH with its fraction, modulo 2^64;
that a step of an empty queue is such a cycle is the model's choice (log 1). -/
def Obligations.IdleStepCountsEpoch : Prop :=
  ∀ s : State, s.pending = [] → s.boot.rails = true → s.epochFrac < 2 ^ 32 → -(2 ^ 31 : Int) ≤ epochRate s →
    ∃ s', step s = .next s' ∧ s'.epochFrac < 2 ^ 32 ∧ s'.pending = [] ∧
      ((s'.epoch : Int) * 2 ^ 32 + s'.epochFrac - ((s.epoch : Int) * 2 ^ 32 + s.epochFrac + 2 ^ 32 + epochRate s)) % 2 ^ 96 = 0

/-! ### Integer instructions (R98, R142, R146–R149) -/

/-- The predicted tallies of Table 5-5 are the tallies of the results, for sound operands. -/
def Obligations.PredictedTalliesExact : Prop :=
  ∀ a b d : TWord, isSound a = true → isSound b = true → isSound d = true →
    predAdd a b = tallyOf (a.val + b.val) ∧ predSub a b = tallyOf (a.val - b.val) ∧
    (∀ n < 64, predShl a n = tallyOf (a.val <<< n)) ∧ predMadd d a b = tallyOf (d.val + a.val * b.val)

/-- ADD, SUB, SLL, MUL, MADD, ADDI, SLLI, IMMH and PCADD complete on sound operands with no injection armed: gd takes the result of
Table 4-8 with its own tally, and the pc moves on. -/
def Obligations.IntegerResidueCompletes : Prop :=
  ∀ (s s' : State) (t : BitVec 10) (gd ga gb : BitVec 6), Ready s t.toNat s' → SoundReg s' t.toNat ga → SoundReg s' t.toNat gb →
    injArmed s' t.toNat 1 = false →
    let a := (rg s' t.toNat ga).val
    let b := (rg s' t.toNat gb).val
    let done (v : Word) : Host.Outcome State Fault Refusal := .next (finish (wg s' t.toNat gd (gen v)) t.toNat 1 false)
    exec (.add t gd ga gb) s = done (a + b) ∧ exec (.sub t gd ga gb) s = done (a - b) ∧
    exec (.sll t gd ga gb) s = done (a <<< (b.toNat % 64)) ∧ exec (.mul t gd ga gb) s = done (a * b) ∧
    (SoundReg s' t.toNat gd → exec (.madd t gd ga gb) s = done ((rg s' t.toNat gd).val + a * b)) ∧
    (∀ imm : BitVec 14, exec (.addi t gd ga imm) s = done (a + BitVec.signExtend 64 imm)) ∧
    (∀ imm : BitVec 12, imm.toNat < 64 → exec (.slli t gd ga imm) s = done (a <<< imm.toNat)) ∧
    (∀ imm : BitVec 20, exec (.immh t gd imm) s = done (BitVec.signExtend 64 imm <<< 12)) ∧
    (∀ imm : BitVec 20, exec (.pcadd t gd imm) s = done ((thr s' t.toNat).pc + (BitVec.signExtend 64 imm <<< 12)))

/-- The logical, shift-right, compare, minimum, maximum, count and high-multiply instructions complete on sound operands with no
injection armed: gd takes the result with a generated tally. -/
def Obligations.IntegerShadowCompletes : Prop :=
  ∀ (s s' : State) (t : BitVec 10) (gd ga gb : BitVec 6), Ready s t.toNat s' → SoundReg s' t.toNat ga → SoundReg s' t.toNat gb →
    injArmed s' t.toNat 2 = false →
    let a := (rg s' t.toNat ga).val
    let b := (rg s' t.toNat gb).val
    let done (v : Word) : Host.Outcome State Fault Refusal := .next (finish (wg s' t.toNat gd (gen v)) t.toNat 1 false)
    exec (.and t gd ga gb) s = done (a &&& b) ∧ exec (.or t gd ga gb) s = done (a ||| b) ∧
    exec (.xor t gd ga gb) s = done (a ^^^ b) ∧ exec (.andn t gd ga gb) s = done (a &&& ~~~ b) ∧
    exec (.srl t gd ga gb) s = done (a >>> (b.toNat % 64)) ∧ exec (.sra t gd ga gb) s = done (BitVec.sshiftRight a (b.toNat % 64)) ∧
    exec (.clt t gd ga gb) s = done (if a.toInt < b.toInt then 1 else 0) ∧
    exec (.cltu t gd ga gb) s = done (if a.toNat < b.toNat then 1 else 0) ∧
    exec (.min t gd ga gb) s = done (if a.toInt ≤ b.toInt then a else b) ∧
    exec (.max t gd ga gb) s = done (if a.toInt ≤ b.toInt then b else a) ∧
    exec (.minu t gd ga gb) s = done (if a.toNat ≤ b.toNat then a else b) ∧
    exec (.maxu t gd ga gb) s = done (if a.toNat ≤ b.toNat then b else a) ∧
    exec (.clz t gd ga 0) s = done (BitVec.ofNat 64 (64 - bitLen a.toNat)) ∧
    exec (.popc t gd ga 0) s = done (BitVec.ofNat 64 (onesBelow 64 a.toNat).length) ∧
    exec (.mulhi t gd ga gb) s = done (BitVec.ofInt 64 (a.toInt * b.toInt / 2 ^ 64)) ∧
    exec (.mulhiu t gd ga gb) s = done (BitVec.ofInt 64 (a.toNat * b.toNat / 2 ^ 64)) ∧
    exec (.mulhix t gd ga gb) s = done (BitVec.ofInt 64 (a.toInt * b.toNat / 2 ^ 64)) ∧
    (∀ imm : BitVec 14, let i := BitVec.signExtend 64 imm
      exec (.andi t gd ga imm) s = done (a &&& i) ∧ exec (.ori t gd ga imm) s = done (a ||| i) ∧
      exec (.xori t gd ga imm) s = done (a ^^^ i) ∧ exec (.clti t gd ga imm) s = done (if a.toInt < i.toInt then 1 else 0) ∧
      exec (.cltiu t gd ga imm) s = done (if a.toNat < i.toNat then 1 else 0)) ∧
    (∀ imm : BitVec 12, imm.toNat < 64 → exec (.srli t gd ga imm) s = done (a >>> imm.toNat) ∧
      exec (.srai t gd ga imm) s = done (BitVec.sshiftRight a imm.toNat)) ∧
    (∀ imm : BitVec 20, SoundReg s' t.toNat gd →
      exec (.luh t gd imm) s = done (((rg s' t.toNat gd).val &&& 0xFFFFFFFF#64) ||| (BitVec.signExtend 64 imm <<< 32)))

/-- DIV, DIVU, REM and REMU complete: the quotient rounds toward zero and the remainder takes the dividend's sign; a zero divisor
with FLAGS.DZT = 0 gives all ones and the dividend; with DZT = 1 it raises cause 0x11. -/
def Obligations.DivideCompletes : Prop :=
  ∀ (s s' : State) (t : BitVec 10) (gd ga gb : BitVec 6), Ready s t.toNat s' → SoundReg s' t.toNat ga → SoundReg s' t.toNat gb →
    injArmed s' t.toNat 2 = false →
    let a := (rg s' t.toNat ga).val
    let b := (rg s' t.toNat gb).val
    let done (v : Word) : Host.Outcome State Fault Refusal := .next (finish (wg s' t.toNat gd (gen v)) t.toNat 1 false)
    let trap : Host.Outcome State Fault Refusal := .next (trapped s' t.toNat 0x11 0)
    (b ≠ 0 → exec (.div t gd ga gb) s = done (BitVec.ofInt 64 (Int.tdiv a.toInt b.toInt)) ∧
      exec (.divu t gd ga gb) s = done (BitVec.ofNat 64 (a.toNat / b.toNat)) ∧
      exec (.rem t gd ga gb) s = done (BitVec.ofInt 64 (Int.tmod a.toInt b.toInt)) ∧
      exec (.remu t gd ga gb) s = done (BitVec.ofNat 64 (a.toNat % b.toNat))) ∧
    (b = 0 → bit (thr s' t.toNat).flags 8 = false →
      exec (.div t gd ga gb) s = done (BitVec.allOnes 64) ∧ exec (.divu t gd ga gb) s = done (BitVec.allOnes 64) ∧
      exec (.rem t gd ga gb) s = done a ∧ exec (.remu t gd ga gb) s = done a) ∧
    (b = 0 → bit (thr s' t.toNat).flags 8 = true →
      exec (.div t gd ga gb) s = trap ∧ exec (.divu t gd ga gb) s = trap ∧
      exec (.rem t gd ga gb) s = trap ∧ exec (.remu t gd ga gb) s = trap)

/-- A poisoned source of an integer instruction raises cause 0x05 with its index in TVAL, and a failed one raises cause 0x03; no
register is written by it. -/
def Obligations.IntegerBadOperandTraps : Prop :=
  ∀ (s s' : State) (t : BitVec 10) (gd ga gb : BitVec 6) (i : Instr),
    (i ∈ [Instr.add t gd ga gb, .sub t gd ga gb, .sll t gd ga gb, .mul t gd ga gb, .and t gd ga gb, .or t gd ga gb, .xor t gd ga gb,
      .andn t gd ga gb, .srl t gd ga gb, .sra t gd ga gb, .clt t gd ga gb, .cltu t gd ga gb, .min t gd ga gb, .max t gd ga gb,
      .minu t gd ga gb, .maxu t gd ga gb, .mulhi t gd ga gb, .mulhiu t gd ga gb, .mulhix t gd ga gb]) →
    Ready s t.toNat s' →
    (isPoisoned (rg s' t.toNat ga) = true → exec i s = .next (trapped s' t.toNat 0x05 0)) ∧
    (isPoisoned (rg s' t.toNat ga) = false → isPoisoned (rg s' t.toNat gb) = true → exec i s = .next (trapped s' t.toNat 0x05 1)) ∧
    (isPoisoned (rg s' t.toNat ga) = false → isPoisoned (rg s' t.toNat gb) = false →
      (isFailed (rg s' t.toNat ga) = true ∨ isFailed (rg s' t.toNat gb) = true) → ∃ w : Word, exec i s = .next (trapped s' t.toNat 0x03 w))

/-- The frame of the integer instructions that complete: only gd changes among the general registers of the thread; its vector
registers, FLAGS, control registers, level, world, store buffer and reservation stand, and so do memory, the caches, the points, the
stoppers and every other thread. -/
def Obligations.IntegerFrame : Prop :=
  ∀ (s s' s2 : State) (t : BitVec 10) (gd ga gb : BitVec 6) (i : Instr),
    (i ∈ [Instr.add t gd ga gb, .sub t gd ga gb, .sll t gd ga gb, .mul t gd ga gb, .and t gd ga gb, .or t gd ga gb, .xor t gd ga gb,
      .andn t gd ga gb, .srl t gd ga gb, .sra t gd ga gb, .clt t gd ga gb, .cltu t gd ga gb, .min t gd ga gb, .max t gd ga gb,
      .minu t gd ga gb, .maxu t gd ga gb, .mulhi t gd ga gb, .mulhiu t gd ga gb, .mulhix t gd ga gb]) →
    Ready s t.toNat s' → SoundReg s' t.toNat ga → SoundReg s' t.toNat gb → injArmed s' t.toNat 1 = false → injArmed s' t.toNat 2 = false →
    exec i s = .next s2 →
    OnlyThread s' s2 t.toNat ∧ (∀ r, r ≠ gd → rg s2 t.toNat r = rg s' t.toNat r) ∧ (∀ r k, rv s2 t.toNat r k = rv s' t.toNat r k) ∧
    ((thr s' t.toNat).slot = .none → (thr s2 t.toNat).pc = (thr s' t.toNat).pc + 4) ∧ (thr s2 t.toNat).flags = (thr s' t.toNat).flags ∧
    (thr s2 t.toNat).m = (thr s' t.toNat).m ∧ (thr s2 t.toNat).sN = (thr s' t.toNat).sN ∧ (thr s2 t.toNat).sS = (thr s' t.toNat).sS ∧
    (thr s2 t.toNat).level = (thr s' t.toNat).level ∧ (thr s2 t.toNat).world = (thr s' t.toNat).world ∧
    (thr s2 t.toNat).stores = (thr s' t.toNat).stores ∧ (thr s2 t.toNat).resv = (thr s' t.toNat).resv

/-! ### Floating point, vectors and tallies (R99, R121, R148, R157, R158) -/

/-- The scalar floating-point instructions complete on sound operands under rounding modes 0 to 4 with no injection armed: gd takes the
result of IEEE 754 binary64 with a generated tally, and FLAGS accrues its exceptions. -/
def Obligations.FloatCompletes : Prop :=
  ∀ (s s' : State) (t : BitVec 10) (gd ga gb gc : BitVec 6), Ready s t.toNat s' → SoundReg s' t.toNat ga → SoundReg s' t.toNat gb →
    SoundReg s' t.toNat gc → injArmed s' t.toNat 2 = false → flagsRM s' t.toNat ≤ 4 →
    let a := (rg s' t.toNat ga).val
    let b := (rg s' t.toNat gb).val
    let c := (rg s' t.toNat gc).val
    let rm := flagsRM s' t.toNat
    let done (r : Word × Word) : Host.Outcome State Fault Refusal :=
      .next (finish (wg (accrue s' t.toNat r.2) t.toNat gd (gen r.1)) t.toNat 1 false)
    exec (.fadd t gd ga gb) s = done (fAdd rm a b) ∧ exec (.fsub t gd ga gb) s = done (fSub rm a b) ∧
    exec (.fmul t gd ga gb) s = done (fMul rm a b) ∧ exec (.fdiv t gd ga gb) s = done (fDiv rm a b) ∧
    exec (.fsqrt t gd ga 0) s = done (fSqrt rm a) ∧ exec (.fmin t gd ga gb) s = done (fMinMax false a b) ∧
    exec (.fmax t gd ga gb) s = done (fMinMax true a b) ∧
    exec (.feq t gd ga gb) s = done (if (fEq a b).1 then 1 else 0, (fEq a b).2) ∧
    exec (.flt t gd ga gb) s = done (if (fLt a b).1 then 1 else 0, (fLt a b).2) ∧
    exec (.fle t gd ga gb) s = done (if (fLe a b).1 then 1 else 0, (fLe a b).2) ∧
    exec (.itof t gd ga 0) s = done (fOfInt rm a) ∧ exec (.utof t gd ga 0) s = done (fOfNat rm a) ∧
    exec (.ftoi t gd ga 0) s = done (fToInt true rm a) ∧ exec (.ftou t gd ga 0) s = done (fToInt false rm a) ∧
    exec (.fcps t gd ga gb) s = done (fCopySign false a b, 0) ∧ exec (.fcpsn t gd ga gb) s = done (fCopySign true a b, 0) ∧
    exec (.fmadd t gd ga gb gc) s = done (fMulAdd rm false false a b c) ∧
    exec (.fmsub t gd ga gb gc) s = done (fMulAdd rm false true a b c) ∧
    exec (.fnmadd t gd ga gb gc) s = done (fMulAdd rm true true a b c) ∧
    exec (.fnmsub t gd ga gb gc) s = done (fMulAdd rm true false a b c)

/-- The vector instructions complete on sound lanes: each lane of vd takes the operation of the sources' lanes, with its own tally, and
FLAGS accrues the exceptions of all four lanes. -/
def Obligations.VectorCompletes : Prop :=
  ∀ (s s' : State) (t : BitVec 10) (vd va vb vc : BitVec 5), Ready s t.toNat s' → SoundVec s' t.toNat va → SoundVec s' t.toNat vb →
    SoundVec s' t.toNat vc → injArmed s' t.toNat 1 = false → injArmed s' t.toNat 2 = false → flagsRM s' t.toNat ≤ 4 →
    let a := lanes s' t.toNat va
    let b := lanes s' t.toNat vb
    let c := lanes s' t.toNat vc
    let rm := flagsRM s' t.toNat
    let done (l : List (Word × Word)) : Host.Outcome State Fault Refusal :=
      .next (finish (wvAll (accrue s' t.toNat (l.foldl (fun x e => x ||| e.2) 0)) t.toNat vd (l.map (fun e => gen e.1))) t.toNat 1 false)
    let plain (f : Word → Word → Word) : Host.Outcome State Fault Refusal :=
      .next (finish (wvAll s' t.toNat vd ((a.zip b).map (fun e => gen (f e.1.val e.2.val)))) t.toNat 1 false)
    let two (f : Word → Word → Word × Word) : Host.Outcome State Fault Refusal := done ((a.zip b).map (fun e => f e.1.val e.2.val))
    let three (p n : Bool) : Host.Outcome State Fault Refusal :=
      done (((a.zip b).zip c).map (fun e => fMulAdd rm p n e.1.1.val e.1.2.val e.2.val))
    exec (.vadd t vd va vb 0) s = plain (· + ·) ∧ exec (.vsub t vd va vb 0) s = plain (· - ·) ∧
    exec (.vsll t vd va vb 0) s = plain (fun x y => x <<< (y.toNat % 64)) ∧ exec (.vmul t vd va vb 0) s = plain (· * ·) ∧
    exec (.vand t vd va vb 0) s = two (fun x y => (x &&& y, 0)) ∧ exec (.vor t vd va vb 0) s = two (fun x y => (x ||| y, 0)) ∧
    exec (.vxor t vd va vb 0) s = two (fun x y => (x ^^^ y, 0)) ∧
    exec (.vsrl t vd va vb 0) s = two (fun x y => (x >>> (y.toNat % 64), 0)) ∧
    exec (.vsra t vd va vb 0) s = two (fun x y => (BitVec.sshiftRight x (y.toNat % 64), 0)) ∧
    exec (.vfadd t vd va vb 0) s = two (fAdd rm) ∧ exec (.vfsub t vd va vb 0) s = two (fSub rm) ∧
    exec (.vfmul t vd va vb 0) s = two (fMul rm) ∧ exec (.vfdiv t vd va vb 0) s = two (fDiv rm) ∧
    exec (.vfmin t vd va vb 0) s = two (fMinMax false) ∧ exec (.vfmax t vd va vb 0) s = two (fMinMax true) ∧
    exec (.vfeq t vd va vb 0) s = two (fun x y => (if (fEq x y).1 then BitVec.allOnes 64 else 0, (fEq x y).2)) ∧
    exec (.vflt t vd va vb 0) s = two (fun x y => (if (fLt x y).1 then BitVec.allOnes 64 else 0, (fLt x y).2)) ∧
    exec (.vfmadd t vd va vb vc) s = three false false ∧ exec (.vfmsub t vd va vb vc) s = three false true ∧
    exec (.vfnmadd t vd va vb vc) s = three true true ∧ exec (.vfnmsub t vd va vb vc) s = three true false

/-- VINS, VEXT, VBCAST and the tally instructions complete: moves carry the word, TALLY.GEN generates and raises cause 0x05 for a
poisoned operand, TALLY.CHK answers 0, 1 or 2 and TALLY.PSN poisons, neither ever raising 0x03, 0x04 or 0x05; gb is reserved in all
three. -/
def Obligations.MovesAndTalliesComplete : Prop :=
  ∀ (s s' : State) (t : BitVec 10) (vd : BitVec 5) (gd ga gb : BitVec 6) (lane : BitVec 2), Ready s t.toNat s' →
    injArmed s' t.toNat 1 = false → injArmed s' t.toNat 2 = false →
    let done (x : State) : Host.Outcome State Fault Refusal := .next (finish x t.toNat 1 false)
    let trap (c : Nat) (v : Word) : Host.Outcome State Fault Refusal := .next (trapped s' t.toNat c v)
    let a := rg s' t.toNat ga
    (isFailed a = false → exec (.vins t vd ga lane) s = done (wv s' t.toNat vd lane.toNat a) ∧
      exec (.vbcast t vd ga 0) s = done (wvAll s' t.toNat vd (List.replicate 4 a))) ∧
    (isFailed (rv s' t.toNat vd lane.toNat) = false → exec (.vext t vd gd lane) s = done (wg s' t.toNat gd (rv s' t.toNat vd lane.toNat))) ∧
    (isPoisoned a = false → exec (.tallyGen t gd ga 0) s = done (wg s' t.toNat gd (gen a.val))) ∧
    exec (.tallyChk t gd ga 0) s = done (wg s' t.toNat gd (gen (if isPoisoned a then 2 else if isSound a then 0 else 1))) ∧
    exec (.tallyPsn t gd ga 0) s = done (wg s' t.toNat gd (poison a.val)) ∧
    (isPoisoned a = true → exec (.tallyGen t gd ga 0) s = trap 0x05 0) ∧
    (gb ≠ 0 → (∃ v, exec (.tallyGen t gd ga gb) s = trap 0x08 v) ∧ (∃ v, exec (.tallyChk t gd ga gb) s = trap 0x08 v) ∧
      (∃ v, exec (.tallyPsn t gd ga gb) s = trap 0x08 v))

/-! ### Loads, stores and atomics (R112–R117, R142, R152–R156) -/

/-- A cacheable load whose word is found completes: gd takes the word itself, sound or poisoned (R159), or its bytes extended as the
instruction says with a generated tally, poisoned where the word is; from an address that nothing holds it takes 0 with tally 0xFF and
the access is recorded (R54). -/
def Obligations.LoadCompletes : Prop :=
  ∀ (s s' s1 s2 : State) (t : BitVec 10) (gd ga : BitVec 6) (imm : BitVec 14) (pa : Nat) (x : TWord), Ready s t.toNat s' →
    injArmed s2 t.toNat 1 = false → injArmed s2 t.toNat 2 = false → isFailed x = false →
    let va := (rg s' t.toNat ga).val + BitVec.signExtend 64 imm
    let claim (i : Instr) (op size : Nat) (signed : Bool) : Prop :=
      (memPre s' t.toNat (encI op gd ga imm) .load [(0, rg s' t.toNat ga)] [rg s' t.toNat ga] va size (size ≠ 8) false = .go pa (.mem true) false s1 →
        cacheLoad s1 t.toNat i va pa size = .words [x] s2 →
        exec i s = .next (finish (strideTrain (wg s2 t.toNat gd
          (if size = 8 then x else if isPoisoned x then poison (extract x.val pa size signed) else gen (extract x.val pa size signed)))
          t.toNat (thr s2 t.toNat).pc pa) t.toNat 1 false)) ∧
      (memPre s' t.toNat (encI op gd ga imm) .load [(0, rg s' t.toNat ga)] [rg s' t.toNat ga] va size (size ≠ 8) false = .go pa .unmapped false s1 →
        exec i s = .next (finish (wg (threadUnmapped s1 t.toNat 1 pa) t.toNat gd (poison 0)) t.toNat 1 false))
    claim (.ld t gd ga imm) 0x10 8 false ∧
    ((thr s' t.toNat).stores.any (fun e => e.rel) = false → claim (.lda t gd ga imm) 0x17 8 false) ∧
    claim (.lw t gd ga imm) 0x11 4 true ∧ claim (.lwu t gd ga imm) 0x12 4 false ∧
    claim (.lh t gd ga imm) 0x13 2 true ∧ claim (.lhu t gd ga imm) 0x14 2 false ∧
    claim (.lb t gd ga imm) 0x15 1 true ∧ claim (.lbu t gd ga imm) 0x16 1 false

/-- A cacheable store with room in the store buffer completes: it retires as the youngest entry of the thread's store buffer, with the
bytes of its size, and stores nothing yet; a poisoned word is carried (Table 5-7). At an address that nothing holds it is discarded and
recorded (R54). -/
def Obligations.StoreCompletes : Prop :=
  ∀ (s s' s1 : State) (t : BitVec 10) (gs ga : BitVec 6) (imm : BitVec 14) (pa : Nat), Ready s t.toNat s' →
    injArmed s1 t.toNat 1 = false → isFailed (rg s' t.toNat gs) = false →
    let va := (rg s' t.toNat ga).val + BitVec.signExtend 64 imm
    let claim (i : Instr) (op size : Nat) (rel : Bool) : Prop :=
      let pre := memPre s' t.toNat (encI op gs ga imm) .store [(0, rg s' t.toNat ga)] [rg s' t.toNat ga, rg s' t.toNat gs] va size (size ≠ 8) false
      (pre = .go pa (.mem true) false s1 → storeRoom s1 t.toNat 1 = true →
        exec i s = .next (finish (updThr s1 t.toNat (fun x => { x with stores := x.stores ++ [storeEntry pa size (rg s' t.toNat gs) rel] })) t.toNat 1 false)) ∧
      (pre = .go pa .unmapped false s1 → (rel = true → (thr s1 t.toNat).stores = []) → storesOverlap (thr s1 t.toNat) pa size = false →
        exec i s = .next (finish (threadUnmapped s1 t.toNat 2 pa) t.toNat 1 false))
    claim (.sd t gs ga imm) 0x18 8 false ∧ claim (.sw t gs ga imm) 0x19 4 false ∧ claim (.sh t gs ga imm) 0x1A 2 false ∧
    claim (.sb t gs ga imm) 0x1B 1 false ∧ claim (.sdr t gs ga imm) 0x1C 8 true

/-- VLD and VST complete as four word accesses: the lanes take the words found, or the words enter the store buffer in rising order. -/
def Obligations.VectorMemoryCompletes : Prop :=
  ∀ (s s' s1 s2 : State) (t : BitVec 10) (vd : BitVec 5) (ga : BitVec 6) (imm : BitVec 14) (pa : Nat) (l : List TWord), Ready s t.toNat s' →
    let va := (rg s' t.toNat ga).val + (BitVec.signExtend 64 imm <<< 5)
    (memPre s' t.toNat (encVM vd ga false imm) .load [(0, rg s' t.toNat ga)] [rg s' t.toNat ga] va 32 true false = .go pa (.mem true) false s1 →
      cacheLoad s1 t.toNat (.vld t vd ga imm) va pa 32 = .words l s2 → (∀ x ∈ l, isFailed x = false) → injArmed s2 t.toNat 1 = false →
      exec (.vld t vd ga imm) s = .next (finish (strideTrain (wvAll s2 t.toNat vd l) t.toNat (thr s2 t.toNat).pc pa) t.toNat 1 false)) ∧
    (memPre s' t.toNat (encVM vd ga true imm) .store [(0, rg s' t.toNat ga)] (rg s' t.toNat ga :: lanes s' t.toNat vd) va 32 true false
        = .go pa (.mem true) false s1 →
      (∀ x ∈ lanes s' t.toNat vd, isFailed x = false) → injArmed s1 t.toNat 1 = false → storeRoom s1 t.toNat 4 = true →
      exec (.vst t vd ga imm) s = .next (finish (updThr s1 t.toNat (fun x =>
        { x with stores := x.stores ++ (List.range 4).map (fun j =>
          { storeEntry (pa + 8 * j) 8 ((lanes s' t.toNat vd).getD j TWord.zero) false with vec := true }) }))
        t.toNat 1 false))

/-- LL reserves the line it loads from, where its L1D then holds it; SC with the reservation on its line stores gb and writes 0; SC
without it writes 1; both end the reservation. The 32-bit forms take and merge the half that the address names. -/
def Obligations.LoadReserveStoreConditional : Prop :=
  ∀ (s s' s1 s2 : State) (t : BitVec 10) (gd ga gb : BitVec 6) (aq rl wide : Bool) (pa : Nat) (x : TWord), Ready s t.toNat s' →
    (rl = true → (thr s' t.toNat).stores = [] ∧ (thr s1 t.toNat).stores = []) →
    let va := (rg s' t.toNat ga).val
    let size := if wide then 4 else 8
    (memPre s' t.toNat (encR 0x1D gd ga gb (atomFn aq rl wide 0)) .store [(0, rg s' t.toNat ga)] [rg s' t.toNat ga] (va + 0) size (size ≠ 8) true
        = .go pa (.mem true) false s1 → storesOverlap (thr s1 t.toNat) pa size = false →
      cacheLoad s1 t.toNat (.ll t gd ga gb aq rl wide) (va + 0) pa size = .words [x] s2 → isSound x = true →
      injArmed s2 t.toNat 1 = false → injArmed s2 t.toNat 2 = false →
      let s3 := strideTrain (wg s2 t.toNat gd (if wide then gen (extract x.val pa 4 true) else x)) t.toNat (thr s2 t.toNat).pc pa
      exec (.ll t gd ga gb aq rl wide) s = .next (finish (updThr s3 t.toNat (fun y =>
        { y with resv := if (l1d s3 (t.toNat / 4) (pa / 64)).isSome then some (pa / 64) else none })) t.toNat 1 false)) ∧
    (memPre s' t.toNat (encR 0x1D gd ga gb (atomFn aq rl wide 1)) .store [(0, rg s' t.toNat ga)] [rg s' t.toNat ga, rg s' t.toNat gb] va size false true
        = .go pa (.mem true) false s1 → storesOverlap (thr s1 t.toNat) pa size = false →
      ((thr s1 t.toNat).resv ≠ some (pa / 64) → exec (.sc t gd ga gb aq rl wide) s
        = .next (finish (wg (updThr s1 t.toNat (fun y => { y with resv := none })) t.toNat gd (gen 1)) t.toNat 2 false)) ∧
      ((thr s1 t.toNat).resv = some (pa / 64) → ownLine s1 t.toNat (pa / 64) = (true, s2) → isSound (rg s' t.toNat gb) = true →
        injArmed s2 t.toNat 1 = false → wide = false → exec (.sc t gd ga gb aq rl wide) s
        = .next (finish (wg (updThr (storeWord s2 t.toNat (pa / 8) (rg s' t.toNat gb)) t.toNat (fun y => { y with resv := none })) t.toNat gd (gen 0)) t.toNat 2 false)) ∧
      (∀ s3, (thr s1 t.toNat).resv = some (pa / 64) → ownLine s1 t.toNat (pa / 64) = (true, s2) → isSound (rg s' t.toNat gb) = true → wide = true →
        l1dErrors s2 (t.toNat / 4) (pa / 64) (pa / 8 % 8) = (false, s3) → isSound (ownedWord s3 t.toNat (pa / 8)) = true → injArmed s3 t.toNat 2 = false →
        let e := storeEntry pa 4 (rg s' t.toNat gb) false
        exec (.sc t gd ga gb aq rl wide) s = .next (finish (wg (updThr (storeWord s3 t.toNat (pa / 8)
          (mergeWord (ownedWord s3 t.toNat (pa / 8)) e.placed.val false e.mask false).1) t.toNat (fun y => { y with resv := none })) t.toNat gd (gen 0)) t.toNat 2 false)))

/-- An atomic on an owned line completes: gd takes the old word, and the word takes the combination of Table 4-12 with its own
tally; the 32-bit form combines the halves, sign-extended, and merges the low 32 bits of the result into the containing word. -/
def Obligations.AtomicCompletes : Prop :=
  ∀ (s s' s1 s2 s3 : State) (t : BitVec 10) (gd ga gb : BitVec 6) (aq rl : Bool) (pa : Nat) (old : TWord), Ready s t.toNat s' →
    (rl = true → (thr s1 t.toNat).stores = []) →
    isSound (rg s' t.toNat gb) = true → isSound old = true → storesOverlap (thr s1 t.toNat) pa 8 = false → storesOverlap (thr s1 t.toNat) pa 4 = false →
    ownLine s1 t.toNat (pa / 64) = (true, s2) → l1dErrors s2 (t.toNat / 4) (pa / 64) (pa / 8 % 8) = (false, s3) →
    ownedWord s3 t.toNat (pa / 8) = old → injArmed s3 t.toNat 1 = false → injArmed s3 t.toNat 2 = false →
    let base := rg s' t.toNat ga
    let b := rg s' t.toNat gb
    let claim (i : Bool → Instr) (code : Nat) (swap : Bool) (f : Word → Word → Word) : Prop :=
      (memPre s' t.toNat (encR 0x1D gd ga gb (atomFn aq rl false code)) .store (if swap then [(0, base)] else [(0, base), (1, b)]) [base, b] base.val 8 false true
        = .go pa (.mem true) false s1 →
        exec (i false) s = .next (finish (wg (storeWord s3 t.toNat (pa / 8) (gen (f old.val b.val))) t.toNat gd old) t.toNat 2 false)) ∧
      (memPre s' t.toNat (encR 0x1D gd ga gb (atomFn aq rl true code)) .store (if swap then [(0, base)] else [(0, base), (1, b)]) [base, b] base.val 4 false true
        = .go pa (.mem true) false s1 →
        let was := extract old.val pa 4 true
        let e := storeEntry pa 4 ⟨f was (BitVec.signExtend 64 (b.val.setWidth 32)), b.tal⟩ false
        exec (i true) s = .next (finish (wg (storeWord s3 t.toNat (pa / 8) (mergeWord old e.placed.val false e.mask false).1) t.toNat gd (gen was)) t.toNat 2 false))
    claim (.atomSwap t gd ga gb aq rl) 2 true (fun _ b => b) ∧ claim (.atomAdd t gd ga gb aq rl) 3 false (· + ·) ∧
    claim (.atomAnd t gd ga gb aq rl) 4 false (· &&& ·) ∧ claim (.atomOr t gd ga gb aq rl) 5 false (· ||| ·) ∧
    claim (.atomXor t gd ga gb aq rl) 6 false (· ^^^ ·) ∧
    claim (.atomMax t gd ga gb aq rl) 7 false (fun a b => if a.toInt ≤ b.toInt then b else a) ∧
    claim (.atomMin t gd ga gb aq rl) 8 false (fun a b => if a.toInt ≤ b.toInt then a else b) ∧
    claim (.atomMaxu t gd ga gb aq rl) 9 false (fun a b => if a.toNat ≤ b.toNat then b else a) ∧
    claim (.atomMinu t gd ga gb aq rl) 10 false (fun a b => if a.toNat ≤ b.toNat then a else b)

/-! ### Control transfers and system instructions (R94, R97, R100–R106, R111, R114, R118, R124–R128, R133) -/

/-- The branches complete on sound operands: a taken one goes to its address + 4 × disp after its delay slot; one not taken goes on
after its slot, or past it where the A bit annuls the slot. A taken transfer stands in its delay slot at pc + 4 with the target held,
one not taken in a slot that falls through, and an annulled slot is passed over. -/
def Obligations.BranchCompletes : Prop :=
  (∀ (s : State) (t : Nat) (target : Word) (annul : Bool),
    let x := thr s t
    let y (a : Option Word) := thr (applyAct t 1 false (.xfer s a annul)) t
    (y (some target)).pc = x.pc + 4 ∧ (y (some target)).slot = .taken target ∧
    (annul = false → (y none).pc = x.pc + 4 ∧ (y none).slot = .notTaken) ∧
    (annul = true → (y none).pc = x.pc + 8 ∧ (y none).slot = .none)) ∧
  ∀ (s s' : State) (t : BitVec 10) (ga gb : BitVec 6) (annul : Bool) (disp : BitVec 13), Ready s t.toNat s' → (thr s t.toNat).slot = .none →
    SoundReg s' t.toNat ga → SoundReg s' t.toNat gb → injArmed s' t.toNat 2 = false →
    let a := (rg s' t.toNat ga).val
    let b := (rg s' t.toNat gb).val
    let pc := (thr s' t.toNat).pc
    let target := pc + (BitVec.signExtend 64 disp <<< 2)
    let claim (i : Instr) (taken : Bool) : Prop :=
      exec i s = .next (applyAct t.toNat 1 false (.xfer (xferCommit s' t.toNat pc .cond target taken) (if taken then some target else none) annul))
    claim (.beq t ga gb annul disp) (decide (a = b)) ∧ claim (.bne t ga gb annul disp) (decide (a ≠ b)) ∧
    claim (.blt t ga gb annul disp) (decide (a.toInt < b.toInt)) ∧ claim (.bge t ga gb annul disp) (decide (b.toInt ≤ a.toInt)) ∧
    claim (.bltu t ga gb annul disp) (decide (a.toNat < b.toNat)) ∧ claim (.bgeu t ga gb annul disp) (decide (b.toNat ≤ a.toNat))

/-- Where a control transfer, SYSCALL, BREAK or WFI stands in a delay slot that is executed, it raises cause 0x08 and has no other
effect. -/
def Obligations.DelaySlotRefusesTransfers : Prop :=
  ∀ (s s' : State) (t : BitVec 10) (gd ga gb : BitVec 6) (annul : Bool) (disp : BitVec 13) (far : BitVec 26) (imm : BitVec 14),
    Ready s t.toNat s' → (thr s t.toNat).slot ≠ .none →
    ∀ i ∈ [Instr.beq t ga gb annul disp, .bne t ga gb annul disp, .blt t ga gb annul disp, .bge t ga gb annul disp, .bltu t ga gb annul disp,
      .bgeu t ga gb annul disp, .j t far, .jlnk t far, .jind t gd ga imm, .wcall t ga imm, .wret t ga imm, .rftS t gd ga, .rftM t gd ga,
      .syscall t gd ga, .break t gd ga, .wfi t gd ga],
      ∃ v, exec i s = .next (trapEnter s' t.toNat 0x08 false v)

/-- J, JLNK and JIND complete: the target is the address + 4 × disp, or ga + imm where it is a multiple of 4, and the link register takes
the address + 8. -/
def Obligations.JumpCompletes : Prop :=
  ∀ (s s' : State) (t : BitVec 10) (gd ga : BitVec 6) (disp : BitVec 26) (imm : BitVec 14), Ready s t.toNat s' → (thr s t.toNat).slot = .none →
    let pc := (thr s' t.toNat).pc
    let target := pc + (BitVec.signExtend 64 disp <<< 2)
    let ind := (rg s' t.toNat ga).val + BitVec.signExtend 64 imm
    exec (.j t disp) s = .next (applyAct t.toNat 1 false (.xfer (xferCommit s' t.toNat pc .jump target true) (some target) false)) ∧
    exec (.jlnk t disp) s
      = .next (applyAct t.toNat 1 true (.xfer (wg (xferCommit s' t.toNat pc .call target true) t.toNat 63 (gen (pc + 8))) (some target) false)) ∧
    (SoundReg s' t.toNat ga → ind.toNat % 4 = 0 → ∃ k, exec (.jind t gd ga imm) s
      = .next (applyAct t.toNat 1 true (.xfer (wg (xferCommit s' t.toNat pc k ind true) t.toNat gd (gen (pc + 8))) (some ind) false)))

/-- FENCE completes at once where its predecessor set names no write or the thread's stores have all drained, and then only goes on;
SYNC.I, with every store of the thread drained, completes and empties the loop buffer and the side buffer; XLSYNC, at S or M, completes
and drops every cached translation that its address and ASID cover, g0 covering all. Before that the stores drain: the instruction
waits, and runs once the last of them has drained. -/
def Obligations.FencesComplete : Prop :=
  ∀ (s s' : State) (t : BitVec 10) (gd ga gb : BitVec 6) (imm : BitVec 14),
    let fenced : State → Prop := fun s' => imm.toNat < 256 →
      (imm.getLsbD 6 = false ∨ imm.toNat % 16 = 0 ∨ (thr s' t.toNat).stores = []) → exec (.fence t 0 0 imm) s = .next (finish s' t.toNat 1 false)
    let synced : State → Prop := fun s' => (thr s' t.toNat).stores = [] →
      exec (.syncI t gd ga gb) s = .next (finish (sideClear (loopEnd s' t.toNat) t.toNat) t.toNat 1 true)
    let translated : State → Prop := fun s' => (thr s' t.toNat).stores = [] → (thr s' t.toNat).level ≠ .U →
      SoundReg s' t.toNat ga → SoundReg s' t.toNat gb →
      let a := (rg s' t.toNat ga).val.toNat
      let b := fieldN (rg s' t.toNat gb).val 15 0
      exec (.xlsync t gd ga gb) s = .next (finish (updThr (loopEnd s' t.toNat) t.toNat (fun x => { x with tlb := x.tlb.filter (fun e =>
        !((ga == 0 || a / 2 ^ (12 + 9 * (e.level - 1)) == e.vpn) && (gb == 0 || e.global || e.asid == b))) })) t.toNat 1 true)
    let waits (i : Instr) : Prop := exec i s = .next (updThr s' t.toNat (fun x => { x with wait := some (.drain i) }))
    (Ready s t.toNat s' → fenced s' ∧ synced s' ∧ translated s' ∧
      (imm.toNat ≥ 256 ∨ gd ≠ 0 ∨ ga ≠ 0 → exec (.fence t gd ga imm) s = .next (trapped s' t.toNat 0x08 (iwVal (encI 0x1E gd ga imm)))) ∧
      ((thr s' t.toNat).stores ≠ [] → waits (.syncI t gd ga gb) ∧
        (imm.toNat < 256 → imm.getLsbD 6 = true → imm.toNat % 16 ≠ 0 → waits (.fence t 0 0 imm)))) ∧
    ((thr s t.toNat).run = .run → draining s t.toNat = false → (thr s t.toNat).wait = some .again →
      let s'' := updThr s t.toNat (fun x => { x with wait := none })
      fenced s'' ∧ synced s'' ∧ translated s'')

/-- The control-register instructions complete where the register exists, the level reaches it and, for the secure registers, the thread
is in the secure world: gd takes the old value and the register the new one. WFI goes on where an interrupt is pending at any level,
and else stalls the thread, to continue at the next instruction; SYSCALL raises cause 0x0D and BREAK cause 0x0E, with EPC its own address. -/
def Obligations.ControlRegistersComplete : Prop :=
  ∀ (s s' : State) (t : BitVec 10) (gd ga : BitVec 6) (cr : BitVec 12) (lvl : Level) (sec ro : Bool), Ready s t.toNat s' →
    crKind cr.toNat = some (lvl, sec, ro) → levelNo lvl ≤ levelNo (thr s' t.toNat).level → (sec = true → (thr s' t.toNat).world = .secure) →
    let old := crRead s' t.toNat cr.toNat
    let a := (rg s' t.toNat ga).val
    let done (x : State) (k : Bool) : Host.Outcome State Fault Refusal := .next (finish (wg x t.toNat gd (gen old)) t.toNat 1 k)
    exec (.crrd t gd ga cr) s = done s' false ∧
    (ro = false → SoundReg s' t.toNat ga →
      exec (.crwr t gd ga cr) s = done (crWrite s' t.toNat cr.toNat a) true ∧
      exec (.crset t gd ga cr) s = done (crWrite s' t.toNat cr.toNat (old ||| a)) true ∧
      exec (.crclr t gd ga cr) s = done (crWrite s' t.toNat cr.toNat (old &&& ~~~ a)) true) ∧
    ((thr s t.toNat).slot = .none →
      let x := thr s' t.toNat
      let saved (code : Nat) (tval : Word) : Prop := x.world = .normal → ∀ b, b = trapTarget x code false .M →
        bit (bankOf x b).status 7 = false → (bankOf x b).tvec &&& maskBits 63 8 ≠ 0 →
        (bankOf (thr (trapped s' t.toNat code tval) t.toNat) b).epc = x.pc
      (x.level ≠ .U → anyPending s' t.toNat = true → exec (.wfi t 0 0) s = .next (finish s' t.toNat 1 true)) ∧
      (x.level ≠ .U → anyPending s' t.toNat = false →
        exec (.wfi t 0 0) s = .next (updThr s' t.toNat (fun x => { x with run := .wfi, stoodAt := s'.epoch, wait := none })) ∧
        ∀ y, y = wfiWake (updThr s' t.toNat (fun x => { x with run := .wfi, stoodAt := s'.epoch, wait := none })) t.toNat →
          (thr y t.toNat).run = .run ∧ (thr y t.toNat).pc = x.pc + 4) ∧
      exec (.syscall t 0 0) s = .next (trapped s' t.toNat 0x0D 0) ∧ saved 0x0D 0 ∧
      exec (.break t 0 0) s = .next (trapped s' t.toNat 0x0E x.pc) ∧ saved 0x0E x.pc)

/-- WCALL to a registered entry enters the secure world there: W_EPC takes the address + 8, the S bank of the secure world is in force
with IE clear, and the pc is the entry; to any other entry it takes cause 0x07 with the index. WRET goes back to W_EPC in the normal
world, and RFT.S and RFT.M return from a trap to EPC. Each is counted at the level and in the world before its change. -/
def Obligations.SystemInstructionsComplete : Prop :=
  ∀ (s s' : State) (t : BitVec 10) (imm : BitVec 14) (g : Word), Ready s t.toNat s' → (thr s t.toNat).slot = .none →
    let x := thr s' t.toNat
    let n := imm.toNat % 256
    let jumps (i : Instr) (y : State) : Prop := exec i s = .next (updThr y t.toNat (fun x => { x with wait := none }))
    (x.level ≠ .U → x.world = .normal →
      (wcallTarget s' t.toNat n = some g → jumps (.wcall t 0 imm) (enterSecure (jumpCount s' t.toNat) t.toNat n g) ∧
        ∀ y, y = thr (enterSecure (jumpCount s' t.toNat) t.toNat n g) t.toNat →
          y.pc = g ∧ y.world = .secure ∧ y.level = .S ∧ y.wEpc = x.pc + 8 ∧ y.wEntry = w64 n ∧ bit y.sS.status 0 = false) ∧
      (wcallTarget s' t.toNat n = none → exec (.wcall t 0 imm) s = .next (trapped s' t.toNat 0x07 (w64 n)))) ∧
    (x.world = .secure → jumps (.wret t 0 imm) (leaveSecure (jumpCount s' t.toNat) t.toNat [1, 2, 3, 4]) ∧
      ∀ y, y = thr (leaveSecure (jumpCount s' t.toNat) t.toNat [1, 2, 3, 4]) t.toNat →
        y.pc = x.wEpc ∧ y.world = .normal ∧ y.level = levelOf (fieldN x.wStatus 3 2) ∧ y.v = [] ∧ y.flags = 0) ∧
    (x.level ≠ .U → jumps (.rftS t 0 0) (trapReturn (jumpCount s' t.toNat) t.toNat (if x.world = .secure then .sSecure else .sNormal))) ∧
    (x.level = .M → x.world = .normal → jumps (.rftM t 0 0) (trapReturn (jumpCount s' t.toNat) t.toNat .m)) ∧
    (∀ b, (thr (trapReturn (jumpCount s' t.toNat) t.toNat b) t.toNat).pc = (bankOf x b).epc)

/-- WAITSLOT of a thread with a RELEASE slot takes its latched release, or parks with the completion flag set, and completes at the
RELEASE with that slot's epoch in gd (R294); GUARD.TIGHTEN sends its request to the stopper of the output that ga names, and completes
when the stopper has answered (TIGHTEN_REQUEST). -/
def Obligations.WaitsComplete : Prop :=
  ∀ (s s' : State) (t : BitVec 10) (gd ga gb : BitVec 6) (fn : BitVec 8) (r : Word), Ready s t.toNat s' →
    let x := thr s' t.toNat
    let o := (rg s' t.toNat ga).val.toNat
    (x.world = .normal → hasRelease s' t.toNat = true →
      (x.latch = some r → exec (.waitslot t gd 0 0 fn) s
        = .next (finish (wg (updThr s' t.toNat (fun x => { x with latch := none, resv := none })) t.toNat gd (gen r)) t.toNat 1 true)) ∧
      (x.latch = none → exec (.waitslot t gd 0 0 fn) s
        = .next (updThr (updThr s' t.toNat (fun x => { x with complete := true, resv := none })) t.toNat
            (fun x => { x with run := .waitslot, stoodAt := s'.epoch, wait := some (.slot gd.toNat) })))) ∧
    (x.level ≠ .U → fn.toNat < 4 → SoundReg s' t.toNat ga → SoundReg s' t.toNat gb → o < 2 ^ 15 →
      ∃ m p s1, mkPkt s' (threadUnit s' t.toNat) (if o < 2 ^ 14 then 80 else 82) 1 0x18 false 1 = (p, s1) ∧
        m = { pkt := p, thread := t.toNat, output := o, fn := fn.toNat, val := (rg s' t.toNat gb).val, word := iwVal (encR 0x39 gd ga gb fn.toNat) } ∧
        exec (.guardTighten t gd ga gb fn) s
          = .next (updThr { s1 with tightNet := s1.tightNet ++ [m] } t.toNat (fun x => { x with wait := some (.guard gd.toNat) })))
/-! ### Cache operations and Point Store instructions (R119, R122, R202, R209–R214) -/

/-- The cache operations complete once the thread's stores have drained, at a level that may run them: the L0 and side buffer empty, the
line is cleaned, removed or asked for, or its home is sent the message whose acknowledgement ends the wait; before that the thread waits
for its stores. A prefetch asks for the line it names, does nothing where the line is there already, and has no effect where it would
fault. -/
def Obligations.CacheOperationsComplete : Prop :=
  ∀ (s s' s1 s2 : State) (t : BitVec 10) (ga : BitVec 6) (imm : BitVec 14) (pa : Nat), Ready s t.toNat s' →
    let n := t.toNat
    let c := n / 4
    let q := n / 16
    let ln := pa / 64
    let done (x : State) : Host.Outcome State Fault Refusal := .next (finish x n 1 false)
    let waitFor (x : State) (w : Wait) : Host.Outcome State Fault Refusal := .next (updThr x n (fun y => { y with wait := some w }))
    let waits (x : State) : Host.Outcome State Fault Refusal := waitFor x (.wrAck ln)
    let lvl := (thr s' n).level
    let addr (code : BitVec 6) : Prop := cacheAddr s' n (encI 0x38 code ga imm) ga imm = .inl (pa, s1)
    let at_ (code : BitVec 6) : Prop := addr code ∧ (thr s1 n).stores = []
    let drains (code : BitVec 6) (i : Instr) : Prop := addr code → (thr s1 n).stores ≠ [] → exec i s = waitFor s1 (.drain i)
    let evicted := l2Evict s1 q ln
    let asked := { evicted with net := evicted.net.map (fun m =>
      if m.holder = q && m.line = ln && (m.op = 0x07 || m.op = 0x08) then { m with thread := some n } else m) }
    let busy : Prop := (∃ tr, track s1 q ln = some tr ∧ tr.st = .SM) ∨ 256 ≤ trackCount s1 q
    (exec (.l0inv t 0 0) s
      = done (updR (updThr (sideClear s' n) n l0Empty) .CORE_L0CTL (fun w => setBit w 2 true) c (n % 4))) ∧
    (ga ≠ 0 ∨ imm ≠ 0 → exec (.l0inv t ga imm) s = .next (trapped s' n 0x08 (iwVal (encI 0x38 0 ga imm)))) ∧
    (at_ 1 → exec (.l1dClean t ga imm) s = done (l1dMerge s1 c ln)) ∧ drains 1 (.l1dClean t ga imm) ∧
    (at_ 2 → exec (.l1dCleanInvalidate t ga imm) s = done (l1dRemove s1 c ln true)) ∧ drains 2 (.l1dCleanInvalidate t ga imm) ∧
    (lvl = .M → (at_ 3 → exec (.l1dInvalidate t ga imm) s = done (l1dRemove s1 c ln false)) ∧ drains 3 (.l1dInvalidate t ga imm)) ∧
    (lvl ≠ .U → drains 4 (.l2Clean t ga imm) ∧ drains 5 (.l2CleanInvalidate t ga imm) ∧ drains 6 (.llcClean t ga imm) ∧
      (at_ 4 → (∀ y, l2 (quadDowngrade s1 q ln) q ln = some (.M, y) → exec (.l2Clean t ga imm) s
          = waits (sendMsg (setL2 (quadDowngrade s1 q ln) q ln (some (.E, y)))
            { op := 0x09, holder := q, line := ln, data := y.data, thread := some n })) ∧
        ((∀ y, l2 (quadDowngrade s1 q ln) q ln ≠ some (.M, y)) → exec (.l2Clean t ga imm) s = done (quadDowngrade s1 q ln))) ∧
      (at_ 5 → (busy → exec (.l2CleanInvalidate t ga imm) s = waitFor s1 (.own (.l2CleanInvalidate t ga imm) ln)) ∧
        (¬ busy → l2 s1 q ln = none → exec (.l2CleanInvalidate t ga imm) s = done (quadPurge s1 q ln)) ∧
        (¬ busy → (l2 s1 q ln).isSome = true → (track asked q ln).isSome = true → exec (.l2CleanInvalidate t ga imm) s = waits asked) ∧
        (¬ busy → (l2 s1 q ln).isSome = true → (track asked q ln).isSome = false → exec (.l2CleanInvalidate t ga imm) s = done asked)) ∧
      (at_ 6 → exec (.llcClean t ga imm) s = waits (sendMsg s1
        { op := 0x0A, holder := q, line := ln, part := (threadPart s1 n).getD 0, sec := (thr s1 n).world == .secure, thread := some n }))) ∧
    (at_ 7 → exec (.l1iInvalidate t ga imm) s = done (setL1i s1 c ln none)) ∧ drains 7 (.l1iInvalidate t ga imm) ∧
    (lvl = .M → (thr s' n).stores = [] → exec (.l1dCleanInvalidateAll t 0 0) s
      = done (foldS (fun x l => l1dRemove x c l true) s' ((coreOf s' c).l1d.map Prod.fst))) ∧
    (lvl ≠ .M → exec (.l1dInvalidate t ga imm) s = .next (trapped s' n 0x08 (iwVal (encI 0x38 3 ga imm))) ∧
      exec (.l1dCleanInvalidateAll t ga imm) s = .next (trapped s' n 0x08 (iwVal (encI 0x38 8 ga imm)))) ∧
    (isSound (rg s' n ga) = false → exec (.prefetchL1d t ga imm) s = done s' ∧ exec (.prefetchL2 t ga imm) s = done s') ∧
    (isSound (rg s' n ga) = true →
      let va := (rg s' n ga).val + BitVec.signExtend 64 imm
      (∀ k, xlate s' n .load va = (.fault k, s1) → exec (.prefetchL1d t ga imm) s = done s1 ∧ exec (.prefetchL2 t ga imm) s = done s1) ∧
      (∀ attr, xlate s' n .load va = (.ok pa attr, s1) →
        (destOf s1 n pa attr ≠ .mem true → exec (.prefetchL1d t ga imm) s = done s1 ∧ exec (.prefetchL2 t ga imm) s = done s1) ∧
        (destOf s1 n pa attr = .mem true →
          ((l1d s1 c ln).isSome = true → exec (.prefetchL1d t ga imm) s = done s1) ∧
          (l1d s1 c ln = none → l2 s1 q ln = none → exec (.prefetchL1d t ga imm) s = done (prefRequest s1 q ln (some c))) ∧
          (∀ y d, l1d s1 c ln = none → l2 s1 q ln = some y → quadData s1 q ln = (some d, s2) →
            exec (.prefetchL1d t ga imm) s = done (l1dCopy (l2Array s2 q ln) c ln d)) ∧
          (l2 s1 q ln = none → exec (.prefetchL2 t ga imm) s = done (prefRequest s1 q ln none)) ∧
          (∀ st y, l2 s1 q ln = some (st, y) → exec (.prefetchL2 t ga imm) s = done (if y.inArr then s1 else l2Array s1 q ln)))))

/-- PSRD in both modes, PSWR, PSCW, and PSSUB to subscribe and to unsubscribe, of a point that the thread may reach, send their request
to the engine of the point's home and wait for its response, which completes them: gd takes the word, and in mode 1 the register above
it the second one. A poisoned word to be written is carried (Table 5-7); a reserved mode or register pair raises cause 0x08. -/
def Obligations.PointInstructionsComplete : Prop :=
  (∀ (s s' : State) (t : BitVec 10) (gd ga gb gc : BitVec 6), Ready s t.toNat s' →
    let n := t.toNat
    let a := (rg s' n ga).val.toNat
    let b := rg s' n gb
    let c := rg s' n gc
    let pair := gd.toNat % 2 = 0 ∧ gd ≠ 0
    let claim (i : Instr) (k : PsKind) (m : PsMsg) (sub : Nat) : Prop :=
      ptRight s' n k a = true → ∃ p s1, mkPkt s' (threadUnit s' n) (ptHome a) 6 0x19 false 1 = (p, s1) ∧
        exec i s = .next (updThr { s1 with psNet := s1.psNet ++ [{ m with thread := n, kind := k, point := a, iw := iwVal (encQ 0x36 gd ga gb gc sub), pkt := p }] }
          n (fun y => { y with wait := some (.point gd.toNat m.mode1) }))
    (isSound (rg s' n ga) = true → a < 2 ^ 24 → a < ptCount s' →
      (gb = 0 → claim (.psrd t gd ga gb gc) .read { thread := 0, kind := .read, point := 0 } 0) ∧
      (gb = 1 → pair → claim (.psrd t gd ga gb gc) .read { thread := 0, kind := .read, point := 0, mode1 := true } 0) ∧
      (isFailed b = false → injArmed s' n 1 = false → claim (.pswr t gd ga gb gc) .write { thread := 0, kind := .write, point := 0, b := b } 1) ∧
      (isSound b = true → isFailed c = false → injArmed s' n 1 = false →
        claim (.pscw t gd ga gb gc) .cw { thread := 0, kind := .cw, point := 0, b := b, c := c } 2) ∧
      (isSound b = true → gc = 0 → claim (.pssub t gd ga gb gc) .sub { thread := 0, kind := .sub, point := 0, b := b, unsub := false } 3) ∧
      (isSound b = true → gc = 1 → claim (.pssub t gd ga gb gc) .sub { thread := 0, kind := .sub, point := 0, b := b, unsub := true } 3)) ∧
    (2 ≤ gb.toNat ∨ (gb = 1 ∧ ¬ pair) → exec (.psrd t gd ga gb gc) s = .next (trapped s' n 0x08 (iwVal (encQ 0x36 gd ga gb gc 0)))) ∧
    (2 ≤ gc.toNat → exec (.pssub t gd ga gb gc) s = .next (trapped s' n 0x08 (iwVal (encQ 0x36 gd ga gb gc 3))))) ∧
  (∀ (s : State) (t : BitVec 10) (gd : Nat) (mode1 : Bool) (m : PsMsg) (v : TWord) (e : Option TWord),
    psAnswer? s t.toNat = some (m, .ok v e) → (thr s t.toNat).wait = some (.point gd mode1) → isFailed v = false →
    injArmed (ejectPkt { s with psNet := s.psNet.erase m } m.pkt) t.toNat 1 = false →
    let s1 := wg (ejectPkt { s with psNet := s.psNet.erase m } m.pkt) t.toNat (BitVec.ofNat 6 gd) v
    (mode1 = false → exec (.psRsp t) s = .next (finish s1 t.toNat 1 false)) ∧
    (∀ x, mode1 = true → e = some x → exec (.psRsp t) s = .next (finish (wg s1 t.toNat (BitVec.ofNat 6 (gd + 1)) x) t.toNat 2 false)))

/-- A point that does not exist, or that the thread may not reach, raises cause 0x0F with the point id, ga[23:0], in TVAL. -/
def Obligations.PointRightsTrap : Prop :=
  ∀ (s s' : State) (t : BitVec 10) (gd ga gb gc : BitVec 6), Ready s t.toNat s' →
    isPoisoned (rg s' t.toNat ga) = false → isPoisoned (rg s' t.toNat gb) = false →
    let n := t.toNat
    let a := (rg s' n ga).val
    let claim (i : Instr) (k : PsKind) : Prop :=
      (2 ^ 24 ≤ a.toNat ∨ ptCount s' ≤ a.toNat ∨ ptRight s' n k a.toNat = false) →
        exec i s = .next (trapped s' n 0x0F (BitVec.ofNat 64 (a.toNat % 2 ^ 24)))
    (gb = 0 ∨ (gb = 1 ∧ gd.toNat % 2 = 0 ∧ gd ≠ 0) → claim (.psrd t gd ga gb gc) .read) ∧ claim (.pswr t gd ga gb gc) .write ∧
    claim (.pscw t gd ga gb gc) .cw ∧ (gc.toNat < 2 → claim (.pssub t gd ga gb gc) .sub)
/-! ### Responses to threads, registers and events of threads (R7, R59, R95, R119, R128, R133, R188, R191, R207, R209) -/

/-- Register accesses complete. REG_DATA and REG_ACK take the answer that has arrived: the register takes the word of a load, and the pc
moves on. REG_READ and REG_WRITE perform the access that has arrived at its server and send the answer; a write whose word is failed or
poisoned is discarded. REGISTER_WRITE has the effect of the register, and one that no register takes is answered by the requester's
kind. -/
def Obligations.RegisterAccessesComplete : Prop :=
  (∀ (s : State) (t : BitVec 10) (m : RegMsg) (gd : Nat) (iw : Word),
    let n := t.toNat
    let s' : State := ejectPkt { s with regNet := s.regNet.erase m } m.pkt
    let came (write : Bool) : Prop := s.regNet.find? (fun m => m.thread = n && m.answer && (m.write == write) && arrivedPkt s m.pkt) = some m
    (came false → (thr s' n).wait = some (.regRead gd iw) → isSound m.word = true → injArmed s' n 1 = false →
      exec (.regData t) s = .next (finish (wg s' n (BitVec.ofNat 6 gd) m.word) n 1 false)) ∧
    (came true → (thr s' n).wait = some .regWrite → exec (.regAck t) s = .next (finish s' n 1 false))) ∧
  (∀ (s : State) (who : Requester) (addr : BitVec 52) (val : Word) (t : BitVec 10) (m : RegMsg),
    let x := txClear s
    let a := addr.toNat
    (strayOf x who a = none → exec (.registerWrite who addr val) s = .next (writeReg x who a val fullMask)) ∧
    (∀ y, strayOf x who a = some y → exec (.registerWrite who addr val) s = .next (strayWrite x who a y)) ∧
    (regAccess s t.toNat false = some m →
      exec (.regRead t) s = .next (regAnswer (readReg s (.thread t) m.addr fullMask).2 m (gen (readReg s (.thread t) m.addr fullMask).1))) ∧
    (regAccess s t.toNat true = some m →
      (badWord m.word = false → exec (.regWrite t) s = .next (regAnswer (writeReg x (.thread t) m.addr m.word.val fullMask) m m.word)) ∧
      (badWord m.word = true → exec (.regWrite t) s = .next (regAnswer (regDiscarded x 1 t.toNat m.addr (t.toNat / 16)) m m.word))))

/-- The commands that write a register of a core complete while the core's registers answer: for a requester that may write it, with the
effect of the register; any other is refused with a notice, and nothing is written. -/
def Obligations.CoreWritesComplete : Prop :=
  ∀ (s : State) (who : Requester) (t : BitVec 10) (c : BitVec 8) (val : Word),
    let n := t.toNat
    let claim (i : Instr) (r : Reg) (core k : Nat) (effect : State) : Prop := regDead s ⟨r, core, k, 0⟩ = false →
      (coreWriter s who core = true → exec i s = .next effect) ∧
      (coreWriter s who core = false → exec i s = .next (refuseReg s ⟨r, core, k, 0⟩ who))
    claim (.coreCtxidWrite who t val) .CORE_CTXID (n / 4) (n % 4) (ctxidWrite s n val) ∧
    claim (.coreThstartGo who t val) .CORE_THSTART (n / 4) (n % 4) (thstartWrite s n val) ∧
    claim (.coreL0ctlWrite who t val) .CORE_L0CTL (n / 4) (n % 4) (l0ctlWrite s n val) ∧
    claim (.coreModeBootWrite who c val) .CORE_MODE c.toNat 0 (bootWrite s c.toNat val) ∧
    claim (.coreCtlWrite who c val) .CORE_CTL c.toNat 0 (coreCtlWrite s c.toNat val) ∧
    claim (.tallyInjectArm who c val) .CORE_TALLY_INJ c.toNat 0 (tallyInjWrite s c.toNat val) ∧
    (regDead s ⟨.CORE_IPI, c.toNat, 0, 0⟩ = false → exec (.coreIpiWrite who c val) s = .next (ipiWrite s who val))

/-- The events of a thread complete. An interrupt that can be taken enters its trap, unless a cause 0x06 that can be taken stands before
it (R132); a deadline trap enters cause 0x06 with the slot in TVAL; a thread in WFI goes on when EPOCH reaches a compare value; the oldest
retired store drains, and an instruction that waits for the store buffer runs again; lines fill the side buffer, and the load that waits
for one runs again; the wait table clears; a bucket leaks one at its interval; a unit's vector is set and cleared. -/
def Obligations.ThreadEventsComplete : Prop :=
  ∀ (s : State) (t : BitVec 10) (c : BitVec 8) (n : BitVec 6) (m : BitVec 4),
    let u := t.toNat
    let ends (i : Instr) (x : State) : Prop := exec i s = .next x
    let x0 := wfiCheck s u
    let d := drainOne s u
    let filled := foldS (fun x (e : SideEntry) => if e.filled then x else fillEntry x u e) s (thr s u).side
    let swept (x : State) : State := sideUpd x u (fun y => { y with side := y.side.filter (fun e => !(e.filled && e.dead)) })
    (∀ code lvl, deadlineDue x0 u = none → interruptible x0 u = true → (thr x0 u).run ≠ .wfi → intrPick x0 u = some (code, lvl) →
      ∃ v x1, freeW x0 = (v, x1) ∧ ends (.interruptTaken t) (trapEnter (abandon x1 u) u code true v lvl)) ∧
    (∀ slot, deadlineDue s u = some slot → interruptible s u = true →
      let after := trapEnter (updThr (abandon (wfiWake s u) u) u (fun x => { x with pend06 := none })) u 6 false (w64 slot)
      ends (.deadlineTrap t) after ∧ (s = x0 → ends (.interruptTaken t) after)) ∧
    (ecmpPending s (thr s u).m = true ∨ ecmpPending s (thr s u).sN = true ∨ ecmpPending s (thr s u).sS = true →
      ends (.epochCompareMatch t) (wfiCheck (runAheadEnd s u) u)) ∧
    ((∀ i, (thr d u).wait ≠ some (.drain i)) → ends (.storeDrain t) d) ∧
    (∀ i, (thr d u).wait = some (.drain i) → ends (.storeDrain t) (rerun d u i)) ∧
    (∀ e rest x1, (thr s u).stores = e :: rest → ownLine s u (e.word / 8) = (true, x1) → e.full = true →
      d = storeWord (updThr x1 u (fun x => { x with stores := rest })) u e.word e.val) ∧
    ((∀ i line, (thr filled u).wait ≠ some (.fill i line)) → ends (.loadFill t) (swept filled)) ∧
    (∀ i line, (thr filled u).wait = some (.fill i line) →
      (((∃ e ∈ (thr filled u).side, e.line = line ∧ e.filled = true) ∨ (∀ e ∈ (thr filled u).side, e.line ≠ line)) →
        ends (.loadFill t) (swept (rerun filled u i))) ∧
      ((∀ e ∈ (thr filled u).side, e.filled = false ∨ e.line ≠ line) → (∃ e ∈ (thr filled u).side, e.line = line) →
        ends (.loadFill t) (swept filled))) ∧
    (∀ e dat x1, (thr s u).side = [e] → e.filled = false → quadData s (u / 16) e.line = (some dat, x1) →
      filled = sideGone (sideUpd (pmcCount (shareLine x1 (u / 4) e.line) u 0x23 1) u (fun x => fillSide x e.line dat)) (u / 16) e.line) ∧
    ends (.waitTableClear c) (updCore s c.toNat (fun k => { k with waitTable := [] })) ∧
    (leakDue s 2 (quadOf s n.toNat).leakCore = true →
      ends (.bucketLeak (.core n)) (updQuad s n.toNat (fun k => { k with bucketCore := k.bucketCore - 1, leakCore := s.epoch }))) ∧
    (leakDue s 3 (quadOf s n.toNat).leakL2 = true →
      ends (.bucketLeak (.l2 n)) (updQuad s n.toNat (fun k => { k with bucketL2 := k.bucketL2 - 1, leakL2 := s.epoch }))) ∧
    (leakDue s 4 (sliceOf s n.toNat).leak = true →
      ends (.bucketLeak (.llc n)) (updSlice s n.toNat (fun k => { k with bucket := k.bucket - 1, leak := s.epoch }))) ∧
    (leakDue s 5 (chanOf s m.toNat).leak = true →
      ends (.bucketLeak (.channel m)) (updChan s m.toNat (fun k => { k with bucket := k.bucket - 1, leak := s.epoch }))) ∧
    ends (.irqSet t n true m) (irqAssert s (2 ^ 60 + u * 64 + n.toNat) (some m.toNat) u n.toNat) ∧
    ends (.irqSet t n false m) (irqClear s (2 ^ 60 + u * 64 + n.toNat))

/-! ### Power-up, reset and start-up (R24, R33–R41, R281, R464–R469) -/

/-- The module pins and the steps of start-up complete where they are due: each step goes on to the one after it, and a step that fails
stops start-up or turns the rails off. -/
def Obligations.StartupCompletes : Prop :=
  (∀ s : State,
    let ends (c : Instr) (t : State) : Prop := exec c s = .next t
    (s.boot.pwrEn = false → ∀ low, ends (.pwrEnRise low)
      (startBegin { s with boot := { s.boot with pwrEn := true, needLow := s.boot.needLow && !low } })) ∧
    (s.boot.pwrEn = true → ends .pwrEnFall { powerOff s with boot := { (powerOff s).boot with pwrEn := false } }) ∧
    (s.boot.hk = false → ∀ a high, ends (.housekeepingOn a high)
      (startBegin { s with boot := { s.boot with hk := true, maddr := a.toNat, commOk := high } })) ∧
    (s.boot.hk = true → ends .housekeepingOff { powerOff s with boot := { (powerOff s).boot with hk := false } }) ∧
    ends .overvoltageShutdown { powerOff s with boot := { (powerOff s).boot with needLow := true } } ∧
    ends .resetNRelease { s with boot := { s.boot with heldReset := false } } ∧
    (s.boot.rails = true → ends .moduleReset (moduleReset s 2)) ∧
    (∀ ns : BitVec 32, 10000 ≤ ns.toNat →
      (s.boot.rails = true → ends (.resetNAssert ns) { moduleReset s 2 with boot := { (moduleReset s 2).boot with heldReset := true } }) ∧
      (s.boot.rails = false → ends (.resetNAssert ns) { s with boot := { s.boot with heldReset := true } })) ∧
    (∀ ns : BitVec 32, ns.toNat < 1000 → ends (.resetNAssert ns) s) ∧
    (stepDue s 1 = true →
      ends (.startupRails true) (evalSource { s with epoch := 0, epochFrac := 0, boot := { s.boot with rails := true, step := 2 } }) ∧
      ends (.startupRails false) { powerOff s with faultN := false }) ∧
    (stepDue s 2 = true → ∀ lk, (s.boot.lockLost && !lk) = false →
      let begun : State := { s with alm := { s.alm with startNext := true }, boot := { s.boot with lockLost := false, step := 3, bank := s.flash.bank } }
      (s.boot.kind = 2 → ends (.startupBowlineRom lk) (evalSource { begun with epoch := 0, epochFrac := 0 })) ∧
      (s.boot.kind ≠ 2 → ends (.startupBowlineRom lk) (evalSource begun))) ∧
    (stepDue s 3 = true → ∀ a b n r, bankPick s.boot.bank a b s.flash.rbBowl = some (n, r) → ends (.startupBowlineImage a b)
      (alm { s with boot := { s.boot with step := 4, bank := n, bowlRoll := r, bowlImage := Config.fwPart 0 (bankBytes s n) },
                    alm := { s.alm with mWait := false } } 0xD010 1 17 0 s.boot.kind n)) ∧
    (stepDue s 3 = true → ∀ a b, bankPick s.boot.bank a b s.flash.rbBowl = none →
      ends (.startupBowlineImage a b) (stepStop (alm s 0xD012 6 0 0 2))) ∧
    (stepDue s 6 = true → ∀ pf, ends (.startupDramTraining false pf) (stepStop (alm s 0xD012 6 0 0 6))) ∧
    (stepDue s 7 = true → ∀ a b,
      (∀ n r, bankPick s.boot.bank a b s.flash.rbCord = some (n, r) → ends (.startupCordageLoad a b)
        { s with boot := { s.boot with step := 8, cordRoll := r, cordBank := n, cordImage := Config.fwPart 1 (bankBytes s n) },
                 mgmt := { s.mgmt with smbus := true } }) ∧
      (bankPick s.boot.bank a b s.flash.rbCord = none → ends (.startupCordageLoad a b) (stepStop (alm s 0x8018 6 17 0))))) ∧
  (∀ s : State,
    (stepDue s 4 = true → ∀ m, ∃ t, exec (.startupRigging m) s = .next t ∧ t.boot.step = 5 ∧ t.boot.injLock = !t.rig.dev.patternAllowed) ∧
    (stepDue s 5 = true → ∀ sigs : List (BitVec 64), sigs.length = 152 →
      ((∀ i, 64 ≤ i → i < 144 → sigs[i]? = some (Config.vigilExp i 3)) → ∃ t, exec (.startupVigil sigs) s = .next t ∧ t.boot.step = 6) ∧
      ((∃ i w, 64 ≤ i ∧ i < 144 ∧ sigs[i]? = some w ∧ w ≠ Config.vigilExp i 3) →
        ∃ t, exec (.startupVigil sigs) s = .next t ∧ t.boot.stopped = true)) ∧
    (stepDue s 6 = true → ∀ pf, ∃ t, exec (.startupDramTraining true pf) s = .next t ∧ t.boot.step = 7) ∧
    (stepDue s 8 = true → ∃ t, exec .startupCordageInit s = .next t ∧
      (partIds s = [] → t = snapshotNow { s with boot := { s.boot with step := 9 } })))

/-- COMMISSION_N, the debug tap and the power domains' commands complete (R39, R41, R443–R455). A press of at least 50 ms after the
input was high for 50 ms is the press of the oldest call that awaits one. -/
def Obligations.PowerCommandsComplete : Prop :=
  ∀ (s : State) (who : Requester) (exp : Option (BitVec 16)) (d : BitVec 9) (div : BitVec 4) (c : BitVec 8),
    let ends (i : Instr) (t : State) : Prop := exec i s = .next t
    let asked (op dv : Nat) : State := powRequest s who (exp.map BitVec.toNat) d.toNat op dv
    (d.toNat < 420 → regDead s ⟨.PWR_DOM_REQ, 0, 0, 0⟩ = false →
      ends (.domainOn who exp d) (asked 1 0) ∧ ends (.domainOff who exp d) (asked 2 0) ∧ ends (.clkStop who exp d) (asked 3 0) ∧
      ends (.clkRun who exp d) (asked 4 0) ∧ ends (.step who exp d div) (asked 5 div.toNat)) ∧
    (∀ r rest, s.pow.reqs = r :: rest → r.taken = true → r.dom = d.toNat → d.toNat < 420 → s.pow.solHold ≠ some r.dom →
      (offReady s r = true →
        ends (.domainSwitchComplete d) (powTake (powDone (powEffect { s with pow := { s.pow with reqs := rest } } r) r 0))) ∧
      (offReady s r = false → ends (.domainSwitchComplete d) (domWriteback s r.dom))) ∧
    (domPolicy s c.toNat = 2 → domState s c.toNat = 1 → (coreOf s c.toNat).gated = false →
      (∀ t ∈ threadsOf c.toNat, ((thr s t).run = .halted ∨ (thr s t).run = .held ∨ (thr s t).run = .waitslot ∨
        ((thr s t).run = .wfi ∧ anyPending s t = false)) ∧ (thr s t).stoodAt + 1000 ≤ s.epoch ∧ (thr s t).stores = [] ∧ releaseNamed s t = false) →
      ∃ x, ends (.coreGate c) x ∧ (coreOf x c.toNat).gated = true ∧ (coreOf x c.toNat).l1d = [] ∧ (coreOf x c.toNat).l1i = []) ∧
    ((coreOf s c.toNat).gated = true → (∃ t ∈ threadsOf c.toNat, anyPending s t = true ∨ (thr s t).run = .run) →
      ends (.coreUngate c) (ungate s c.toNat)) ∧
    (∀ high, ends (.supplyTrip high) (tripBegin s 2)) ∧
    (s.boot.rails = true → s.boot.lockLost = true → ends .clkRootRelockTimeout { powerOff s with faultN := false }) ∧
    (s.boot.rails = true → ends .clkRootLockLoss
      { moduleReset (alm s 0xC015 6 0 0) 2 with boot := { (moduleReset (alm s 0xC015 6 0 0) 2).boot with lockLost := true } }) ∧
    (s.pow.tripOff = true → (almUnmirrored s = false ∨ s.pow.tripAt + 10000000 ≤ s.epoch) →
      ends .tripFlushComplete { powerOff { s with boot := { s.boot with needLow := true } } with faultN := false }) ∧
    ((s.pow.trip = 1 ∧ s.pow.tripAt + 100000 ≤ s.epoch ∨ s.pow.trip = 2 ∧ s.pow.tripAt + 10000 ≤ s.epoch) → s.pow.tripOff = false →
      ∃ x, ends .tripDomainsOff x ∧ x.pow.tripOff = true ∧ x.alm.flushing = true ∧ x.threads = [] ∧ x.cores = [] ∧ x.quads = [] ∧ x.slices = []) ∧
    (s.boot.rails = true → ∀ temps inlet outlet vin iin pin, temps.length = 420 →
      ((s.pow.trip ≠ 0 ∨ ((∀ v ∈ temps, v.toNat < 105) ∧ s.pow.outletTrip < 999)) →
        ∃ x, ends (.sensorSample temps inlet outlet vin iin pin) x ∧ fieldN (getR x .PWR_IN 0) 31 16 = pin.toNat ∧
          fieldN (getR x .PWR_COOLANT 0) 63 48 = inlet.toNat ∧ fieldN (getR x .PWR_COOLANT 0) 47 32 = outlet.toNat) ∧
      (s.pow.trip = 0 → (∃ v ∈ temps, 105 ≤ v.toNat) →
        ∃ x, ends (.sensorSample temps inlet outlet vin iin pin) x ∧ x.pow.trip = 1)) ∧
    (s.pow.thrAt + 1000000 ≤ s.epoch →
      let now : State := { s with pow := { s.pow with thrAt := s.epoch } }
      (s.pow.thr = true → ∀ q, (thrOrder s).find? (fun q => decide (thrDiv s q < 4)) = some q →
        ends .throttleStep (setThrDiv now q (thrDiv s q + 1))) ∧
      (s.pow.thr = false → ∀ q, (thrOrder s).reverse.find? (fun q => decide (2 < thrDiv s q)) = some q →
        ends .throttleStep (setThrDiv now q (thrDiv s q - 1)))) ∧
    (∀ tap, s.boot.debug = true ∨ tap = .idcode ∨ tap = .bypass → ends (.debugTapInstruction tap) { s with boot := { s.boot with tap := tap } }) ∧
    (∀ k, s.boot.debug = false → ends (.debugTapInstruction (.other k)) { s with boot := { s.boot with tap := .bypass } }) ∧
    (∀ (ms : BitVec 16) (high : Bool),
      let began := s.epoch - ms.toNat * 100000
      let awaits (p : SvcPend) : Prop := p.pressed = false ∧ p.since < began ∧ began ≤ p.since + 6000000000
      let pressed (l : List SvcPend) : State := { s with boot := { s.boot with commOk := true }, svc := { s.svc with pend := l } }
      (s.boot.hk = true → (s.boot.commOk = true ∨ high = true) →
        (50 ≤ ms.toNat → ∀ a p r, s.svc.pend = a ++ p :: r → (∀ y ∈ a, ¬ awaits y) → awaits p →
          ends (.commissionPress ms high) (pressed (a ++ { p with pressed := true } :: r))) ∧
        ((ms.toNat < 50 ∨ ∀ y ∈ s.svc.pend, ¬ awaits y) → ends (.commissionPress ms high) (pressed s.svc.pend))) ∧
      (s.boot.hk = false ∨ (s.boot.commOk = false ∧ high = false) → ends (.commissionPress ms high) s))

/-! ### The host ports (R393–R412) -/

/-- The resets and link events of a host port complete where they are due. -/
def Obligations.PortEventsComplete : Prop :=
  ∀ (s : State) (h : BitVec 1),
    let n := h.toNat
    let ends (i : Instr) (t : State) : Prop := exec i s = .next t
    let st := getR s .HOST_STS n
    let low := updR (txClear s) .HOST_STS (fun w => setBit w 1 true) n
    (s.boot.rails = true → ends (.perstAssert h) (portReset low n 1)) ∧ (s.boot.rails = false → ends (.perstAssert h) low) ∧
    (bit st 1 = true → ∀ tg,
      let x := updHost (updR s .HOST_STS (fun w => setBit (setBit w 1 false) 4 tg) n) n (fun p => { p with refLost := false })
      ((hostOf s n).resetBy ≠ 4 → ends (.perstDeassert h tg) x) ∧
      ((hostOf s n).resetBy = 4 →
        ends (.perstDeassert h tg) (updR (updHost x n (fun p => { p with resetBy := 0 })) .HOST_STS (fun w => setBit w 20 false) n))) ∧
    (hostUp s n = true → ends (.hotReset h) (portReset (txClear s) n 2) ∧
      (bit st 4 = true → ends (.refclkLoss h) (updHost (linkDown (txClear s) n) n (fun p => { p with refLost := true }))) ∧
      (hostReady s n = true → ends (.flr h) (portReset (txClear s) n 3) ∧ ends (.bmeClear h) (setBme (txClear s) n false)) ∧
      (fieldN st 15 14 = 0 → (cfgDw s n 24).testBit 0 = true → ends (.l0sEntry h) (updR s .HOST_STS (fun w => setField w 15 14 1) n)) ∧
      (fieldN st 15 14 ≤ 1 → ((cfgDw s n 24).testBit 1 = true ∨ hostD3 s n = true) →
        ((if hostD3 s n then (cfgDw s n 102).testBit 1 else (cfgDw s n 102).testBit 3) = false →
          ends (.l1Entry h) (updR s .HOST_STS (fun w => setField w 15 14 2) n)) ∧
        ((if hostD3 s n then (cfgDw s n 102).testBit 1 else (cfgDw s n 102).testBit 3) = true →
          ends (.l1Entry h) (updR s .HOST_STS (fun w => setField w 15 14 3) n)))) ∧
    ((hostOf s n).resetBy ≠ 0 → (hostOf s n).resetBy ≠ 4 → portQuiet s n = true →
      let x := portItems (txClear s) n
      (bit (getR x .HOST_STS n) 1 = false →
        ends (.hostResetComplete h) (updR (updHost x n (fun p => { p with resetBy := 0 })) .HOST_STS (fun w => setBit w 20 false) n)) ∧
      (bit (getR x .HOST_STS n) 1 = true → ends (.hostResetComplete h) (updHost x n (fun p => { p with resetBy := 4 })))) ∧
    ends (.electricalIdleExit h) (linkWake s n) ∧
    (∀ width speed, (width = 4 ∨ width = 8 ∨ width = 16) → 1 ≤ speed.toNat → speed.toNat ≤ 5 → s.boot.rails = true → bit st 1 = false →
      (hostOf s n).refLost = false → hostUp s n = false → (5 ≤ s.boot.step → hostDomOn s n = true) →
      ends (.hostLinkUp h width speed) (msixUnblock (msixAssert (updR (txClear s) .HOST_STS
        (fun w => setField (setField (setField (setBit w 0 true) 7 5 speed.toNat) 12 8 width.toNat) 15 14 0) n) n 0 srcLinkChange) n))

/-- The requests of a host complete on a port that is up: configuration, DOE, expansion ROM, memory, BAR accesses and MSI-X messages; a
request that the port cannot serve is answered Unsupported Request, and one that the watermark closes Completer Abort. -/
def Obligations.HostAccessesComplete : Prop :=
  ∀ (s : State) (h : BitVec 1) (hdr0 hdr1 val : Word),
    let n := h.toNat
    let s0 := txClear s
    let ends (i : Instr) (t : State) : Prop := exec i s = .next t
    hostUp s n = true →
    (∀ dw be v, (hostReady s0 n = true →
        ends (.hostConfigRequest h true dw be v) (cfgWrite (tx s0 (.cpl n 0 false [])) n dw.toNat be v.toNat) ∧
        ends (.hostConfigRequest h false dw be v) (tx s0 (.cpl n 0 false (leBytes 4 (cfgRead s0 n dw.toNat))))) ∧
      (hostReady s0 n = false → ∀ wr, ends (.hostConfigRequest h wr dw be v) (tx s0 (.cpl n 2 false [])))) ∧
    (hostReady s n = true → ∀ ve ty obj, ends (.doeRequest h ve ty obj) (doeTake s n ve.toNat ty.toNat obj) ∧ ends (.doeAbort h) (doeAbort s n)) ∧
    ((hostOf s n).doeBusy = true → ∀ obj, ends (.doeResponse h obj) (updHost s n (fun p =>
      { p with doeBusy := false, doeReady := true, doeReq := [], doeResp := (doeAnswer s (hostOf s n).doeReq obj).take 4096 }))) ∧
    (∀ posted, ends (.hostUnsupportedRequest h posted hdr0 hdr1) (unsupported (linkWake s0 n) n posted hdr0 hdr1)) ∧
    (∀ off len, (hostMemOk s0 n = true → (cfgDw s0 n 12).testBit 0 = true → ends (.hostRomRead h off len)
        (tx s0 (.cpl n 0 false ((List.range len.toNat).map (fun i => romAt s0 n (off.toNat + i)))))) ∧
      (hostMemOk s0 n = false ∨ (cfgDw s0 n 12).testBit 0 = false → ends (.hostRomRead h off len) (unsupported s0 n false 0 0))) ∧
    (∀ (a : Word) bytes ep ecrc (replays : BitVec 8),
      let w := lcrcErrors (linkWake s0 n) n replays.toNat hdr0 hdr1
      let claim (t : State) : Prop := ends (.hostMemoryWrite h a bytes ep ecrc replays hdr0 hdr1) t
      (bytes = [] → claim w) ∧
      (bytes ≠ [] → (ecrc = false → claim (hostError w n 3 hdr0 hdr1)) ∧
        (ecrc = true → (hostMemOk w n = false → claim (unsupported w n true hdr0 hdr1)) ∧
          (hostMemOk w n = true →
            let x := if ep then hostError w n 2 hdr0 hdr1 else w
            (hostWorld x a.toNat bytes.length = true → claim (hostDenied x n a.toNat hdr0 hdr1)) ∧
            (hostWorld x a.toNat bytes.length = false →
              (hostUnmapped x a.toNat bytes.length = true →
                claim (unsupported (recordUnmapped x (hostStop n) 0 0 5 a.toNat false) n true hdr0 hdr1)) ∧
              (hostUnmapped x a.toNat bytes.length = false → claim (agentWriteBytes x a.toNat bytes ep (hostAgent n)))))))) ∧
    (∀ (a : Word) (len : BitVec 13) ecrc, len ≠ 0 →
      let w := linkWake s0 n
      let claim (t : State) : Prop := ends (.hostMemoryRead h a len ecrc hdr0 hdr1) t
      (ecrc = false → claim (hostError w n 3 hdr0 hdr1)) ∧
      (ecrc = true → (hostMemOk w n = false → claim (unsupported w n false hdr0 hdr1)) ∧
        (hostMemOk w n = true →
          (hostWorld w a.toNat len.toNat = true → claim (tx (hostDenied w n a.toNat hdr0 hdr1) (.cpl n 4 false []))) ∧
          (hostWorld w a.toNat len.toNat = false →
            (hostUnmapped w a.toNat len.toNat = true →
              claim (unsupported (recordUnmapped w (hostStop n) 0 0 5 a.toNat false) n false hdr0 hdr1)) ∧
            (∀ bytes x, hostUnmapped w a.toNat len.toNat = false →
              (agentBytes w a.toNat len.toNat (hostAgent n) = (bytes, true, x) → claim (tx x (.cpl n 0 false bytes))) ∧
              (agentBytes w a.toNat len.toNat (hostAgent n) = (bytes, false, x) →
                claim (tx (alm x 0x9012 4 10 n (lo32 a.toNat) (hi32 a.toNat)) (.cpl n 0 true bytes)))))))) ∧
    (∀ (z : BitVec 4) ep, z = 4 ∨ z = 8 →
      let w := linkWake s0 n
      (hostMemOk w n = false → ∀ wr off pasid, ends (.hostBar0Access h wr off z val ep hdr0 hdr1) (unsupported w n wr hdr0 hdr1) ∧
        ∀ off', ends (.hostBar2Access h wr off' z val pasid ep hdr0 hdr1) (unsupported w n wr hdr0 hdr1)) ∧
      (hostMemOk w n = true →
        (∀ (off : BitVec 26), off.toNat % z.toNat = 0 →
          let o := off.toNat
          let wrote (t : State) : Prop := ends (.hostBar0Access h true off z val ep hdr0 hdr1) t
          let got (t : State) : Prop := ends (.hostBar0Access h false off z val ep hdr0 hdr1) t
          (bar0Target w n o = .none → wrote w ∧ got (tx w (.cpl n 0 false (laneBytes o z.toNat 0)))) ∧
          (∀ m, bar0Target w n o = .msix m →
            wrote (barWrite w n m ep hdr0 hdr1 (fun x => msixWrite x n (m / 8 * 8) (laneValue o z.toNat val) (laneMask o z.toNat))) ∧
            got (tx w (.cpl n 0 false (laneBytes o z.toNat (msixWord w n (m / 8 * 8)))))) ∧
          (∀ a, bar0Target w n o = .reg a → addrCls w a = .register →
            (isBowlAddr a = false →
              wrote (barWrite w n a ep hdr0 hdr1 (fun x => writeReg x (barWho x h) a (laneValue o z.toNat val) (laneMask o z.toNat))) ∧
              got (tx (readReg w (barWho w h) a (laneMask o z.toNat)).2
                (.cpl n 0 false (laneBytes o z.toNat (readReg w (barWho w h) a (laneMask o z.toNat)).1)))) ∧
            (isBowlAddr a = true →
              wrote (hostDenied w n a hdr0 hdr1) ∧ got (tx (hostDenied w n a hdr0 hdr1) (.cpl n 4 false []))))) ∧
        (∀ (off : BitVec 28) pasid, off.toNat % 65536 % z.toNat = 0 →
          let m := off.toNat / 65536
          let o := off.toNat % 65536
          let wrote (t : State) : Prop := ends (.hostBar2Access h true off z val pasid ep hdr0 hdr1) t
          let got (t : State) : Prop := ends (.hostBar2Access h false off z val pasid ep hdr0 hdr1) t
          (barAccepted w n m pasid = true →
            wrote (barWrite w n off.toNat ep hdr0 hdr1 (fun x => pageWrite x m h o (laneValue o z.toNat val) (laneMask o z.toNat))) ∧
            got (tx w (.cpl n 0 false (laneBytes o z.toNat (pageRead w m h o))))) ∧
          (barAccepted w n m pasid = false → wrote (barRefused w n m) ∧ got (tx (barRefused w n m) (.cpl n 0 false (laneBytes o z.toNat 0))))))) ∧
    (∀ e : BitVec 13, e.toNat < 4160 → (msixEnt s0 n e.toNat).due = true →
      (msixBlocked s0 n e.toNat = true → ends (.msixSend h e)
        (updR (setMsix s0 n e.toNat { msixEnt s0 n e.toNat with due := false, pending := true }) .HOST_CNT (fun w => satInc w 31 0) n 7)) ∧
      (msixBlocked s0 n e.toNat = false → ∃ x, ends (.msixSend h e) x ∧
        x.hostTx = [.msg n (msixEnt s0 n e.toNat).addr (msixEnt s0 n e.toNat).data] ∧ (msixEnt x n e.toNat).due = false))

/-! ### Rigging commands and partition states (R79–R90) -/

/-- The rigging commands complete for a requester that may command: an image that verifies is stored, selected or begun to be applied,
and one that fails leaves the status of its first failed check; partitions change state where the command allows it, and a refused command
leaves its status. -/
def Obligations.RiggingCommandsComplete : Prop :=
  ∀ (s : State) (who : Requester) (p slot : BitVec 4),
    let n := p.toNat
    let ends (i : Instr) (t : State) : Prop := exec i s = .next t
    let r := prun s n
    (regDead s ⟨.RIG_CMD, 0, 0, 0⟩ = false → rigCommander s who = true →
      (rigIdle s = true → ends (.verify who) (rigEnd s
        (if leAt (staged s) 0x13 1 = 1 then failOf (verifyPartial s (staged s) slotRoom .either) else failOf (verifyFull s (staged s) slotRoom .either)))) ∧
      (isThread who = true → ∀ ok, ends (.store who slot ok) (cmdDone s 0x0F) ∧ ends (.select who slot) (cmdDone s 0x0F)) ∧
      (rigIdle s = true → isThread who = false → slot.toNat < 8 → ends (.store who slot true) (match verifyFull s (staged s) slotRoom with
        | .inl _ => rigEnd { s with flash := { s.flash with
            slots := SMap.set (fun _ => []) s.flash.slots slot.toNat (staged s), valid := Nat.lor s.flash.valid (2 ^ slot.toNat) } } none
        | .inr f => rigEnd s (some f))) ∧
      (rigIdle s = true → isThread who = false → slot.toNat < 8 → ∀ g, verifyFull s (staged s) slotRoom = .inl g →
        ∃ w x, freeW { s with flash := { s.flash with
            slots := SMap.set (fun _ => []) s.flash.slots slot.toNat (staged s), valid := s.flash.valid - (if s.flash.valid.testBit slot.toNat then 2 ^ slot.toNat else 0) } } = (w, x) ∧
          ends (.store who slot false) (cmdDone x (1 + w.toNat % 255))) ∧
      (rigIdle s = true → isThread who = false → ends (.select who slot) (match verifyFull s (slotImage s slot.toNat) slotRoom with
        | .inl _ => rigEnd { s with flash := { s.flash with active := slot.toNat, fallback := s.flash.active } } none
        | .inr f => rigEnd s (some f))) ∧
      (rigIdle s = true → rigHead s (staged s) .partialOnly slotRoom = none → otherPart s who (leAt (staged s) 0x1C 1) = false →
        ends (.rewire who) (match verifyPartial s (staged s) slotRoom with
          | .inl (q, _) =>
            if underTest s q = false ∧ ((prun s q).st = .absent ∨ (prun s q).st = .parked ∨ (prun s q).st = .faulted) then
              { updR (updPrun s q (fun r => { r with rewiring := true })) .RIG_STS (fun w => setField w 3 2 2) 0 with
                rewire := some { part := q, image := staged s, since := s.epoch } }
            else cmdDone s (if underTest s q then 0x0C else 0x0D)
          | .inr f => rigEnd s (some f))) ∧
      (rigIdle s = true → ∀ f, rigHead s (staged s) .partialOnly slotRoom = some f → ends (.rewire who) (rigEnd s (some f))) ∧
      (rigIdle s = false → ends (.verify who) (cmdDone s 0x0C) ∧ ends (.rewire who) (cmdDone s 0x0C)) ∧
      (otherPart s who n = true → ends (.startPart who p) (cmdDone s 0x0F) ∧ ends (.park who p) (cmdDone s 0x0F) ∧
        ends (.resume who p) (cmdDone s 0x0F) ∧ ends (.reset who p) (cmdDone s 0x0F)) ∧
      (otherPart s who n = false → r.rewiring = false →
        (r.st = .running → ((knots s n).part.selfParkOnly = false ∨ isThread who = true) → r.park = .none →
          (r.calRunning = false ∨ (knots s n).cal = none → ends (.park who p) (drainBegin s n s.epoch)) ∧
          (∀ c, r.calRunning = true → (knots s n).cal = some c → ends (.park who p)
            (updPrun s n (fun r => { r with park := .waiting, parkAt := cycleStart c ((s.epoch - c.phase) / c.cycle + 1) })))) ∧
        (underTest s n = false →
          (r.st = .rigged → partFenced s n = false → ends (.startPart who p) (cmdDone (enterRunning s n false) 0)) ∧
          (r.st = .parked → partFenced s n = false → partTested s n = false → ends (.resume who p) (cmdDone (enterRunning s n true) 0)) ∧
          ((r.st = .parked ∨ r.st = .faulted) → ends (.reset who p) (cmdDone (untest (partReset s n) n) 0))))) ∧
    (r.park = .waiting → r.parkAt ≤ s.epoch →
      (∀ c, (knots s n).cal = some c → ∀ i k, c.slots[i]? = some k → k.act ≠ .exchange → r.parkAt ≤ slotNext s n c i k.offset r.calFrom) →
      ends (.parkDrainStart p) (drainBegin s n r.parkAt)) ∧
    (r.park = .draining → drained s n = true → s.epoch ≤ r.drainAt + 1000000 →
      ends (.parkComplete p) (cmdDone (haltThreads (updPrun s n (fun r => { r with st := .parked, park := .none })) n) 0)) ∧
    (r.park = .draining → r.drainAt + 1000000 ≤ s.epoch → ends (.parkDrainTimeout p) (faultPartition (alm s 0xE012 4 15 n) n)) ∧
    (∀ w ks, s.rewire = some w → s.epoch ≤ w.since + 20000000 → rigKnots w.image = .inl ks →
      ends .rewireComplete (rigDone (rewireApply { s with rewire := none } w.part (partOf ks w.part (knots s w.part))
        (fun ty => (bodyOf ks ty w.part).isSome) (BitVec.ofNat 64 (leAt w.image 0x20 8)) (slice w.image 0x30 48)) 0 0 0 0)) ∧
    (∀ w, s.rewire = some w → w.since + 20000000 ≤ s.epoch →
      ends .rewireTimeout (rigDone (updPrun { s with rewire := none } w.part (fun r => { r with rewiring := false })) 0x10 0xFFFF 2 0))

/-! ### Field ports and calendars (R284–R297, R305–R324, R335) -/

/-- The events of a field port complete where they are due: a Lanyard cycle begins, its CALL is sent, a REPLY is taken; raw frames are
delivered, sent, or counted as discarded; PLCA's BEACON is seen and lost; and a port's rings are written by those who may. -/
def Obligations.FieldEventsComplete : Prop :=
  ∀ (s : State) (who : Requester) (port : BitVec 9) (q : Nat) (r : PortRec) (frame : List (BitVec 8)) (sfd : Word),
    let l := port.toNat
    let b := l / 64
    let i := l % 64
    let ends (c : Instr) (t : State) : Prop := exec c s = .next t
    let idx := getR s .FBAY_RAW_IDX b i
    (∀ p k st t c gens lost, lanyardNext s l = some (p, r, k, st, t) → gridCal s p = some c → t ≤ s.epoch →
      (∀ j o, exchSlot c l = some (j, o) → (prun s p).acted < 8 → slotBefore s p j t = false →
        ends (.lanyardCycleStart port gens lost) (lanyardBegin (slotActed s p j t) l p r k st (gens.map BitVec.toNat) (lost.map BitVec.toNat))) ∧
      (exchSlot c l = none →
        ends (.lanyardCycleStart port gens lost) (lanyardBegin s l p r k st (gens.map BitVec.toNat) (lost.map BitVec.toNat)))) ∧
    (∀ m, (portOf s l).call = some m → bayOn s l = true →
      let x := updR (updPort s l (fun x => { x with call := none, sent := true, wire := some m, frame := callFrame l ((x.cfg.map PortRec.ethertype).getD 0) m }))
        .FBAY_PORT_CNT (fun w => satInc w 31 0) b i 0
      ends (.callTransmit port) (foldS (fun s (e : ExchRec) =>
        if e.output then updR s .FBAY_CTX_STS (fun w => setField w 63 32 m.cycle) b (e.ctx % 8192) else s) x (portOf s l).exch)) ∧
    (portRec s l = some (q, r) → bayOn s l = true →
      (portMode s l = 1 → ∀ ok, ends (.replyFrame port ok frame sfd) (lanyardReceive s l ((portOf s l).cfg.getD r) ok frame sfd)) ∧
      (portMode s l = 2 →
        ends (.rawRxFrame port false frame sfd) (portCount s l 2) ∧
        (frame.length + 4 < 64 ∨ 1522 < frame.length + 4 → ends (.rawRxFrame port true frame sfd) (portCount s l 10)) ∧
        (64 ≤ frame.length + 4 → frame.length + 4 ≤ 1522 →
          (rawFilter s l frame = false ∨ rawRuns s l q = false → ends (.rawRxFrame port true frame sfd) (portCount s l 8)) ∧
          (rawFilter s l frame = true → rawRuns s l q = true →
            (fieldN idx 15 0 = fieldN idx 31 16 → ends (.rawRxFrame port true frame sfd) (portCount s l 9)) ∧
            (fieldN idx 15 0 ≠ fieldN idx 31 16 → ends (.rawRxFrame port true frame sfd) (rawDeliver s l q frame sfd)))) ∧
        (rawRuns s l q = true → fieldN idx 47 32 ≠ fieldN idx 63 48 → ends (.rawTxFrame port) (rawSend s l q)))) ∧
    (portMode s l ≠ 0 → bayOn s l = true →
      (let x := updPort s l (fun x => { x with beacon := s.epoch, lostOnce := false })
        let y := updR x .FBAY_PORT_STS (fun w => setBit w 8 true) b i
        (bit (getR s .FBAY_PORT_STS b i) 8 = true → ends (.plcaBeacon port) x) ∧
        (bit (getR s .FBAY_PORT_STS b i) 8 = false →
          ends (.plcaBeacon port) (if (portOf s l).lostOnce then alm y 0x5012 2 7 l else y))) ∧
      ((portOf s l).lostOnce = false → (portOf s l).beacon + 400000 ≤ s.epoch → ends (.plcaLost port)
        (bayErr (portCause (alm (updR (updPort s l (fun x => { x with lostOnce := true })) .FBAY_PORT_STS (fun w => setBit w 8 false) b i) 0x5011 3 7 l) l 44) l 4))) ∧
    (portMode s l ≠ 0 → ∀ lost symbols : BitVec 16,
      let x := portLoses (portLoses s l 2 lost.toNat) l 11 symbols.toNat
      (lost = 0 → ends (.fieldImmunityEvent port lost symbols) x) ∧ (lost ≠ 0 → ends (.fieldImmunityEvent port lost symbols) (bayErr x l 6))) ∧
    (regDead s ⟨.FBAY_RAW_IDX, b, i, 0⟩ = false → ∀ tx tail,
      (portWriter s who l = true → ends (.rawTailWrite who port tx tail) (rawTail s l tx tail.toNat)) ∧
      (portWriter s who l = false → ends (.rawTailWrite who port tx tail) (refuseReg s ⟨.FBAY_RAW_IDX, b, i, 0⟩ who))) ∧
    (regDead s ⟨.FBAY_RAW_CTL, b, i, 0⟩ = false →
      (portWriter s who l = true → ends (.rawResume who port) (rawCtl s l (setBit (getR s .FBAY_RAW_CTL b i) 1 true)) ∧
        (∀ en, ends (.rawEnable who port en) (rawCtl s l (setBit 0 0 en)))) ∧
      (portWriter s who l = false → ends (.rawResume who port) (refuseReg s ⟨.FBAY_RAW_CTL, b, i, 0⟩ who) ∧
        (∀ en, ends (.rawEnable who port en) (refuseReg s ⟨.FBAY_RAW_CTL, b, i, 0⟩ who))))

/-- The slots of a calendar act when they are due and their turn has come, time messages and edges are taken, and a stopper takes or
refuses a tighten request that has arrived. -/
def Obligations.CalendarEventsComplete : Prop :=
  ∀ (s : State) (who : Requester) (p : BitVec 4) (i : BitVec 12) (sl : Slot) (t : Nat),
    let n := p.toNat
    let ends (c : Instr) (x : State) : Prop := exec c s = .next x
    let acted := slotActed s n i.toNat t
    let src := fieldN (getR s .CLK_EPOCH_STS 0) 9 8
    (slotDue s n i.toNat .release = some (sl, t) → ends (.slotRelease p i) (releaseThread acted n i.toNat sl.target t)) ∧
    (slotDue s n i.toNat .deadline = some (sl, t) →
      ((thr acted sl.target).complete = true → ends (.slotDeadline p i) acted) ∧
      ((thr acted sl.target).complete = false → ends (.slotDeadline p i) (deadlineMiss acted n i.toNat sl.target t))) ∧
    (slotDue s n i.toNat .start = some (sl, t) →
      let blk := chanBlock sl.target
      let mine : Prop := chanOwner acted sl.target = (1, n)
      (blkState acted blk = 1 → mine → ends (.slotStart p i) (dmaStart acted sl.target)) ∧
      (blkState acted blk = 2 → mine → ends (.slotStart p i) (alm acted 0x8019 2 16 blk blk)) ∧
      ((blkState acted blk ≠ 1 ∧ blkState acted blk ≠ 2 ∨ ¬ mine) → ends (.slotStart p i) (alm acted 0xA011 2 11 sl.target sl.target))) ∧
    (∀ c o r k st, slotDue s n i.toNat .exchange = some (sl, t) → gridCal s n = some c → exchSlot c sl.target = some (i.toNat, o) →
      lanyardNext acted sl.target = some (n, r, k, st, t) → ends (.slotExchange p i) (lanyardBegin acted sl.target n r k st [] [])) ∧
    (∀ c, (knots s n).cal = some c → (prun s n).st = .running → (prun s n).park = .none → (prun s n).calRunning = false →
      calStartAt s n c ≤ s.epoch →
      ends (.calendarStartRunning p) (updPrun s n (fun r => { r with calRunning := true, calFrom := calStartAt s n c }))) ∧
    ((fieldN (getR s .CLK_EPOCH_STS 0) 2 0 = 1 ∨ fieldN (getR s .CLK_EPOCH_STS 0) 2 0 = 2) → s.time.lastMark + 300000000 ≤ s.epoch →
      ends .alignmentHoldover
        (alm { updR s .CLK_EPOCH_STS (fun w => setField w 2 0 3) 0 with time := { s.time with good := 0 } } 0x4015 3 0 0 src)) ∧
    (∀ line, (∀ sec off q ok, parseTod line = some (sec, off, q, ok) → ends (.todMessage line)
        { s with time := { s.time with tod := some { sec := sec, off := off, q := q, ended := s.epoch, ok := ok } } }) ∧
      (parseTod line = none → ends (.todMessage line) s)) ∧
    (∀ ns : BitVec 4, ns.toNat < 10 →
      let stamp := s.epoch * 10 + ns.toNat
      let x : State := { s with time := { s.time with lastEdge := some stamp, tod := none } }
      (src ≠ 1 → ends (.time1ppsEdge ns) { s with time := { s.time with tod := none } }) ∧
      (src = 1 → (s.time.tod = none → ends (.time1ppsEdge ns) x) ∧
        (∀ m, s.time.tod = some m →
          (markAccepted s m stamp = false → ends (.time1ppsEdge ns) x) ∧
          (markAccepted s m stamp = true → ends (.time1ppsEdge ns)
            (acceptMark (setR x .CLK_TOD_LAST (setField (setField (setField 0 63 62 m.q) 57 48 m.off) 39 0 m.sec) 0)
              ((m.sec : Int) * 1000000000 + (BitVec.ofNat 16 (fieldN (getR s .CLK_EPOCH_CTL 0) 47 32)).toInt - (stamp : Int)) 1000000000))))) ∧
    (regDead s ⟨.CLK_EPOCH_CTL, 0, 0, 0⟩ = false →
      ends (.epochStepArm who) (epochCtlWrite s who (setBit (getR s .CLK_EPOCH_CTL 0) 1 true)) ∧
      (∀ en, ends (.timeSourceEnable who en) (epochCtlWrite s who (setBit (setBit (getR s .CLK_EPOCH_CTL 0) 1 false) 0 en)))) ∧
    (∀ (o : BitVec 15) m gd, s.tightNet.find? (fun m => m.output = o.toNat && arrivedPkt s m.pkt) = some m →
      let x := creditDone (ejectPkt { s with tightNet := s.tightNet.filter (· != m) } m.pkt) m.pkt
      (thr x m.thread).wait = some (.guard gd) →
      (tightenRefused x m.thread m.output m.fn m.val = true → ends (.tightenRequest o) (trapped x m.thread 0x10 (w64 m.output))) ∧
      (tightenRefused x m.thread m.output m.fn m.val = false → ends (.tightenRequest o) (finish (wg (updStop x m.output (fun y =>
        { y with accepted := y.accepted ++ [(m.fn, m.val)], tightened := y.tightened || setLimit (limitsSeen y) m.fn m.val != limitsSeen y }))
        m.thread (BitVec.ofNat 6 gd) TWord.zero) m.thread 1 false)))

/-! ### The mesh and coherence (R225–R256) -/

/-- The mesh commands and the requests of the holders complete: flits are replayed on a link and a failed link resets the module, credits
return, and a request is sent where it is not yet in flight; where it has arrived, its home takes it. -/
def Obligations.MeshRequestsComplete : Prop :=
  ∀ (s : State) (src dst h : BitVec 7) (dir : BitVec 2) (line : BitVec 32),
    let n := h.toNat
    let l := line.toNat
    let ends (c : Instr) (t : State) : Prop := exec c s = .next t
    let flying (op : BitVec 6) : Bool := s.net.any (fun m => m.op = op && m.holder = n && m.line = l)
    let asked (op : BitVec 6) (own spec : Bool) : State :=
      if flying op then s
      else if n < 64 then (if spec then aheadRequest s n l else l2Request s n l own false)
      else if n = 71 then l2Request (agent7Member s l).2 71 l own spec (agent7Member s l).1
      else if op = 0x01 then sendMsg s { op := op, holder := n, line := l } else s
    (src.toNat < 84 → (src.toNat < 64 ∨ dir = 0) → linkOk src.toNat dir.toNat = true → ∀ replayed (failures : BitVec 3),
      let x := updR s .MESH_LINK (fun w => satAdd w 63 32 replayed.toNat) 0 src.toNat dir.toNat
      (failures ≠ 7 → ends (.flitHcrcFail src dir replayed failures) x) ∧
      (failures = 7 → ends (.flitHcrcFail src dir replayed failures) (linkFailed x src.toNat dir.toNat))) ∧
    (src.toNat < 84 → linkOk src.toNat dir.toNat = true → ends (.malformedFlit src dir) (linkFailed s src.toNat dir.toNat)) ∧
    (src.toNat < 84 → (src.toNat < 64 ∨ dir = 0) → linkOk src.toNat dir.toNat = false → ∀ replayed (failures : BitVec 3),
      ends (.flitHcrcFail src dir replayed failures) s ∧ ends (.malformedFlit src dir) s) ∧
    (src.toNat < 84 → dst.toNat < 84 →
      (∀ v : Word, ends (.credit src dst v) (creditReturn s src.toNat dst.toNat (fieldN v 15 0) (fieldN v 31 16) (fieldN v 47 32) (fieldN v 63 48))) ∧
      ends (.creditReturnTimeout src dst) (creditReturnAll s src.toNat dst.toNat)) ∧
    (n < 72 →
      (∀ spec, ends (.rdShared h line spec) (deliverReq (asked 1 false spec) 1 n l)) ∧
      ends (.rdOwn h line) (deliverReq (asked 2 true false) 2 n l) ∧
      ends (.upgrade h line) (deliverReq (asked 3 true false) 3 n l) ∧
      (flying 4 = true ∨ n < 64 → ends (.rdOnce h line) (deliverReq s 4 n l)) ∧
      (flying 4 = false → 64 ≤ n → ends (.rdOnce h line) (deliverReq (sendMsg s { op := 4, holder := n, line := l }) 4 n l)) ∧
      ends (.wrBack h line) (deliverReq s 7 n l) ∧ ends (.evictClean h line) (deliverReq s 8 n l) ∧
      ends (.cleanLine h line) (deliverReq s 9 n l) ∧ ends (.flushLine h line) (deliverReq s 10 n l) ∧
      (∀ d m ep, d.length = 8 →
        (n < 64 → ends (.wrPartial h line d m ep) (deliverReq s 6 n l)) ∧
        (64 ≤ n → ends (.wrFull h line d ep) (deliverReq (sendMsg s { op := 5, holder := n, line := l, data := ingressLine d ep }) 5 n l) ∧
          ends (.wrPartial h line d m ep)
            (deliverReq (sendMsg s { op := 6, holder := n, line := l, data := ingressLine d ep, mask := m }) 6 n l)))) ∧
    (∀ (op : BitVec 6) m s1, takeMsg s (fun m => m.op = op && m.holder = n && m.line = l) = some (m, s1) →
      deliverReq s op n l = homeArrive s1 m)

/-- A snoop that has arrived at a holder is answered in one step, and a response that its transaction awaits is taken at the home: the
sender leaves the directory unless it keeps a copy, and the transaction goes on after the last response. A response that no transaction
awaits is a protocol breach (R256). -/
def Obligations.SnoopsComplete : Prop :=
  ∀ (s s1 : State) (h : BitVec 7) (line : BitVec 32) (m : Msg),
    let n := h.toNat
    let l := line.toNat
    let hm := homeOf s l
    n < 72 →
    let came (op : BitVec 6) : Prop := takeMsg s (fun m => m.op = op && m.holder = n && m.line = l) = some (m, s1)
    let claim (c : Instr) (op : BitVec 6) (k : Snoop) : Prop := came op → ∀ r d s2, holderSnoop s1 n l k = (r, d, s2) →
      exec c s = .next (creditDone (sendMsg s2 { op := r, holder := n, line := l, data := d, part := if n < 64 then (quadPart s2 n).getD 0 else 0 }) m.pkt)
    let taken (c : Instr) (op : BitVec 6) (keeps hasData dirty : Bool) : Prop :=
      (came op → ∀ t, txnOf s1 hm l = some t → t.await.contains n = true → (dirty && t.dataDirty) = false →
        let t' : Txn := { t with await := t.await.erase n, data := if hasData && !t.dataDirty then some m.data else t.data, dataDirty := t.dataDirty || dirty }
        let s2 := putTxn (if keeps || t.phase == .rebuild then s1 else dirRemove s1 hm l n) hm t'
        (t'.await ≠ [] → exec c s = .next s2) ∧
        (t'.await = [] → (t.phase = .rebuild → exec c s = .next (homeNext (rebuildDone s2 hm t') l)) ∧
          (t.phase ≠ .rebuild → exec c s = .next (homeNext (homeAfterSnoop s2 hm t') l)))) ∧
      (came op → txnOf s1 hm l = none → exec c s = .next (protocolBreach s1 l op.toNat)) ∧
      ((∀ m ∈ s.net, m.op ≠ op ∨ m.holder ≠ n ∨ m.line ≠ l) → exec c s = .next (protocolBreach s l op.toNat))
    claim (.snpShared h line) 0x10 .shared ∧ claim (.snpInv h line) 0x11 .inv ∧ claim (.snpRead h line) 0x12 .read ∧
    claim (.snpClean h line) 0x13 .clean ∧
    taken (.snpRspI h line) 0x2A false false false ∧ taken (.snpRspS h line) 0x2B true false false ∧
    taken (.snpRspDataI h line) 0x2C false true true ∧ taken (.snpRspDataKeep h line) 0x2D true true true ∧
    taken (.snpRspEvictC h line) 0x2E false true false ∧ taken (.snpRspEvictD h line) 0x2F false true true

/-- A grant that has arrived at a requester whose transient state awaits it completes: the line takes the state granted and COMP_ACK is
sent; an agent's read buffer takes the line. Data, acknowledgements, refusals, denials and notes are taken too: the waiting instruction
goes on, and the home's transaction ends or goes on. -/
def Obligations.GrantsComplete : Prop :=
  ∀ (s s1 : State) (h : BitVec 7) (line : BitVec 32) (m : Msg) (tr : Track),
    let n := h.toNat
    let l := line.toNat
    let hm := homeOf s l
    n < 72 →
    let ends (c : Instr) (t : State) : Prop := exec c s = .next t
    let got (op : BitVec 6) : Prop := takeMsg s (fun m => m.op = op && m.holder = n && m.line = l) = some (m, s1)
    let atHome (op : BitVec 6) : Prop := takeMsg s (fun m => m.op = op && m.line = l) = some (m, s1)
    let ack (x : State) : State := sendMsg x { op := 0x28, holder := n, line := l, part := if n < 64 then (quadPart x n).getD 0 else 0 }
    let kept (op : BitVec 6) (c : Instr) : Prop := got op → ends c (ack { s1 with agentBuf := s1.agentBuf ++ [(n, l, m.data)] })
    let waits (x : State) (u : Nat) : Prop := ∃ i, (thr x u).wait = some (.fill i l)
    (64 ≤ n → n < 71 → kept 0x20 (.gntS h line) ∧ kept 0x21 (.gntE h line) ∧ kept 0x22 (.gntM h line) ∧ kept 0x37 (.gntSUe h line) ∧
      kept 0x38 (.gntEUe h line) ∧ kept 0x39 (.gntMUe h line)) ∧
    ((n < 64 ∨ n = 71) → track s1 n l = some tr →
      (tr.st = .IS → (got 0x20 → ends (.gntS h line) (ack (l2Grant s1 n l .S m.data false))) ∧
        (got 0x21 → ends (.gntE h line) (ack (l2Grant s1 n l .E m.data false))) ∧
        (got 0x37 → ends (.gntSUe h line) (ack (l2Grant s1 n l .S m.data true))) ∧
        (got 0x38 → ends (.gntEUe h line) (ack (l2Grant s1 n l .E m.data true)))) ∧
      (tr.st = .IM → (got 0x22 → ends (.gntM h line) (wakeOwners (ack (l2Grant s1 n l .M m.data false)) n l)) ∧
        (got 0x39 → ends (.gntMUe h line) (wakeOwners (ack (l2Grant s1 n l .M m.data true)) n l))) ∧
      (tr.st = .SM → ∀ x y, l2 s1 n l = some (x, y) → got 0x23 →
        ends (.gntUpg h line) (wakeOwners (sendMsg (setL2 (setTrack s1 n l none) n l (some (.M, y))) { op := 0x28, holder := n, line := l }) n l))) ∧
    (∀ t gd pa size sg va iw, m.thread = some t → (thr s1 t).wait = some (.once gd pa size sg va iw) → pa / 64 = l →
      (got 0x24 → ends (.dataOnce h line) (applyAct t 1 false (onceDone t gd pa size sg va iw m.data false s1))) ∧
      (got 0x3A → ends (.dataOnceUe h line) (applyAct t 1 false (onceDone t gd pa size sg va iw m.data true s1))) ∧
      (injArmed s1 t 1 = false →
        (size = 8 → isSound (lineWord m.data (wordInLine pa)) = true →
          let after := finish (wg s1 t (BitVec.ofNat 6 gd) (lineWord m.data (wordInLine pa))) t 1 false
          (got 0x24 → ends (.dataOnce h line) after) ∧ (got 0x3A → ends (.dataOnceUe h line) after)) ∧
        (size = 32 → (∀ x ∈ onceLanes m.data pa, isSound x = true) →
          let after := finish (wvAll s1 t (BitVec.ofNat 5 gd) (onceLanes m.data pa)) t 1 false
          (got 0x24 → ends (.dataOnce h line) after) ∧ (got 0x3A → ends (.dataOnceUe h line) after)))) ∧
    (m.thread = none → (got 0x24 → ends (.dataOnce h line) s1) ∧ (got 0x3A → ends (.dataOnceUe h line) s1)) ∧
    (got 0x28 → ends (.compAck h line) (homeNext (dropTxn s1 hm l) l)) ∧
    (∀ t, txnOf s1 hm l = some t →
      (t.phase = .mem → (atHome 0x30 → ends (.memData line) (homeNext (homeAnswer s1 hm t m.data true false false) l)) ∧
        (atHome 0x3B → ends (.memDataUe line) (homeNext (homeAnswer s1 hm t m.data true false true) l))) ∧
      (t.phase = .flush → m.holder = t.req.holder → atHome 0x31 → ends (.memAck line) (homeNext (grant s1 hm t 0x29 Line.unused false) l)) ∧
      (t.phase ≠ .flush ∨ m.holder ≠ t.req.holder → atHome 0x31 → ends (.memAck line) s1)) ∧
    (∀ t, txnOf s hm l = some t → t.since + 100000 ≤ s.epoch → ends (.transactionTimeout line) (protocolBreach s l t.req.op.toNat)) ∧
    (got 0x25 →
      let x := setTrack (if n < 64 then updR s1 .QUAD_COH (fun w => satInc w 23 0) n else s1) n l none
      let y := foldS (fun y t =>
        if (thr y t).side.any (fun e => e.line == l && !e.filled) then
          sideUpd (pmcCount y t 0x25 1) t (fun z => { z with side := z.side.filter (fun e => !(e.line == l && !e.filled && (e.stride || e.spec))) })
        else y) x (quadThreads n)
      ends (.refused h line) (if fillWaiters y n l = [] then y else foldS (fun z t => sideRequest z t l .load) y (fillWaiters y n l))) ∧
    (got 0x26 →
      (∀ t, m.thread = some t →
        (∀ gd pa size sg va iw, (thr s1 t).wait = some (.once gd pa size sg va iw) →
          (size = 32 → ends (.denied h line)
            (finish (wvAll (threadUnmapped s1 t 1 pa) t (BitVec.ofNat 5 gd) (List.replicate 4 (poison 0))) t 1 false)) ∧
          (size ≠ 32 → ends (.denied h line) (finish (wg (threadUnmapped s1 t 1 pa) t (BitVec.ofNat 6 gd) (poison 0)) t 1 false))) ∧
        (∀ a, (thr s1 t).wait = some (.wrAck a) → ends (.denied h line) (finish (threadUnmapped s1 t 2 (64 * a)) t 1 false))) ∧
      (m.thread = none →
        let x := setTrack s1 n l none
        let y := foldS (fun y t => sideUpd y t (fun z => { z with side := z.side.filter (fun e => e.line != l) })) x (quadThreads n)
        ends (.denied h line) (wakeOwners (foldS (fun z t => wakeIf z t (fun _ => true)) y (fillWaiters x n l)) n l))) ∧
    (got 0x27 →
      ((∀ u ∈ quadThreads n, ¬ waits s1 u) → ends (.missNote h line) s1) ∧
      (∀ t i, t ∈ quadThreads n → (thr s1 t).wait = some (.fill i l) → (∀ u ∈ quadThreads n, u ≠ t → ¬ waits s1 u) →
        let ra := raLoad i && bit (getR s1 .CORE_CTL (t / 4)) 0 && bit (getR s1 .CORE_THCFG (t / 4) (t % 4)) 2 && !calCritical s1 t
        let x := updThr s1 t (fun y => { y with missNoted := true, runAhead := ra })
        ends (.missNote h line) (if ra then pmcCount x t 0x21 1 else x))) ∧
    (got 0x29 →
      let x := match track s1 n l with
        | some tr => if tr.st == .MI || tr.st == .EI || tr.st == .SI then setTrack s1 n l none else s1
        | none => s1
      let after (y : State) : State :=
        let z := foldS (fun y t => sideRequest y t l .load) y (fillWaiters y n l)
        foldS (fun y t => wakeIf y t (fun w => match w with | .own _ a => a == l | _ => false)) z (quadThreads n)
      (∀ t, m.thread = some t → (thr x t).wait = some (.wrAck l) → ends (.wrAck h line) (after (finish x t 1 false))) ∧
      (m.thread = none → ends (.wrAck h line) (after x)))

/-! ### The memory controllers (R260–R279) -/

/-- The commands of a memory channel complete: reads and writes of the homes, the page-code transfers that have arrived, scrubbing,
zeroing, sparing, calibration windows, pattern tests and splits. -/
def Obligations.MemoryCommandsComplete : Prop :=
  ∀ (s s1 : State) (who : Requester) (m src : BitVec 4) (page : BitVec 26) (ln : BitVec 2) (line : BitVec 32) (val : Word) (x : PcMsg),
    let c := m.toNat
    let p := page.toNat
    let ends (i : Instr) (t : State) : Prop := exec i s = .next t
    let settled := windowSettle s (channelOf (64 * line.toNat))
    (∀ y, (takeMsg settled (fun m => m.op = 0x14 && m.line = line.toNat) = some (y, s1) → ends (.memRead line) (memRequest s1 y)) ∧
      (takeMsg settled (fun m => m.op = 0x15 && m.line = line.toNat) = some (y, s1) → ends (.memWrite line) (memRequest s1 y))) ∧
    (takePc s (fun y => y.kind == .note && !y.ack && y.src = src.toNat && y.page = p) = some (x, s1) → ends (.pcNote src page) (masterNote s1 p)) ∧
    (takePc s (fun y => y.kind == .repair && y.src = src.toNat && y.page = p) = some (x, s1) →
      ends (.pcRepairRequest src page) (repairRequest s1 x.dst x.page x.src)) ∧
    (takePc s (fun y => y.kind == .gather && y.dst = c && y.page = p) = some (x, s1) →
      let y := updChan s1 c (fun k => { k with
        noteFilter := k.noteFilter.filter (fun e => e.1 != x.page)
        holdPages := if x.hold && !k.holdPages.contains x.page then k.holdPages ++ [x.page] else k.holdPages })
      ends (.pcGather m page) (foldS (fun z l =>
        let d := readDecode z (chunkLine c x.page l)
        sendPc d.2.2 { kind := .data, page := x.page, dst := x.src, src := c, line := l, data := d.1, flags := d.2.1.foldl (fun a b => a + 2 ^ b) 0 })
        y (List.range 4))) ∧
    (∀ j, takePc s (fun y => y.kind == .data && y.src = src.toNat && y.page = p && y.line = ln.toNat) = some (x, s1) →
      (chanOf s1 x.dst).jobs.find? (fun j => j.page = x.page && j.got.length < 64) = some j →
      let j' : PcJob := { j with got := j.got ++ [(x.src, x.line, x.flags, x.data)] }
      let y := updChan s1 x.dst (fun c => { c with jobs := c.jobs.map (fun k => if k == j then j' else k) })
      (j.got.length < 63 → ends (.pcData src page ln) y) ∧ (j.got.length = 63 → ends (.pcData src page ln) (gatherDone y x.dst j'))) ∧
    (takePc s (fun y => y.kind == .write && !y.ack && y.dst = c && y.page = p && y.line = ln.toNat) = some (x, s1) →
      let at_ := chunkLine x.dst x.page x.line
      ends (.pcWrite m page ln) (sendPc (rereadRow (putLine s1 at_ x.data) x.dst at_)
        { kind := .write, ack := true, page := x.page, dst := x.src, src := x.dst })) ∧
    (∀ j, takePc s (fun y => y.ack && y.src = src.toNat && y.page = p) = some (x, s1) →
      (chanOf s1 x.dst).jobs.find? (fun j => j.repair && j.page = x.page) = some j →
      let j' : PcJob := { j with acksLeft := j.acksLeft - 1 }
      let y := updChan s1 x.dst (fun c => { c with jobs := c.jobs.map (fun k => if k == j then j' else k) })
      (2 ≤ j.acksLeft → ends (.pcAck src page) y) ∧ (j.acksLeft ≤ 1 → ends (.pcAck src page) (releaseAll y x.dst j' false))) ∧
    (takePc s (fun y => y.kind == .release && y.dst = c && y.page = p) = some (x, s1) →
      let of_ (l : List Msg) : List Msg := l.filter (fun m => m.line / 64 == x.page)
      let y := updChan s1 c (fun k => { k with
        holdPages := k.holdPages.filter (· != x.page)
        heldWrites := k.heldWrites.filter (fun m => m.line / 64 != x.page)
        repairReads := k.repairReads.filter (fun m => m.line / 64 != x.page) })
      ends (.pcRelease m page)
        (foldS memWrite (foldS (fun z r => repairAnswer z c x.fail r) y (of_ (chanOf s1 c).repairReads)) (of_ (chanOf s1 c).heldWrites))) ∧
    ((∃ e ∈ (chanOf s c).rebuildQ, e.1 = p ∧ e.2 ≤ s.epoch) → inWindow s c = false → (∀ j ∈ (chanOf s c).jobs, j.page ≠ p) →
      ends (.pageRebuildStart m page) (sendGather (updChan s c (fun k => { k with
        rebuildQ := k.rebuildQ.filter (fun e => e.1 != p), jobs := k.jobs ++ [{ page := p, repair := false, requesters := [], got := [] }] })) c p false)) ∧
    ends (.noteFilterExpire m page)
      (updChan s c (fun k => { k with noteFilter := k.noteFilter.filter (fun e => !(e.1 == p && decide (e.2 + 10000 ≤ s.epoch))) })) ∧
    (∀ (bank : BitVec 5) (row : BitVec 16) same,
      let k := (bank.toNat, row.toNat)
      (chanOf s c).reread.contains k = true →
      let y := updChan s c (fun x => { x with reread := x.reread.erase k })
      (((chanOf y c).spared.contains k && same) = true ∨ 2048 ≤ (chanOf y c).spares → ends (.rowSparing m bank row same) (degrade y c)) ∧
      (((chanOf y c).spared.contains k && same) = false → (chanOf y c).spares < 2048 →
        let lines := ((y.memSyn.map (fun e => e.1 / 8)).dedup).filter (fun l => channelOf (64 * l) = c && bankRow y (64 * l) = k)
        ends (.rowSparing m bank row same) (updChan (foldS (fun z l => (memReadLine z l).2.2) y lines) c (fun x => { x with
          spared := if x.spared.contains k then x.spared else x.spared ++ [k], spares := x.spares + 1, reread := x.reread.erase k })))) ∧
    (∀ k, inWindow s c = false → firstUnscrubbed s c = some k → ends (.backgroundZeroing m) (zeroChunk s k)) ∧
    (inWindow s c = false →
      let w := getR s .MCH_SCRUB c
      let pos := fieldN w 33 0
      let pg := (scrubAt c pos).page
      let y := match scrubAt c pos with
        | .line n => scrubLine s n
        | .check q k => scrubCheck s c q k
      let z := if masterOf pg = c && isStale y pg && !(chanOf y c).rebuildQ.any (fun e => e.1 == pg) && (chanOf y c).rebuildQ.length < 1024 then
          queuePage y c pg y.epoch else y
      (pos + 1 < 285212672 → ends (.patrolScrub m) (setR z .MCH_SCRUB (setField w 33 0 (pos + 1)) c)) ∧
      (285212672 ≤ pos + 1 → ends (.patrolScrub m) (setR z .MCH_SCRUB (satInc (setField w 33 0 0) 63 48) c))) ∧
    (∀ b, ends (.bankRefresh m b) s) ∧
    (let y := windowSettle s c;
      (y.epoch + 3200000 - 200000 * c) % 3200000 ≤ 1 → (chanOf y c).inCal = false → ((chanOf y c).calStart + 1 < y.epoch ∨ y.epoch ≤ 1) →
      ends (.calibrationWindowStart m) (updR (updChan y c (fun k => { k with inCal := true, calStart := y.epoch })) .MCH_CAL_STS (fun w => satInc w 63 32) c)) ∧
    ((chanOf s c).inCal = true → ends (.calibrationWindowEnd m) (windowEnd s c (s.epoch - (chanOf s c).calStart))) ∧
    (regDead s ⟨.MCH_DIAG, c, 0, 0⟩ = false →
      (mchWriter who = true → ends (.patternTestStart who m val) (mchDiagWrite s c (setBit val 1 true))) ∧
      (mchWriter who = false → ends (.patternTestStart who m val) (refuseReg s ⟨.MCH_DIAG, c, 0, 0⟩ who))) ∧
    ((chanOf s c).patternRunning = true → ∀ ok, ends (.patternTestDone m ok) (patternEnd s c ok)) ∧
    (regDead s ⟨.MCH_SPLIT_ADDR, c, 0, 0⟩ = false →
      (mchWriter who = true → ends (.splitWrite who m val) (splitWrite s who c (setBit (setBit val 63 true) 62 false)) ∧
        ends (.splitRead who m val) (splitWrite s who c (setBit (setBit val 63 true) 62 true))) ∧
      (mchWriter who = false → ends (.splitWrite who m val) (refuseReg s ⟨.MCH_SPLIT_ADDR, c, 0, 0⟩ who) ∧
        ends (.splitRead who m val) (refuseReg s ⟨.MCH_SPLIT_ADDR, c, 0, 0⟩ who)))

/-! ### The Point Store (R345–R357) -/

/-- The Point Store's commands complete: a thread's operation that has arrived is performed and answered where the entry stands in its
slice; another waits for the entry, whose fetch begins, unless 32 are outstanding. -/
def Obligations.PointStoreCompletes : Prop :=
  ∀ (s : State) (who : Requester) (t : BitVec 10) (p : BitVec 24) (m : PsMsg),
    let ends (i : Instr) (x : State) : Prop := exec i s = .next x
    let n := p.toNat
    let arrives (i : Instr) (k : PsKind) (gf : Bool) : Prop :=
      s.psNet.find? (fun m => m.thread = t.toNat && m.answer.isNone && m.kind == k && arrivedPkt s m.pkt) = some m →
      s.ps.wait.contains (m.point, t.toNat) = false →
      (s.ps.fetch.contains m.point = true → ends i { s with ps := { s.ps with wait := s.ps.wait ++ [(m.point, t.toNat)] } }) ∧
      (s.ps.fetch.contains m.point = false →
        (ptCached s m.point = true → ends i (psAnswer (ptThreadOp s m gf).2 m (ptThreadOp s m gf).1)) ∧
        (ptCached s m.point = false → (s.ps.fetch.filter (fun p => ptHome p == ptHome m.point)).length < 32 →
          ends i { s with ps := { s.ps with fetch := s.ps.fetch ++ [m.point], wait := s.ps.wait ++ [(m.point, t.toNat)] } }))
    arrives (.engineRead t) .read false ∧ (∀ gf, arrives (.engineWrite t gf) .write gf ∧ arrives (.engineCw t gf) .cw gf) ∧
    arrives (.engineSub t) .sub false ∧
    (s.ps.fetch.contains n = true → ends (.entryFetchComplete p) (ptSettle s n)) ∧
    (n < ptCount s → ∀ (port : BitVec 9) (node : BitVec 3) (val ep : Word) (q : BitVec 16) gf,
      let b := bayStop port.toNat
      ends (.exchangeRead port p)
        (updPort (ptUnitRead s b n).2.2 port.toNat (fun x => { x with lastRead := some (n, (ptUnitRead s b n).1, (ptUnitRead s b n).2.1) })) ∧
      ends (.exchangeWrite port node p val ep q gf)
        (ptUnitWrite s b n (gen val) { writer := 0x2000 + port.toNat * 8 + node.toNat, epoch := some ep, quality := some q.toNat } gf)) ∧
    (isSecondary s = true → ∀ (val ep w2 : Word) (tal : BitVec 8) gf, ends (.mirrorWrite p val tal ep w2 gf) (ptMirror s n ⟨val, tal⟩ ep w2 gf)) ∧
    (∀ x r, s.ps.notes = x :: r → ends .notificationRecord (noteWrite { s with ps := { s.ps with notes := r } } x)) ∧
    (regDead s ⟨.PST_CMD, 0, 0, 0⟩ = false →
      (∀ fmt, ends (.setDeadband who p fmt) (pstCmd s who (setBit (setField (setField 0 39 32 1) 23 0 n) 48 fmt))) ∧
      ends (.peek who p) (pstCmd s who (setField (setField 0 39 32 2) 23 0 n))) ∧
    (∀ (g : BitVec 12) (tail : BitVec 16), regDead s ⟨.PST_NQ_IDX, 0, g.toNat, 0⟩ = false →
      ends (.nqTailWrite who g tail) (nqTail s who g.toNat tail.toNat))

/-! ### DMA, slices and splices (R370–R390, R404–R428) -/

/-- The commands of a DMA channel complete: a descriptor is read, a burst's words move at its boundary, a retry begins the burst again,
doorbells are taken, and the completions and timeouts of its host reads. -/
def Obligations.DmaCompletes : Prop :=
  ∀ (s : State) (who : Requester) (ch : BitVec 8) (h : BitVec 1) (hdr0 hdr1 : Word),
    let n := ch.toNat
    let port := h.toNat
    let ends (i : Instr) (t : State) : Prop := exec i s = .next t
    let s0 := txClear s
    let c := dmaOf s n
    ends (.dmaBurstBoundary ch) (dmaBoundary s0 n) ∧
    (c.st = 1 → c.retryAt = none → c.loaded = true → c.slot = true → (∀ r ∈ s.hostNet, r.ch ≠ n) → (∀ r ∈ s.hawsNet, r.thread ≠ 1024 + n) →
      c.bad = 0 → c.wrote = false → c.srcSp = 0 → devTo s0 n (dmaSrc c) = .dram →
      ∀ l x, devWords s0 n (dmaSrc c) (burstLen c) = (l, false, x) → dmaWork s0 n = dmaWrite x n (burstLen c) l) ∧
    (c.st = 1 → c.loaded = false → c.cmd = none → c.retryAt = none → (∀ r ∈ s.hawsNet, r.thread ≠ 1024 + n) → endStatus c = none → c.bad = 0 →
      devTo s0 n c.ptr = .dram → ∀ l x,
      (devWords s0 n c.ptr 32 = (l, false, x) → ends (.descriptorFetch ch) (descTake x n l)) ∧
      (devWords s0 n c.ptr 32 = (l, true, x) → ends (.descriptorFetch ch) (dmaEnd x n 3))) ∧
    ends (.descriptorFetch ch) (descFetch s0 n) ∧
    (∀ e, c.retryAt = some e → c.st = 1 → e + 100 ≤ s.epoch →
      (c.loaded = true → ends (.dmaRetry ch) (dmaBegin s0 n)) ∧
      (c.loaded = false → ends (.dmaRetry ch) (updDma s n (fun c => { c with retryAt := none })))) ∧
    (regDead s0 ⟨.DMA_CH_CTL, 0, n, 0⟩ = false → ends (.dmaGo who ch) (chCtl s0 who n 1) ∧ ends (.dmaResume who ch) (chCtl s0 who n 2) ∧
      ends (.dmaAbort who ch) (chCtl s0 who n 4)) ∧
    (∀ st ep data, ends (.hostCompletion h ch st ep false data hdr0 hdr1) (hostError s port 3 hdr0 hdr1)) ∧
    (∀ r, s.hostNet.find? (fun r => r.ch = n && r.port = port) = some r →
      let gone (x : State) : State := { x with hostNet := x.hostNet.erase r }
      (∀ st data ep, st ≠ 0 → ends (.hostCompletion h ch st ep true data hdr0 hdr1)
        (readPump (updDma (gone s) n (fun c => { c with bad := 2 })) port)) ∧
      (∀ data ep,
        let x := if ep then hostError s port 2 hdr0 hdr1 else s
        let words := (((dmaOf x n).got).getD []) ++ data.map (fun v => if ep then poison v else gen v)
        (words.length * 8 < r.len → ends (.hostCompletion h ch 0 ep true data hdr0 hdr1)
          (readPump (updDma x n (fun c => { c with got := some words })) port)) ∧
        (r.len ≤ words.length * 8 → ends (.hostCompletion h ch 0 ep true data hdr0 hdr1)
          (readPump (updDma (gone x) n (fun c => { c with got := if c.hold = 0 then some (words.take (r.len / 8)) else none })) port))) ∧
      (∀ q, (cfgDw s port 30).testBit 4 = false → ends (.completionTimeout h false (ch.setWidth 12) q hdr0 hdr1)
        (readPump (updDma (hostError (gone s) port 4 hdr0 hdr1) n (fun c => { c with bad := 2 })) port))) ∧
    (∀ (u : BitVec 12) (q : BitVec 2), (cfgDw s port 30).testBit 4 = false → sliceBound s u.toNat = true → slicePort s u.toNat = port →
      qpOn s u.toNat q.toNat = true → ends (.completionTimeout h true u q hdr0 hdr1)
        (updQp (hostError s port 4 hdr0 hdr1) u.toNat q.toNat (fun x => { x with stopped := true })))

/-- The commands of a slice complete for a requester that may give them: its binding, grant and window are written, its queue pairs fetch
and run their commands in turn, and it quiesces and resets. -/
def Obligations.SliceCommandsComplete : Prop :=
  ∀ (s : State) (who : Requester) (n : BitVec 12) (q : BitVec 2) (val : Word),
    let u := n.toNat
    let k := q.toNat
    let ends (i : Instr) (t : State) : Prop := exec i s = .next t
    let s0 := txClear s
    let h := slicePort s0 u
    (regDead s0 ⟨.SLCE_BIND, 0, u, 0⟩ = false → ends (.sliceBind who n val) (bindWrite s0 who u (setBit val 63 true)) ∧
      ends (.sliceUnbind who n) (bindWrite s0 who u 0)) ∧
    (regDead s0 ⟨.SLCE_PT, 0, u, 0⟩ = false → ends (.sliceGrant who n val) (grantWrite s0 who u val)) ∧
    (regDead s0 ⟨.SLCE_WIN, 0, u, 0⟩ = false → ends (.windowWrite who n val) (winWrite s0 who u val)) ∧
    (regDead s0 ⟨.SLCE_POST, 0, u, 0⟩ = false → ends (.slicePost who n val) (postWrite s0 who u val)) ∧
    (regDead s0 ⟨.SLCE_CTL, 0, u, 0⟩ = false → ends (.sliceQuiesce who n) (sliceCtl s0 who u 1) ∧
      ends (.sliceReset who n) (sliceCtl s0 who u (setBit (getR s0 .SLCE_CTL 0 u) 1 true))) ∧
    (sliceQuiescing s u = true → bit (getR s .SLCE_STS 0 u) 0 = false → sliceInflight s u = 0 → ends (.sliceQuiesced n) (sliceQuiesced s0 u)) ∧
    (sliceBound s u = true → regDead s ⟨.SLCE_QP_CTL, u, 0, 0⟩ = false →
      (∀ tail, ends (.sqTailWrite n q tail) (sqTail s u k tail.toNat)) ∧ (∀ head, ends (.cqHeadWrite n q head) (cqHead s0 u k head.toNat)) ∧
      ends (.qpResume n q) (qpCtl s0 u k 1) ∧ ends (.qpAbort n q) (qpCtl s0 u k 2)) ∧
    (qpFetchable s0 u k = true → fetchTurn s0 u = true → ∀ (st : BitVec 3) ep (d : List (BitVec 64)) hdr0 hdr1, d.length = 4 →
      let a := fieldN (getR s0 .SLCE_SQ_BASE u k) 63 6 * 64 + (qpOf s0 u k).head % sqSize s0 u k * 32
      let r := tx s0 (.read h (some (slicePasid s0 u)) a 32)
      let x : State := { r with dmaTurns := { r.dmaTurns with fetch := SMap.set (fun _ => 0) r.dmaTurns.fetch (fieldN (getR r .SLCE_BIND 0 u) 34 32) (u + 1) } }
      let y := if ep then hostError x h 2 hdr0 hdr1 else x
      let w (i : Nat) : Word := d.getD i 0
      let c : SqCmd := { op := fieldN (w 0) 7 0, resv := fieldN (w 0) 15 8, cid := fieldN (w 0) 31 16, len := fieldN (w 0) 63 32, w1 := w 1, w2 := w 2, w3 := w 3, bad := ep }
      (st ≠ 0 → ends (.sqFetch n q st ep d hdr0 hdr1) (updQp x u k (fun p => { p with stopped := true }))) ∧
      (st = 0 → ends (.sqFetch n q st ep d hdr0 hdr1)
        (qpBegin (updQp y u k (fun p => { p with head := (p.head + 1) % 65536, queue := p.queue ++ [c] })) u k))) ∧
    (∀ c ch, freeChan s0 u = some ch →
      let begun (inward : Bool) : State :=
        dmaBegin (updDma (updQp s0 u k (fun p => { p with begun := p.begun.erase c })) ch (fun x => { x with st := 1, status := 0, desc := 0, loaded := true, src := if inward then c.w1.toNat else c.w2.toNat, dst := if inward then c.w2.toNat else c.w1.toNat, len := c.len, residue := c.len, srcSp := if inward then 1 else 0, dstSp := if inward then 0 else 1, slice := u, int := false, last := true, retries := 3, cmd := some (u, k, c), finished := false, pend := false })) ch
      ((qpOf s0 u k).begun.find? (fun c => c.op == 1) = some c → ends (.copyIn n q) (begun true)) ∧
      ((qpOf s0 u k).begun.find? (fun c => c.op == 2) = some c → ends (.copyOut n q) (begun false))) ∧
    (∀ c s1 s2 l, pointCmd s0 u k 3 = some (c, s1) → upstreamOk s0 h = true → readPoints s1 (fieldN c.w2 23 0) c.len = (l, s2) →
      (hostUp s2 (slicePort s2 u) = false → ends (.psRead n q) (qpComplete s2 u k c 2 0)) ∧
      (∀ s3 ok, hostUp s2 (slicePort s2 u) = true →
        postBursts s2 (slicePort s2 u) (some (slicePasid s2 u)) c.w1.toNat l = (ok, s3) →
        ends (.psRead n q) (qpComplete s3 u k c (if ok then 0 else 3) 0))) ∧
    (∀ c s1 gf, pointCmd s0 u k 4 = some (c, s1) →
      let p := fieldN c.w2 23 0
      let w := ptWrite (ptCheck (engCount (ptSettle (ptReach s1 81 p) p) (ptHome p) 0) p) p (gen c.w3) { writer := 0x1000 + u } gf
      ends (.psWrite n q gf) (qpComplete w.2 u k c 0 (w64 w.1))) ∧
    (∀ c s1 gf, pointCmd s0 u k 5 = some (c, s1) →
      let p := fieldN c.w2 23 0
      let s2 := ptCheck (engCount (ptSettle (ptReach s1 81 p) p) (ptHome p) 0) p
      let f := lineWord (ptGet s2 p) 0
      (badWord f = true → ends (.psCw n q gf) (qpComplete s2 u k c 3 0)) ∧
      (badWord f = false → f.val ≠ c.w3 → ends (.psCw n q gf) (qpComplete s2 u k c 0 f.val)) ∧
      (badWord f = false → f.val = c.w3 →
        ends (.psCw n q gf) (qpComplete (ptWrite s2 p (gen c.w1) { writer := 0x1000 + u } gf).2 u k c 0 f.val)))

/-- A service call of a bank that is not BUSY is taken, and one of a bank that is BUSY, or that finds Bowline's queue of 64 full,
completes at once with BUSY; the steps of a splice release and the ends of service calls complete where they are due. -/
def Obligations.ServiceCallsAndSplicesComplete : Prop :=
  (∀ (s : State) (who : Requester), regDead s ⟨.RIG_SVC_CMD, 0, 0, 0⟩ = false →
    let sts := getB s .RIG_SVC_STS who
    let claim (i : Instr) (t : State) : Prop :=
      (hasBank who = false → exec i s = .next (refuseReg s ⟨.RIG_SVC_CMD, 0, 0, 0⟩ who)) ∧
      (hasBank who = true →
        (bit sts 1 = false → s.svc.pend.length + s.svc.fw.length < 64 → exec i s = .next t) ∧
        (bit sts 1 = true ∨ 64 ≤ s.svc.pend.length + s.svc.fw.length →
          exec i s = .next (setB s .RIG_SVC_STS who (setBit (setField sts 15 8 2) 0 true))))
    claim (.spliceAcquire who) (acquireOp who s) ∧ claim (.spliceRelease who) (releaseOp who s) ∧ claim (.spliceDemand who) (demandOp who s) ∧
    claim (.commission who) (commissionOp who s) ∧ claim (.revokeOwner who) (revokeOwnerOp who s) ∧ claim (.advanceRollback who) (advanceOp who s) ∧
    claim (.debugNonce who) (nonceOp who s) ∧ claim (.debugUnlock who) (unlockOp who s) ∧
    (∀ ok b c, claim (.fwInstall who ok b c) (fwOp who ok b.toNat c.toNat s)) ∧ (∀ resp, claim (.spdmRelay who resp) (relayOp who resp s))) ∧
  (∀ (s : State) (b : BitVec 5) (t : BitVec 10),
    let n := b.toNat
    let ends (i : Instr) (x : State) : Prop := exec i s = .next x
    let stopped := if n = 28 then vigAbort s else s
    (n < 31 →
      (blkState s n = 1 → bit (getR s .RIG_SPLICE 0 n) 3 = true → (spliceOf s n).demandAt + fieldN (getR s .RIG_SPLICE 0 n) 63 48 * 100000 ≤ s.epoch →
        ends (.spliceRevoke b) (revokeBlock s n)) ∧
      (blkState s n = 2 → blkDrained stopped n = true → ends (.spliceDrainComplete b) (resetBegin stopped n)) ∧
      (blkState s n = 2 → (spliceOf s n).relAt + 1000000 ≤ s.epoch → ends (.spliceDrainTimeout b) (resetBegin (alm stopped 0x8013 4 16 n) n)) ∧
      (blkState s n = 3 → ends (.spliceResetComplete b) (releaseEnd s n))) ∧
    (∀ p, s.svc.pend.find? (fun p => !p.pressed && decide (p.since + 6000000000 ≤ s.epoch)) = some p → ends .presenceTimeout (pendEnd s p 8 none)) ∧
    (∀ p, s.svc.pend.find? (fun p => p.pressed) = some p →
      (p.revoke = true → ∀ ok,
        ends (.slotProgrammingComplete ok) (pendEnd (setOwner s p.slot { ownerSlot s p.slot with st := 2 }) p (if ok then 0 else 0x0B) none)) ∧
      (p.revoke = false →
        (emptySlot s = none → ∀ ok, ends (.slotProgrammingComplete ok) (pendEnd s p 7 none)) ∧
        (∀ k, emptySlot s = some k →
          ends (.slotProgrammingComplete true)
            (pendEnd (setOwner s k { st := 1, digest := sha384 (beBytes 48 p.keyX ++ beBytes 48 p.keyY), keyX := p.keyX, keyY := p.keyY }) p 0 (some k)) ∧
          ends (.slotProgrammingComplete false) (pendEnd (setOwner s k { st := 2 }) p 0x0B none)))) ∧
    (∀ who l r, s.svc.fw = (who, l) :: r → ends .fwInstallComplete
      (svcEnd { s with flash := { s.flash with updating := !r.isEmpty, bank := 1 - s.flash.bank, fw := SMap.set Config.fwFactory s.flash.fw (1 - s.flash.bank) l }, svc := { s.svc with fw := r } } who 0)) ∧
    (∀ c, (thr s t.toNat).callStart = some c → fieldN (getR s .BOWL_CALL_LIMIT 0) 19 0 ≠ 0 → c + fieldN (getR s .BOWL_CALL_LIMIT 0) 19 0 * 100 ≤ s.epoch →
      ends (.secureCallLimit t)
        (trapNormal (endSecureCall (alm s 0x8011 4 1 t.toNat (thr s t.toNat).wEntry.toNat) t.toNat) t.toNat 0x07 false 0 .M)))

/-! ### Hawser (R429–R440) -/

/-- The events and packets of a Hawser port complete where they are due. -/
def Obligations.HawserCompletes : Prop :=
  ∀ (s : State) (who : Requester) (k : BitVec 2) (req : BitVec 11) (addr : BitVec 52) (wins : List PeerWin),
    let n := k.toNat
    let ends (i : Instr) (t : State) : Prop := exec i s = .next t
    let s0 := updHaws s n (fun h => { h with cable := true })
    let sx := updHaws s n (fun h => { h with cable := false })
    let retrained (x y : State) : Prop :=
      (hawsState x n = 0 → hawsMayTrain x n = true → y = updHaws (hawsSet x n 1) n (fun h => { h with trainAt := x.epoch })) ∧
      ((hawsState x n ≠ 0 ∨ hawsMayTrain x n = false) → y = x)
    (∃ y, ends (.hcprsChange k false) y ∧ retrained s0 y) ∧
    (hawsState sx n ≠ 0 → ends (.hcprsChange k true) (hawsDown sx n)) ∧ (hawsState sx n = 0 → ends (.hcprsChange k true) sx) ∧
    (hawsMayTrain s n = true → hawsState s n ≤ 1 → ends (.hawserTrained k) (hawsSet s n 2)) ∧
    (hawsState s n = 1 → (hawsOf s n).trainAt + 50000000 ≤ s.epoch → ∃ y, ends (.hawserTrainingTimeout k) y ∧ retrained (hawsSet s n 0) y) ∧
    (hawsState s n = 2 ∨ hawsState s n = 3 → ∃ y, ends (.hawserLinkLoss k) y ∧ retrained (hawsDown s n) y) ∧
    (hawsState s n = 2 → ∀ peerId sigOk role flags,
      let own := hawsKnot s n
      let why := helloReason s n peerId sigOk role.toNat flags
      let x := updR (setR s .HAWS_PEER_ID peerId n) .HAWS_STS (fun w => setField (setField (setField w 16 14 why) 13 12 role.toNat) 11 10 own.role) n
      (why ≠ 0 → ends (.hawserHello k peerId sigOk role flags wins) (alm (hawsSet x n 4) 0xB011 3 13 n why)) ∧
      (why = 0 →
        let y := foldS (fun z e => peerWinSet z n e) (foldS (fun z w => setR z .HAWS_PEER_WIN 0 n w) x (List.range 16)) wins
        let mirrors := own.mirror && own.role ≠ 3 && flags.getLsbD 2
        ends (.hawserHello k peerId sigOk role flags wins) (hawsSet (updR y .HAWS_STS (fun w =>
          setBit (setBit (setBit w 19 mirrors) 18 own.acceptTallies) 17 (flags.getLsbD 0)) n) n 3))) ∧
    (hawsState s n = 3 →
      (∀ again, let f := if again then (hawsOf s n).replays + 1 else 0;
        (f < 7 → ends (.hawserReplay k again) (updHaws (updR s .HAWS_CNT (fun w => satInc w 31 0) n 6) n (fun h => { h with replays := f }))) ∧
        (7 ≤ f → ∃ y, ends (.hawserReplay k again) y ∧ retrained (alm (hawsDown s n) 0xB010 4 13 n) y)) ∧
      (∀ (win : BitVec 4) (g : BitVec 8) wr m d tl ps loc peer, SMap.get (fun _ => (0, 0)) (hawsOf s n).active win.toNat = (loc, peer) →
        let act := getR s .HAWS_WIN_ACT n win.toNat
        let base := fieldN loc 51 21 * 0x200000
        let inside : Prop := bit act 55 = true ∧ base ≤ addr.toNat ∧ addr.toNat < base + fieldN loc 15 0 * 0x200000
        let may := if wr then bit peer 62 else bit peer 61
        let o := blkOwner s (24 + n)
        let part := if o.1 = 1 then o.2 else 0
        let r := ownerReach s o.1 o.2 addr.toNat
        let ans (t : State) : Prop := ends (.hawserInboundRequest k win g addr wr m d tl ps) t
        (fieldN act 63 56 ≠ g.toNat → ans (inboundRefuse s n 2)) ∧
        (fieldN act 63 56 = g.toNat → ¬ inside → ans (inboundRefuse s n 3)) ∧
        (fieldN act 63 56 = g.toNat → inside → may = false → ans (inboundRefuse s n 4)) ∧
        (fieldN act 63 56 = g.toNat → inside → may = true →
          (r = .unmapped → ans (inboundRefuse (recordUnmapped s 81 1 part 7 addr.toNat (o.1 = 3)) n 5)) ∧
          (r = .range → ans (inboundRefuse s n 5)) ∧
          (r = .secure → ans (inboundRefuse (unitWorldRefusal s 13 n 81 1 part addr.toNat) n 5)) ∧
          (r = .ok → wr = true → ans (inboundAnswer (agentWrite s (addr.toNat / 64) (linkReceived s n d tl ps) m 67) n 1 Line.zero)) ∧
          (r = .ok → wr = false → ∀ l b x, agentLine s (addr.toNat / 64) 67 = (l, b, x) → ans (inboundAnswer x n 0 (linkWords x n l))))) ∧
      (let s2 := updHaws (foldS (fun x e => peerWinSet x n e) s wins) n (fun h => { h with annAck := true });
       ends (.announce k wins) (annSettle (foldS hawsRetry s2 (s2.hawsNet.filter (fun r => r.port = n && r.stale))) n)) ∧
      ((hawsKnot s n).epochSource = true → (hawsOf s n).timeAt + 100000 ≤ s.epoch →
        ends (.hawserTimeRequest k) (updHaws s n (fun h => { h with timeOut := true, timeAt := s.epoch }))) ∧
      (∀ t1 t2 t3, ends (.peerTimeRequest k t1 t2 t3) (updHaws s n (fun h => { h with timeTx := some (t1, t2, t3) }))) ∧
      (∀ t1 t2 t3 t4 : Word, (hawsOf s n).timeOut = true →
        let a : Int := (t2 - t1).toInt
        let b : Int := (t4 - t3).toInt
        let e := (a - b) / 2 + (BitVec.ofNat 16 (fieldN (getR s .HAWS_TIME n) 15 0)).toInt
        let delay := (max 0 (min 65535 ((a + b) / 2))).toNat
        let x := updR (updHaws s n (fun h => { h with timeOut := false })) .HAWS_TIME (fun w => setField (setField w 63 48 delay) 47 32 (satErr e)) n
        let source : Prop := fieldN (getR x .CLK_EPOCH_STS 0) 9 8 = 2 ∧ fieldN (getR x .CLK_EPOCH_STS 0) 11 10 = n
        (¬ source → ends (.hawserTimeAnswer k t1 t2 t3 t4) x) ∧ (source → ends (.hawserTimeAnswer k t1 t2 t3 t4) (acceptMark x e 1000000))) ∧
      (bit (getR s .HAWS_STS n) 19 = true → ∀ p v tal ep w2 gf,
        (∀ x r, (hawsKnot s n).role = 1 → (hawsOf s n).mirrorQ = x :: r → ends (.mirroredWrite k p v tal ep w2 gf)
          (updR (updHaws s n (fun h => { h with mirrorQ := r, mirrorTx := some { x with val := (linkWords s n [x.val]).headD x.val } }))
            .HAWS_CNT (fun w => satInc w 31 0) n 3)) ∧
        ((hawsKnot s n).role = 2 →
          let w : TWord := if bit (getR s .HAWS_STS n) 18 then ⟨v, tal⟩ else if tal = poisonTally then poison v else gen v
          ends (.mirroredWrite k p v tal ep w2 gf) (ptMirror (updR s .HAWS_CNT (fun w => satInc w 31 0) n 4) p.toNat w ep w2 gf)))) ∧
    (∀ r, hawsFind s n req.toNat addr.toNat = some r → ∀ d tl ps,
      ends (.hawserResponse k req addr true d tl ps) (annSettle (hawsFail s r) n) ∧
      ends (.hawserResponse k req addr false d tl ps) (annSettle (hawsDone s r (linkReceived s n d tl ps)) n) ∧
      ends (.staleWindow k req addr) (annSettle (hawsRetry (updR s .HAWS_CNT (fun w => satInc w 31 0) n 0) r) n)) ∧
    (regDead s ⟨.HAWS_WIN_COMMIT, n, 0, 0⟩ = false → ∀ mask,
      (hawsWriter s who n = true → ends (.windowCommit who k mask) (windowCommit s n mask.toNat)) ∧
      (hawsWriter s who n = false → ends (.windowCommit who k mask) (refuseReg s ⟨.HAWS_WIN_COMMIT, n, 0, 0⟩ who))) ∧
    (∀ e, (hawsOf s n).annSent = some e → ends (.announceAck k) (commitEnd s n 0) ∧
      (e + 1000000 ≤ s.epoch → ∃ y, ends (.announceTimeout k) y ∧ retrained (hawsDown s n) y))

/-! ### Solstice, the management bus, Vigil and Almanac (R453–R493) -/

/-- The commands of Solstice and of the management bus complete. -/
def Obligations.ManagementCompletes : Prop :=
  ∀ (s : State) (who : Requester) (d : BitVec 9) (gen : BitVec 32) (addr : BitVec 7),
    let ends (i : Instr) (t : State) : Prop := exec i s = .next t
    (solRunning s = false → s.boot.rails = true → s.pow.trip = 0 →
      solStart s = { s with pow := { s.pow with solTodo := (List.range 420).filter (fun d => domState s d = 1), solHold := none, solSince := s.epoch } }) ∧
    (s.rig.dev.ageInterval ≠ 0 → s.rig.dev.ageInterval ≤ s.flash.days → ends .solsticePassStart (solStart s)) ∧
    (regDead s ⟨.SOL_CMD, 0, 0, 0⟩ = false →
      (isMgmt who = true ∨ isBowline who = true → ends (.solCmdStart who) (solStart s)) ∧
      (isMgmt who = false → isBowline who = false → ends (.solCmdStart who) (refuseReg s ⟨.SOL_CMD, 0, 0, 0⟩ who))) ∧
    (∀ r, d.toNat < 420 → solLeft s = d.toNat :: r → s.pow.solTodo ≠ [] → s.pow.solHold = none → s.pow.trip = 0 → domState s d.toNat = 1 →
      holdSpan s d.toNat = true → domTested s d.toNat = false →
      ends (.solsticeHold d) { s with pow := { s.pow with solTodo := d.toNat :: r, solHold := some d.toNat } }) ∧
    (∀ x need, s.pow.solHold = some x → ends (.solsticeMeasure need) (solCommit s x need.toNat (s.pow.solTodo.drop 1))) ∧
    (∀ r, d.toNat < 420 → solLeft s = d.toNat :: r → s.pow.solHold = none → s.pow.solSince + 8640000000000 ≤ s.epoch →
      ends (.solsticeSkip d) (solNext (alm (updR s .SOL_DOM (fun w => setBit w 1 true) 0 d.toNat) 0xC018 2 14 d.toNat) r)) ∧
    (s.boot.step = 9 → s.boot.stopped = false → s.mgmt.snapAt + 10000000 ≤ s.epoch → ends .managementSnapshot (snapshotNow s)) ∧
    (s.mgmt.smbus = true →
      (∀ n r, s.mgmt.snaps = n :: r → ends (.getView gen) (takeSnapshot (mgmtReply s (viewBytes n)))) ∧
      (snapOf s gen.toNat = none → (∀ op div, d.toNat < 420 → ends (.powerRequest gen op d div) (mgmtReply s [3])) ∧
        ends (.solsticeStart gen) (mgmtReply s [3])) ∧
      (∀ n op div, d.toNat < 420 → snapOf s gen.toNat = some n → ends (.powerRequest gen op d div)
        (powRequest s (.mgmt 0) (some (SMap.get (fun _ => 0) n.chg d.toNat)) d.toNat op.toNat div.toNat true)) ∧
      (∀ n, snapOf s gen.toNat = some n → n.passes = s.flash.passes → n.solState = b2n (solRunning s) →
        ends (.solsticeStart gen) (takeSnapshot (mgmtReply (solStart s) [0]))) ∧
      (addr.toNat = 0x64 + s.boot.maddr →
        (∀ i c l, ends (.mctpMessage (BitVec.ofNat 8 (2 * addr.toNat) :: 0 :: i :: c :: l)) (mctpControl s i c l)) ∧
        (∀ i ty c l, ends (.mctpMessage (BitVec.ofNat 8 (2 * addr.toNat) :: 1 :: i :: ty :: c :: l)) (pldmMessage s i ty c l))) ∧
      ends .smbusAlertResponse { s with mgmt := { s.mgmt with alertN := true } })

/-- Vigil's and Almanac's commands complete: a run starts where every check passes, ends with its signatures stored, or is aborted; a
record is accepted, mirrored or sought. -/
def Obligations.VigilAndAlmanacComplete : Prop :=
  ∀ (s : State) (who : Requester),
    let ends (i : Instr) (t : State) : Prop := exec i s = .next t
    (regDead s ⟨.VIG_CMD, 0, 0, 0⟩ = false → vigWriter s who = true → blkState s 28 ≠ 2 →
      ends (.vigilAbort who) (vigAbort s) ∧
      (∀ mode : BitVec 2, mode ≠ 0 → s.vigil = none → vigTargets s ≠ [] → (∀ t ∈ vigTargets s, vigQuiesced s t = true) →
        (∀ t ∈ vigTargets s, ∀ d ∈ vigDoms t, domState s d = 1) →
        let x : State := updR { s with vigil := some (s.epoch, mode.toNat, vigTargets s) } .VIG_STS (fun w => setField (setField w 42 40 0) 2 0 1) 0
        ends (.vigilStart who mode) (foldS (fun z q => foldS (fun z c => updR z .CORE_MODE (fun w => setBit w 1 true) c) z (coresOf q)) x
          ((vigTargets s).filter (fun t => decide (t < 64)))))) ∧
    (∀ since mode ts (sigs : List (BitVec 64)), s.vigil = some (since, mode, ts) → since + vigLongest ts mode * 100000 ≤ s.epoch →
      sigs.length = ts.length →
      let res := ts.zip sigs
      let bad := res.filter (fun e => e.2 != Config.vigilExp e.1 mode)
      let stored := foldS (fun z (e : Nat × Word) => vigStore z e.1 mode e.2) s res
      let told := foldS (fun z (e : Nat × Word) => alm z 0xD014 4 19 e.1 mode (lo32 e.2.toNat) (hi32 e.2.toNat)) stored bad
      let shown := updR told .VIG_STS (fun w =>
        setField (setBit (setField w 23 8 ((told.epoch - since) / 100000)) 3 (bit w 3 || !bad.isEmpty)) 2 0 2) 0
      let fenced := foldS (fun z (e : Nat × Word) => vigFence z e.1) (vigAfter shown ts) bad
      ((∀ e ∈ bad, e.1 < 64 ∨ 144 ≤ e.1) → ends (.vigilRunComplete sigs) fenced) ∧
      ((∃ e ∈ bad, 64 ≤ e.1 ∧ e.1 < 144) → ends (.vigilRunComplete sigs) (vigStop fenced))) ∧
    (∀ (code : BitVec 16) (sev : BitVec 3) (cls : BitVec 8) (src : BitVec 16) (p0 p1 p2 : BitVec 32), s.boot.rails = true →
      sev.toNat ≤ 6 → (sev = 0 → s.rig.dev.trace = true) → ends (.recordAccept code sev cls src p0 p1 p2)
        (recordAcceptOp s code.toNat sev.toNat cls.toNat src.toNat p0.toNat p1.toNat p2.toNat (code = 0xC013 || code = 0xC014 || code = 0x8015))) ∧
    (∀ k r, s.boot.rails = true → s.alm.mStop = false → s.alm.mWait = false → mirrorNext s = some (k, r) →
      ends (.almanacMirrorRecord true true) (mirrorTaken (mirrorErase s) k r) ∧ ends (.almanacMirrorRecord true false) (mirrorRetire (mirrorErase s)) ∧
      ∀ ok, ends (.almanacMirrorRecord false ok) (slotLost s k)) ∧
    (regDead s ⟨.ALM_SEEK, 0, 0, 0⟩ = false → ∀ seq, ends (.almSeekWrite who seq) (almSeek s who seq.toNat))

/-! ### Rules of the whole module -/

/-- Register g0 reads as zero with tally 0, and a write of it is discarded; a write of any other general register is read back by the
same thread and changes no other register of any thread. -/
def Obligations.GeneralRegisters : Prop :=
  ∀ (s : State) (t u : Nat) (r q : BitVec 6) (v : TWord),
    rg s t 0 = ⟨0, 0⟩ ∧ wg s t 0 v = s ∧ (r ≠ 0 → rg (wg s t r v) t r = v) ∧ ((u ≠ t ∨ q ≠ r) → rg (wg s t r v) u q = rg s u q)

/-- Taking an exception in the normal world with TRAP = 0 and a handler: the bank of its target saves the pc, the cause, the trap value,
the delay slot, the level and IE; TRAP sets, IE clears, and the thread goes on at the handler at the target's level with no
reservation. Its general registers, and all of memory, stand. A return restores them. -/
def Obligations.TrapEntryAndReturn : Prop :=
  ∀ (s : State) (t code : Nat) (tval : Word),
    let x := thr s t
    let b := trapTarget x code false .M
    let k := bankOf x b
    code < 64 → x.world = .normal → bit k.status 7 = false → k.tvec &&& maskBits 63 8 ≠ 0 →
    let s' := trapEnter s t code false tval
    let y := thr s' t
    let k' := bankOf y b
    (y.pc = k.tvec &&& maskBits 63 8 ∧ y.level = b.level ∧ y.slot = .none ∧ y.resv = none ∧ y.run = .run ∧ y.g = x.g ∧ y.v = x.v ∧
      k'.epc = x.pc ∧ k'.cause = BitVec.ofNat 64 code ∧ k'.tval = tval ∧ bit k'.status 0 = false ∧ bit k'.status 1 = bit k.status 0 ∧
      fieldN k'.status 3 2 = levelNo x.level ∧ bit k'.status 7 = true ∧
      (∀ g, x.slot = .taken g → bit k'.status 4 = true ∧ k'.etgt = g) ∧ ((∀ g, x.slot ≠ .taken g) → bit k'.status 4 = false) ∧
      s'.mem = s.mem ∧ s'.memTally = s.memTally) ∧
    (let z := thr (trapReturn s' t b) t
     z.pc = x.pc ∧ z.level = x.level ∧ bit (bankOf z b).status 0 = bit k.status 0 ∧ bit (bankOf z b).status 7 = false)

/-- A write of a register gives each of its fields what its access code says, and leaves every bit outside its fields. -/
def Obligations.RegisterFieldsWritten : Prop :=
  ∀ (r : Reg) (old v : Word),
    (∀ f ∈ r.fields, fieldN (regWritten r old v) f.hi f.lo = fieldAfter f.acc old v f.hi f.lo) ∧
    (∀ i < 64, (∀ f ∈ r.fields, i < f.lo ∨ f.hi < i) → bit (regWritten r old v) i = bit old i)

/-- Every register of every unit answers at its own address, and at no other: the address of register space that its block, unit and
indexes give decodes to exactly that register. -/
def Obligations.RegisterAddressesDecode : Prop :=
  ∀ b : Blk, b ≠ .page → ∀ p ∈ regPlaces b, ∀ u < blkUnits b, ∀ i < p.c1, ∀ j < p.c2,
    regAddr ⟨p.reg, u, i, j⟩ = blkBase b u + p.off + i * p.s1 + j * p.s2 ∧
    regAt (blkBase b u + p.off + i * p.s1 + j * p.s2) = some ⟨p.reg, u, i, j⟩

/-- An access to register space that finds no register, or whose block does not answer, reads as zero and writes nothing. -/
def Obligations.DeadRegistersReadZero : Prop :=
  ∀ (s : State) (who : Requester) (b : Blk) (u off addr : Nat) (v mask : Word), blkOf (addr / 8 * 8) = some (b, u, off) →
    (blkDead s b u off = true ∨ (regInBlk b u off = none ∧ ¬ (b = .rig ∧ 0x1000000 ≤ off ∧ off < 0x5000000) ∧ (b = .alm → almWindow s who off = none))) →
    readReg s who addr mask = (0, s) ∧ writeReg s who addr v mask = s

/-- The word code corrects every single error and detects every double error: a syndrome equal to one column flips that bit, one of a
check bit leaves the word, and the sum of two distinct columns is uncorrectable. -/
def Obligations.WordCodeCorrects : Prop :=
  ∀ w : TWord,
    wordDecode w 0 = .sound ∧
    (∀ i < 64, wordDecode w (BitVec.ofNat 8 (wordColumns.getD i 0)) = .corrected ⟨w.val ^^^ (1#64 <<< i), w.tal⟩) ∧
    (∀ i < 8, wordDecode w (BitVec.ofNat 8 (wordColumns.getD (64 + i) 0)) = .corrected ⟨w.val, w.tal ^^^ (1#8 <<< i)⟩) ∧
    (∀ i < 8, wordDecode w (1#8 <<< i) = .corrected w) ∧
    (let col (i : Nat) : Byte := if i < 72 then BitVec.ofNat 8 (wordColumns.getD i 0) else 1#8 <<< (i - 72)
     ∀ i < 80, ∀ j < 80, i ≠ j → wordDecode w (col i ^^^ col j) = .uncorrectable)

/-- A line written to DRAM outside the Point Store region reads back word for word with valid codes, and every byte outside the line's
chunk stands; where the chunk was initialised, every byte outside the line stands. -/
def Obligations.LineWriteReadsBack : Prop :=
  ∀ (s : State) (line : Nat) (d : Line), (∀ l, l / 4 = line / 4 → ptOfLine s l = none) →
    let t := putLine s line d
    (∀ i < 8, memWord t (8 * line + i) = lineWord d i ∧ memSyndrome t (8 * line + i) = 0) ∧
    (∀ a, a / 256 ≠ line / 4 → memByte t a = memByte s a) ∧
    (isUnscrubbed s (line / 4) = false → ∀ a, a / 64 ≠ line → memByte t a = memByte s a)

/-- Every record takes the SEQ that counts up by one and is never 0xFFFF_FFFF; a record of severity fatal drives FAULT_N low whether it
is stored or dropped, and a record of any other severity leaves FAULT_N. -/
def Obligations.AlmanacRecords : Prop :=
  ∀ (s : State) (code sev cls src p0 p1 p2 : Nat) (trip : Bool), s.alm.nextSeq < 0xFFFFFFFF →
    let t := recordAcceptOp s code sev cls src p0 p1 p2 trip
    t.alm.nextSeq < 0xFFFFFFFF ∧ t.alm.nextSeq = (s.alm.nextSeq + 1) % 0xFFFFFFFF ∧
    (sev = 6 → t.faultN = false) ∧ (sev ≠ 6 → t.faultN = s.faultN) ∧
    (∀ k, firstFree s.alm.ring 0 65537 = some k → ∃ r, SMap.get (fun _ => none) t.alm.ring k = some r ∧ r.seq = s.alm.nextSeq ∧
      r.code = code ∧ r.sev = sev ∧ r.epoch = BitVec.ofNat 64 s.epoch)

/-- The output of a stopper's step lies within its MIN and MAX, in either format, and carries a sound tally, whatever the point's word. -/
def Obligations.StopperWithinLimits : Prop :=
  ∀ (s : State) (o : Nat) (word : TWord) (seq : Nat),
    let r := stopStep s o word seq false
    let x := stopOf r.2 o
    gLt x.float x.max x.min = false →
    gLt x.float r.1.val x.min = false ∧ gLt x.float x.max r.1.val = false ∧ isSound r.1 = true ∧ r.1.val = x.out

/-- A host's write or read of secure memory is refused: no byte of DRAM, no cache, no directory and no point changes, and a read is
answered with Completer Abort and no data. -/
def Obligations.HostKeptFromSecureMemory : Prop :=
  ∀ (s : State) (h : BitVec 1) (a : Word) (bytes : List (BitVec 8)) (len : BitVec 13) (ep : Bool) (hdr0 hdr1 : Word),
    let w := linkWake (txClear s) h.toNat
    hostUp (txClear s) h.toNat = true → hostMemOk w h.toNat = true → bytes ≠ [] → len ≠ 0 →
    let kept (t : State) : Prop := t.mem = s.mem ∧ t.memTally = s.memTally ∧ t.memSyn = s.memSyn ∧ t.cores = s.cores ∧ t.quads = s.quads ∧
      t.slices = s.slices ∧ t.ps = s.ps
    (addrCls s a.toNat = .dram → a.toNat < secWm s →
      (∃ t, exec (.hostMemoryWrite h a bytes ep true 0 hdr0 hdr1) s = .next t ∧ kept t) ∧
      (∃ t, exec (.hostMemoryRead h a len true hdr0 hdr1) s = .next t ∧ kept t ∧ HostTlp.cpl h.toNat 4 false [] ∈ t.hostTx))

/-- Every command whose operands name units of the module answers a next state: nothing that can be commanded is refused or faults. -/
def Obligations.WellFormedCommandsAnswer : Prop :=
  ∀ (s : State) (c : Instr), WellFormed c = true →
    (∀ sigs, c = .vigilRunComplete sigs → ∀ since mode ts, s.vigil = some (since, mode, ts) → sigs.length = ts.length) →
    ∃ t, exec c s = .next t

/-- Reset leaves the module without power: no rail is on, every domain is off, nothing is rigged, no command waits, memory lists
nothing, FAULT_N and ALERT_N are high; the values that the spec gives no rule for are the model's (log 3). -/
def Obligations.ResetState : Prop :=
  let s := State.reset
  s.pending = [] ∧ s.boot.rails = false ∧ s.boot.step = 0 ∧ s.mem = [] ∧ s.memTally = [] ∧ s.memSyn = [] ∧ CanonicalMemory s ∧
  s.faultN = true ∧ s.mgmt.alertN = true ∧ (∀ d < 420, domState s d = 0) ∧ (∀ p, knots? s p = none) ∧ (∀ t r, rg s t r = ⟨0, 0⟩) ∧ s.epoch = 0

/-- Every step keeps the canonical form of the stored bytes, tallies and codes. -/
def Obligations.StepKeepsMemoryCanonical : Prop :=
  ∀ s s' : State, CanonicalMemory s → step s = .next s' → CanonicalMemory s'

end
end

