-- ==== Sys2Proof/Laws/SMap.lean ====
section
/-! SUPPORT. Laws of sparse tables: a read after a write, and the canonical form. -/

namespace Sys2Proof.Machine

/-- A key that was dropped reads as an unlisted one. -/
theorem SMap.get_drop_same {α : Type} (d : Nat → α) (m : SMap α) (k : Nat) : SMap.get d (SMap.drop m k) k = d k := by
  induction m with
  | nil => rfl
  | cons e r ih =>
    obtain ⟨j, w⟩ := e
    by_cases h : j = k <;> simp [SMap.drop, SMap.get, h, ih]

/-- Dropping a key leaves every other one. -/
theorem SMap.get_drop_other {α : Type} (d : Nat → α) (m : SMap α) (k i : Nat) (h : i ≠ k) :
    SMap.get d (SMap.drop m k) i = SMap.get d m i := by
  induction m with
  | nil => rfl
  | cons e r ih =>
    obtain ⟨j, w⟩ := e
    by_cases hj : j = k
    · have : ¬ j = i := by omega
      simp [SMap.drop, SMap.get, hj, ih, Ne.symm h]
    · simp [SMap.drop, SMap.get, hj, ih]

/-- The entry put is read where the table did not list its key. -/
theorem SMap.get_put_same {α : Type} (d : Nat → α) (m : SMap α) (k : Nat) (v : α) (h : k ∉ SMap.keys m) :
    SMap.get d (SMap.put m k v) k = v := by
  induction m with
  | nil => simp [SMap.put, SMap.get]
  | cons e r ih =>
    obtain ⟨j, w⟩ := e
    simp only [SMap.keys, List.map_cons, List.mem_cons, not_or] at h
    have hj : ¬ j = k := fun e => h.1 e.symm
    by_cases hk : k < j
    · simp [SMap.put, SMap.get, hk]
    · simp only [SMap.put, SMap.get, if_neg hk, if_neg hj]
      exact ih h.2

/-- Putting an entry leaves every other key. -/
theorem SMap.get_put_other {α : Type} (d : Nat → α) (m : SMap α) (k i : Nat) (v : α) (h : i ≠ k) :
    SMap.get d (SMap.put m k v) i = SMap.get d m i := by
  induction m with
  | nil => simp [SMap.put, SMap.get, Ne.symm h]
  | cons e r ih =>
    obtain ⟨j, w⟩ := e
    by_cases hk : k < j
    · simp [SMap.put, SMap.get, hk, Ne.symm h]
    · simp [SMap.put, SMap.get, hk, ih]

/-- A dropped key is not listed. -/
theorem SMap.drop_not_mem {α : Type} (m : SMap α) (k : Nat) : k ∉ SMap.keys (SMap.drop m k) := by
  induction m with
  | nil => simp [SMap.drop, SMap.keys]
  | cons e r ih =>
    obtain ⟨j, w⟩ := e
    by_cases h : j = k
    · simpa [SMap.drop, h] using ih
    · simp only [SMap.drop, if_neg h, SMap.keys, List.map_cons, List.mem_cons, not_or]
      exact ⟨fun e => h e.symm, ih⟩

/-- A read of the key just written gives the value written. -/
@[simp] theorem SMap.get_set_same {α : Type} [DecidableEq α] (d : Nat → α) (m : SMap α) (k : Nat) (v : α) :
    SMap.get d (SMap.set d m k v) k = v := by
  unfold SMap.set
  split
  · rename_i h
    rw [SMap.get_drop_same, h]
  · exact SMap.get_put_same d _ k v (SMap.drop_not_mem m k)

/-- A write leaves every other key as it was. -/
@[simp] theorem SMap.get_set_other {α : Type} [DecidableEq α] (d : Nat → α) (m : SMap α) (k i : Nat) (v : α) (h : i ≠ k) :
    SMap.get d (SMap.set d m k v) i = SMap.get d m i := by
  unfold SMap.set
  split
  · exact SMap.get_drop_other d m k i h
  · rw [SMap.get_put_other d _ k i v h, SMap.get_drop_other d m k i h]

/-- Dropping a key keeps a lower bound. -/
theorem SMap.above_drop {α : Type} (b k : Nat) (m : SMap α) (h : SMap.above b m = true) : SMap.above b (SMap.drop m k) = true := by
  induction m with
  | nil => rfl
  | cons e r ih =>
    obtain ⟨j, w⟩ := e
    simp only [SMap.above, List.all_cons, Bool.and_eq_true, decide_eq_true_eq] at h ih
    by_cases hj : j = k
    · simpa [SMap.drop, hj, SMap.above] using ih h.2
    · simpa [SMap.drop, hj, SMap.above, h.1] using ih h.2

/-- Putting an entry above a bound keeps it. -/
theorem SMap.above_put {α : Type} (b k : Nat) (v : α) (m : SMap α) (hb : b < k) (h : SMap.above b m = true) :
    SMap.above b (SMap.put m k v) = true := by
  induction m with
  | nil => simp [SMap.put, SMap.above, hb]
  | cons e r ih =>
    obtain ⟨j, w⟩ := e
    simp only [SMap.above, List.all_cons, Bool.and_eq_true, decide_eq_true_eq] at h ih
    by_cases hk : k < j
    · simp [SMap.put, hk, SMap.above, hb, h.1]
      simpa using h.2
    · simpa [SMap.put, hk, SMap.above, h.1] using ih h.2

/-- A greater bound gives a smaller one. -/
theorem SMap.above_trans {α : Type} (a b : Nat) (m : SMap α) (h : a < b) (hb : SMap.above b m = true) : SMap.above a m = true := by
  simp only [SMap.above, List.all_eq_true, decide_eq_true_eq] at *
  intro e he
  have := hb e he
  omega

/-- Dropping a key keeps the canonical form. -/
theorem SMap.wf_drop {α : Type} [DecidableEq α] (d : Nat → α) (m : SMap α) (k : Nat) (h : SMap.wf d m = true) :
    SMap.wf d (SMap.drop m k) = true := by
  induction m with
  | nil => rfl
  | cons e r ih =>
    obtain ⟨j, w⟩ := e
    simp only [SMap.wf, Bool.and_eq_true, decide_eq_true_eq] at h
    by_cases hj : j = k
    · simpa [SMap.drop, hj] using ih h.2
    · simp only [SMap.drop, if_neg hj, SMap.wf, Bool.and_eq_true, decide_eq_true_eq]
      exact ⟨⟨h.1.1, SMap.above_drop j k r h.1.2⟩, ih h.2⟩

/-- Putting a value other than the unlisted reading at an unlisted key keeps the canonical form. -/
theorem SMap.wf_put {α : Type} [DecidableEq α] (d : Nat → α) (m : SMap α) (k : Nat) (v : α) (hv : v ≠ d k) (hk : k ∉ SMap.keys m)
    (h : SMap.wf d m = true) : SMap.wf d (SMap.put m k v) = true := by
  induction m with
  | nil => simp [SMap.put, SMap.wf, hv, SMap.above]
  | cons e r ih =>
    obtain ⟨j, w⟩ := e
    simp only [SMap.keys, List.map_cons, List.mem_cons, not_or] at hk
    have h' := h
    simp only [SMap.wf, Bool.and_eq_true, decide_eq_true_eq] at h'
    by_cases hlt : k < j
    · have ha : SMap.above k ((j, w) :: r) = true := by
        have := SMap.above_trans k j r hlt h'.1.2
        simp only [SMap.above, List.all_cons, Bool.and_eq_true, decide_eq_true_eq] at this ⊢
        exact ⟨hlt, this⟩
      rw [SMap.put, if_pos hlt, SMap.wf, ha, h]
      simp [hv]
    · have : j < k := by omega
      rw [SMap.put, if_neg hlt, SMap.wf, SMap.above_put j k v r this h'.1.2, ih hk.2 h'.2]
      simp [h'.1.1]

/-- A write keeps the canonical form. -/
theorem SMap.wf_set {α : Type} [DecidableEq α] (d : Nat → α) (m : SMap α) (k : Nat) (v : α) (h : SMap.wf d m = true) :
    SMap.wf d (SMap.set d m k v) = true := by
  unfold SMap.set
  split
  · exact SMap.wf_drop d m k h
  · rename_i hv
    exact SMap.wf_put d _ k v hv (SMap.drop_not_mem m k) (SMap.wf_drop d m k h)

end Sys2Proof.Machine
end

