-- ==== Sys2Proof/Laws/State.lean ====
section
/-! SUPPORT. Each update of one unit or register leaves every other field of the state as it was: one lemma for each update and
field, so that no proof unfolds a record update. -/

namespace Sys2Proof.Machine

@[simp] theorem setThr_pending (s : State) (t : Nat) (x : Thread) : (setThr s t x).pending = s.pending := rfl
@[simp] theorem setThr_free (s : State) (t : Nat) (x : Thread) : (setThr s t x).free = s.free := rfl
@[simp] theorem setThr_regs (s : State) (t : Nat) (x : Thread) : (setThr s t x).regs = s.regs := rfl
@[simp] theorem setThr_banked (s : State) (t : Nat) (x : Thread) : (setThr s t x).banked = s.banked := rfl
@[simp] theorem setThr_mem (s : State) (t : Nat) (x : Thread) : (setThr s t x).mem = s.mem := rfl
@[simp] theorem setThr_memTally (s : State) (t : Nat) (x : Thread) : (setThr s t x).memTally = s.memTally := rfl
@[simp] theorem setThr_memSyn (s : State) (t : Nat) (x : Thread) : (setThr s t x).memSyn = s.memSyn := rfl
@[simp] theorem setThr_unscrubbed (s : State) (t : Nat) (x : Thread) : (setThr s t x).unscrubbed = s.unscrubbed := rfl
@[simp] theorem setThr_stale (s : State) (t : Nat) (x : Thread) : (setThr s t x).stale = s.stale := rfl
@[simp] theorem setThr_pageCode (s : State) (t : Nat) (x : Thread) : (setThr s t x).pageCode = s.pageCode := rfl
@[simp] theorem setThr_testRows (s : State) (t : Nat) (x : Thread) : (setThr s t x).testRows = s.testRows := rfl
@[simp] theorem setThr_rig (s : State) (t : Nat) (x : Thread) : (setThr s t x).rig = s.rig := rfl
@[simp] theorem setThr_partRun (s : State) (t : Nat) (x : Thread) : (setThr s t x).partRun = s.partRun := rfl
@[simp] theorem setThr_cores (s : State) (t : Nat) (x : Thread) : (setThr s t x).cores = s.cores := rfl
@[simp] theorem setThr_quads (s : State) (t : Nat) (x : Thread) : (setThr s t x).quads = s.quads := rfl
@[simp] theorem setThr_slices (s : State) (t : Nat) (x : Thread) : (setThr s t x).slices = s.slices := rfl
@[simp] theorem setThr_net (s : State) (t : Nat) (x : Thread) : (setThr s t x).net = s.net := rfl
@[simp] theorem setThr_regNet (s : State) (t : Nat) (x : Thread) : (setThr s t x).regNet = s.regNet := rfl
@[simp] theorem setThr_psNet (s : State) (t : Nat) (x : Thread) : (setThr s t x).psNet = s.psNet := rfl
@[simp] theorem setThr_tightNet (s : State) (t : Nat) (x : Thread) : (setThr s t x).tightNet = s.tightNet := rfl
@[simp] theorem setThr_pcNet (s : State) (t : Nat) (x : Thread) : (setThr s t x).pcNet = s.pcNet := rfl
@[simp] theorem setThr_credits (s : State) (t : Nat) (x : Thread) : (setThr s t x).credits = s.credits := rfl
@[simp] theorem setThr_meshSeq (s : State) (t : Nat) (x : Thread) : (setThr s t x).meshSeq = s.meshSeq := rfl
@[simp] theorem setThr_chans (s : State) (t : Nat) (x : Thread) : (setThr s t x).chans = s.chans := rfl
@[simp] theorem setThr_irq (s : State) (t : Nat) (x : Thread) : (setThr s t x).irq = s.irq := rfl
@[simp] theorem setThr_alm (s : State) (t : Nat) (x : Thread) : (setThr s t x).alm = s.alm := rfl
@[simp] theorem setThr_faultN (s : State) (t : Nat) (x : Thread) : (setThr s t x).faultN = s.faultN := rfl
@[simp] theorem setThr_epoch (s : State) (t : Nat) (x : Thread) : (setThr s t x).epoch = s.epoch := rfl
@[simp] theorem setThr_epochFrac (s : State) (t : Nat) (x : Thread) : (setThr s t x).epochFrac = s.epochFrac := rfl
@[simp] theorem setThr_mgmtIrq (s : State) (t : Nat) (x : Thread) : (setThr s t x).mgmtIrq = s.mgmtIrq := rfl
@[simp] theorem setThr_bowlIrq (s : State) (t : Nat) (x : Thread) : (setThr s t x).bowlIrq = s.bowlIrq := rfl
@[simp] theorem setThr_agentBuf (s : State) (t : Nat) (x : Thread) : (setThr s t x).agentBuf = s.agentBuf := rfl
@[simp] theorem setThr_haws (s : State) (t : Nat) (x : Thread) : (setThr s t x).haws = s.haws := rfl
@[simp] theorem setThr_hawsNet (s : State) (t : Nat) (x : Thread) : (setThr s t x).hawsNet = s.hawsNet := rfl
@[simp] theorem setThr_time (s : State) (t : Nat) (x : Thread) : (setThr s t x).time = s.time := rfl
@[simp] theorem setThr_stoppers (s : State) (t : Nat) (x : Thread) : (setThr s t x).stoppers = s.stoppers := rfl
@[simp] theorem setThr_ports (s : State) (t : Nat) (x : Thread) : (setThr s t x).ports = s.ports := rfl
@[simp] theorem setThr_ps (s : State) (t : Nat) (x : Thread) : (setThr s t x).ps = s.ps := rfl
@[simp] theorem setThr_splice (s : State) (t : Nat) (x : Thread) : (setThr s t x).splice = s.splice := rfl
@[simp] theorem setThr_svc (s : State) (t : Nat) (x : Thread) : (setThr s t x).svc = s.svc := rfl
@[simp] theorem setThr_hosts (s : State) (t : Nat) (x : Thread) : (setThr s t x).hosts = s.hosts := rfl
@[simp] theorem setThr_hostNet (s : State) (t : Nat) (x : Thread) : (setThr s t x).hostNet = s.hostNet := rfl
@[simp] theorem setThr_hostTx (s : State) (t : Nat) (x : Thread) : (setThr s t x).hostTx = s.hostTx := rfl
@[simp] theorem setThr_dma (s : State) (t : Nat) (x : Thread) : (setThr s t x).dma = s.dma := rfl
@[simp] theorem setThr_dmaTurns (s : State) (t : Nat) (x : Thread) : (setThr s t x).dmaTurns = s.dmaTurns := rfl
@[simp] theorem setThr_tenants (s : State) (t : Nat) (x : Thread) : (setThr s t x).tenants = s.tenants := rfl
@[simp] theorem setThr_pow (s : State) (t : Nat) (x : Thread) : (setThr s t x).pow = s.pow := rfl
@[simp] theorem setThr_mgmt (s : State) (t : Nat) (x : Thread) : (setThr s t x).mgmt = s.mgmt := rfl
@[simp] theorem setThr_flash (s : State) (t : Nat) (x : Thread) : (setThr s t x).flash = s.flash := rfl
@[simp] theorem setThr_boot (s : State) (t : Nat) (x : Thread) : (setThr s t x).boot = s.boot := rfl
@[simp] theorem setThr_stage (s : State) (t : Nat) (x : Thread) : (setThr s t x).stage = s.stage := rfl
@[simp] theorem setThr_rewire (s : State) (t : Nat) (x : Thread) : (setThr s t x).rewire = s.rewire := rfl
@[simp] theorem setThr_vigil (s : State) (t : Nat) (x : Thread) : (setThr s t x).vigil = s.vigil := rfl
@[simp] theorem setThr_vigilTested (s : State) (t : Nat) (x : Thread) : (setThr s t x).vigilTested = s.vigilTested := rfl

@[simp] theorem updThr_pending (s : State) (t : Nat) (f : Thread → Thread) : (updThr s t f).pending = s.pending := rfl
@[simp] theorem updThr_free (s : State) (t : Nat) (f : Thread → Thread) : (updThr s t f).free = s.free := rfl
@[simp] theorem updThr_regs (s : State) (t : Nat) (f : Thread → Thread) : (updThr s t f).regs = s.regs := rfl
@[simp] theorem updThr_banked (s : State) (t : Nat) (f : Thread → Thread) : (updThr s t f).banked = s.banked := rfl
@[simp] theorem updThr_mem (s : State) (t : Nat) (f : Thread → Thread) : (updThr s t f).mem = s.mem := rfl
@[simp] theorem updThr_memTally (s : State) (t : Nat) (f : Thread → Thread) : (updThr s t f).memTally = s.memTally := rfl
@[simp] theorem updThr_memSyn (s : State) (t : Nat) (f : Thread → Thread) : (updThr s t f).memSyn = s.memSyn := rfl
@[simp] theorem updThr_unscrubbed (s : State) (t : Nat) (f : Thread → Thread) : (updThr s t f).unscrubbed = s.unscrubbed := rfl
@[simp] theorem updThr_stale (s : State) (t : Nat) (f : Thread → Thread) : (updThr s t f).stale = s.stale := rfl
@[simp] theorem updThr_pageCode (s : State) (t : Nat) (f : Thread → Thread) : (updThr s t f).pageCode = s.pageCode := rfl
@[simp] theorem updThr_testRows (s : State) (t : Nat) (f : Thread → Thread) : (updThr s t f).testRows = s.testRows := rfl
@[simp] theorem updThr_rig (s : State) (t : Nat) (f : Thread → Thread) : (updThr s t f).rig = s.rig := rfl
@[simp] theorem updThr_partRun (s : State) (t : Nat) (f : Thread → Thread) : (updThr s t f).partRun = s.partRun := rfl
@[simp] theorem updThr_cores (s : State) (t : Nat) (f : Thread → Thread) : (updThr s t f).cores = s.cores := rfl
@[simp] theorem updThr_quads (s : State) (t : Nat) (f : Thread → Thread) : (updThr s t f).quads = s.quads := rfl
@[simp] theorem updThr_slices (s : State) (t : Nat) (f : Thread → Thread) : (updThr s t f).slices = s.slices := rfl
@[simp] theorem updThr_net (s : State) (t : Nat) (f : Thread → Thread) : (updThr s t f).net = s.net := rfl
@[simp] theorem updThr_regNet (s : State) (t : Nat) (f : Thread → Thread) : (updThr s t f).regNet = s.regNet := rfl
@[simp] theorem updThr_psNet (s : State) (t : Nat) (f : Thread → Thread) : (updThr s t f).psNet = s.psNet := rfl
@[simp] theorem updThr_tightNet (s : State) (t : Nat) (f : Thread → Thread) : (updThr s t f).tightNet = s.tightNet := rfl
@[simp] theorem updThr_pcNet (s : State) (t : Nat) (f : Thread → Thread) : (updThr s t f).pcNet = s.pcNet := rfl
@[simp] theorem updThr_credits (s : State) (t : Nat) (f : Thread → Thread) : (updThr s t f).credits = s.credits := rfl
@[simp] theorem updThr_meshSeq (s : State) (t : Nat) (f : Thread → Thread) : (updThr s t f).meshSeq = s.meshSeq := rfl
@[simp] theorem updThr_chans (s : State) (t : Nat) (f : Thread → Thread) : (updThr s t f).chans = s.chans := rfl
@[simp] theorem updThr_irq (s : State) (t : Nat) (f : Thread → Thread) : (updThr s t f).irq = s.irq := rfl
@[simp] theorem updThr_alm (s : State) (t : Nat) (f : Thread → Thread) : (updThr s t f).alm = s.alm := rfl
@[simp] theorem updThr_faultN (s : State) (t : Nat) (f : Thread → Thread) : (updThr s t f).faultN = s.faultN := rfl
@[simp] theorem updThr_epoch (s : State) (t : Nat) (f : Thread → Thread) : (updThr s t f).epoch = s.epoch := rfl
@[simp] theorem updThr_epochFrac (s : State) (t : Nat) (f : Thread → Thread) : (updThr s t f).epochFrac = s.epochFrac := rfl
@[simp] theorem updThr_mgmtIrq (s : State) (t : Nat) (f : Thread → Thread) : (updThr s t f).mgmtIrq = s.mgmtIrq := rfl
@[simp] theorem updThr_bowlIrq (s : State) (t : Nat) (f : Thread → Thread) : (updThr s t f).bowlIrq = s.bowlIrq := rfl
@[simp] theorem updThr_agentBuf (s : State) (t : Nat) (f : Thread → Thread) : (updThr s t f).agentBuf = s.agentBuf := rfl
@[simp] theorem updThr_haws (s : State) (t : Nat) (f : Thread → Thread) : (updThr s t f).haws = s.haws := rfl
@[simp] theorem updThr_hawsNet (s : State) (t : Nat) (f : Thread → Thread) : (updThr s t f).hawsNet = s.hawsNet := rfl
@[simp] theorem updThr_time (s : State) (t : Nat) (f : Thread → Thread) : (updThr s t f).time = s.time := rfl
@[simp] theorem updThr_stoppers (s : State) (t : Nat) (f : Thread → Thread) : (updThr s t f).stoppers = s.stoppers := rfl
@[simp] theorem updThr_ports (s : State) (t : Nat) (f : Thread → Thread) : (updThr s t f).ports = s.ports := rfl
@[simp] theorem updThr_ps (s : State) (t : Nat) (f : Thread → Thread) : (updThr s t f).ps = s.ps := rfl
@[simp] theorem updThr_splice (s : State) (t : Nat) (f : Thread → Thread) : (updThr s t f).splice = s.splice := rfl
@[simp] theorem updThr_svc (s : State) (t : Nat) (f : Thread → Thread) : (updThr s t f).svc = s.svc := rfl
@[simp] theorem updThr_hosts (s : State) (t : Nat) (f : Thread → Thread) : (updThr s t f).hosts = s.hosts := rfl
@[simp] theorem updThr_hostNet (s : State) (t : Nat) (f : Thread → Thread) : (updThr s t f).hostNet = s.hostNet := rfl
@[simp] theorem updThr_hostTx (s : State) (t : Nat) (f : Thread → Thread) : (updThr s t f).hostTx = s.hostTx := rfl
@[simp] theorem updThr_dma (s : State) (t : Nat) (f : Thread → Thread) : (updThr s t f).dma = s.dma := rfl
@[simp] theorem updThr_dmaTurns (s : State) (t : Nat) (f : Thread → Thread) : (updThr s t f).dmaTurns = s.dmaTurns := rfl
@[simp] theorem updThr_tenants (s : State) (t : Nat) (f : Thread → Thread) : (updThr s t f).tenants = s.tenants := rfl
@[simp] theorem updThr_pow (s : State) (t : Nat) (f : Thread → Thread) : (updThr s t f).pow = s.pow := rfl
@[simp] theorem updThr_mgmt (s : State) (t : Nat) (f : Thread → Thread) : (updThr s t f).mgmt = s.mgmt := rfl
@[simp] theorem updThr_flash (s : State) (t : Nat) (f : Thread → Thread) : (updThr s t f).flash = s.flash := rfl
@[simp] theorem updThr_boot (s : State) (t : Nat) (f : Thread → Thread) : (updThr s t f).boot = s.boot := rfl
@[simp] theorem updThr_stage (s : State) (t : Nat) (f : Thread → Thread) : (updThr s t f).stage = s.stage := rfl
@[simp] theorem updThr_rewire (s : State) (t : Nat) (f : Thread → Thread) : (updThr s t f).rewire = s.rewire := rfl
@[simp] theorem updThr_vigil (s : State) (t : Nat) (f : Thread → Thread) : (updThr s t f).vigil = s.vigil := rfl
@[simp] theorem updThr_vigilTested (s : State) (t : Nat) (f : Thread → Thread) : (updThr s t f).vigilTested = s.vigilTested := rfl

@[simp] theorem updCore_pending (s : State) (c : Nat) (f : Core → Core) : (updCore s c f).pending = s.pending := rfl
@[simp] theorem updCore_free (s : State) (c : Nat) (f : Core → Core) : (updCore s c f).free = s.free := rfl
@[simp] theorem updCore_regs (s : State) (c : Nat) (f : Core → Core) : (updCore s c f).regs = s.regs := rfl
@[simp] theorem updCore_banked (s : State) (c : Nat) (f : Core → Core) : (updCore s c f).banked = s.banked := rfl
@[simp] theorem updCore_mem (s : State) (c : Nat) (f : Core → Core) : (updCore s c f).mem = s.mem := rfl
@[simp] theorem updCore_memTally (s : State) (c : Nat) (f : Core → Core) : (updCore s c f).memTally = s.memTally := rfl
@[simp] theorem updCore_memSyn (s : State) (c : Nat) (f : Core → Core) : (updCore s c f).memSyn = s.memSyn := rfl
@[simp] theorem updCore_unscrubbed (s : State) (c : Nat) (f : Core → Core) : (updCore s c f).unscrubbed = s.unscrubbed := rfl
@[simp] theorem updCore_stale (s : State) (c : Nat) (f : Core → Core) : (updCore s c f).stale = s.stale := rfl
@[simp] theorem updCore_pageCode (s : State) (c : Nat) (f : Core → Core) : (updCore s c f).pageCode = s.pageCode := rfl
@[simp] theorem updCore_testRows (s : State) (c : Nat) (f : Core → Core) : (updCore s c f).testRows = s.testRows := rfl
@[simp] theorem updCore_rig (s : State) (c : Nat) (f : Core → Core) : (updCore s c f).rig = s.rig := rfl
@[simp] theorem updCore_partRun (s : State) (c : Nat) (f : Core → Core) : (updCore s c f).partRun = s.partRun := rfl
@[simp] theorem updCore_threads (s : State) (c : Nat) (f : Core → Core) : (updCore s c f).threads = s.threads := rfl
@[simp] theorem updCore_quads (s : State) (c : Nat) (f : Core → Core) : (updCore s c f).quads = s.quads := rfl
@[simp] theorem updCore_slices (s : State) (c : Nat) (f : Core → Core) : (updCore s c f).slices = s.slices := rfl
@[simp] theorem updCore_net (s : State) (c : Nat) (f : Core → Core) : (updCore s c f).net = s.net := rfl
@[simp] theorem updCore_regNet (s : State) (c : Nat) (f : Core → Core) : (updCore s c f).regNet = s.regNet := rfl
@[simp] theorem updCore_psNet (s : State) (c : Nat) (f : Core → Core) : (updCore s c f).psNet = s.psNet := rfl
@[simp] theorem updCore_tightNet (s : State) (c : Nat) (f : Core → Core) : (updCore s c f).tightNet = s.tightNet := rfl
@[simp] theorem updCore_pcNet (s : State) (c : Nat) (f : Core → Core) : (updCore s c f).pcNet = s.pcNet := rfl
@[simp] theorem updCore_credits (s : State) (c : Nat) (f : Core → Core) : (updCore s c f).credits = s.credits := rfl
@[simp] theorem updCore_meshSeq (s : State) (c : Nat) (f : Core → Core) : (updCore s c f).meshSeq = s.meshSeq := rfl
@[simp] theorem updCore_chans (s : State) (c : Nat) (f : Core → Core) : (updCore s c f).chans = s.chans := rfl
@[simp] theorem updCore_irq (s : State) (c : Nat) (f : Core → Core) : (updCore s c f).irq = s.irq := rfl
@[simp] theorem updCore_alm (s : State) (c : Nat) (f : Core → Core) : (updCore s c f).alm = s.alm := rfl
@[simp] theorem updCore_faultN (s : State) (c : Nat) (f : Core → Core) : (updCore s c f).faultN = s.faultN := rfl
@[simp] theorem updCore_epoch (s : State) (c : Nat) (f : Core → Core) : (updCore s c f).epoch = s.epoch := rfl
@[simp] theorem updCore_epochFrac (s : State) (c : Nat) (f : Core → Core) : (updCore s c f).epochFrac = s.epochFrac := rfl
@[simp] theorem updCore_mgmtIrq (s : State) (c : Nat) (f : Core → Core) : (updCore s c f).mgmtIrq = s.mgmtIrq := rfl
@[simp] theorem updCore_bowlIrq (s : State) (c : Nat) (f : Core → Core) : (updCore s c f).bowlIrq = s.bowlIrq := rfl
@[simp] theorem updCore_agentBuf (s : State) (c : Nat) (f : Core → Core) : (updCore s c f).agentBuf = s.agentBuf := rfl
@[simp] theorem updCore_haws (s : State) (c : Nat) (f : Core → Core) : (updCore s c f).haws = s.haws := rfl
@[simp] theorem updCore_hawsNet (s : State) (c : Nat) (f : Core → Core) : (updCore s c f).hawsNet = s.hawsNet := rfl
@[simp] theorem updCore_time (s : State) (c : Nat) (f : Core → Core) : (updCore s c f).time = s.time := rfl
@[simp] theorem updCore_stoppers (s : State) (c : Nat) (f : Core → Core) : (updCore s c f).stoppers = s.stoppers := rfl
@[simp] theorem updCore_ports (s : State) (c : Nat) (f : Core → Core) : (updCore s c f).ports = s.ports := rfl
@[simp] theorem updCore_ps (s : State) (c : Nat) (f : Core → Core) : (updCore s c f).ps = s.ps := rfl
@[simp] theorem updCore_splice (s : State) (c : Nat) (f : Core → Core) : (updCore s c f).splice = s.splice := rfl
@[simp] theorem updCore_svc (s : State) (c : Nat) (f : Core → Core) : (updCore s c f).svc = s.svc := rfl
@[simp] theorem updCore_hosts (s : State) (c : Nat) (f : Core → Core) : (updCore s c f).hosts = s.hosts := rfl
@[simp] theorem updCore_hostNet (s : State) (c : Nat) (f : Core → Core) : (updCore s c f).hostNet = s.hostNet := rfl
@[simp] theorem updCore_hostTx (s : State) (c : Nat) (f : Core → Core) : (updCore s c f).hostTx = s.hostTx := rfl
@[simp] theorem updCore_dma (s : State) (c : Nat) (f : Core → Core) : (updCore s c f).dma = s.dma := rfl
@[simp] theorem updCore_dmaTurns (s : State) (c : Nat) (f : Core → Core) : (updCore s c f).dmaTurns = s.dmaTurns := rfl
@[simp] theorem updCore_tenants (s : State) (c : Nat) (f : Core → Core) : (updCore s c f).tenants = s.tenants := rfl
@[simp] theorem updCore_pow (s : State) (c : Nat) (f : Core → Core) : (updCore s c f).pow = s.pow := rfl
@[simp] theorem updCore_mgmt (s : State) (c : Nat) (f : Core → Core) : (updCore s c f).mgmt = s.mgmt := rfl
@[simp] theorem updCore_flash (s : State) (c : Nat) (f : Core → Core) : (updCore s c f).flash = s.flash := rfl
@[simp] theorem updCore_boot (s : State) (c : Nat) (f : Core → Core) : (updCore s c f).boot = s.boot := rfl
@[simp] theorem updCore_stage (s : State) (c : Nat) (f : Core → Core) : (updCore s c f).stage = s.stage := rfl
@[simp] theorem updCore_rewire (s : State) (c : Nat) (f : Core → Core) : (updCore s c f).rewire = s.rewire := rfl
@[simp] theorem updCore_vigil (s : State) (c : Nat) (f : Core → Core) : (updCore s c f).vigil = s.vigil := rfl
@[simp] theorem updCore_vigilTested (s : State) (c : Nat) (f : Core → Core) : (updCore s c f).vigilTested = s.vigilTested := rfl

@[simp] theorem updQuad_pending (s : State) (q : Nat) (f : QuadSt → QuadSt) : (updQuad s q f).pending = s.pending := rfl
@[simp] theorem updQuad_free (s : State) (q : Nat) (f : QuadSt → QuadSt) : (updQuad s q f).free = s.free := rfl
@[simp] theorem updQuad_regs (s : State) (q : Nat) (f : QuadSt → QuadSt) : (updQuad s q f).regs = s.regs := rfl
@[simp] theorem updQuad_banked (s : State) (q : Nat) (f : QuadSt → QuadSt) : (updQuad s q f).banked = s.banked := rfl
@[simp] theorem updQuad_mem (s : State) (q : Nat) (f : QuadSt → QuadSt) : (updQuad s q f).mem = s.mem := rfl
@[simp] theorem updQuad_memTally (s : State) (q : Nat) (f : QuadSt → QuadSt) : (updQuad s q f).memTally = s.memTally := rfl
@[simp] theorem updQuad_memSyn (s : State) (q : Nat) (f : QuadSt → QuadSt) : (updQuad s q f).memSyn = s.memSyn := rfl
@[simp] theorem updQuad_unscrubbed (s : State) (q : Nat) (f : QuadSt → QuadSt) : (updQuad s q f).unscrubbed = s.unscrubbed := rfl
@[simp] theorem updQuad_stale (s : State) (q : Nat) (f : QuadSt → QuadSt) : (updQuad s q f).stale = s.stale := rfl
@[simp] theorem updQuad_pageCode (s : State) (q : Nat) (f : QuadSt → QuadSt) : (updQuad s q f).pageCode = s.pageCode := rfl
@[simp] theorem updQuad_testRows (s : State) (q : Nat) (f : QuadSt → QuadSt) : (updQuad s q f).testRows = s.testRows := rfl
@[simp] theorem updQuad_rig (s : State) (q : Nat) (f : QuadSt → QuadSt) : (updQuad s q f).rig = s.rig := rfl
@[simp] theorem updQuad_partRun (s : State) (q : Nat) (f : QuadSt → QuadSt) : (updQuad s q f).partRun = s.partRun := rfl
@[simp] theorem updQuad_threads (s : State) (q : Nat) (f : QuadSt → QuadSt) : (updQuad s q f).threads = s.threads := rfl
@[simp] theorem updQuad_cores (s : State) (q : Nat) (f : QuadSt → QuadSt) : (updQuad s q f).cores = s.cores := rfl
@[simp] theorem updQuad_slices (s : State) (q : Nat) (f : QuadSt → QuadSt) : (updQuad s q f).slices = s.slices := rfl
@[simp] theorem updQuad_net (s : State) (q : Nat) (f : QuadSt → QuadSt) : (updQuad s q f).net = s.net := rfl
@[simp] theorem updQuad_regNet (s : State) (q : Nat) (f : QuadSt → QuadSt) : (updQuad s q f).regNet = s.regNet := rfl
@[simp] theorem updQuad_psNet (s : State) (q : Nat) (f : QuadSt → QuadSt) : (updQuad s q f).psNet = s.psNet := rfl
@[simp] theorem updQuad_tightNet (s : State) (q : Nat) (f : QuadSt → QuadSt) : (updQuad s q f).tightNet = s.tightNet := rfl
@[simp] theorem updQuad_pcNet (s : State) (q : Nat) (f : QuadSt → QuadSt) : (updQuad s q f).pcNet = s.pcNet := rfl
@[simp] theorem updQuad_credits (s : State) (q : Nat) (f : QuadSt → QuadSt) : (updQuad s q f).credits = s.credits := rfl
@[simp] theorem updQuad_meshSeq (s : State) (q : Nat) (f : QuadSt → QuadSt) : (updQuad s q f).meshSeq = s.meshSeq := rfl
@[simp] theorem updQuad_chans (s : State) (q : Nat) (f : QuadSt → QuadSt) : (updQuad s q f).chans = s.chans := rfl
@[simp] theorem updQuad_irq (s : State) (q : Nat) (f : QuadSt → QuadSt) : (updQuad s q f).irq = s.irq := rfl
@[simp] theorem updQuad_alm (s : State) (q : Nat) (f : QuadSt → QuadSt) : (updQuad s q f).alm = s.alm := rfl
@[simp] theorem updQuad_faultN (s : State) (q : Nat) (f : QuadSt → QuadSt) : (updQuad s q f).faultN = s.faultN := rfl
@[simp] theorem updQuad_epoch (s : State) (q : Nat) (f : QuadSt → QuadSt) : (updQuad s q f).epoch = s.epoch := rfl
@[simp] theorem updQuad_epochFrac (s : State) (q : Nat) (f : QuadSt → QuadSt) : (updQuad s q f).epochFrac = s.epochFrac := rfl
@[simp] theorem updQuad_mgmtIrq (s : State) (q : Nat) (f : QuadSt → QuadSt) : (updQuad s q f).mgmtIrq = s.mgmtIrq := rfl
@[simp] theorem updQuad_bowlIrq (s : State) (q : Nat) (f : QuadSt → QuadSt) : (updQuad s q f).bowlIrq = s.bowlIrq := rfl
@[simp] theorem updQuad_agentBuf (s : State) (q : Nat) (f : QuadSt → QuadSt) : (updQuad s q f).agentBuf = s.agentBuf := rfl
@[simp] theorem updQuad_haws (s : State) (q : Nat) (f : QuadSt → QuadSt) : (updQuad s q f).haws = s.haws := rfl
@[simp] theorem updQuad_hawsNet (s : State) (q : Nat) (f : QuadSt → QuadSt) : (updQuad s q f).hawsNet = s.hawsNet := rfl
@[simp] theorem updQuad_time (s : State) (q : Nat) (f : QuadSt → QuadSt) : (updQuad s q f).time = s.time := rfl
@[simp] theorem updQuad_stoppers (s : State) (q : Nat) (f : QuadSt → QuadSt) : (updQuad s q f).stoppers = s.stoppers := rfl
@[simp] theorem updQuad_ports (s : State) (q : Nat) (f : QuadSt → QuadSt) : (updQuad s q f).ports = s.ports := rfl
@[simp] theorem updQuad_ps (s : State) (q : Nat) (f : QuadSt → QuadSt) : (updQuad s q f).ps = s.ps := rfl
@[simp] theorem updQuad_splice (s : State) (q : Nat) (f : QuadSt → QuadSt) : (updQuad s q f).splice = s.splice := rfl
@[simp] theorem updQuad_svc (s : State) (q : Nat) (f : QuadSt → QuadSt) : (updQuad s q f).svc = s.svc := rfl
@[simp] theorem updQuad_hosts (s : State) (q : Nat) (f : QuadSt → QuadSt) : (updQuad s q f).hosts = s.hosts := rfl
@[simp] theorem updQuad_hostNet (s : State) (q : Nat) (f : QuadSt → QuadSt) : (updQuad s q f).hostNet = s.hostNet := rfl
@[simp] theorem updQuad_hostTx (s : State) (q : Nat) (f : QuadSt → QuadSt) : (updQuad s q f).hostTx = s.hostTx := rfl
@[simp] theorem updQuad_dma (s : State) (q : Nat) (f : QuadSt → QuadSt) : (updQuad s q f).dma = s.dma := rfl
@[simp] theorem updQuad_dmaTurns (s : State) (q : Nat) (f : QuadSt → QuadSt) : (updQuad s q f).dmaTurns = s.dmaTurns := rfl
@[simp] theorem updQuad_tenants (s : State) (q : Nat) (f : QuadSt → QuadSt) : (updQuad s q f).tenants = s.tenants := rfl
@[simp] theorem updQuad_pow (s : State) (q : Nat) (f : QuadSt → QuadSt) : (updQuad s q f).pow = s.pow := rfl
@[simp] theorem updQuad_mgmt (s : State) (q : Nat) (f : QuadSt → QuadSt) : (updQuad s q f).mgmt = s.mgmt := rfl
@[simp] theorem updQuad_flash (s : State) (q : Nat) (f : QuadSt → QuadSt) : (updQuad s q f).flash = s.flash := rfl
@[simp] theorem updQuad_boot (s : State) (q : Nat) (f : QuadSt → QuadSt) : (updQuad s q f).boot = s.boot := rfl
@[simp] theorem updQuad_stage (s : State) (q : Nat) (f : QuadSt → QuadSt) : (updQuad s q f).stage = s.stage := rfl
@[simp] theorem updQuad_rewire (s : State) (q : Nat) (f : QuadSt → QuadSt) : (updQuad s q f).rewire = s.rewire := rfl
@[simp] theorem updQuad_vigil (s : State) (q : Nat) (f : QuadSt → QuadSt) : (updQuad s q f).vigil = s.vigil := rfl
@[simp] theorem updQuad_vigilTested (s : State) (q : Nat) (f : QuadSt → QuadSt) : (updQuad s q f).vigilTested = s.vigilTested := rfl

@[simp] theorem updSlice_pending (s : State) (n : Nat) (f : SliceSt → SliceSt) : (updSlice s n f).pending = s.pending := rfl
@[simp] theorem updSlice_free (s : State) (n : Nat) (f : SliceSt → SliceSt) : (updSlice s n f).free = s.free := rfl
@[simp] theorem updSlice_regs (s : State) (n : Nat) (f : SliceSt → SliceSt) : (updSlice s n f).regs = s.regs := rfl
@[simp] theorem updSlice_banked (s : State) (n : Nat) (f : SliceSt → SliceSt) : (updSlice s n f).banked = s.banked := rfl
@[simp] theorem updSlice_mem (s : State) (n : Nat) (f : SliceSt → SliceSt) : (updSlice s n f).mem = s.mem := rfl
@[simp] theorem updSlice_memTally (s : State) (n : Nat) (f : SliceSt → SliceSt) : (updSlice s n f).memTally = s.memTally := rfl
@[simp] theorem updSlice_memSyn (s : State) (n : Nat) (f : SliceSt → SliceSt) : (updSlice s n f).memSyn = s.memSyn := rfl
@[simp] theorem updSlice_unscrubbed (s : State) (n : Nat) (f : SliceSt → SliceSt) : (updSlice s n f).unscrubbed = s.unscrubbed := rfl
@[simp] theorem updSlice_stale (s : State) (n : Nat) (f : SliceSt → SliceSt) : (updSlice s n f).stale = s.stale := rfl
@[simp] theorem updSlice_pageCode (s : State) (n : Nat) (f : SliceSt → SliceSt) : (updSlice s n f).pageCode = s.pageCode := rfl
@[simp] theorem updSlice_testRows (s : State) (n : Nat) (f : SliceSt → SliceSt) : (updSlice s n f).testRows = s.testRows := rfl
@[simp] theorem updSlice_rig (s : State) (n : Nat) (f : SliceSt → SliceSt) : (updSlice s n f).rig = s.rig := rfl
@[simp] theorem updSlice_partRun (s : State) (n : Nat) (f : SliceSt → SliceSt) : (updSlice s n f).partRun = s.partRun := rfl
@[simp] theorem updSlice_threads (s : State) (n : Nat) (f : SliceSt → SliceSt) : (updSlice s n f).threads = s.threads := rfl
@[simp] theorem updSlice_cores (s : State) (n : Nat) (f : SliceSt → SliceSt) : (updSlice s n f).cores = s.cores := rfl
@[simp] theorem updSlice_quads (s : State) (n : Nat) (f : SliceSt → SliceSt) : (updSlice s n f).quads = s.quads := rfl
@[simp] theorem updSlice_net (s : State) (n : Nat) (f : SliceSt → SliceSt) : (updSlice s n f).net = s.net := rfl
@[simp] theorem updSlice_regNet (s : State) (n : Nat) (f : SliceSt → SliceSt) : (updSlice s n f).regNet = s.regNet := rfl
@[simp] theorem updSlice_psNet (s : State) (n : Nat) (f : SliceSt → SliceSt) : (updSlice s n f).psNet = s.psNet := rfl
@[simp] theorem updSlice_tightNet (s : State) (n : Nat) (f : SliceSt → SliceSt) : (updSlice s n f).tightNet = s.tightNet := rfl
@[simp] theorem updSlice_pcNet (s : State) (n : Nat) (f : SliceSt → SliceSt) : (updSlice s n f).pcNet = s.pcNet := rfl
@[simp] theorem updSlice_credits (s : State) (n : Nat) (f : SliceSt → SliceSt) : (updSlice s n f).credits = s.credits := rfl
@[simp] theorem updSlice_meshSeq (s : State) (n : Nat) (f : SliceSt → SliceSt) : (updSlice s n f).meshSeq = s.meshSeq := rfl
@[simp] theorem updSlice_chans (s : State) (n : Nat) (f : SliceSt → SliceSt) : (updSlice s n f).chans = s.chans := rfl
@[simp] theorem updSlice_irq (s : State) (n : Nat) (f : SliceSt → SliceSt) : (updSlice s n f).irq = s.irq := rfl
@[simp] theorem updSlice_alm (s : State) (n : Nat) (f : SliceSt → SliceSt) : (updSlice s n f).alm = s.alm := rfl
@[simp] theorem updSlice_faultN (s : State) (n : Nat) (f : SliceSt → SliceSt) : (updSlice s n f).faultN = s.faultN := rfl
@[simp] theorem updSlice_epoch (s : State) (n : Nat) (f : SliceSt → SliceSt) : (updSlice s n f).epoch = s.epoch := rfl
@[simp] theorem updSlice_epochFrac (s : State) (n : Nat) (f : SliceSt → SliceSt) : (updSlice s n f).epochFrac = s.epochFrac := rfl
@[simp] theorem updSlice_mgmtIrq (s : State) (n : Nat) (f : SliceSt → SliceSt) : (updSlice s n f).mgmtIrq = s.mgmtIrq := rfl
@[simp] theorem updSlice_bowlIrq (s : State) (n : Nat) (f : SliceSt → SliceSt) : (updSlice s n f).bowlIrq = s.bowlIrq := rfl
@[simp] theorem updSlice_agentBuf (s : State) (n : Nat) (f : SliceSt → SliceSt) : (updSlice s n f).agentBuf = s.agentBuf := rfl
@[simp] theorem updSlice_haws (s : State) (n : Nat) (f : SliceSt → SliceSt) : (updSlice s n f).haws = s.haws := rfl
@[simp] theorem updSlice_hawsNet (s : State) (n : Nat) (f : SliceSt → SliceSt) : (updSlice s n f).hawsNet = s.hawsNet := rfl
@[simp] theorem updSlice_time (s : State) (n : Nat) (f : SliceSt → SliceSt) : (updSlice s n f).time = s.time := rfl
@[simp] theorem updSlice_stoppers (s : State) (n : Nat) (f : SliceSt → SliceSt) : (updSlice s n f).stoppers = s.stoppers := rfl
@[simp] theorem updSlice_ports (s : State) (n : Nat) (f : SliceSt → SliceSt) : (updSlice s n f).ports = s.ports := rfl
@[simp] theorem updSlice_ps (s : State) (n : Nat) (f : SliceSt → SliceSt) : (updSlice s n f).ps = s.ps := rfl
@[simp] theorem updSlice_splice (s : State) (n : Nat) (f : SliceSt → SliceSt) : (updSlice s n f).splice = s.splice := rfl
@[simp] theorem updSlice_svc (s : State) (n : Nat) (f : SliceSt → SliceSt) : (updSlice s n f).svc = s.svc := rfl
@[simp] theorem updSlice_hosts (s : State) (n : Nat) (f : SliceSt → SliceSt) : (updSlice s n f).hosts = s.hosts := rfl
@[simp] theorem updSlice_hostNet (s : State) (n : Nat) (f : SliceSt → SliceSt) : (updSlice s n f).hostNet = s.hostNet := rfl
@[simp] theorem updSlice_hostTx (s : State) (n : Nat) (f : SliceSt → SliceSt) : (updSlice s n f).hostTx = s.hostTx := rfl
@[simp] theorem updSlice_dma (s : State) (n : Nat) (f : SliceSt → SliceSt) : (updSlice s n f).dma = s.dma := rfl
@[simp] theorem updSlice_dmaTurns (s : State) (n : Nat) (f : SliceSt → SliceSt) : (updSlice s n f).dmaTurns = s.dmaTurns := rfl
@[simp] theorem updSlice_tenants (s : State) (n : Nat) (f : SliceSt → SliceSt) : (updSlice s n f).tenants = s.tenants := rfl
@[simp] theorem updSlice_pow (s : State) (n : Nat) (f : SliceSt → SliceSt) : (updSlice s n f).pow = s.pow := rfl
@[simp] theorem updSlice_mgmt (s : State) (n : Nat) (f : SliceSt → SliceSt) : (updSlice s n f).mgmt = s.mgmt := rfl
@[simp] theorem updSlice_flash (s : State) (n : Nat) (f : SliceSt → SliceSt) : (updSlice s n f).flash = s.flash := rfl
@[simp] theorem updSlice_boot (s : State) (n : Nat) (f : SliceSt → SliceSt) : (updSlice s n f).boot = s.boot := rfl
@[simp] theorem updSlice_stage (s : State) (n : Nat) (f : SliceSt → SliceSt) : (updSlice s n f).stage = s.stage := rfl
@[simp] theorem updSlice_rewire (s : State) (n : Nat) (f : SliceSt → SliceSt) : (updSlice s n f).rewire = s.rewire := rfl
@[simp] theorem updSlice_vigil (s : State) (n : Nat) (f : SliceSt → SliceSt) : (updSlice s n f).vigil = s.vigil := rfl
@[simp] theorem updSlice_vigilTested (s : State) (n : Nat) (f : SliceSt → SliceSt) : (updSlice s n f).vigilTested = s.vigilTested := rfl

@[simp] theorem updChan_pending (s : State) (m : Nat) (f : ChanSt → ChanSt) : (updChan s m f).pending = s.pending := rfl
@[simp] theorem updChan_free (s : State) (m : Nat) (f : ChanSt → ChanSt) : (updChan s m f).free = s.free := rfl
@[simp] theorem updChan_regs (s : State) (m : Nat) (f : ChanSt → ChanSt) : (updChan s m f).regs = s.regs := rfl
@[simp] theorem updChan_banked (s : State) (m : Nat) (f : ChanSt → ChanSt) : (updChan s m f).banked = s.banked := rfl
@[simp] theorem updChan_mem (s : State) (m : Nat) (f : ChanSt → ChanSt) : (updChan s m f).mem = s.mem := rfl
@[simp] theorem updChan_memTally (s : State) (m : Nat) (f : ChanSt → ChanSt) : (updChan s m f).memTally = s.memTally := rfl
@[simp] theorem updChan_memSyn (s : State) (m : Nat) (f : ChanSt → ChanSt) : (updChan s m f).memSyn = s.memSyn := rfl
@[simp] theorem updChan_unscrubbed (s : State) (m : Nat) (f : ChanSt → ChanSt) : (updChan s m f).unscrubbed = s.unscrubbed := rfl
@[simp] theorem updChan_stale (s : State) (m : Nat) (f : ChanSt → ChanSt) : (updChan s m f).stale = s.stale := rfl
@[simp] theorem updChan_pageCode (s : State) (m : Nat) (f : ChanSt → ChanSt) : (updChan s m f).pageCode = s.pageCode := rfl
@[simp] theorem updChan_testRows (s : State) (m : Nat) (f : ChanSt → ChanSt) : (updChan s m f).testRows = s.testRows := rfl
@[simp] theorem updChan_rig (s : State) (m : Nat) (f : ChanSt → ChanSt) : (updChan s m f).rig = s.rig := rfl
@[simp] theorem updChan_partRun (s : State) (m : Nat) (f : ChanSt → ChanSt) : (updChan s m f).partRun = s.partRun := rfl
@[simp] theorem updChan_threads (s : State) (m : Nat) (f : ChanSt → ChanSt) : (updChan s m f).threads = s.threads := rfl
@[simp] theorem updChan_cores (s : State) (m : Nat) (f : ChanSt → ChanSt) : (updChan s m f).cores = s.cores := rfl
@[simp] theorem updChan_quads (s : State) (m : Nat) (f : ChanSt → ChanSt) : (updChan s m f).quads = s.quads := rfl
@[simp] theorem updChan_slices (s : State) (m : Nat) (f : ChanSt → ChanSt) : (updChan s m f).slices = s.slices := rfl
@[simp] theorem updChan_net (s : State) (m : Nat) (f : ChanSt → ChanSt) : (updChan s m f).net = s.net := rfl
@[simp] theorem updChan_regNet (s : State) (m : Nat) (f : ChanSt → ChanSt) : (updChan s m f).regNet = s.regNet := rfl
@[simp] theorem updChan_psNet (s : State) (m : Nat) (f : ChanSt → ChanSt) : (updChan s m f).psNet = s.psNet := rfl
@[simp] theorem updChan_tightNet (s : State) (m : Nat) (f : ChanSt → ChanSt) : (updChan s m f).tightNet = s.tightNet := rfl
@[simp] theorem updChan_pcNet (s : State) (m : Nat) (f : ChanSt → ChanSt) : (updChan s m f).pcNet = s.pcNet := rfl
@[simp] theorem updChan_credits (s : State) (m : Nat) (f : ChanSt → ChanSt) : (updChan s m f).credits = s.credits := rfl
@[simp] theorem updChan_meshSeq (s : State) (m : Nat) (f : ChanSt → ChanSt) : (updChan s m f).meshSeq = s.meshSeq := rfl
@[simp] theorem updChan_irq (s : State) (m : Nat) (f : ChanSt → ChanSt) : (updChan s m f).irq = s.irq := rfl
@[simp] theorem updChan_alm (s : State) (m : Nat) (f : ChanSt → ChanSt) : (updChan s m f).alm = s.alm := rfl
@[simp] theorem updChan_faultN (s : State) (m : Nat) (f : ChanSt → ChanSt) : (updChan s m f).faultN = s.faultN := rfl
@[simp] theorem updChan_epoch (s : State) (m : Nat) (f : ChanSt → ChanSt) : (updChan s m f).epoch = s.epoch := rfl
@[simp] theorem updChan_epochFrac (s : State) (m : Nat) (f : ChanSt → ChanSt) : (updChan s m f).epochFrac = s.epochFrac := rfl
@[simp] theorem updChan_mgmtIrq (s : State) (m : Nat) (f : ChanSt → ChanSt) : (updChan s m f).mgmtIrq = s.mgmtIrq := rfl
@[simp] theorem updChan_bowlIrq (s : State) (m : Nat) (f : ChanSt → ChanSt) : (updChan s m f).bowlIrq = s.bowlIrq := rfl
@[simp] theorem updChan_agentBuf (s : State) (m : Nat) (f : ChanSt → ChanSt) : (updChan s m f).agentBuf = s.agentBuf := rfl
@[simp] theorem updChan_haws (s : State) (m : Nat) (f : ChanSt → ChanSt) : (updChan s m f).haws = s.haws := rfl
@[simp] theorem updChan_hawsNet (s : State) (m : Nat) (f : ChanSt → ChanSt) : (updChan s m f).hawsNet = s.hawsNet := rfl
@[simp] theorem updChan_time (s : State) (m : Nat) (f : ChanSt → ChanSt) : (updChan s m f).time = s.time := rfl
@[simp] theorem updChan_stoppers (s : State) (m : Nat) (f : ChanSt → ChanSt) : (updChan s m f).stoppers = s.stoppers := rfl
@[simp] theorem updChan_ports (s : State) (m : Nat) (f : ChanSt → ChanSt) : (updChan s m f).ports = s.ports := rfl
@[simp] theorem updChan_ps (s : State) (m : Nat) (f : ChanSt → ChanSt) : (updChan s m f).ps = s.ps := rfl
@[simp] theorem updChan_splice (s : State) (m : Nat) (f : ChanSt → ChanSt) : (updChan s m f).splice = s.splice := rfl
@[simp] theorem updChan_svc (s : State) (m : Nat) (f : ChanSt → ChanSt) : (updChan s m f).svc = s.svc := rfl
@[simp] theorem updChan_hosts (s : State) (m : Nat) (f : ChanSt → ChanSt) : (updChan s m f).hosts = s.hosts := rfl
@[simp] theorem updChan_hostNet (s : State) (m : Nat) (f : ChanSt → ChanSt) : (updChan s m f).hostNet = s.hostNet := rfl
@[simp] theorem updChan_hostTx (s : State) (m : Nat) (f : ChanSt → ChanSt) : (updChan s m f).hostTx = s.hostTx := rfl
@[simp] theorem updChan_dma (s : State) (m : Nat) (f : ChanSt → ChanSt) : (updChan s m f).dma = s.dma := rfl
@[simp] theorem updChan_dmaTurns (s : State) (m : Nat) (f : ChanSt → ChanSt) : (updChan s m f).dmaTurns = s.dmaTurns := rfl
@[simp] theorem updChan_tenants (s : State) (m : Nat) (f : ChanSt → ChanSt) : (updChan s m f).tenants = s.tenants := rfl
@[simp] theorem updChan_pow (s : State) (m : Nat) (f : ChanSt → ChanSt) : (updChan s m f).pow = s.pow := rfl
@[simp] theorem updChan_mgmt (s : State) (m : Nat) (f : ChanSt → ChanSt) : (updChan s m f).mgmt = s.mgmt := rfl
@[simp] theorem updChan_flash (s : State) (m : Nat) (f : ChanSt → ChanSt) : (updChan s m f).flash = s.flash := rfl
@[simp] theorem updChan_boot (s : State) (m : Nat) (f : ChanSt → ChanSt) : (updChan s m f).boot = s.boot := rfl
@[simp] theorem updChan_stage (s : State) (m : Nat) (f : ChanSt → ChanSt) : (updChan s m f).stage = s.stage := rfl
@[simp] theorem updChan_rewire (s : State) (m : Nat) (f : ChanSt → ChanSt) : (updChan s m f).rewire = s.rewire := rfl
@[simp] theorem updChan_vigil (s : State) (m : Nat) (f : ChanSt → ChanSt) : (updChan s m f).vigil = s.vigil := rfl
@[simp] theorem updChan_vigilTested (s : State) (m : Nat) (f : ChanSt → ChanSt) : (updChan s m f).vigilTested = s.vigilTested := rfl

@[simp] theorem updPrun_pending (s : State) (p : Nat) (f : PartRun → PartRun) : (updPrun s p f).pending = s.pending := rfl
@[simp] theorem updPrun_free (s : State) (p : Nat) (f : PartRun → PartRun) : (updPrun s p f).free = s.free := rfl
@[simp] theorem updPrun_regs (s : State) (p : Nat) (f : PartRun → PartRun) : (updPrun s p f).regs = s.regs := rfl
@[simp] theorem updPrun_banked (s : State) (p : Nat) (f : PartRun → PartRun) : (updPrun s p f).banked = s.banked := rfl
@[simp] theorem updPrun_mem (s : State) (p : Nat) (f : PartRun → PartRun) : (updPrun s p f).mem = s.mem := rfl
@[simp] theorem updPrun_memTally (s : State) (p : Nat) (f : PartRun → PartRun) : (updPrun s p f).memTally = s.memTally := rfl
@[simp] theorem updPrun_memSyn (s : State) (p : Nat) (f : PartRun → PartRun) : (updPrun s p f).memSyn = s.memSyn := rfl
@[simp] theorem updPrun_unscrubbed (s : State) (p : Nat) (f : PartRun → PartRun) : (updPrun s p f).unscrubbed = s.unscrubbed := rfl
@[simp] theorem updPrun_stale (s : State) (p : Nat) (f : PartRun → PartRun) : (updPrun s p f).stale = s.stale := rfl
@[simp] theorem updPrun_pageCode (s : State) (p : Nat) (f : PartRun → PartRun) : (updPrun s p f).pageCode = s.pageCode := rfl
@[simp] theorem updPrun_testRows (s : State) (p : Nat) (f : PartRun → PartRun) : (updPrun s p f).testRows = s.testRows := rfl
@[simp] theorem updPrun_rig (s : State) (p : Nat) (f : PartRun → PartRun) : (updPrun s p f).rig = s.rig := rfl
@[simp] theorem updPrun_threads (s : State) (p : Nat) (f : PartRun → PartRun) : (updPrun s p f).threads = s.threads := rfl
@[simp] theorem updPrun_cores (s : State) (p : Nat) (f : PartRun → PartRun) : (updPrun s p f).cores = s.cores := rfl
@[simp] theorem updPrun_quads (s : State) (p : Nat) (f : PartRun → PartRun) : (updPrun s p f).quads = s.quads := rfl
@[simp] theorem updPrun_slices (s : State) (p : Nat) (f : PartRun → PartRun) : (updPrun s p f).slices = s.slices := rfl
@[simp] theorem updPrun_net (s : State) (p : Nat) (f : PartRun → PartRun) : (updPrun s p f).net = s.net := rfl
@[simp] theorem updPrun_regNet (s : State) (p : Nat) (f : PartRun → PartRun) : (updPrun s p f).regNet = s.regNet := rfl
@[simp] theorem updPrun_psNet (s : State) (p : Nat) (f : PartRun → PartRun) : (updPrun s p f).psNet = s.psNet := rfl
@[simp] theorem updPrun_tightNet (s : State) (p : Nat) (f : PartRun → PartRun) : (updPrun s p f).tightNet = s.tightNet := rfl
@[simp] theorem updPrun_pcNet (s : State) (p : Nat) (f : PartRun → PartRun) : (updPrun s p f).pcNet = s.pcNet := rfl
@[simp] theorem updPrun_credits (s : State) (p : Nat) (f : PartRun → PartRun) : (updPrun s p f).credits = s.credits := rfl
@[simp] theorem updPrun_meshSeq (s : State) (p : Nat) (f : PartRun → PartRun) : (updPrun s p f).meshSeq = s.meshSeq := rfl
@[simp] theorem updPrun_chans (s : State) (p : Nat) (f : PartRun → PartRun) : (updPrun s p f).chans = s.chans := rfl
@[simp] theorem updPrun_irq (s : State) (p : Nat) (f : PartRun → PartRun) : (updPrun s p f).irq = s.irq := rfl
@[simp] theorem updPrun_alm (s : State) (p : Nat) (f : PartRun → PartRun) : (updPrun s p f).alm = s.alm := rfl
@[simp] theorem updPrun_faultN (s : State) (p : Nat) (f : PartRun → PartRun) : (updPrun s p f).faultN = s.faultN := rfl
@[simp] theorem updPrun_epoch (s : State) (p : Nat) (f : PartRun → PartRun) : (updPrun s p f).epoch = s.epoch := rfl
@[simp] theorem updPrun_epochFrac (s : State) (p : Nat) (f : PartRun → PartRun) : (updPrun s p f).epochFrac = s.epochFrac := rfl
@[simp] theorem updPrun_mgmtIrq (s : State) (p : Nat) (f : PartRun → PartRun) : (updPrun s p f).mgmtIrq = s.mgmtIrq := rfl
@[simp] theorem updPrun_bowlIrq (s : State) (p : Nat) (f : PartRun → PartRun) : (updPrun s p f).bowlIrq = s.bowlIrq := rfl
@[simp] theorem updPrun_agentBuf (s : State) (p : Nat) (f : PartRun → PartRun) : (updPrun s p f).agentBuf = s.agentBuf := rfl
@[simp] theorem updPrun_haws (s : State) (p : Nat) (f : PartRun → PartRun) : (updPrun s p f).haws = s.haws := rfl
@[simp] theorem updPrun_hawsNet (s : State) (p : Nat) (f : PartRun → PartRun) : (updPrun s p f).hawsNet = s.hawsNet := rfl
@[simp] theorem updPrun_time (s : State) (p : Nat) (f : PartRun → PartRun) : (updPrun s p f).time = s.time := rfl
@[simp] theorem updPrun_stoppers (s : State) (p : Nat) (f : PartRun → PartRun) : (updPrun s p f).stoppers = s.stoppers := rfl
@[simp] theorem updPrun_ports (s : State) (p : Nat) (f : PartRun → PartRun) : (updPrun s p f).ports = s.ports := rfl
@[simp] theorem updPrun_ps (s : State) (p : Nat) (f : PartRun → PartRun) : (updPrun s p f).ps = s.ps := rfl
@[simp] theorem updPrun_splice (s : State) (p : Nat) (f : PartRun → PartRun) : (updPrun s p f).splice = s.splice := rfl
@[simp] theorem updPrun_svc (s : State) (p : Nat) (f : PartRun → PartRun) : (updPrun s p f).svc = s.svc := rfl
@[simp] theorem updPrun_hosts (s : State) (p : Nat) (f : PartRun → PartRun) : (updPrun s p f).hosts = s.hosts := rfl
@[simp] theorem updPrun_hostNet (s : State) (p : Nat) (f : PartRun → PartRun) : (updPrun s p f).hostNet = s.hostNet := rfl
@[simp] theorem updPrun_hostTx (s : State) (p : Nat) (f : PartRun → PartRun) : (updPrun s p f).hostTx = s.hostTx := rfl
@[simp] theorem updPrun_dma (s : State) (p : Nat) (f : PartRun → PartRun) : (updPrun s p f).dma = s.dma := rfl
@[simp] theorem updPrun_dmaTurns (s : State) (p : Nat) (f : PartRun → PartRun) : (updPrun s p f).dmaTurns = s.dmaTurns := rfl
@[simp] theorem updPrun_tenants (s : State) (p : Nat) (f : PartRun → PartRun) : (updPrun s p f).tenants = s.tenants := rfl
@[simp] theorem updPrun_pow (s : State) (p : Nat) (f : PartRun → PartRun) : (updPrun s p f).pow = s.pow := rfl
@[simp] theorem updPrun_mgmt (s : State) (p : Nat) (f : PartRun → PartRun) : (updPrun s p f).mgmt = s.mgmt := rfl
@[simp] theorem updPrun_flash (s : State) (p : Nat) (f : PartRun → PartRun) : (updPrun s p f).flash = s.flash := rfl
@[simp] theorem updPrun_boot (s : State) (p : Nat) (f : PartRun → PartRun) : (updPrun s p f).boot = s.boot := rfl
@[simp] theorem updPrun_stage (s : State) (p : Nat) (f : PartRun → PartRun) : (updPrun s p f).stage = s.stage := rfl
@[simp] theorem updPrun_rewire (s : State) (p : Nat) (f : PartRun → PartRun) : (updPrun s p f).rewire = s.rewire := rfl
@[simp] theorem updPrun_vigil (s : State) (p : Nat) (f : PartRun → PartRun) : (updPrun s p f).vigil = s.vigil := rfl
@[simp] theorem updPrun_vigilTested (s : State) (p : Nat) (f : PartRun → PartRun) : (updPrun s p f).vigilTested = s.vigilTested := rfl

@[simp] theorem updHaws_pending (s : State) (k : Nat) (f : HawsPort → HawsPort) : (updHaws s k f).pending = s.pending := rfl
@[simp] theorem updHaws_free (s : State) (k : Nat) (f : HawsPort → HawsPort) : (updHaws s k f).free = s.free := rfl
@[simp] theorem updHaws_regs (s : State) (k : Nat) (f : HawsPort → HawsPort) : (updHaws s k f).regs = s.regs := rfl
@[simp] theorem updHaws_banked (s : State) (k : Nat) (f : HawsPort → HawsPort) : (updHaws s k f).banked = s.banked := rfl
@[simp] theorem updHaws_mem (s : State) (k : Nat) (f : HawsPort → HawsPort) : (updHaws s k f).mem = s.mem := rfl
@[simp] theorem updHaws_memTally (s : State) (k : Nat) (f : HawsPort → HawsPort) : (updHaws s k f).memTally = s.memTally := rfl
@[simp] theorem updHaws_memSyn (s : State) (k : Nat) (f : HawsPort → HawsPort) : (updHaws s k f).memSyn = s.memSyn := rfl
@[simp] theorem updHaws_unscrubbed (s : State) (k : Nat) (f : HawsPort → HawsPort) : (updHaws s k f).unscrubbed = s.unscrubbed := rfl
@[simp] theorem updHaws_stale (s : State) (k : Nat) (f : HawsPort → HawsPort) : (updHaws s k f).stale = s.stale := rfl
@[simp] theorem updHaws_pageCode (s : State) (k : Nat) (f : HawsPort → HawsPort) : (updHaws s k f).pageCode = s.pageCode := rfl
@[simp] theorem updHaws_testRows (s : State) (k : Nat) (f : HawsPort → HawsPort) : (updHaws s k f).testRows = s.testRows := rfl
@[simp] theorem updHaws_rig (s : State) (k : Nat) (f : HawsPort → HawsPort) : (updHaws s k f).rig = s.rig := rfl
@[simp] theorem updHaws_partRun (s : State) (k : Nat) (f : HawsPort → HawsPort) : (updHaws s k f).partRun = s.partRun := rfl
@[simp] theorem updHaws_threads (s : State) (k : Nat) (f : HawsPort → HawsPort) : (updHaws s k f).threads = s.threads := rfl
@[simp] theorem updHaws_cores (s : State) (k : Nat) (f : HawsPort → HawsPort) : (updHaws s k f).cores = s.cores := rfl
@[simp] theorem updHaws_quads (s : State) (k : Nat) (f : HawsPort → HawsPort) : (updHaws s k f).quads = s.quads := rfl
@[simp] theorem updHaws_slices (s : State) (k : Nat) (f : HawsPort → HawsPort) : (updHaws s k f).slices = s.slices := rfl
@[simp] theorem updHaws_net (s : State) (k : Nat) (f : HawsPort → HawsPort) : (updHaws s k f).net = s.net := rfl
@[simp] theorem updHaws_regNet (s : State) (k : Nat) (f : HawsPort → HawsPort) : (updHaws s k f).regNet = s.regNet := rfl
@[simp] theorem updHaws_psNet (s : State) (k : Nat) (f : HawsPort → HawsPort) : (updHaws s k f).psNet = s.psNet := rfl
@[simp] theorem updHaws_tightNet (s : State) (k : Nat) (f : HawsPort → HawsPort) : (updHaws s k f).tightNet = s.tightNet := rfl
@[simp] theorem updHaws_pcNet (s : State) (k : Nat) (f : HawsPort → HawsPort) : (updHaws s k f).pcNet = s.pcNet := rfl
@[simp] theorem updHaws_credits (s : State) (k : Nat) (f : HawsPort → HawsPort) : (updHaws s k f).credits = s.credits := rfl
@[simp] theorem updHaws_meshSeq (s : State) (k : Nat) (f : HawsPort → HawsPort) : (updHaws s k f).meshSeq = s.meshSeq := rfl
@[simp] theorem updHaws_chans (s : State) (k : Nat) (f : HawsPort → HawsPort) : (updHaws s k f).chans = s.chans := rfl
@[simp] theorem updHaws_irq (s : State) (k : Nat) (f : HawsPort → HawsPort) : (updHaws s k f).irq = s.irq := rfl
@[simp] theorem updHaws_alm (s : State) (k : Nat) (f : HawsPort → HawsPort) : (updHaws s k f).alm = s.alm := rfl
@[simp] theorem updHaws_faultN (s : State) (k : Nat) (f : HawsPort → HawsPort) : (updHaws s k f).faultN = s.faultN := rfl
@[simp] theorem updHaws_epoch (s : State) (k : Nat) (f : HawsPort → HawsPort) : (updHaws s k f).epoch = s.epoch := rfl
@[simp] theorem updHaws_epochFrac (s : State) (k : Nat) (f : HawsPort → HawsPort) : (updHaws s k f).epochFrac = s.epochFrac := rfl
@[simp] theorem updHaws_mgmtIrq (s : State) (k : Nat) (f : HawsPort → HawsPort) : (updHaws s k f).mgmtIrq = s.mgmtIrq := rfl
@[simp] theorem updHaws_bowlIrq (s : State) (k : Nat) (f : HawsPort → HawsPort) : (updHaws s k f).bowlIrq = s.bowlIrq := rfl
@[simp] theorem updHaws_agentBuf (s : State) (k : Nat) (f : HawsPort → HawsPort) : (updHaws s k f).agentBuf = s.agentBuf := rfl
@[simp] theorem updHaws_hawsNet (s : State) (k : Nat) (f : HawsPort → HawsPort) : (updHaws s k f).hawsNet = s.hawsNet := rfl
@[simp] theorem updHaws_time (s : State) (k : Nat) (f : HawsPort → HawsPort) : (updHaws s k f).time = s.time := rfl
@[simp] theorem updHaws_stoppers (s : State) (k : Nat) (f : HawsPort → HawsPort) : (updHaws s k f).stoppers = s.stoppers := rfl
@[simp] theorem updHaws_ports (s : State) (k : Nat) (f : HawsPort → HawsPort) : (updHaws s k f).ports = s.ports := rfl
@[simp] theorem updHaws_ps (s : State) (k : Nat) (f : HawsPort → HawsPort) : (updHaws s k f).ps = s.ps := rfl
@[simp] theorem updHaws_splice (s : State) (k : Nat) (f : HawsPort → HawsPort) : (updHaws s k f).splice = s.splice := rfl
@[simp] theorem updHaws_svc (s : State) (k : Nat) (f : HawsPort → HawsPort) : (updHaws s k f).svc = s.svc := rfl
@[simp] theorem updHaws_hosts (s : State) (k : Nat) (f : HawsPort → HawsPort) : (updHaws s k f).hosts = s.hosts := rfl
@[simp] theorem updHaws_hostNet (s : State) (k : Nat) (f : HawsPort → HawsPort) : (updHaws s k f).hostNet = s.hostNet := rfl
@[simp] theorem updHaws_hostTx (s : State) (k : Nat) (f : HawsPort → HawsPort) : (updHaws s k f).hostTx = s.hostTx := rfl
@[simp] theorem updHaws_dma (s : State) (k : Nat) (f : HawsPort → HawsPort) : (updHaws s k f).dma = s.dma := rfl
@[simp] theorem updHaws_dmaTurns (s : State) (k : Nat) (f : HawsPort → HawsPort) : (updHaws s k f).dmaTurns = s.dmaTurns := rfl
@[simp] theorem updHaws_tenants (s : State) (k : Nat) (f : HawsPort → HawsPort) : (updHaws s k f).tenants = s.tenants := rfl
@[simp] theorem updHaws_pow (s : State) (k : Nat) (f : HawsPort → HawsPort) : (updHaws s k f).pow = s.pow := rfl
@[simp] theorem updHaws_mgmt (s : State) (k : Nat) (f : HawsPort → HawsPort) : (updHaws s k f).mgmt = s.mgmt := rfl
@[simp] theorem updHaws_flash (s : State) (k : Nat) (f : HawsPort → HawsPort) : (updHaws s k f).flash = s.flash := rfl
@[simp] theorem updHaws_boot (s : State) (k : Nat) (f : HawsPort → HawsPort) : (updHaws s k f).boot = s.boot := rfl
@[simp] theorem updHaws_stage (s : State) (k : Nat) (f : HawsPort → HawsPort) : (updHaws s k f).stage = s.stage := rfl
@[simp] theorem updHaws_rewire (s : State) (k : Nat) (f : HawsPort → HawsPort) : (updHaws s k f).rewire = s.rewire := rfl
@[simp] theorem updHaws_vigil (s : State) (k : Nat) (f : HawsPort → HawsPort) : (updHaws s k f).vigil = s.vigil := rfl
@[simp] theorem updHaws_vigilTested (s : State) (k : Nat) (f : HawsPort → HawsPort) : (updHaws s k f).vigilTested = s.vigilTested := rfl

@[simp] theorem updPort_pending (s : State) (l : Nat) (f : FieldPort → FieldPort) : (updPort s l f).pending = s.pending := rfl
@[simp] theorem updPort_free (s : State) (l : Nat) (f : FieldPort → FieldPort) : (updPort s l f).free = s.free := rfl
@[simp] theorem updPort_regs (s : State) (l : Nat) (f : FieldPort → FieldPort) : (updPort s l f).regs = s.regs := rfl
@[simp] theorem updPort_banked (s : State) (l : Nat) (f : FieldPort → FieldPort) : (updPort s l f).banked = s.banked := rfl
@[simp] theorem updPort_mem (s : State) (l : Nat) (f : FieldPort → FieldPort) : (updPort s l f).mem = s.mem := rfl
@[simp] theorem updPort_memTally (s : State) (l : Nat) (f : FieldPort → FieldPort) : (updPort s l f).memTally = s.memTally := rfl
@[simp] theorem updPort_memSyn (s : State) (l : Nat) (f : FieldPort → FieldPort) : (updPort s l f).memSyn = s.memSyn := rfl
@[simp] theorem updPort_unscrubbed (s : State) (l : Nat) (f : FieldPort → FieldPort) : (updPort s l f).unscrubbed = s.unscrubbed := rfl
@[simp] theorem updPort_stale (s : State) (l : Nat) (f : FieldPort → FieldPort) : (updPort s l f).stale = s.stale := rfl
@[simp] theorem updPort_pageCode (s : State) (l : Nat) (f : FieldPort → FieldPort) : (updPort s l f).pageCode = s.pageCode := rfl
@[simp] theorem updPort_testRows (s : State) (l : Nat) (f : FieldPort → FieldPort) : (updPort s l f).testRows = s.testRows := rfl
@[simp] theorem updPort_rig (s : State) (l : Nat) (f : FieldPort → FieldPort) : (updPort s l f).rig = s.rig := rfl
@[simp] theorem updPort_partRun (s : State) (l : Nat) (f : FieldPort → FieldPort) : (updPort s l f).partRun = s.partRun := rfl
@[simp] theorem updPort_threads (s : State) (l : Nat) (f : FieldPort → FieldPort) : (updPort s l f).threads = s.threads := rfl
@[simp] theorem updPort_cores (s : State) (l : Nat) (f : FieldPort → FieldPort) : (updPort s l f).cores = s.cores := rfl
@[simp] theorem updPort_quads (s : State) (l : Nat) (f : FieldPort → FieldPort) : (updPort s l f).quads = s.quads := rfl
@[simp] theorem updPort_slices (s : State) (l : Nat) (f : FieldPort → FieldPort) : (updPort s l f).slices = s.slices := rfl
@[simp] theorem updPort_net (s : State) (l : Nat) (f : FieldPort → FieldPort) : (updPort s l f).net = s.net := rfl
@[simp] theorem updPort_regNet (s : State) (l : Nat) (f : FieldPort → FieldPort) : (updPort s l f).regNet = s.regNet := rfl
@[simp] theorem updPort_psNet (s : State) (l : Nat) (f : FieldPort → FieldPort) : (updPort s l f).psNet = s.psNet := rfl
@[simp] theorem updPort_tightNet (s : State) (l : Nat) (f : FieldPort → FieldPort) : (updPort s l f).tightNet = s.tightNet := rfl
@[simp] theorem updPort_pcNet (s : State) (l : Nat) (f : FieldPort → FieldPort) : (updPort s l f).pcNet = s.pcNet := rfl
@[simp] theorem updPort_credits (s : State) (l : Nat) (f : FieldPort → FieldPort) : (updPort s l f).credits = s.credits := rfl
@[simp] theorem updPort_meshSeq (s : State) (l : Nat) (f : FieldPort → FieldPort) : (updPort s l f).meshSeq = s.meshSeq := rfl
@[simp] theorem updPort_chans (s : State) (l : Nat) (f : FieldPort → FieldPort) : (updPort s l f).chans = s.chans := rfl
@[simp] theorem updPort_irq (s : State) (l : Nat) (f : FieldPort → FieldPort) : (updPort s l f).irq = s.irq := rfl
@[simp] theorem updPort_alm (s : State) (l : Nat) (f : FieldPort → FieldPort) : (updPort s l f).alm = s.alm := rfl
@[simp] theorem updPort_faultN (s : State) (l : Nat) (f : FieldPort → FieldPort) : (updPort s l f).faultN = s.faultN := rfl
@[simp] theorem updPort_epoch (s : State) (l : Nat) (f : FieldPort → FieldPort) : (updPort s l f).epoch = s.epoch := rfl
@[simp] theorem updPort_epochFrac (s : State) (l : Nat) (f : FieldPort → FieldPort) : (updPort s l f).epochFrac = s.epochFrac := rfl
@[simp] theorem updPort_mgmtIrq (s : State) (l : Nat) (f : FieldPort → FieldPort) : (updPort s l f).mgmtIrq = s.mgmtIrq := rfl
@[simp] theorem updPort_bowlIrq (s : State) (l : Nat) (f : FieldPort → FieldPort) : (updPort s l f).bowlIrq = s.bowlIrq := rfl
@[simp] theorem updPort_agentBuf (s : State) (l : Nat) (f : FieldPort → FieldPort) : (updPort s l f).agentBuf = s.agentBuf := rfl
@[simp] theorem updPort_haws (s : State) (l : Nat) (f : FieldPort → FieldPort) : (updPort s l f).haws = s.haws := rfl
@[simp] theorem updPort_hawsNet (s : State) (l : Nat) (f : FieldPort → FieldPort) : (updPort s l f).hawsNet = s.hawsNet := rfl
@[simp] theorem updPort_time (s : State) (l : Nat) (f : FieldPort → FieldPort) : (updPort s l f).time = s.time := rfl
@[simp] theorem updPort_stoppers (s : State) (l : Nat) (f : FieldPort → FieldPort) : (updPort s l f).stoppers = s.stoppers := rfl
@[simp] theorem updPort_ps (s : State) (l : Nat) (f : FieldPort → FieldPort) : (updPort s l f).ps = s.ps := rfl
@[simp] theorem updPort_splice (s : State) (l : Nat) (f : FieldPort → FieldPort) : (updPort s l f).splice = s.splice := rfl
@[simp] theorem updPort_svc (s : State) (l : Nat) (f : FieldPort → FieldPort) : (updPort s l f).svc = s.svc := rfl
@[simp] theorem updPort_hosts (s : State) (l : Nat) (f : FieldPort → FieldPort) : (updPort s l f).hosts = s.hosts := rfl
@[simp] theorem updPort_hostNet (s : State) (l : Nat) (f : FieldPort → FieldPort) : (updPort s l f).hostNet = s.hostNet := rfl
@[simp] theorem updPort_hostTx (s : State) (l : Nat) (f : FieldPort → FieldPort) : (updPort s l f).hostTx = s.hostTx := rfl
@[simp] theorem updPort_dma (s : State) (l : Nat) (f : FieldPort → FieldPort) : (updPort s l f).dma = s.dma := rfl
@[simp] theorem updPort_dmaTurns (s : State) (l : Nat) (f : FieldPort → FieldPort) : (updPort s l f).dmaTurns = s.dmaTurns := rfl
@[simp] theorem updPort_tenants (s : State) (l : Nat) (f : FieldPort → FieldPort) : (updPort s l f).tenants = s.tenants := rfl
@[simp] theorem updPort_pow (s : State) (l : Nat) (f : FieldPort → FieldPort) : (updPort s l f).pow = s.pow := rfl
@[simp] theorem updPort_mgmt (s : State) (l : Nat) (f : FieldPort → FieldPort) : (updPort s l f).mgmt = s.mgmt := rfl
@[simp] theorem updPort_flash (s : State) (l : Nat) (f : FieldPort → FieldPort) : (updPort s l f).flash = s.flash := rfl
@[simp] theorem updPort_boot (s : State) (l : Nat) (f : FieldPort → FieldPort) : (updPort s l f).boot = s.boot := rfl
@[simp] theorem updPort_stage (s : State) (l : Nat) (f : FieldPort → FieldPort) : (updPort s l f).stage = s.stage := rfl
@[simp] theorem updPort_rewire (s : State) (l : Nat) (f : FieldPort → FieldPort) : (updPort s l f).rewire = s.rewire := rfl
@[simp] theorem updPort_vigil (s : State) (l : Nat) (f : FieldPort → FieldPort) : (updPort s l f).vigil = s.vigil := rfl
@[simp] theorem updPort_vigilTested (s : State) (l : Nat) (f : FieldPort → FieldPort) : (updPort s l f).vigilTested = s.vigilTested := rfl

@[simp] theorem updStop_pending (s : State) (o : Nat) (f : Stopper → Stopper) : (updStop s o f).pending = s.pending := rfl
@[simp] theorem updStop_free (s : State) (o : Nat) (f : Stopper → Stopper) : (updStop s o f).free = s.free := rfl
@[simp] theorem updStop_regs (s : State) (o : Nat) (f : Stopper → Stopper) : (updStop s o f).regs = s.regs := rfl
@[simp] theorem updStop_banked (s : State) (o : Nat) (f : Stopper → Stopper) : (updStop s o f).banked = s.banked := rfl
@[simp] theorem updStop_mem (s : State) (o : Nat) (f : Stopper → Stopper) : (updStop s o f).mem = s.mem := rfl
@[simp] theorem updStop_memTally (s : State) (o : Nat) (f : Stopper → Stopper) : (updStop s o f).memTally = s.memTally := rfl
@[simp] theorem updStop_memSyn (s : State) (o : Nat) (f : Stopper → Stopper) : (updStop s o f).memSyn = s.memSyn := rfl
@[simp] theorem updStop_unscrubbed (s : State) (o : Nat) (f : Stopper → Stopper) : (updStop s o f).unscrubbed = s.unscrubbed := rfl
@[simp] theorem updStop_stale (s : State) (o : Nat) (f : Stopper → Stopper) : (updStop s o f).stale = s.stale := rfl
@[simp] theorem updStop_pageCode (s : State) (o : Nat) (f : Stopper → Stopper) : (updStop s o f).pageCode = s.pageCode := rfl
@[simp] theorem updStop_testRows (s : State) (o : Nat) (f : Stopper → Stopper) : (updStop s o f).testRows = s.testRows := rfl
@[simp] theorem updStop_rig (s : State) (o : Nat) (f : Stopper → Stopper) : (updStop s o f).rig = s.rig := rfl
@[simp] theorem updStop_partRun (s : State) (o : Nat) (f : Stopper → Stopper) : (updStop s o f).partRun = s.partRun := rfl
@[simp] theorem updStop_threads (s : State) (o : Nat) (f : Stopper → Stopper) : (updStop s o f).threads = s.threads := rfl
@[simp] theorem updStop_cores (s : State) (o : Nat) (f : Stopper → Stopper) : (updStop s o f).cores = s.cores := rfl
@[simp] theorem updStop_quads (s : State) (o : Nat) (f : Stopper → Stopper) : (updStop s o f).quads = s.quads := rfl
@[simp] theorem updStop_slices (s : State) (o : Nat) (f : Stopper → Stopper) : (updStop s o f).slices = s.slices := rfl
@[simp] theorem updStop_net (s : State) (o : Nat) (f : Stopper → Stopper) : (updStop s o f).net = s.net := rfl
@[simp] theorem updStop_regNet (s : State) (o : Nat) (f : Stopper → Stopper) : (updStop s o f).regNet = s.regNet := rfl
@[simp] theorem updStop_psNet (s : State) (o : Nat) (f : Stopper → Stopper) : (updStop s o f).psNet = s.psNet := rfl
@[simp] theorem updStop_tightNet (s : State) (o : Nat) (f : Stopper → Stopper) : (updStop s o f).tightNet = s.tightNet := rfl
@[simp] theorem updStop_pcNet (s : State) (o : Nat) (f : Stopper → Stopper) : (updStop s o f).pcNet = s.pcNet := rfl
@[simp] theorem updStop_credits (s : State) (o : Nat) (f : Stopper → Stopper) : (updStop s o f).credits = s.credits := rfl
@[simp] theorem updStop_meshSeq (s : State) (o : Nat) (f : Stopper → Stopper) : (updStop s o f).meshSeq = s.meshSeq := rfl
@[simp] theorem updStop_chans (s : State) (o : Nat) (f : Stopper → Stopper) : (updStop s o f).chans = s.chans := rfl
@[simp] theorem updStop_irq (s : State) (o : Nat) (f : Stopper → Stopper) : (updStop s o f).irq = s.irq := rfl
@[simp] theorem updStop_alm (s : State) (o : Nat) (f : Stopper → Stopper) : (updStop s o f).alm = s.alm := rfl
@[simp] theorem updStop_faultN (s : State) (o : Nat) (f : Stopper → Stopper) : (updStop s o f).faultN = s.faultN := rfl
@[simp] theorem updStop_epoch (s : State) (o : Nat) (f : Stopper → Stopper) : (updStop s o f).epoch = s.epoch := rfl
@[simp] theorem updStop_epochFrac (s : State) (o : Nat) (f : Stopper → Stopper) : (updStop s o f).epochFrac = s.epochFrac := rfl
@[simp] theorem updStop_mgmtIrq (s : State) (o : Nat) (f : Stopper → Stopper) : (updStop s o f).mgmtIrq = s.mgmtIrq := rfl
@[simp] theorem updStop_bowlIrq (s : State) (o : Nat) (f : Stopper → Stopper) : (updStop s o f).bowlIrq = s.bowlIrq := rfl
@[simp] theorem updStop_agentBuf (s : State) (o : Nat) (f : Stopper → Stopper) : (updStop s o f).agentBuf = s.agentBuf := rfl
@[simp] theorem updStop_haws (s : State) (o : Nat) (f : Stopper → Stopper) : (updStop s o f).haws = s.haws := rfl
@[simp] theorem updStop_hawsNet (s : State) (o : Nat) (f : Stopper → Stopper) : (updStop s o f).hawsNet = s.hawsNet := rfl
@[simp] theorem updStop_time (s : State) (o : Nat) (f : Stopper → Stopper) : (updStop s o f).time = s.time := rfl
@[simp] theorem updStop_ports (s : State) (o : Nat) (f : Stopper → Stopper) : (updStop s o f).ports = s.ports := rfl
@[simp] theorem updStop_ps (s : State) (o : Nat) (f : Stopper → Stopper) : (updStop s o f).ps = s.ps := rfl
@[simp] theorem updStop_splice (s : State) (o : Nat) (f : Stopper → Stopper) : (updStop s o f).splice = s.splice := rfl
@[simp] theorem updStop_svc (s : State) (o : Nat) (f : Stopper → Stopper) : (updStop s o f).svc = s.svc := rfl
@[simp] theorem updStop_hosts (s : State) (o : Nat) (f : Stopper → Stopper) : (updStop s o f).hosts = s.hosts := rfl
@[simp] theorem updStop_hostNet (s : State) (o : Nat) (f : Stopper → Stopper) : (updStop s o f).hostNet = s.hostNet := rfl
@[simp] theorem updStop_hostTx (s : State) (o : Nat) (f : Stopper → Stopper) : (updStop s o f).hostTx = s.hostTx := rfl
@[simp] theorem updStop_dma (s : State) (o : Nat) (f : Stopper → Stopper) : (updStop s o f).dma = s.dma := rfl
@[simp] theorem updStop_dmaTurns (s : State) (o : Nat) (f : Stopper → Stopper) : (updStop s o f).dmaTurns = s.dmaTurns := rfl
@[simp] theorem updStop_tenants (s : State) (o : Nat) (f : Stopper → Stopper) : (updStop s o f).tenants = s.tenants := rfl
@[simp] theorem updStop_pow (s : State) (o : Nat) (f : Stopper → Stopper) : (updStop s o f).pow = s.pow := rfl
@[simp] theorem updStop_mgmt (s : State) (o : Nat) (f : Stopper → Stopper) : (updStop s o f).mgmt = s.mgmt := rfl
@[simp] theorem updStop_flash (s : State) (o : Nat) (f : Stopper → Stopper) : (updStop s o f).flash = s.flash := rfl
@[simp] theorem updStop_boot (s : State) (o : Nat) (f : Stopper → Stopper) : (updStop s o f).boot = s.boot := rfl
@[simp] theorem updStop_stage (s : State) (o : Nat) (f : Stopper → Stopper) : (updStop s o f).stage = s.stage := rfl
@[simp] theorem updStop_rewire (s : State) (o : Nat) (f : Stopper → Stopper) : (updStop s o f).rewire = s.rewire := rfl
@[simp] theorem updStop_vigil (s : State) (o : Nat) (f : Stopper → Stopper) : (updStop s o f).vigil = s.vigil := rfl
@[simp] theorem updStop_vigilTested (s : State) (o : Nat) (f : Stopper → Stopper) : (updStop s o f).vigilTested = s.vigilTested := rfl

@[simp] theorem updHost_pending (s : State) (h : Nat) (f : HostSt → HostSt) : (updHost s h f).pending = s.pending := rfl
@[simp] theorem updHost_free (s : State) (h : Nat) (f : HostSt → HostSt) : (updHost s h f).free = s.free := rfl
@[simp] theorem updHost_regs (s : State) (h : Nat) (f : HostSt → HostSt) : (updHost s h f).regs = s.regs := rfl
@[simp] theorem updHost_banked (s : State) (h : Nat) (f : HostSt → HostSt) : (updHost s h f).banked = s.banked := rfl
@[simp] theorem updHost_mem (s : State) (h : Nat) (f : HostSt → HostSt) : (updHost s h f).mem = s.mem := rfl
@[simp] theorem updHost_memTally (s : State) (h : Nat) (f : HostSt → HostSt) : (updHost s h f).memTally = s.memTally := rfl
@[simp] theorem updHost_memSyn (s : State) (h : Nat) (f : HostSt → HostSt) : (updHost s h f).memSyn = s.memSyn := rfl
@[simp] theorem updHost_unscrubbed (s : State) (h : Nat) (f : HostSt → HostSt) : (updHost s h f).unscrubbed = s.unscrubbed := rfl
@[simp] theorem updHost_stale (s : State) (h : Nat) (f : HostSt → HostSt) : (updHost s h f).stale = s.stale := rfl
@[simp] theorem updHost_pageCode (s : State) (h : Nat) (f : HostSt → HostSt) : (updHost s h f).pageCode = s.pageCode := rfl
@[simp] theorem updHost_testRows (s : State) (h : Nat) (f : HostSt → HostSt) : (updHost s h f).testRows = s.testRows := rfl
@[simp] theorem updHost_rig (s : State) (h : Nat) (f : HostSt → HostSt) : (updHost s h f).rig = s.rig := rfl
@[simp] theorem updHost_partRun (s : State) (h : Nat) (f : HostSt → HostSt) : (updHost s h f).partRun = s.partRun := rfl
@[simp] theorem updHost_threads (s : State) (h : Nat) (f : HostSt → HostSt) : (updHost s h f).threads = s.threads := rfl
@[simp] theorem updHost_cores (s : State) (h : Nat) (f : HostSt → HostSt) : (updHost s h f).cores = s.cores := rfl
@[simp] theorem updHost_quads (s : State) (h : Nat) (f : HostSt → HostSt) : (updHost s h f).quads = s.quads := rfl
@[simp] theorem updHost_slices (s : State) (h : Nat) (f : HostSt → HostSt) : (updHost s h f).slices = s.slices := rfl
@[simp] theorem updHost_net (s : State) (h : Nat) (f : HostSt → HostSt) : (updHost s h f).net = s.net := rfl
@[simp] theorem updHost_regNet (s : State) (h : Nat) (f : HostSt → HostSt) : (updHost s h f).regNet = s.regNet := rfl
@[simp] theorem updHost_psNet (s : State) (h : Nat) (f : HostSt → HostSt) : (updHost s h f).psNet = s.psNet := rfl
@[simp] theorem updHost_tightNet (s : State) (h : Nat) (f : HostSt → HostSt) : (updHost s h f).tightNet = s.tightNet := rfl
@[simp] theorem updHost_pcNet (s : State) (h : Nat) (f : HostSt → HostSt) : (updHost s h f).pcNet = s.pcNet := rfl
@[simp] theorem updHost_credits (s : State) (h : Nat) (f : HostSt → HostSt) : (updHost s h f).credits = s.credits := rfl
@[simp] theorem updHost_meshSeq (s : State) (h : Nat) (f : HostSt → HostSt) : (updHost s h f).meshSeq = s.meshSeq := rfl
@[simp] theorem updHost_chans (s : State) (h : Nat) (f : HostSt → HostSt) : (updHost s h f).chans = s.chans := rfl
@[simp] theorem updHost_irq (s : State) (h : Nat) (f : HostSt → HostSt) : (updHost s h f).irq = s.irq := rfl
@[simp] theorem updHost_alm (s : State) (h : Nat) (f : HostSt → HostSt) : (updHost s h f).alm = s.alm := rfl
@[simp] theorem updHost_faultN (s : State) (h : Nat) (f : HostSt → HostSt) : (updHost s h f).faultN = s.faultN := rfl
@[simp] theorem updHost_epoch (s : State) (h : Nat) (f : HostSt → HostSt) : (updHost s h f).epoch = s.epoch := rfl
@[simp] theorem updHost_epochFrac (s : State) (h : Nat) (f : HostSt → HostSt) : (updHost s h f).epochFrac = s.epochFrac := rfl
@[simp] theorem updHost_mgmtIrq (s : State) (h : Nat) (f : HostSt → HostSt) : (updHost s h f).mgmtIrq = s.mgmtIrq := rfl
@[simp] theorem updHost_bowlIrq (s : State) (h : Nat) (f : HostSt → HostSt) : (updHost s h f).bowlIrq = s.bowlIrq := rfl
@[simp] theorem updHost_agentBuf (s : State) (h : Nat) (f : HostSt → HostSt) : (updHost s h f).agentBuf = s.agentBuf := rfl
@[simp] theorem updHost_haws (s : State) (h : Nat) (f : HostSt → HostSt) : (updHost s h f).haws = s.haws := rfl
@[simp] theorem updHost_hawsNet (s : State) (h : Nat) (f : HostSt → HostSt) : (updHost s h f).hawsNet = s.hawsNet := rfl
@[simp] theorem updHost_time (s : State) (h : Nat) (f : HostSt → HostSt) : (updHost s h f).time = s.time := rfl
@[simp] theorem updHost_stoppers (s : State) (h : Nat) (f : HostSt → HostSt) : (updHost s h f).stoppers = s.stoppers := rfl
@[simp] theorem updHost_ports (s : State) (h : Nat) (f : HostSt → HostSt) : (updHost s h f).ports = s.ports := rfl
@[simp] theorem updHost_ps (s : State) (h : Nat) (f : HostSt → HostSt) : (updHost s h f).ps = s.ps := rfl
@[simp] theorem updHost_splice (s : State) (h : Nat) (f : HostSt → HostSt) : (updHost s h f).splice = s.splice := rfl
@[simp] theorem updHost_svc (s : State) (h : Nat) (f : HostSt → HostSt) : (updHost s h f).svc = s.svc := rfl
@[simp] theorem updHost_hostNet (s : State) (h : Nat) (f : HostSt → HostSt) : (updHost s h f).hostNet = s.hostNet := rfl
@[simp] theorem updHost_hostTx (s : State) (h : Nat) (f : HostSt → HostSt) : (updHost s h f).hostTx = s.hostTx := rfl
@[simp] theorem updHost_dma (s : State) (h : Nat) (f : HostSt → HostSt) : (updHost s h f).dma = s.dma := rfl
@[simp] theorem updHost_dmaTurns (s : State) (h : Nat) (f : HostSt → HostSt) : (updHost s h f).dmaTurns = s.dmaTurns := rfl
@[simp] theorem updHost_tenants (s : State) (h : Nat) (f : HostSt → HostSt) : (updHost s h f).tenants = s.tenants := rfl
@[simp] theorem updHost_pow (s : State) (h : Nat) (f : HostSt → HostSt) : (updHost s h f).pow = s.pow := rfl
@[simp] theorem updHost_mgmt (s : State) (h : Nat) (f : HostSt → HostSt) : (updHost s h f).mgmt = s.mgmt := rfl
@[simp] theorem updHost_flash (s : State) (h : Nat) (f : HostSt → HostSt) : (updHost s h f).flash = s.flash := rfl
@[simp] theorem updHost_boot (s : State) (h : Nat) (f : HostSt → HostSt) : (updHost s h f).boot = s.boot := rfl
@[simp] theorem updHost_stage (s : State) (h : Nat) (f : HostSt → HostSt) : (updHost s h f).stage = s.stage := rfl
@[simp] theorem updHost_rewire (s : State) (h : Nat) (f : HostSt → HostSt) : (updHost s h f).rewire = s.rewire := rfl
@[simp] theorem updHost_vigil (s : State) (h : Nat) (f : HostSt → HostSt) : (updHost s h f).vigil = s.vigil := rfl
@[simp] theorem updHost_vigilTested (s : State) (h : Nat) (f : HostSt → HostSt) : (updHost s h f).vigilTested = s.vigilTested := rfl

@[simp] theorem updDma_pending (s : State) (n : Nat) (f : DmaChan → DmaChan) : (updDma s n f).pending = s.pending := rfl
@[simp] theorem updDma_free (s : State) (n : Nat) (f : DmaChan → DmaChan) : (updDma s n f).free = s.free := rfl
@[simp] theorem updDma_regs (s : State) (n : Nat) (f : DmaChan → DmaChan) : (updDma s n f).regs = s.regs := rfl
@[simp] theorem updDma_banked (s : State) (n : Nat) (f : DmaChan → DmaChan) : (updDma s n f).banked = s.banked := rfl
@[simp] theorem updDma_mem (s : State) (n : Nat) (f : DmaChan → DmaChan) : (updDma s n f).mem = s.mem := rfl
@[simp] theorem updDma_memTally (s : State) (n : Nat) (f : DmaChan → DmaChan) : (updDma s n f).memTally = s.memTally := rfl
@[simp] theorem updDma_memSyn (s : State) (n : Nat) (f : DmaChan → DmaChan) : (updDma s n f).memSyn = s.memSyn := rfl
@[simp] theorem updDma_unscrubbed (s : State) (n : Nat) (f : DmaChan → DmaChan) : (updDma s n f).unscrubbed = s.unscrubbed := rfl
@[simp] theorem updDma_stale (s : State) (n : Nat) (f : DmaChan → DmaChan) : (updDma s n f).stale = s.stale := rfl
@[simp] theorem updDma_pageCode (s : State) (n : Nat) (f : DmaChan → DmaChan) : (updDma s n f).pageCode = s.pageCode := rfl
@[simp] theorem updDma_testRows (s : State) (n : Nat) (f : DmaChan → DmaChan) : (updDma s n f).testRows = s.testRows := rfl
@[simp] theorem updDma_rig (s : State) (n : Nat) (f : DmaChan → DmaChan) : (updDma s n f).rig = s.rig := rfl
@[simp] theorem updDma_partRun (s : State) (n : Nat) (f : DmaChan → DmaChan) : (updDma s n f).partRun = s.partRun := rfl
@[simp] theorem updDma_threads (s : State) (n : Nat) (f : DmaChan → DmaChan) : (updDma s n f).threads = s.threads := rfl
@[simp] theorem updDma_cores (s : State) (n : Nat) (f : DmaChan → DmaChan) : (updDma s n f).cores = s.cores := rfl
@[simp] theorem updDma_quads (s : State) (n : Nat) (f : DmaChan → DmaChan) : (updDma s n f).quads = s.quads := rfl
@[simp] theorem updDma_slices (s : State) (n : Nat) (f : DmaChan → DmaChan) : (updDma s n f).slices = s.slices := rfl
@[simp] theorem updDma_net (s : State) (n : Nat) (f : DmaChan → DmaChan) : (updDma s n f).net = s.net := rfl
@[simp] theorem updDma_regNet (s : State) (n : Nat) (f : DmaChan → DmaChan) : (updDma s n f).regNet = s.regNet := rfl
@[simp] theorem updDma_psNet (s : State) (n : Nat) (f : DmaChan → DmaChan) : (updDma s n f).psNet = s.psNet := rfl
@[simp] theorem updDma_tightNet (s : State) (n : Nat) (f : DmaChan → DmaChan) : (updDma s n f).tightNet = s.tightNet := rfl
@[simp] theorem updDma_pcNet (s : State) (n : Nat) (f : DmaChan → DmaChan) : (updDma s n f).pcNet = s.pcNet := rfl
@[simp] theorem updDma_credits (s : State) (n : Nat) (f : DmaChan → DmaChan) : (updDma s n f).credits = s.credits := rfl
@[simp] theorem updDma_meshSeq (s : State) (n : Nat) (f : DmaChan → DmaChan) : (updDma s n f).meshSeq = s.meshSeq := rfl
@[simp] theorem updDma_chans (s : State) (n : Nat) (f : DmaChan → DmaChan) : (updDma s n f).chans = s.chans := rfl
@[simp] theorem updDma_irq (s : State) (n : Nat) (f : DmaChan → DmaChan) : (updDma s n f).irq = s.irq := rfl
@[simp] theorem updDma_alm (s : State) (n : Nat) (f : DmaChan → DmaChan) : (updDma s n f).alm = s.alm := rfl
@[simp] theorem updDma_faultN (s : State) (n : Nat) (f : DmaChan → DmaChan) : (updDma s n f).faultN = s.faultN := rfl
@[simp] theorem updDma_epoch (s : State) (n : Nat) (f : DmaChan → DmaChan) : (updDma s n f).epoch = s.epoch := rfl
@[simp] theorem updDma_epochFrac (s : State) (n : Nat) (f : DmaChan → DmaChan) : (updDma s n f).epochFrac = s.epochFrac := rfl
@[simp] theorem updDma_mgmtIrq (s : State) (n : Nat) (f : DmaChan → DmaChan) : (updDma s n f).mgmtIrq = s.mgmtIrq := rfl
@[simp] theorem updDma_bowlIrq (s : State) (n : Nat) (f : DmaChan → DmaChan) : (updDma s n f).bowlIrq = s.bowlIrq := rfl
@[simp] theorem updDma_agentBuf (s : State) (n : Nat) (f : DmaChan → DmaChan) : (updDma s n f).agentBuf = s.agentBuf := rfl
@[simp] theorem updDma_haws (s : State) (n : Nat) (f : DmaChan → DmaChan) : (updDma s n f).haws = s.haws := rfl
@[simp] theorem updDma_hawsNet (s : State) (n : Nat) (f : DmaChan → DmaChan) : (updDma s n f).hawsNet = s.hawsNet := rfl
@[simp] theorem updDma_time (s : State) (n : Nat) (f : DmaChan → DmaChan) : (updDma s n f).time = s.time := rfl
@[simp] theorem updDma_stoppers (s : State) (n : Nat) (f : DmaChan → DmaChan) : (updDma s n f).stoppers = s.stoppers := rfl
@[simp] theorem updDma_ports (s : State) (n : Nat) (f : DmaChan → DmaChan) : (updDma s n f).ports = s.ports := rfl
@[simp] theorem updDma_ps (s : State) (n : Nat) (f : DmaChan → DmaChan) : (updDma s n f).ps = s.ps := rfl
@[simp] theorem updDma_splice (s : State) (n : Nat) (f : DmaChan → DmaChan) : (updDma s n f).splice = s.splice := rfl
@[simp] theorem updDma_svc (s : State) (n : Nat) (f : DmaChan → DmaChan) : (updDma s n f).svc = s.svc := rfl
@[simp] theorem updDma_hosts (s : State) (n : Nat) (f : DmaChan → DmaChan) : (updDma s n f).hosts = s.hosts := rfl
@[simp] theorem updDma_hostNet (s : State) (n : Nat) (f : DmaChan → DmaChan) : (updDma s n f).hostNet = s.hostNet := rfl
@[simp] theorem updDma_hostTx (s : State) (n : Nat) (f : DmaChan → DmaChan) : (updDma s n f).hostTx = s.hostTx := rfl
@[simp] theorem updDma_dmaTurns (s : State) (n : Nat) (f : DmaChan → DmaChan) : (updDma s n f).dmaTurns = s.dmaTurns := rfl
@[simp] theorem updDma_tenants (s : State) (n : Nat) (f : DmaChan → DmaChan) : (updDma s n f).tenants = s.tenants := rfl
@[simp] theorem updDma_pow (s : State) (n : Nat) (f : DmaChan → DmaChan) : (updDma s n f).pow = s.pow := rfl
@[simp] theorem updDma_mgmt (s : State) (n : Nat) (f : DmaChan → DmaChan) : (updDma s n f).mgmt = s.mgmt := rfl
@[simp] theorem updDma_flash (s : State) (n : Nat) (f : DmaChan → DmaChan) : (updDma s n f).flash = s.flash := rfl
@[simp] theorem updDma_boot (s : State) (n : Nat) (f : DmaChan → DmaChan) : (updDma s n f).boot = s.boot := rfl
@[simp] theorem updDma_stage (s : State) (n : Nat) (f : DmaChan → DmaChan) : (updDma s n f).stage = s.stage := rfl
@[simp] theorem updDma_rewire (s : State) (n : Nat) (f : DmaChan → DmaChan) : (updDma s n f).rewire = s.rewire := rfl
@[simp] theorem updDma_vigil (s : State) (n : Nat) (f : DmaChan → DmaChan) : (updDma s n f).vigil = s.vigil := rfl
@[simp] theorem updDma_vigilTested (s : State) (n : Nat) (f : DmaChan → DmaChan) : (updDma s n f).vigilTested = s.vigilTested := rfl

@[simp] theorem updTenant_pending (s : State) (n : Nat) (f : TenantSt → TenantSt) : (updTenant s n f).pending = s.pending := rfl
@[simp] theorem updTenant_free (s : State) (n : Nat) (f : TenantSt → TenantSt) : (updTenant s n f).free = s.free := rfl
@[simp] theorem updTenant_regs (s : State) (n : Nat) (f : TenantSt → TenantSt) : (updTenant s n f).regs = s.regs := rfl
@[simp] theorem updTenant_banked (s : State) (n : Nat) (f : TenantSt → TenantSt) : (updTenant s n f).banked = s.banked := rfl
@[simp] theorem updTenant_mem (s : State) (n : Nat) (f : TenantSt → TenantSt) : (updTenant s n f).mem = s.mem := rfl
@[simp] theorem updTenant_memTally (s : State) (n : Nat) (f : TenantSt → TenantSt) : (updTenant s n f).memTally = s.memTally := rfl
@[simp] theorem updTenant_memSyn (s : State) (n : Nat) (f : TenantSt → TenantSt) : (updTenant s n f).memSyn = s.memSyn := rfl
@[simp] theorem updTenant_unscrubbed (s : State) (n : Nat) (f : TenantSt → TenantSt) : (updTenant s n f).unscrubbed = s.unscrubbed := rfl
@[simp] theorem updTenant_stale (s : State) (n : Nat) (f : TenantSt → TenantSt) : (updTenant s n f).stale = s.stale := rfl
@[simp] theorem updTenant_pageCode (s : State) (n : Nat) (f : TenantSt → TenantSt) : (updTenant s n f).pageCode = s.pageCode := rfl
@[simp] theorem updTenant_testRows (s : State) (n : Nat) (f : TenantSt → TenantSt) : (updTenant s n f).testRows = s.testRows := rfl
@[simp] theorem updTenant_rig (s : State) (n : Nat) (f : TenantSt → TenantSt) : (updTenant s n f).rig = s.rig := rfl
@[simp] theorem updTenant_partRun (s : State) (n : Nat) (f : TenantSt → TenantSt) : (updTenant s n f).partRun = s.partRun := rfl
@[simp] theorem updTenant_threads (s : State) (n : Nat) (f : TenantSt → TenantSt) : (updTenant s n f).threads = s.threads := rfl
@[simp] theorem updTenant_cores (s : State) (n : Nat) (f : TenantSt → TenantSt) : (updTenant s n f).cores = s.cores := rfl
@[simp] theorem updTenant_quads (s : State) (n : Nat) (f : TenantSt → TenantSt) : (updTenant s n f).quads = s.quads := rfl
@[simp] theorem updTenant_slices (s : State) (n : Nat) (f : TenantSt → TenantSt) : (updTenant s n f).slices = s.slices := rfl
@[simp] theorem updTenant_net (s : State) (n : Nat) (f : TenantSt → TenantSt) : (updTenant s n f).net = s.net := rfl
@[simp] theorem updTenant_regNet (s : State) (n : Nat) (f : TenantSt → TenantSt) : (updTenant s n f).regNet = s.regNet := rfl
@[simp] theorem updTenant_psNet (s : State) (n : Nat) (f : TenantSt → TenantSt) : (updTenant s n f).psNet = s.psNet := rfl
@[simp] theorem updTenant_tightNet (s : State) (n : Nat) (f : TenantSt → TenantSt) : (updTenant s n f).tightNet = s.tightNet := rfl
@[simp] theorem updTenant_pcNet (s : State) (n : Nat) (f : TenantSt → TenantSt) : (updTenant s n f).pcNet = s.pcNet := rfl
@[simp] theorem updTenant_credits (s : State) (n : Nat) (f : TenantSt → TenantSt) : (updTenant s n f).credits = s.credits := rfl
@[simp] theorem updTenant_meshSeq (s : State) (n : Nat) (f : TenantSt → TenantSt) : (updTenant s n f).meshSeq = s.meshSeq := rfl
@[simp] theorem updTenant_chans (s : State) (n : Nat) (f : TenantSt → TenantSt) : (updTenant s n f).chans = s.chans := rfl
@[simp] theorem updTenant_irq (s : State) (n : Nat) (f : TenantSt → TenantSt) : (updTenant s n f).irq = s.irq := rfl
@[simp] theorem updTenant_alm (s : State) (n : Nat) (f : TenantSt → TenantSt) : (updTenant s n f).alm = s.alm := rfl
@[simp] theorem updTenant_faultN (s : State) (n : Nat) (f : TenantSt → TenantSt) : (updTenant s n f).faultN = s.faultN := rfl
@[simp] theorem updTenant_epoch (s : State) (n : Nat) (f : TenantSt → TenantSt) : (updTenant s n f).epoch = s.epoch := rfl
@[simp] theorem updTenant_epochFrac (s : State) (n : Nat) (f : TenantSt → TenantSt) : (updTenant s n f).epochFrac = s.epochFrac := rfl
@[simp] theorem updTenant_mgmtIrq (s : State) (n : Nat) (f : TenantSt → TenantSt) : (updTenant s n f).mgmtIrq = s.mgmtIrq := rfl
@[simp] theorem updTenant_bowlIrq (s : State) (n : Nat) (f : TenantSt → TenantSt) : (updTenant s n f).bowlIrq = s.bowlIrq := rfl
@[simp] theorem updTenant_agentBuf (s : State) (n : Nat) (f : TenantSt → TenantSt) : (updTenant s n f).agentBuf = s.agentBuf := rfl
@[simp] theorem updTenant_haws (s : State) (n : Nat) (f : TenantSt → TenantSt) : (updTenant s n f).haws = s.haws := rfl
@[simp] theorem updTenant_hawsNet (s : State) (n : Nat) (f : TenantSt → TenantSt) : (updTenant s n f).hawsNet = s.hawsNet := rfl
@[simp] theorem updTenant_time (s : State) (n : Nat) (f : TenantSt → TenantSt) : (updTenant s n f).time = s.time := rfl
@[simp] theorem updTenant_stoppers (s : State) (n : Nat) (f : TenantSt → TenantSt) : (updTenant s n f).stoppers = s.stoppers := rfl
@[simp] theorem updTenant_ports (s : State) (n : Nat) (f : TenantSt → TenantSt) : (updTenant s n f).ports = s.ports := rfl
@[simp] theorem updTenant_ps (s : State) (n : Nat) (f : TenantSt → TenantSt) : (updTenant s n f).ps = s.ps := rfl
@[simp] theorem updTenant_splice (s : State) (n : Nat) (f : TenantSt → TenantSt) : (updTenant s n f).splice = s.splice := rfl
@[simp] theorem updTenant_svc (s : State) (n : Nat) (f : TenantSt → TenantSt) : (updTenant s n f).svc = s.svc := rfl
@[simp] theorem updTenant_hosts (s : State) (n : Nat) (f : TenantSt → TenantSt) : (updTenant s n f).hosts = s.hosts := rfl
@[simp] theorem updTenant_hostNet (s : State) (n : Nat) (f : TenantSt → TenantSt) : (updTenant s n f).hostNet = s.hostNet := rfl
@[simp] theorem updTenant_hostTx (s : State) (n : Nat) (f : TenantSt → TenantSt) : (updTenant s n f).hostTx = s.hostTx := rfl
@[simp] theorem updTenant_dma (s : State) (n : Nat) (f : TenantSt → TenantSt) : (updTenant s n f).dma = s.dma := rfl
@[simp] theorem updTenant_dmaTurns (s : State) (n : Nat) (f : TenantSt → TenantSt) : (updTenant s n f).dmaTurns = s.dmaTurns := rfl
@[simp] theorem updTenant_pow (s : State) (n : Nat) (f : TenantSt → TenantSt) : (updTenant s n f).pow = s.pow := rfl
@[simp] theorem updTenant_mgmt (s : State) (n : Nat) (f : TenantSt → TenantSt) : (updTenant s n f).mgmt = s.mgmt := rfl
@[simp] theorem updTenant_flash (s : State) (n : Nat) (f : TenantSt → TenantSt) : (updTenant s n f).flash = s.flash := rfl
@[simp] theorem updTenant_boot (s : State) (n : Nat) (f : TenantSt → TenantSt) : (updTenant s n f).boot = s.boot := rfl
@[simp] theorem updTenant_stage (s : State) (n : Nat) (f : TenantSt → TenantSt) : (updTenant s n f).stage = s.stage := rfl
@[simp] theorem updTenant_rewire (s : State) (n : Nat) (f : TenantSt → TenantSt) : (updTenant s n f).rewire = s.rewire := rfl
@[simp] theorem updTenant_vigil (s : State) (n : Nat) (f : TenantSt → TenantSt) : (updTenant s n f).vigil = s.vigil := rfl
@[simp] theorem updTenant_vigilTested (s : State) (n : Nat) (f : TenantSt → TenantSt) : (updTenant s n f).vigilTested = s.vigilTested := rfl

@[simp] theorem updSplice_pending (s : State) (b : Nat) (f : SpliceSt → SpliceSt) : (updSplice s b f).pending = s.pending := rfl
@[simp] theorem updSplice_free (s : State) (b : Nat) (f : SpliceSt → SpliceSt) : (updSplice s b f).free = s.free := rfl
@[simp] theorem updSplice_regs (s : State) (b : Nat) (f : SpliceSt → SpliceSt) : (updSplice s b f).regs = s.regs := rfl
@[simp] theorem updSplice_banked (s : State) (b : Nat) (f : SpliceSt → SpliceSt) : (updSplice s b f).banked = s.banked := rfl
@[simp] theorem updSplice_mem (s : State) (b : Nat) (f : SpliceSt → SpliceSt) : (updSplice s b f).mem = s.mem := rfl
@[simp] theorem updSplice_memTally (s : State) (b : Nat) (f : SpliceSt → SpliceSt) : (updSplice s b f).memTally = s.memTally := rfl
@[simp] theorem updSplice_memSyn (s : State) (b : Nat) (f : SpliceSt → SpliceSt) : (updSplice s b f).memSyn = s.memSyn := rfl
@[simp] theorem updSplice_unscrubbed (s : State) (b : Nat) (f : SpliceSt → SpliceSt) : (updSplice s b f).unscrubbed = s.unscrubbed := rfl
@[simp] theorem updSplice_stale (s : State) (b : Nat) (f : SpliceSt → SpliceSt) : (updSplice s b f).stale = s.stale := rfl
@[simp] theorem updSplice_pageCode (s : State) (b : Nat) (f : SpliceSt → SpliceSt) : (updSplice s b f).pageCode = s.pageCode := rfl
@[simp] theorem updSplice_testRows (s : State) (b : Nat) (f : SpliceSt → SpliceSt) : (updSplice s b f).testRows = s.testRows := rfl
@[simp] theorem updSplice_rig (s : State) (b : Nat) (f : SpliceSt → SpliceSt) : (updSplice s b f).rig = s.rig := rfl
@[simp] theorem updSplice_partRun (s : State) (b : Nat) (f : SpliceSt → SpliceSt) : (updSplice s b f).partRun = s.partRun := rfl
@[simp] theorem updSplice_threads (s : State) (b : Nat) (f : SpliceSt → SpliceSt) : (updSplice s b f).threads = s.threads := rfl
@[simp] theorem updSplice_cores (s : State) (b : Nat) (f : SpliceSt → SpliceSt) : (updSplice s b f).cores = s.cores := rfl
@[simp] theorem updSplice_quads (s : State) (b : Nat) (f : SpliceSt → SpliceSt) : (updSplice s b f).quads = s.quads := rfl
@[simp] theorem updSplice_slices (s : State) (b : Nat) (f : SpliceSt → SpliceSt) : (updSplice s b f).slices = s.slices := rfl
@[simp] theorem updSplice_net (s : State) (b : Nat) (f : SpliceSt → SpliceSt) : (updSplice s b f).net = s.net := rfl
@[simp] theorem updSplice_regNet (s : State) (b : Nat) (f : SpliceSt → SpliceSt) : (updSplice s b f).regNet = s.regNet := rfl
@[simp] theorem updSplice_psNet (s : State) (b : Nat) (f : SpliceSt → SpliceSt) : (updSplice s b f).psNet = s.psNet := rfl
@[simp] theorem updSplice_tightNet (s : State) (b : Nat) (f : SpliceSt → SpliceSt) : (updSplice s b f).tightNet = s.tightNet := rfl
@[simp] theorem updSplice_pcNet (s : State) (b : Nat) (f : SpliceSt → SpliceSt) : (updSplice s b f).pcNet = s.pcNet := rfl
@[simp] theorem updSplice_credits (s : State) (b : Nat) (f : SpliceSt → SpliceSt) : (updSplice s b f).credits = s.credits := rfl
@[simp] theorem updSplice_meshSeq (s : State) (b : Nat) (f : SpliceSt → SpliceSt) : (updSplice s b f).meshSeq = s.meshSeq := rfl
@[simp] theorem updSplice_chans (s : State) (b : Nat) (f : SpliceSt → SpliceSt) : (updSplice s b f).chans = s.chans := rfl
@[simp] theorem updSplice_irq (s : State) (b : Nat) (f : SpliceSt → SpliceSt) : (updSplice s b f).irq = s.irq := rfl
@[simp] theorem updSplice_alm (s : State) (b : Nat) (f : SpliceSt → SpliceSt) : (updSplice s b f).alm = s.alm := rfl
@[simp] theorem updSplice_faultN (s : State) (b : Nat) (f : SpliceSt → SpliceSt) : (updSplice s b f).faultN = s.faultN := rfl
@[simp] theorem updSplice_epoch (s : State) (b : Nat) (f : SpliceSt → SpliceSt) : (updSplice s b f).epoch = s.epoch := rfl
@[simp] theorem updSplice_epochFrac (s : State) (b : Nat) (f : SpliceSt → SpliceSt) : (updSplice s b f).epochFrac = s.epochFrac := rfl
@[simp] theorem updSplice_mgmtIrq (s : State) (b : Nat) (f : SpliceSt → SpliceSt) : (updSplice s b f).mgmtIrq = s.mgmtIrq := rfl
@[simp] theorem updSplice_bowlIrq (s : State) (b : Nat) (f : SpliceSt → SpliceSt) : (updSplice s b f).bowlIrq = s.bowlIrq := rfl
@[simp] theorem updSplice_agentBuf (s : State) (b : Nat) (f : SpliceSt → SpliceSt) : (updSplice s b f).agentBuf = s.agentBuf := rfl
@[simp] theorem updSplice_haws (s : State) (b : Nat) (f : SpliceSt → SpliceSt) : (updSplice s b f).haws = s.haws := rfl
@[simp] theorem updSplice_hawsNet (s : State) (b : Nat) (f : SpliceSt → SpliceSt) : (updSplice s b f).hawsNet = s.hawsNet := rfl
@[simp] theorem updSplice_time (s : State) (b : Nat) (f : SpliceSt → SpliceSt) : (updSplice s b f).time = s.time := rfl
@[simp] theorem updSplice_stoppers (s : State) (b : Nat) (f : SpliceSt → SpliceSt) : (updSplice s b f).stoppers = s.stoppers := rfl
@[simp] theorem updSplice_ports (s : State) (b : Nat) (f : SpliceSt → SpliceSt) : (updSplice s b f).ports = s.ports := rfl
@[simp] theorem updSplice_ps (s : State) (b : Nat) (f : SpliceSt → SpliceSt) : (updSplice s b f).ps = s.ps := rfl
@[simp] theorem updSplice_svc (s : State) (b : Nat) (f : SpliceSt → SpliceSt) : (updSplice s b f).svc = s.svc := rfl
@[simp] theorem updSplice_hosts (s : State) (b : Nat) (f : SpliceSt → SpliceSt) : (updSplice s b f).hosts = s.hosts := rfl
@[simp] theorem updSplice_hostNet (s : State) (b : Nat) (f : SpliceSt → SpliceSt) : (updSplice s b f).hostNet = s.hostNet := rfl
@[simp] theorem updSplice_hostTx (s : State) (b : Nat) (f : SpliceSt → SpliceSt) : (updSplice s b f).hostTx = s.hostTx := rfl
@[simp] theorem updSplice_dma (s : State) (b : Nat) (f : SpliceSt → SpliceSt) : (updSplice s b f).dma = s.dma := rfl
@[simp] theorem updSplice_dmaTurns (s : State) (b : Nat) (f : SpliceSt → SpliceSt) : (updSplice s b f).dmaTurns = s.dmaTurns := rfl
@[simp] theorem updSplice_tenants (s : State) (b : Nat) (f : SpliceSt → SpliceSt) : (updSplice s b f).tenants = s.tenants := rfl
@[simp] theorem updSplice_pow (s : State) (b : Nat) (f : SpliceSt → SpliceSt) : (updSplice s b f).pow = s.pow := rfl
@[simp] theorem updSplice_mgmt (s : State) (b : Nat) (f : SpliceSt → SpliceSt) : (updSplice s b f).mgmt = s.mgmt := rfl
@[simp] theorem updSplice_flash (s : State) (b : Nat) (f : SpliceSt → SpliceSt) : (updSplice s b f).flash = s.flash := rfl
@[simp] theorem updSplice_boot (s : State) (b : Nat) (f : SpliceSt → SpliceSt) : (updSplice s b f).boot = s.boot := rfl
@[simp] theorem updSplice_stage (s : State) (b : Nat) (f : SpliceSt → SpliceSt) : (updSplice s b f).stage = s.stage := rfl
@[simp] theorem updSplice_rewire (s : State) (b : Nat) (f : SpliceSt → SpliceSt) : (updSplice s b f).rewire = s.rewire := rfl
@[simp] theorem updSplice_vigil (s : State) (b : Nat) (f : SpliceSt → SpliceSt) : (updSplice s b f).vigil = s.vigil := rfl
@[simp] theorem updSplice_vigilTested (s : State) (b : Nat) (f : SpliceSt → SpliceSt) : (updSplice s b f).vigilTested = s.vigilTested := rfl

@[simp] theorem setR_pending (s : State) (r : Reg) (v : Word) (u i j : Nat) : (setR s r v u i j).pending = s.pending := rfl
@[simp] theorem setR_free (s : State) (r : Reg) (v : Word) (u i j : Nat) : (setR s r v u i j).free = s.free := rfl
@[simp] theorem setR_banked (s : State) (r : Reg) (v : Word) (u i j : Nat) : (setR s r v u i j).banked = s.banked := rfl
@[simp] theorem setR_mem (s : State) (r : Reg) (v : Word) (u i j : Nat) : (setR s r v u i j).mem = s.mem := rfl
@[simp] theorem setR_memTally (s : State) (r : Reg) (v : Word) (u i j : Nat) : (setR s r v u i j).memTally = s.memTally := rfl
@[simp] theorem setR_memSyn (s : State) (r : Reg) (v : Word) (u i j : Nat) : (setR s r v u i j).memSyn = s.memSyn := rfl
@[simp] theorem setR_unscrubbed (s : State) (r : Reg) (v : Word) (u i j : Nat) : (setR s r v u i j).unscrubbed = s.unscrubbed := rfl
@[simp] theorem setR_stale (s : State) (r : Reg) (v : Word) (u i j : Nat) : (setR s r v u i j).stale = s.stale := rfl
@[simp] theorem setR_pageCode (s : State) (r : Reg) (v : Word) (u i j : Nat) : (setR s r v u i j).pageCode = s.pageCode := rfl
@[simp] theorem setR_testRows (s : State) (r : Reg) (v : Word) (u i j : Nat) : (setR s r v u i j).testRows = s.testRows := rfl
@[simp] theorem setR_rig (s : State) (r : Reg) (v : Word) (u i j : Nat) : (setR s r v u i j).rig = s.rig := rfl
@[simp] theorem setR_partRun (s : State) (r : Reg) (v : Word) (u i j : Nat) : (setR s r v u i j).partRun = s.partRun := rfl
@[simp] theorem setR_threads (s : State) (r : Reg) (v : Word) (u i j : Nat) : (setR s r v u i j).threads = s.threads := rfl
@[simp] theorem setR_cores (s : State) (r : Reg) (v : Word) (u i j : Nat) : (setR s r v u i j).cores = s.cores := rfl
@[simp] theorem setR_quads (s : State) (r : Reg) (v : Word) (u i j : Nat) : (setR s r v u i j).quads = s.quads := rfl
@[simp] theorem setR_slices (s : State) (r : Reg) (v : Word) (u i j : Nat) : (setR s r v u i j).slices = s.slices := rfl
@[simp] theorem setR_net (s : State) (r : Reg) (v : Word) (u i j : Nat) : (setR s r v u i j).net = s.net := rfl
@[simp] theorem setR_regNet (s : State) (r : Reg) (v : Word) (u i j : Nat) : (setR s r v u i j).regNet = s.regNet := rfl
@[simp] theorem setR_psNet (s : State) (r : Reg) (v : Word) (u i j : Nat) : (setR s r v u i j).psNet = s.psNet := rfl
@[simp] theorem setR_tightNet (s : State) (r : Reg) (v : Word) (u i j : Nat) : (setR s r v u i j).tightNet = s.tightNet := rfl
@[simp] theorem setR_pcNet (s : State) (r : Reg) (v : Word) (u i j : Nat) : (setR s r v u i j).pcNet = s.pcNet := rfl
@[simp] theorem setR_credits (s : State) (r : Reg) (v : Word) (u i j : Nat) : (setR s r v u i j).credits = s.credits := rfl
@[simp] theorem setR_meshSeq (s : State) (r : Reg) (v : Word) (u i j : Nat) : (setR s r v u i j).meshSeq = s.meshSeq := rfl
@[simp] theorem setR_chans (s : State) (r : Reg) (v : Word) (u i j : Nat) : (setR s r v u i j).chans = s.chans := rfl
@[simp] theorem setR_irq (s : State) (r : Reg) (v : Word) (u i j : Nat) : (setR s r v u i j).irq = s.irq := rfl
@[simp] theorem setR_alm (s : State) (r : Reg) (v : Word) (u i j : Nat) : (setR s r v u i j).alm = s.alm := rfl
@[simp] theorem setR_faultN (s : State) (r : Reg) (v : Word) (u i j : Nat) : (setR s r v u i j).faultN = s.faultN := rfl
@[simp] theorem setR_epoch (s : State) (r : Reg) (v : Word) (u i j : Nat) : (setR s r v u i j).epoch = s.epoch := rfl
@[simp] theorem setR_epochFrac (s : State) (r : Reg) (v : Word) (u i j : Nat) : (setR s r v u i j).epochFrac = s.epochFrac := rfl
@[simp] theorem setR_mgmtIrq (s : State) (r : Reg) (v : Word) (u i j : Nat) : (setR s r v u i j).mgmtIrq = s.mgmtIrq := rfl
@[simp] theorem setR_bowlIrq (s : State) (r : Reg) (v : Word) (u i j : Nat) : (setR s r v u i j).bowlIrq = s.bowlIrq := rfl
@[simp] theorem setR_agentBuf (s : State) (r : Reg) (v : Word) (u i j : Nat) : (setR s r v u i j).agentBuf = s.agentBuf := rfl
@[simp] theorem setR_haws (s : State) (r : Reg) (v : Word) (u i j : Nat) : (setR s r v u i j).haws = s.haws := rfl
@[simp] theorem setR_hawsNet (s : State) (r : Reg) (v : Word) (u i j : Nat) : (setR s r v u i j).hawsNet = s.hawsNet := rfl
@[simp] theorem setR_time (s : State) (r : Reg) (v : Word) (u i j : Nat) : (setR s r v u i j).time = s.time := rfl
@[simp] theorem setR_stoppers (s : State) (r : Reg) (v : Word) (u i j : Nat) : (setR s r v u i j).stoppers = s.stoppers := rfl
@[simp] theorem setR_ports (s : State) (r : Reg) (v : Word) (u i j : Nat) : (setR s r v u i j).ports = s.ports := rfl
@[simp] theorem setR_ps (s : State) (r : Reg) (v : Word) (u i j : Nat) : (setR s r v u i j).ps = s.ps := rfl
@[simp] theorem setR_splice (s : State) (r : Reg) (v : Word) (u i j : Nat) : (setR s r v u i j).splice = s.splice := rfl
@[simp] theorem setR_svc (s : State) (r : Reg) (v : Word) (u i j : Nat) : (setR s r v u i j).svc = s.svc := rfl
@[simp] theorem setR_hosts (s : State) (r : Reg) (v : Word) (u i j : Nat) : (setR s r v u i j).hosts = s.hosts := rfl
@[simp] theorem setR_hostNet (s : State) (r : Reg) (v : Word) (u i j : Nat) : (setR s r v u i j).hostNet = s.hostNet := rfl
@[simp] theorem setR_hostTx (s : State) (r : Reg) (v : Word) (u i j : Nat) : (setR s r v u i j).hostTx = s.hostTx := rfl
@[simp] theorem setR_dma (s : State) (r : Reg) (v : Word) (u i j : Nat) : (setR s r v u i j).dma = s.dma := rfl
@[simp] theorem setR_dmaTurns (s : State) (r : Reg) (v : Word) (u i j : Nat) : (setR s r v u i j).dmaTurns = s.dmaTurns := rfl
@[simp] theorem setR_tenants (s : State) (r : Reg) (v : Word) (u i j : Nat) : (setR s r v u i j).tenants = s.tenants := rfl
@[simp] theorem setR_pow (s : State) (r : Reg) (v : Word) (u i j : Nat) : (setR s r v u i j).pow = s.pow := rfl
@[simp] theorem setR_mgmt (s : State) (r : Reg) (v : Word) (u i j : Nat) : (setR s r v u i j).mgmt = s.mgmt := rfl
@[simp] theorem setR_flash (s : State) (r : Reg) (v : Word) (u i j : Nat) : (setR s r v u i j).flash = s.flash := rfl
@[simp] theorem setR_boot (s : State) (r : Reg) (v : Word) (u i j : Nat) : (setR s r v u i j).boot = s.boot := rfl
@[simp] theorem setR_stage (s : State) (r : Reg) (v : Word) (u i j : Nat) : (setR s r v u i j).stage = s.stage := rfl
@[simp] theorem setR_rewire (s : State) (r : Reg) (v : Word) (u i j : Nat) : (setR s r v u i j).rewire = s.rewire := rfl
@[simp] theorem setR_vigil (s : State) (r : Reg) (v : Word) (u i j : Nat) : (setR s r v u i j).vigil = s.vigil := rfl
@[simp] theorem setR_vigilTested (s : State) (r : Reg) (v : Word) (u i j : Nat) : (setR s r v u i j).vigilTested = s.vigilTested := rfl

@[simp] theorem updR_pending (s : State) (r : Reg) (f : Word → Word) (u i j : Nat) : (updR s r f u i j).pending = s.pending := rfl
@[simp] theorem updR_free (s : State) (r : Reg) (f : Word → Word) (u i j : Nat) : (updR s r f u i j).free = s.free := rfl
@[simp] theorem updR_banked (s : State) (r : Reg) (f : Word → Word) (u i j : Nat) : (updR s r f u i j).banked = s.banked := rfl
@[simp] theorem updR_mem (s : State) (r : Reg) (f : Word → Word) (u i j : Nat) : (updR s r f u i j).mem = s.mem := rfl
@[simp] theorem updR_memTally (s : State) (r : Reg) (f : Word → Word) (u i j : Nat) : (updR s r f u i j).memTally = s.memTally := rfl
@[simp] theorem updR_memSyn (s : State) (r : Reg) (f : Word → Word) (u i j : Nat) : (updR s r f u i j).memSyn = s.memSyn := rfl
@[simp] theorem updR_unscrubbed (s : State) (r : Reg) (f : Word → Word) (u i j : Nat) : (updR s r f u i j).unscrubbed = s.unscrubbed := rfl
@[simp] theorem updR_stale (s : State) (r : Reg) (f : Word → Word) (u i j : Nat) : (updR s r f u i j).stale = s.stale := rfl
@[simp] theorem updR_pageCode (s : State) (r : Reg) (f : Word → Word) (u i j : Nat) : (updR s r f u i j).pageCode = s.pageCode := rfl
@[simp] theorem updR_testRows (s : State) (r : Reg) (f : Word → Word) (u i j : Nat) : (updR s r f u i j).testRows = s.testRows := rfl
@[simp] theorem updR_rig (s : State) (r : Reg) (f : Word → Word) (u i j : Nat) : (updR s r f u i j).rig = s.rig := rfl
@[simp] theorem updR_partRun (s : State) (r : Reg) (f : Word → Word) (u i j : Nat) : (updR s r f u i j).partRun = s.partRun := rfl
@[simp] theorem updR_threads (s : State) (r : Reg) (f : Word → Word) (u i j : Nat) : (updR s r f u i j).threads = s.threads := rfl
@[simp] theorem updR_cores (s : State) (r : Reg) (f : Word → Word) (u i j : Nat) : (updR s r f u i j).cores = s.cores := rfl
@[simp] theorem updR_quads (s : State) (r : Reg) (f : Word → Word) (u i j : Nat) : (updR s r f u i j).quads = s.quads := rfl
@[simp] theorem updR_slices (s : State) (r : Reg) (f : Word → Word) (u i j : Nat) : (updR s r f u i j).slices = s.slices := rfl
@[simp] theorem updR_net (s : State) (r : Reg) (f : Word → Word) (u i j : Nat) : (updR s r f u i j).net = s.net := rfl
@[simp] theorem updR_regNet (s : State) (r : Reg) (f : Word → Word) (u i j : Nat) : (updR s r f u i j).regNet = s.regNet := rfl
@[simp] theorem updR_psNet (s : State) (r : Reg) (f : Word → Word) (u i j : Nat) : (updR s r f u i j).psNet = s.psNet := rfl
@[simp] theorem updR_tightNet (s : State) (r : Reg) (f : Word → Word) (u i j : Nat) : (updR s r f u i j).tightNet = s.tightNet := rfl
@[simp] theorem updR_pcNet (s : State) (r : Reg) (f : Word → Word) (u i j : Nat) : (updR s r f u i j).pcNet = s.pcNet := rfl
@[simp] theorem updR_credits (s : State) (r : Reg) (f : Word → Word) (u i j : Nat) : (updR s r f u i j).credits = s.credits := rfl
@[simp] theorem updR_meshSeq (s : State) (r : Reg) (f : Word → Word) (u i j : Nat) : (updR s r f u i j).meshSeq = s.meshSeq := rfl
@[simp] theorem updR_chans (s : State) (r : Reg) (f : Word → Word) (u i j : Nat) : (updR s r f u i j).chans = s.chans := rfl
@[simp] theorem updR_irq (s : State) (r : Reg) (f : Word → Word) (u i j : Nat) : (updR s r f u i j).irq = s.irq := rfl
@[simp] theorem updR_alm (s : State) (r : Reg) (f : Word → Word) (u i j : Nat) : (updR s r f u i j).alm = s.alm := rfl
@[simp] theorem updR_faultN (s : State) (r : Reg) (f : Word → Word) (u i j : Nat) : (updR s r f u i j).faultN = s.faultN := rfl
@[simp] theorem updR_epoch (s : State) (r : Reg) (f : Word → Word) (u i j : Nat) : (updR s r f u i j).epoch = s.epoch := rfl
@[simp] theorem updR_epochFrac (s : State) (r : Reg) (f : Word → Word) (u i j : Nat) : (updR s r f u i j).epochFrac = s.epochFrac := rfl
@[simp] theorem updR_mgmtIrq (s : State) (r : Reg) (f : Word → Word) (u i j : Nat) : (updR s r f u i j).mgmtIrq = s.mgmtIrq := rfl
@[simp] theorem updR_bowlIrq (s : State) (r : Reg) (f : Word → Word) (u i j : Nat) : (updR s r f u i j).bowlIrq = s.bowlIrq := rfl
@[simp] theorem updR_agentBuf (s : State) (r : Reg) (f : Word → Word) (u i j : Nat) : (updR s r f u i j).agentBuf = s.agentBuf := rfl
@[simp] theorem updR_haws (s : State) (r : Reg) (f : Word → Word) (u i j : Nat) : (updR s r f u i j).haws = s.haws := rfl
@[simp] theorem updR_hawsNet (s : State) (r : Reg) (f : Word → Word) (u i j : Nat) : (updR s r f u i j).hawsNet = s.hawsNet := rfl
@[simp] theorem updR_time (s : State) (r : Reg) (f : Word → Word) (u i j : Nat) : (updR s r f u i j).time = s.time := rfl
@[simp] theorem updR_stoppers (s : State) (r : Reg) (f : Word → Word) (u i j : Nat) : (updR s r f u i j).stoppers = s.stoppers := rfl
@[simp] theorem updR_ports (s : State) (r : Reg) (f : Word → Word) (u i j : Nat) : (updR s r f u i j).ports = s.ports := rfl
@[simp] theorem updR_ps (s : State) (r : Reg) (f : Word → Word) (u i j : Nat) : (updR s r f u i j).ps = s.ps := rfl
@[simp] theorem updR_splice (s : State) (r : Reg) (f : Word → Word) (u i j : Nat) : (updR s r f u i j).splice = s.splice := rfl
@[simp] theorem updR_svc (s : State) (r : Reg) (f : Word → Word) (u i j : Nat) : (updR s r f u i j).svc = s.svc := rfl
@[simp] theorem updR_hosts (s : State) (r : Reg) (f : Word → Word) (u i j : Nat) : (updR s r f u i j).hosts = s.hosts := rfl
@[simp] theorem updR_hostNet (s : State) (r : Reg) (f : Word → Word) (u i j : Nat) : (updR s r f u i j).hostNet = s.hostNet := rfl
@[simp] theorem updR_hostTx (s : State) (r : Reg) (f : Word → Word) (u i j : Nat) : (updR s r f u i j).hostTx = s.hostTx := rfl
@[simp] theorem updR_dma (s : State) (r : Reg) (f : Word → Word) (u i j : Nat) : (updR s r f u i j).dma = s.dma := rfl
@[simp] theorem updR_dmaTurns (s : State) (r : Reg) (f : Word → Word) (u i j : Nat) : (updR s r f u i j).dmaTurns = s.dmaTurns := rfl
@[simp] theorem updR_tenants (s : State) (r : Reg) (f : Word → Word) (u i j : Nat) : (updR s r f u i j).tenants = s.tenants := rfl
@[simp] theorem updR_pow (s : State) (r : Reg) (f : Word → Word) (u i j : Nat) : (updR s r f u i j).pow = s.pow := rfl
@[simp] theorem updR_mgmt (s : State) (r : Reg) (f : Word → Word) (u i j : Nat) : (updR s r f u i j).mgmt = s.mgmt := rfl
@[simp] theorem updR_flash (s : State) (r : Reg) (f : Word → Word) (u i j : Nat) : (updR s r f u i j).flash = s.flash := rfl
@[simp] theorem updR_boot (s : State) (r : Reg) (f : Word → Word) (u i j : Nat) : (updR s r f u i j).boot = s.boot := rfl
@[simp] theorem updR_stage (s : State) (r : Reg) (f : Word → Word) (u i j : Nat) : (updR s r f u i j).stage = s.stage := rfl
@[simp] theorem updR_rewire (s : State) (r : Reg) (f : Word → Word) (u i j : Nat) : (updR s r f u i j).rewire = s.rewire := rfl
@[simp] theorem updR_vigil (s : State) (r : Reg) (f : Word → Word) (u i j : Nat) : (updR s r f u i j).vigil = s.vigil := rfl
@[simp] theorem updR_vigilTested (s : State) (r : Reg) (f : Word → Word) (u i j : Nat) : (updR s r f u i j).vigilTested = s.vigilTested := rfl

@[simp] theorem setB_pending (s : State) (r : Reg) (who : Requester) (v : Word) (i : Nat) : (setB s r who v i).pending = s.pending := rfl
@[simp] theorem setB_free (s : State) (r : Reg) (who : Requester) (v : Word) (i : Nat) : (setB s r who v i).free = s.free := rfl
@[simp] theorem setB_regs (s : State) (r : Reg) (who : Requester) (v : Word) (i : Nat) : (setB s r who v i).regs = s.regs := rfl
@[simp] theorem setB_mem (s : State) (r : Reg) (who : Requester) (v : Word) (i : Nat) : (setB s r who v i).mem = s.mem := rfl
@[simp] theorem setB_memTally (s : State) (r : Reg) (who : Requester) (v : Word) (i : Nat) : (setB s r who v i).memTally = s.memTally := rfl
@[simp] theorem setB_memSyn (s : State) (r : Reg) (who : Requester) (v : Word) (i : Nat) : (setB s r who v i).memSyn = s.memSyn := rfl
@[simp] theorem setB_unscrubbed (s : State) (r : Reg) (who : Requester) (v : Word) (i : Nat) : (setB s r who v i).unscrubbed = s.unscrubbed := rfl
@[simp] theorem setB_stale (s : State) (r : Reg) (who : Requester) (v : Word) (i : Nat) : (setB s r who v i).stale = s.stale := rfl
@[simp] theorem setB_pageCode (s : State) (r : Reg) (who : Requester) (v : Word) (i : Nat) : (setB s r who v i).pageCode = s.pageCode := rfl
@[simp] theorem setB_testRows (s : State) (r : Reg) (who : Requester) (v : Word) (i : Nat) : (setB s r who v i).testRows = s.testRows := rfl
@[simp] theorem setB_rig (s : State) (r : Reg) (who : Requester) (v : Word) (i : Nat) : (setB s r who v i).rig = s.rig := rfl
@[simp] theorem setB_partRun (s : State) (r : Reg) (who : Requester) (v : Word) (i : Nat) : (setB s r who v i).partRun = s.partRun := rfl
@[simp] theorem setB_threads (s : State) (r : Reg) (who : Requester) (v : Word) (i : Nat) : (setB s r who v i).threads = s.threads := rfl
@[simp] theorem setB_cores (s : State) (r : Reg) (who : Requester) (v : Word) (i : Nat) : (setB s r who v i).cores = s.cores := rfl
@[simp] theorem setB_quads (s : State) (r : Reg) (who : Requester) (v : Word) (i : Nat) : (setB s r who v i).quads = s.quads := rfl
@[simp] theorem setB_slices (s : State) (r : Reg) (who : Requester) (v : Word) (i : Nat) : (setB s r who v i).slices = s.slices := rfl
@[simp] theorem setB_net (s : State) (r : Reg) (who : Requester) (v : Word) (i : Nat) : (setB s r who v i).net = s.net := rfl
@[simp] theorem setB_regNet (s : State) (r : Reg) (who : Requester) (v : Word) (i : Nat) : (setB s r who v i).regNet = s.regNet := rfl
@[simp] theorem setB_psNet (s : State) (r : Reg) (who : Requester) (v : Word) (i : Nat) : (setB s r who v i).psNet = s.psNet := rfl
@[simp] theorem setB_tightNet (s : State) (r : Reg) (who : Requester) (v : Word) (i : Nat) : (setB s r who v i).tightNet = s.tightNet := rfl
@[simp] theorem setB_pcNet (s : State) (r : Reg) (who : Requester) (v : Word) (i : Nat) : (setB s r who v i).pcNet = s.pcNet := rfl
@[simp] theorem setB_credits (s : State) (r : Reg) (who : Requester) (v : Word) (i : Nat) : (setB s r who v i).credits = s.credits := rfl
@[simp] theorem setB_meshSeq (s : State) (r : Reg) (who : Requester) (v : Word) (i : Nat) : (setB s r who v i).meshSeq = s.meshSeq := rfl
@[simp] theorem setB_chans (s : State) (r : Reg) (who : Requester) (v : Word) (i : Nat) : (setB s r who v i).chans = s.chans := rfl
@[simp] theorem setB_irq (s : State) (r : Reg) (who : Requester) (v : Word) (i : Nat) : (setB s r who v i).irq = s.irq := rfl
@[simp] theorem setB_alm (s : State) (r : Reg) (who : Requester) (v : Word) (i : Nat) : (setB s r who v i).alm = s.alm := rfl
@[simp] theorem setB_faultN (s : State) (r : Reg) (who : Requester) (v : Word) (i : Nat) : (setB s r who v i).faultN = s.faultN := rfl
@[simp] theorem setB_epoch (s : State) (r : Reg) (who : Requester) (v : Word) (i : Nat) : (setB s r who v i).epoch = s.epoch := rfl
@[simp] theorem setB_epochFrac (s : State) (r : Reg) (who : Requester) (v : Word) (i : Nat) : (setB s r who v i).epochFrac = s.epochFrac := rfl
@[simp] theorem setB_mgmtIrq (s : State) (r : Reg) (who : Requester) (v : Word) (i : Nat) : (setB s r who v i).mgmtIrq = s.mgmtIrq := rfl
@[simp] theorem setB_bowlIrq (s : State) (r : Reg) (who : Requester) (v : Word) (i : Nat) : (setB s r who v i).bowlIrq = s.bowlIrq := rfl
@[simp] theorem setB_agentBuf (s : State) (r : Reg) (who : Requester) (v : Word) (i : Nat) : (setB s r who v i).agentBuf = s.agentBuf := rfl
@[simp] theorem setB_haws (s : State) (r : Reg) (who : Requester) (v : Word) (i : Nat) : (setB s r who v i).haws = s.haws := rfl
@[simp] theorem setB_hawsNet (s : State) (r : Reg) (who : Requester) (v : Word) (i : Nat) : (setB s r who v i).hawsNet = s.hawsNet := rfl
@[simp] theorem setB_time (s : State) (r : Reg) (who : Requester) (v : Word) (i : Nat) : (setB s r who v i).time = s.time := rfl
@[simp] theorem setB_stoppers (s : State) (r : Reg) (who : Requester) (v : Word) (i : Nat) : (setB s r who v i).stoppers = s.stoppers := rfl
@[simp] theorem setB_ports (s : State) (r : Reg) (who : Requester) (v : Word) (i : Nat) : (setB s r who v i).ports = s.ports := rfl
@[simp] theorem setB_ps (s : State) (r : Reg) (who : Requester) (v : Word) (i : Nat) : (setB s r who v i).ps = s.ps := rfl
@[simp] theorem setB_splice (s : State) (r : Reg) (who : Requester) (v : Word) (i : Nat) : (setB s r who v i).splice = s.splice := rfl
@[simp] theorem setB_svc (s : State) (r : Reg) (who : Requester) (v : Word) (i : Nat) : (setB s r who v i).svc = s.svc := rfl
@[simp] theorem setB_hosts (s : State) (r : Reg) (who : Requester) (v : Word) (i : Nat) : (setB s r who v i).hosts = s.hosts := rfl
@[simp] theorem setB_hostNet (s : State) (r : Reg) (who : Requester) (v : Word) (i : Nat) : (setB s r who v i).hostNet = s.hostNet := rfl
@[simp] theorem setB_hostTx (s : State) (r : Reg) (who : Requester) (v : Word) (i : Nat) : (setB s r who v i).hostTx = s.hostTx := rfl
@[simp] theorem setB_dma (s : State) (r : Reg) (who : Requester) (v : Word) (i : Nat) : (setB s r who v i).dma = s.dma := rfl
@[simp] theorem setB_dmaTurns (s : State) (r : Reg) (who : Requester) (v : Word) (i : Nat) : (setB s r who v i).dmaTurns = s.dmaTurns := rfl
@[simp] theorem setB_tenants (s : State) (r : Reg) (who : Requester) (v : Word) (i : Nat) : (setB s r who v i).tenants = s.tenants := rfl
@[simp] theorem setB_pow (s : State) (r : Reg) (who : Requester) (v : Word) (i : Nat) : (setB s r who v i).pow = s.pow := rfl
@[simp] theorem setB_mgmt (s : State) (r : Reg) (who : Requester) (v : Word) (i : Nat) : (setB s r who v i).mgmt = s.mgmt := rfl
@[simp] theorem setB_flash (s : State) (r : Reg) (who : Requester) (v : Word) (i : Nat) : (setB s r who v i).flash = s.flash := rfl
@[simp] theorem setB_boot (s : State) (r : Reg) (who : Requester) (v : Word) (i : Nat) : (setB s r who v i).boot = s.boot := rfl
@[simp] theorem setB_stage (s : State) (r : Reg) (who : Requester) (v : Word) (i : Nat) : (setB s r who v i).stage = s.stage := rfl
@[simp] theorem setB_rewire (s : State) (r : Reg) (who : Requester) (v : Word) (i : Nat) : (setB s r who v i).rewire = s.rewire := rfl
@[simp] theorem setB_vigil (s : State) (r : Reg) (who : Requester) (v : Word) (i : Nat) : (setB s r who v i).vigil = s.vigil := rfl
@[simp] theorem setB_vigilTested (s : State) (r : Reg) (who : Requester) (v : Word) (i : Nat) : (setB s r who v i).vigilTested = s.vigilTested := rfl

end Sys2Proof.Machine
end

