-- ==== Sys2Proof/Laws/Ops.lean ====
section
/-! SUPPORT. Laws of the shared operations: reads after writes of units, registers and memory, and the canonical form of memory. -/

namespace Sys2Proof.Machine

/-! ### Units -/

/-- The thread just replaced. -/
@[simp] theorem thr_setThr_same (s : State) (t : Nat) (x : Thread) : thr (setThr s t x) t = x := SMap.get_set_same _ _ _ _
/-- Another thread. -/
@[simp] theorem thr_setThr_other (s : State) (t u : Nat) (x : Thread) (h : u ≠ t) : thr (setThr s t x) u = thr s u :=
  SMap.get_set_other _ _ _ _ _ h
/-- The thread just updated. -/
@[simp] theorem thr_updThr_same (s : State) (t : Nat) (f : Thread → Thread) : thr (updThr s t f) t = f (thr s t) :=
  thr_setThr_same _ _ _
/-- Another thread. -/
@[simp] theorem thr_updThr_other (s : State) (t u : Nat) (f : Thread → Thread) (h : u ≠ t) : thr (updThr s t f) u = thr s u :=
  thr_setThr_other _ _ _ _ h
/-- A register write leaves every thread. -/
@[simp] theorem thr_setR (s : State) (r : Reg) (v : Word) (u i j t : Nat) : thr (setR s r v u i j) t = thr s t := rfl
/-- A register update leaves every thread. -/
@[simp] theorem thr_updR (s : State) (r : Reg) (f : Word → Word) (u i j t : Nat) : thr (updR s r f u i j) t = thr s t := rfl

/-! ### Registers -/

/-- The register just stored. -/
@[simp] theorem getR_setR_same (s : State) (r : Reg) (v : Word) (u i j : Nat) : getR (setR s r v u i j) r u i j = v :=
  SMap.get_set_same _ _ _ _
/-- The register just updated. -/
@[simp] theorem getR_updR_same (s : State) (r : Reg) (f : Word → Word) (u i j : Nat) :
    getR (updR s r f u i j) r u i j = f (getR s r u i j) := getR_setR_same _ _ _ _ _ _
/-- A thread update leaves every register. -/
@[simp] theorem getR_updThr (s : State) (t : Nat) (f : Thread → Thread) (r : Reg) (u i j : Nat) :
    getR (updThr s t f) r u i j = getR s r u i j := rfl
/-- The banked register just stored. -/
@[simp] theorem getB_setB_same (s : State) (r : Reg) (who : Requester) (v : Word) (i : Nat) : getB (setB s r who v i) r who i = v :=
  SMap.get_set_same _ _ _ _

/-! ### General and vector registers (R93) -/

/-- g0 reads as zero with tally 0. -/
@[simp] theorem rg_zero (s : State) (t : Nat) : rg s t 0 = TWord.zero := rfl
/-- A write of g0 is discarded. -/
@[simp] theorem wg_zero (s : State) (t : Nat) (v : TWord) : wg s t 0 v = s := rfl
/-- The register just written, unless it is g0. -/
theorem rg_wg_same (s : State) (t : Nat) (r : BitVec 6) (v : TWord) (h : r ≠ 0) : rg (wg s t r v) t r = v := by
  unfold rg wg
  rw [if_neg h, if_neg h, thr_updThr_same]
  exact SMap.get_set_same _ _ _ _
/-- Another register. -/
theorem rg_wg_other (s : State) (t : Nat) (r q : BitVec 6) (v : TWord) (h : q ≠ r) : rg (wg s t r v) t q = rg s t q := by
  have hn : q.toNat ≠ r.toNat := fun e => h (BitVec.eq_of_toNat_eq e)
  unfold rg wg
  split
  · rfl
  · split
    · rfl
    · rw [thr_updThr_same]
      exact SMap.get_set_other _ _ _ _ _ hn
/-- Another thread's registers. -/
theorem rg_wg_thread (s : State) (t u : Nat) (r q : BitVec 6) (v : TWord) (h : u ≠ t) : rg (wg s t r v) u q = rg s u q := by
  unfold rg wg
  split
  · rfl
  · split
    · rfl
    · rw [thr_updThr_other _ _ _ _ h]
/-- The lane just written. -/
@[simp] theorem rv_wv_same (s : State) (t : Nat) (r : BitVec 5) (i : Nat) (v : TWord) : rv (wv s t r i v) t r i = v := by
  simp [rv, wv]

/-! ### Memory -/

/-- A read of the byte just written. -/
@[simp] theorem memByte_setMemByte_same (s : State) (a : Nat) (b : Byte) : memByte (setMemByte s a b) a = b :=
  SMap.get_set_same _ _ _ _
/-- A write leaves every other byte. -/
@[simp] theorem memByte_setMemByte_other (s : State) (a c : Nat) (b : Byte) (h : c ≠ a) : memByte (setMemByte s a b) c = memByte s c :=
  SMap.get_set_other _ _ _ _ _ h
/-- A byte write keeps the canonical form. -/
theorem memory_wf_setMemByte (s : State) (a : Nat) (b : Byte) (h : Memory.wf s.mem = true) : Memory.wf (setMemByte s a b).mem = true :=
  SMap.wf_set _ _ _ _ h

/-- A fold keeps what each of its steps keeps. -/
theorem foldl_keeps {α : Type} (P : State → Prop) (f : State → α → State) (hf : ∀ s a, P s → P (f s a)) (l : List α) (s : State) (h : P s) :
    P (l.foldl f s) := by
  induction l generalizing s with
  | nil => exact h
  | cons a r ih => exact ih (f s a) (hf s a h)

/-- `foldS` keeps what each of its steps keeps. -/
theorem foldS_keeps {α : Type} (P : State → Prop) (f : State → α → State) (hf : ∀ s a, P s → P (f s a)) (l : List α) (s : State) (h : P s) :
    P (foldS f s l) := foldl_keeps P f hf l s h

/-- A word write keeps the canonical form. -/
theorem memory_wf_putWord (s : State) (w : Nat) (x : TWord) (syn : Byte) (h : Memory.wf s.mem = true) :
    Memory.wf (putWord s w x syn).mem = true := by
  unfold putWord
  dsimp only
  split
  · exact h
  · exact foldl_keeps (fun s => Memory.wf s.mem = true) _ (fun s i hs => memory_wf_setMemByte s _ _ hs) _ _ h

/-- A chunk's zeroing keeps the canonical form. -/
theorem memory_wf_zeroChunk (s : State) (c : Nat) (h : Memory.wf s.mem = true) : Memory.wf (zeroChunk s c).mem = true := by
  unfold zeroChunk
  dsimp only
  generalize List.range 32 = l
  exact foldl_keeps (fun s => Memory.wf s.mem = true) _ (fun s i hs => memory_wf_putWord s _ _ _ hs) l s h

/-- A line write keeps the canonical form. -/
theorem memory_wf_putLine (s : State) (line : Nat) (d : Line) (h : Memory.wf s.mem = true) : Memory.wf (putLine s line d).mem = true := by
  unfold putLine
  dsimp only
  generalize List.range 8 = l
  refine foldl_keeps (fun s => Memory.wf s.mem = true) _ (fun s i hs => memory_wf_putWord s _ _ _ hs) l _ ?_
  split
  · exact memory_wf_zeroChunk s _ h
  · exact h

end Sys2Proof.Machine
end

