-- ==== Sys2Proof/Laws/Run.lean ====
section
/-! SUPPORT. What running one instruction does for a thread that begins it. -/

namespace Sys2Proof.Machine

/-- A thread that stands in RUN is not woken from WFI. -/
theorem wfiCheck_run {s : State} {t : Nat} (h : (thr s t).run = .run) : wfiCheck s t = s := by
  simp [wfiCheck, h]

/-- A thread that begins an instruction, where the instruction may stand, runs its body on the state that the fetch leaves. -/
theorem runInstr_ready {s s' : State} {t : Nat} (h : Ready s t s') (w : IWord) (noSlot : Bool) (uops : Nat) (breaks : Bool)
    (body : State → Act) (hs : noSlot = true → (thr s t).slot = .none) :
    runInstr s t w noSlot uops breaks body = applyAct t uops breaks (body s') := by
  obtain ⟨h1, h2, h3, h4, h5⟩ := h
  have hn : (noSlot && (thr s t).slot != .none) = false := by
    cases noSlot with
    | false => rfl
    | true => simp [hs rfl]
  simp [runInstr, wfiCheck_run h1, h1, h2, h3, h4, h5, hn]

/-- A transfer, SYSCALL, BREAK or WFI that stands in a delay slot takes cause 0x08 and nothing else happens (R101). -/
theorem runInstr_slot {s s' : State} {t : Nat} (h : Ready s t s') (hs : (thr s t).slot ≠ .none) (w : IWord) (uops : Nat) (breaks : Bool)
    (body : State → Act) : runInstr s t w true uops breaks body = trapEnter s' t 0x08 false (iwVal w) := by
  obtain ⟨h1, h2, h3, h4, h5⟩ := h
  simp [runInstr, wfiCheck_run h1, h1, h2, h3, h4, h5, hs]

/-- What is taken before the next instruction leaves the instruction undone (R132). -/
theorem runInstr_boundary {s : State} {t : Nat} (h1 : (thr s t).run = .run) (h2 : draining s t = false) (h3 : (thr s t).wait = none)
    (h4 : boundaryTrap s t = true) (w : IWord) (noSlot : Bool) (uops : Nat) (breaks : Bool) (body : State → Act) :
    runInstr s t w noSlot uops breaks body = takeInterrupt s t := by
  simp [runInstr, wfiCheck_run h1, h1, h2, h3, h4]

/-- A completed body ends as `finish` says. -/
theorem applyAct_done (t uops : Nat) (breaks : Bool) (s : State) : applyAct t uops breaks (.done s) = finish s t uops breaks := rfl

/-- A body that raises a cause ends as `trapped` says. -/
theorem applyAct_trap (t uops : Nat) (breaks : Bool) (s : State) (c : Nat) (v : Word) :
    applyAct t uops breaks (.trap s c v) = trapped s t c v := rfl

/-- A body that waits leaves the thread at its instruction. -/
theorem applyAct_wait (t uops : Nat) (breaks : Bool) (s : State) (w : Wait) :
    applyAct t uops breaks (.wait s w) = updThr s t (fun x => { x with wait := some w }) := rfl

/-- A body that sets the pc itself leaves it as set. -/
theorem applyAct_jump (t uops : Nat) (breaks : Bool) (s : State) :
    applyAct t uops breaks (.jump s) = updThr s t (fun x => { x with wait := none }) := rfl

/-- A body that parks leaves the thread at its instruction, out of RUN. -/
theorem applyAct_park (t uops : Nat) (breaks : Bool) (s : State) (r : RunSt) (w : Option Wait) :
    applyAct t uops breaks (.park s r w) = updThr s t (fun x => { x with run := r, stoodAt := s.epoch, wait := w }) := rfl

/-- An instruction whose wait is over runs its body again, already fetched (R207). -/
theorem runInstr_again {s : State} {t : Nat} (h1 : (thr s t).run = .run) (h2 : draining s t = false) (h3 : (thr s t).wait = some .again)
    (w : IWord) (noSlot : Bool) (uops : Nat) (breaks : Bool) (body : State → Act) :
    runInstr s t w noSlot uops breaks body = applyAct t uops breaks (body (updThr s t (fun x => { x with wait := none }))) := by
  simp [runInstr, wfiCheck_run h1, h1, h2, h3]

/-! ### What counting can do -/

/-- A choice between two states that differ from a third in registers alone. -/
theorem ite_regs {s a b : State} (c : Prop) [Decidable c] (ha : ∃ r, a = { s with regs := r }) (hb : ∃ r, b = { s with regs := r }) :
    ∃ r, (if c then a else b) = { s with regs := r } := by
  by_cases h : c
  · rw [if_pos h]; exact ha
  · rw [if_neg h]; exact hb

/-- A fold of steps that change nothing but registers changes nothing but registers. -/
theorem foldS_regs {α : Type} (f : State → α → State) (hf : ∀ s a, ∃ r, f s a = { s with regs := r }) (l : List α) (s : State) :
    ∃ r, foldS f s l = { s with regs := r } := by
  induction l generalizing s with
  | nil => exact ⟨s.regs, rfl⟩
  | cons a l ih =>
    obtain ⟨r, h⟩ := hf s a
    obtain ⟨q, hq⟩ := ih (f s a)
    exact ⟨q, by rw [show foldS f s (a :: l) = foldS f (f s a) l from rfl, hq, h]⟩

/-- A counter event changes nothing but registers (R195). -/
theorem pmcCount_regs (s : State) (t ev n : Nat) : ∃ r, pmcCount s t ev n = { s with regs := r } := by
  unfold pmcCount
  dsimp only
  split
  · exact ⟨s.regs, rfl⟩
  · refine foldS_regs _ (fun u a => ?_) _ _
    exact ite_regs _ ⟨_, rfl⟩ ⟨u.regs, rfl⟩

/-- Everything that committing an instruction does beside its own effect (R172, R195). -/
theorem commitCount_frame (s : State) (t uops : Nat) (breaks : Bool) : ∃ r, commitCount s t uops breaks =
    updThr { s with regs := r } t (fun x => { x with owed := [], loopUops := x.loopUops + uops, loopBad := x.loopBad || breaks }) := by
  obtain ⟨r1, h1⟩ := pmcCount_regs s t 0x02 uops
  obtain ⟨r2, h2⟩ := pmcCount_regs (pmcCount s t 0x02 uops) t 0x03 1
  obtain ⟨r3, h3⟩ := foldS_regs (fun s e => pmcCount s t e 1) (fun s a => pmcCount_regs s t a 1) (thr s t).owed
    (pmcCount (pmcCount s t 0x02 uops) t 0x03 1)
  refine ⟨r3, ?_⟩
  simp only [commitCount]
  rw [h3, h2, h1]

/-- Everything that the completion of an instruction does beside its own effect. -/
theorem finish_frame (s : State) (t uops : Nat) (breaks : Bool) : ∃ r, finish s t uops breaks =
    updThr { retire s t with regs := r } t (fun x => { x with owed := [], loopUops := x.loopUops + uops, loopBad := x.loopBad || breaks }) :=
  commitCount_frame (retire s t) t uops breaks

/-- A sound word is neither poisoned nor failed (R137). -/
theorem sound_not_bad {w : TWord} (h : isSound w = true) : isPoisoned w = false ∧ isFailed w = false := by
  simp only [isSound, beq_iff_eq] at h
  have : isPoisoned w = false := by
    simp only [isPoisoned, h, tallyOf, poisonTally, beq_eq_false_iff_ne, ne_eq]
    intro hc
    have := congrArg BitVec.toNat hc
    simp at this
    omega
  exact ⟨this, by simp [isFailed, isSound, h]⟩

end Sys2Proof.Machine
end

