-- ==== Sys2Proof/Tests/Slice0.lean ====
section
/-! SUPPORT. Tests of the model on small states, and for each statement with hypotheses a state that meets them. The expected values
are worked out by hand from the spec's rules. -/

set_option Elab.async false

namespace Sys2Proof.Tests

open Sys2Proof.Machine

/-! ### Well-formedness: one ill-formed command for each check -/

theorem test_ill_formed_signatures : WellFormed (.startupVigil []) = false := by decide
theorem test_ill_formed_stop : WellFormed (.malformedFlit 84 0) = false ∧ WellFormed (.flitHcrcFail 84 0 0 0) = false := by decide
theorem test_ill_formed_direction : WellFormed (.flitHcrcFail 64 1 0 0) = false := by decide
theorem test_ill_formed_credit : WellFormed (.credit 84 0 0) = false ∧ WellFormed (.creditReturnTimeout 0 84) = false := by decide
theorem test_ill_formed_holder : WellFormed (.rdShared 72 0 false) = false ∧ WellFormed (.gntS 72 0) = false := by decide
theorem test_ill_formed_data : WellFormed (.wrPartial 0 0 [] 0 false) = false ∧ WellFormed (.wrFull 64 0 [] false) = false := by decide
theorem test_ill_formed_full_writer : WellFormed (.wrFull 63 0 (List.replicate 8 0) false) = false := by decide
theorem test_ill_formed_edge : WellFormed (.time1ppsEdge 10) = false := by decide
theorem test_ill_formed_block : WellFormed (.spliceRevoke 31) = false ∧ WellFormed (.spliceResetComplete 31) = false := by decide
theorem test_ill_formed_msix : WellFormed (.msixSend 0 4160) = false := by decide
theorem test_ill_formed_entry : WellFormed (.sqFetch 0 0 0 false [] 0 0) = false := by decide
theorem test_ill_formed_domain : WellFormed (.solsticeHold 420) = false ∧ WellFormed (.powerRequest 0 1 420 0) = false := by decide
theorem test_ill_formed_sample : WellFormed (.sensorSample [] 0 0 0 0 0) = false := by decide
theorem test_well_formed_limits : WellFormed (.malformedFlit 83 0) = true ∧ WellFormed (.solsticeHold 419) = true ∧ WellFormed (.msixSend 1 4159) = true ∧
    WellFormed (.spliceRevoke 30) = true ∧ WellFormed (.gntS 71 0) = true := by decide
theorem test_ill_formed_faults : exec (.solsticeHold 420) {} = .fault .noSuchUnit := by rfl

/-! ### States -/

/-- The state that an outcome leaves; the empty one where there is none. -/
def after (o : Host.Outcome State Fault Refusal) : State :=
  match o with
  | .next s => s
  | _ => {}

/-- An instruction line whose words are sound zeros. -/
def codeLine : SMap (Option CLine) := [(0x4000000, some {})]

/-- Thread 0 of partition 0 at its boot address, with these general registers, this thread and this L1D. -/
def cpuWith (x : Thread) (g : SMap TWord) (d : SMap (Option CLine)) : State :=
  { boot := { rails := true, step := 9 }
    rig := { parts := [(0, some { part := { quads := 1 }, ranges := [(0x100000000, 0x1000000)] })] }
    partRun := [(0, { st := .running })]
    threads := [(0, { x with pc := 0x100000000, run := .run, g := g, m := { tvec := 0x100000400#64 } })]
    cores := [(0, { l1i := codeLine, l1iRepl := [(0, 11)], l1d := d })] }

/-- Thread 0 at M with these general registers. -/
def cpu (g : SMap TWord) : State := cpuWith {} g []

/-- g1 = 7, g2 = 5, g3 = −8. -/
def cpuA : State := cpu [(1, gen 7), (2, gen 5), (3, gen 0xFFFFFFFFFFFFFFF8#64)]

/-- g1 points at a word of a line that the core's L1D owns; g2 = 5. -/
def cpuM : State := cpuWith { resv := some 0x4000001 } [(1, gen 0x100000040#64), (2, gen 5)] [(0x4000001, some { wr := true, dirty := true })]

/-- g1 poisoned, g2 failed, g3 sound. -/
def cpuBad : State := cpu [(1, poison 7), (2, ⟨5, 6⟩), (3, gen 9)]

/-- Thread 0 in the slot of a taken transfer. -/
def cpuSlot : State := cpuWith { slot := .taken 0x100000020#64 } [(1, gen 7), (2, gen 5)] []

/-- Thread 0 with FLAGS.DZT = 1. -/
def cpuDzt : State := cpuWith { flags := 0x100 } [(1, gen 7)] []

theorem ready_cpuA : Ready cpuA 0 cpuA := ⟨rfl, rfl, rfl, rfl, rfl⟩
theorem ready_cpuM : Ready cpuM 0 cpuM := ⟨rfl, rfl, rfl, rfl, rfl⟩
theorem ready_cpuBad : Ready cpuBad 0 cpuBad := ⟨rfl, rfl, rfl, rfl, rfl⟩
theorem ready_cpuSlot : Ready cpuSlot 0 cpuSlot := ⟨rfl, rfl, rfl, rfl, rfl⟩
theorem ready_cpuDzt : Ready cpuDzt 0 cpuDzt := ⟨rfl, rfl, rfl, rfl, rfl⟩

/-- Register r of thread 0 after a command. -/
def regAfter (c : Instr) (s : State) (r : BitVec 6) : TWord := rg (after (exec c s)) 0 r

/-! ### Integer instructions -/

theorem test_add : regAfter (.add 0 4 1 2) cpuA 4 = gen 12 := by decide
theorem test_add_wraps : regAfter (.add 0 4 3 1) cpuA 4 = gen 0xFFFFFFFFFFFFFFFF#64 := by decide
theorem test_add_g0 : regAfter (.add 0 0 1 2) cpuA 0 = ⟨0, 0⟩ := by decide
theorem test_sub : regAfter (.sub 0 4 2 1) cpuA 4 = gen 0xFFFFFFFFFFFFFFFE#64 := by decide
theorem test_sll : regAfter (.sll 0 4 1 2) cpuA 4 = gen 224 := by decide
theorem test_sra : regAfter (.sra 0 4 3 2) cpuA 4 = gen 0xFFFFFFFFFFFFFFFF#64 := by decide +kernel
theorem test_mulhi : regAfter (.mulhi 0 4 3 1) cpuA 4 = gen 0xFFFFFFFFFFFFFFFF#64 := by decide
theorem test_mulhiu : regAfter (.mulhiu 0 4 3 1) cpuA 4 = gen 6 := by decide
theorem test_div : regAfter (.div 0 4 3 2) cpuA 4 = gen 0xFFFFFFFFFFFFFFFF#64 := by decide
theorem test_rem : regAfter (.rem 0 4 3 2) cpuA 4 = gen 0xFFFFFFFFFFFFFFFD#64 := by decide +kernel
theorem test_div_zero : (regAfter (.div 0 4 1 0) cpuA 4).val = BitVec.allOnes 64 := by decide
theorem test_div_zero_traps : (thr (after (exec (.div 0 4 1 0) cpuDzt)) 0).m.cause = 0x11 := by decide +kernel
theorem test_clz : regAfter (.clz 0 4 1 0) cpuA 4 = gen 61 := by decide +kernel
theorem test_immh : regAfter (.immh 0 4 0xFFFFF) cpuA 4 = gen 0xFFFFFFFFFFFFF000#64 := by decide +kernel
theorem test_pc_advances : (thr (after (exec (.add 0 4 1 2) cpuA)) 0).pc = 0x100000004#64 := by decide
theorem test_slot_goes_to_target : (thr (after (exec (.add 0 4 1 2) cpuSlot)) 0).pc = 0x100000020#64 := by decide
theorem test_poison_traps : (thr (after (exec (.add 0 4 1 3) cpuBad)) 0).m.cause = 5 := by decide +kernel
theorem test_failed_traps : (thr (after (exec (.add 0 4 2 3) cpuBad)) 0).m.cause = 3 := by decide +kernel
theorem test_tally_chk : regAfter (.tallyChk 0 4 1 0) cpuBad 4 = gen 2 ∧ regAfter (.tallyChk 0 4 2 0) cpuBad 4 = gen 1 := by decide

theorem wit_PredictedTalliesExact : isSound (gen 7) = true ∧ isSound (gen 0xFFFFFFFFFFFFFFF8#64) = true := by decide
theorem wit_IntegerResidueCompletes : Ready cpuA 0 cpuA ∧ SoundReg cpuA 0 1 ∧ SoundReg cpuA 0 2 ∧ SoundReg cpuA 0 3 ∧ injArmed cpuA 0 1 = false :=
  ⟨ready_cpuA, rfl, rfl, rfl, rfl⟩
theorem wit_IntegerShadowCompletes : Ready cpuA 0 cpuA ∧ SoundReg cpuA 0 1 ∧ SoundReg cpuA 0 2 ∧ SoundReg cpuA 0 3 ∧ injArmed cpuA 0 2 = false :=
  ⟨ready_cpuA, rfl, rfl, rfl, rfl⟩
theorem wit_DivideCompletes : Ready cpuDzt 0 cpuDzt ∧ SoundReg cpuDzt 0 1 ∧ SoundReg cpuDzt 0 0 ∧ injArmed cpuDzt 0 2 = false ∧
    (rg cpuDzt 0 0).val = 0 ∧ bit (thr cpuDzt 0).flags 8 = true ∧ bit (thr cpuA 0).flags 8 = false ∧ (rg cpuA 0 2).val ≠ 0 :=
  ⟨ready_cpuDzt, rfl, rfl, rfl, rfl, rfl, rfl, by decide⟩
theorem wit_IntegerBadOperandTraps : Ready cpuBad 0 cpuBad ∧ isPoisoned (rg cpuBad 0 1) = true ∧ isPoisoned (rg cpuBad 0 2) = false ∧
    isFailed (rg cpuBad 0 2) = true ∧ isPoisoned (rg cpuBad 0 3) = false := ⟨ready_cpuBad, rfl, rfl, rfl, rfl⟩
theorem wit_IntegerFrame : Ready cpuA 0 cpuA ∧ SoundReg cpuA 0 1 ∧ SoundReg cpuA 0 2 ∧ injArmed cpuA 0 1 = false ∧ injArmed cpuA 0 2 = false ∧
    exec (.add 0 4 1 2) cpuA = .next (after (exec (.add 0 4 1 2) cpuA)) := ⟨ready_cpuA, rfl, rfl, rfl, rfl, rfl⟩

/-! ### Floating point, vectors, memory and control -/

theorem test_fadd : regAfter (.fadd 0 4 1 2) (cpu [(1, gen 0x3FF8000000000000#64), (2, gen 0x4002000000000000#64)]) 4 = gen 0x400E000000000000#64 := by
  decide +kernel
theorem test_fdiv_inexact : regAfter (.fdiv 0 4 1 2) (cpu [(1, gen 0x3FF0000000000000#64), (2, gen 0x4008000000000000#64)]) 4 = gen 0x3FD5555555555555#64 := by
  decide +kernel
theorem test_fdiv_zero_flag : fieldN (thr (after (exec (.fdiv 0 4 1 0) (cpu [(1, gen 0x3FF0000000000000#64)]))) 0).flags 4 0 = 8 := by decide +kernel
theorem test_fsqrt : regAfter (.fsqrt 0 4 1 0) (cpu [(1, gen 0x4010000000000000#64)]) 4 = gen 0x4000000000000000#64 := by decide +kernel
theorem test_ftoi : regAfter (.ftoi 0 4 1 0) (cpu [(1, gen 0xC002000000000000#64)]) 4 = gen 0xFFFFFFFFFFFFFFFE#64 := by decide +kernel
theorem test_ld : regAfter (.ld 0 4 1 0) cpuM 4 = ⟨0, 0⟩ := by decide +kernel
theorem test_sd_waits_in_store_buffer : (thr (after (exec (.sd 0 2 1 8) cpuM)) 0).stores.map (fun e => (e.word, e.val)) = [(0x20000009, gen 5)] := by decide +kernel
theorem test_amo_add : regAfter (.atomAdd 0 4 1 2 false false false) cpuM 4 = ⟨0, 0⟩ ∧
    ownedWord (after (exec (.atomAdd 0 4 1 2 false false false) cpuM)) 0 0x20000008 = gen 5 := by decide +kernel
theorem test_sc : regAfter (.sc 0 4 1 2 false false false) cpuM 4 = gen 0 ∧ (thr (after (exec (.sc 0 4 1 2 false false false) cpuM)) 0).resv = none := by
  decide +kernel
theorem test_sc_fails : regAfter (.sc 0 4 1 2 false false false) (cpuWith {} [(1, gen 0x100000040#64), (2, gen 5)] []) 4 = gen 1 := by decide +kernel
theorem test_misaligned_load : (thr (after (exec (.ld 0 4 1 4) cpuM)) 0).m.cause = 9 ∧ (thr (after (exec (.ld 0 4 1 4) cpuM)) 0).m.tval = 0x100000044#64 := by
  decide +kernel
theorem test_beq_taken : (thr (after (exec (.beq 0 1 1 false 8) cpuA)) 0).slot = .taken 0x100000020#64 := by decide +kernel
theorem test_beq_annuls : (thr (after (exec (.beq 0 1 2 true 8) cpuA)) 0).pc = 0x100000008#64 := by decide +kernel
theorem test_jlnk_links : regAfter (.jlnk 0 4) cpuA 63 = gen 0x100000008#64 := by decide +kernel
theorem test_jump_in_slot_traps : (thr (after (exec (.j 0 4) cpuSlot)) 0).m.cause = 8 := by decide +kernel
theorem test_syscall : (thr (after (exec (.syscall 0 0 0) cpuA)) 0).m.cause = 0x0D ∧ (thr (after (exec (.syscall 0 0 0) cpuA)) 0).m.epc = 0x100000000#64 ∧
    (thr (after (exec (.syscall 0 0 0) cpuA)) 0).pc = 0x100000400#64 := by decide +kernel
theorem test_slot_exception_sets_pds : bit (thr (after (exec (.ld 0 4 1 0) cpuSlot)) 0).m.status 4 = true ∧
    (thr (after (exec (.ld 0 4 1 0) cpuSlot)) 0).m.etgt = 0x100000020#64 := by decide +kernel
theorem test_crwr : regAfter (.crwr 0 4 1 0x308) cpuA 4 = gen 0 := by decide +kernel

/-- Registers 1–3 sound, vector registers zero. -/
theorem wit_FloatCompletes : Ready cpuA 0 cpuA ∧ SoundReg cpuA 0 1 ∧ SoundReg cpuA 0 2 ∧ SoundReg cpuA 0 3 ∧ injArmed cpuA 0 2 = false ∧ flagsRM cpuA 0 ≤ 4 :=
  ⟨ready_cpuA, rfl, rfl, rfl, rfl, by decide⟩
theorem wit_VectorCompletes : Ready cpuA 0 cpuA ∧ (∀ x ∈ lanes cpuA 0 1, isSound x = true) ∧ injArmed cpuA 0 1 = false ∧ injArmed cpuA 0 2 = false ∧
    flagsRM cpuA 0 ≤ 4 := ⟨ready_cpuA, by decide, rfl, rfl, by decide⟩
theorem wit_MovesAndTalliesComplete : Ready cpuBad 0 cpuBad ∧ injArmed cpuBad 0 1 = false ∧ injArmed cpuBad 0 2 = false ∧ isFailed (rg cpuBad 0 1) = false ∧
    isFailed (rv cpuBad 0 1 0) = false ∧ isPoisoned (rg cpuBad 0 3) = false ∧ isPoisoned (rg cpuBad 0 1) = true := ⟨ready_cpuBad, rfl, rfl, rfl, rfl, rfl, rfl⟩

/-- The address in g1 of `cpuM`. -/
def vaM : Word := 0x100000040#64

theorem wit_LoadCompletes : Ready cpuM 0 cpuM ∧ (thr cpuM 0).stores.any (fun e => e.rel) = false ∧ ∃ s1 s2 x,
    memPre cpuM 0 (encI 0x10 4 1 0) .load [(0, rg cpuM 0 1)] [rg cpuM 0 1] vaM 8 false false = .go 0x100000040 (.mem true) false s1 ∧
    memPre cpuM 0 (encI 0x11 4 1 0) .load [(0, rg cpuM 0 1)] [rg cpuM 0 1] vaM 4 true false = .go 0x100000040 (.mem true) false s1 ∧
    memPre cpuM 0 (encI 0x15 4 1 0) .load [(0, rg cpuM 0 1)] [rg cpuM 0 1] vaM 1 true false = .go 0x100000040 (.mem true) false s1 ∧
    cacheLoad s1 0 (.ld 0 4 1 0) vaM 0x100000040 8 = .words [x] s2 ∧ cacheLoad s1 0 (.lw 0 4 1 0) vaM 0x100000040 4 = .words [x] s2 ∧
    cacheLoad s1 0 (.lb 0 4 1 0) vaM 0x100000040 1 = .words [x] s2 ∧
    injArmed s2 0 1 = false ∧ injArmed s2 0 2 = false ∧ isSound x = true :=
  ⟨ready_cpuM, rfl, _, _, _, rfl, rfl, rfl, rfl, rfl, rfl, rfl, rfl, rfl⟩
theorem wit_LoadCompletes_unmapped : ∃ s1, memPre (cpu [(1, gen 0x8000000000#64)]) 0 (encI 0x10 4 1 0) .load [(0, gen 0x8000000000#64)]
    [gen 0x8000000000#64] 0x8000000000#64 8 false false = .go 0x8000000000 .unmapped false s1 := ⟨_, rfl⟩
theorem wit_StoreCompletes : Ready cpuM 0 cpuM ∧ isSound (rg cpuM 0 2) = true ∧ ∃ s1,
    memPre cpuM 0 (encI 0x18 2 1 0) .store [(0, rg cpuM 0 1)] [rg cpuM 0 1, rg cpuM 0 2] vaM 8 false false = .go 0x100000040 (.mem true) false s1 ∧
    memPre cpuM 0 (encI 0x1B 2 1 0) .store [(0, rg cpuM 0 1)] [rg cpuM 0 1, rg cpuM 0 2] vaM 1 true false = .go 0x100000040 (.mem true) false s1 ∧
    injArmed s1 0 1 = false ∧ storeRoom s1 0 1 = true := ⟨ready_cpuM, rfl, _, rfl, rfl, rfl, by decide +kernel⟩
theorem wit_StoreCompletes_unmapped : ∃ s1, memPre (cpu [(1, gen 0x8000000000#64)]) 0 (encI 0x18 2 1 0) .store [(0, gen 0x8000000000#64)]
    [gen 0x8000000000#64, rg (cpu [(1, gen 0x8000000000#64)]) 0 2] 0x8000000000#64 8 false false = .go 0x8000000000 .unmapped false s1 ∧
    (thr s1 0).stores = [] ∧ storesOverlap (thr s1 0) 0x8000000000 8 = false := ⟨_, rfl, rfl, rfl⟩
theorem wit_VectorMemoryCompletes : Ready cpuM 0 cpuM ∧ SoundVec cpuM 0 1 ∧ ∃ s1 s2 s3 l,
    memPre cpuM 0 (encVM 1 1 false 0) .load [(0, rg cpuM 0 1)] [rg cpuM 0 1] vaM 32 true false = .go 0x100000040 (.mem true) false s1 ∧
    cacheLoad s1 0 (.vld 0 1 1 0) vaM 0x100000040 32 = .words l s2 ∧ l.length = 4 ∧ (∀ x ∈ l, isSound x = true) ∧ injArmed s2 0 1 = false ∧
    memPre cpuM 0 (encVM 1 1 true 0) .store [(0, rg cpuM 0 1)] (rg cpuM 0 1 :: lanes cpuM 0 1) vaM 32 true false = .go 0x100000040 (.mem true) false s3 ∧
    injArmed s3 0 1 = false ∧ storeRoom s3 0 4 = true :=
  ⟨ready_cpuM, by intro x hx; revert x; decide +kernel, _, _, _, _, rfl, rfl, rfl, by decide +kernel, rfl, rfl, rfl, by decide +kernel⟩
theorem wit_LoadReserveStoreConditional : Ready cpuM 0 cpuM ∧ isSound (rg cpuM 0 2) = true ∧ ∃ s1 s2 s3 s4 x,
    memPre cpuM 0 (encR 0x1D 4 1 2 (atomFn false false false 0)) .store [(0, rg cpuM 0 1)] [rg cpuM 0 1] (vaM + 0) 8 false true = .go 0x100000040 (.mem true) false s1 ∧
    cacheLoad s1 0 (.ll 0 4 1 2 false false false) (vaM + 0) 0x100000040 8 = .words [x] s2 ∧ isSound x = true ∧ injArmed s2 0 1 = false ∧
    memPre cpuM 0 (encR 0x1D 4 1 2 (atomFn false false false 1)) .store [(0, rg cpuM 0 1)] [rg cpuM 0 1, rg cpuM 0 2] vaM 8 false true
      = .go 0x100000040 (.mem true) false s3 ∧ storesOverlap (thr s3 0) 0x100000040 8 = false ∧ (thr s3 0).resv = some (0x100000040 / 64) ∧
    ownLine s3 0 (0x100000040 / 64) = (true, s4) ∧ injArmed s4 0 1 = false ∧ (thr cpuA 0).resv ≠ some (0x100000040 / 64) :=
  ⟨ready_cpuM, rfl, _, _, _, _, _, rfl, rfl, rfl, rfl, rfl, rfl, rfl, rfl, rfl, by decide +kernel⟩
theorem wit_LoadReserveStoreConditional_half : ∃ s1 s2 s3 s4 s5 x,
    memPre cpuM 0 (encR 0x1D 4 1 2 (atomFn true true true 0)) .store [(0, rg cpuM 0 1)] [rg cpuM 0 1] (vaM + 0) 4 true true = .go 0x100000040 (.mem true) false s1 ∧
    storesOverlap (thr s1 0) 0x100000040 4 = false ∧ (thr s1 0).stores = [] ∧
    cacheLoad s1 0 (.ll 0 4 1 2 true true true) (vaM + 0) 0x100000040 4 = .words [x] s2 ∧ isSound x = true ∧ injArmed s2 0 2 = false ∧
    memPre cpuM 0 (encR 0x1D 4 1 2 (atomFn true true true 1)) .store [(0, rg cpuM 0 1)] [rg cpuM 0 1, rg cpuM 0 2] vaM 4 false true
      = .go 0x100000040 (.mem true) false s3 ∧ (thr s3 0).resv = some (0x100000040 / 64) ∧ ownLine s3 0 (0x100000040 / 64) = (true, s4) ∧
    l1dErrors s4 0 (0x100000040 / 64) (0x100000040 / 8 % 8) = (false, s5) ∧ isSound (ownedWord s5 0 (0x100000040 / 8)) = true ∧ injArmed s5 0 2 = false :=
  ⟨_, _, _, _, _, _, rfl, rfl, rfl, rfl, rfl, rfl, rfl, rfl, rfl, rfl, rfl, rfl⟩
theorem wit_AtomicCompletes : Ready cpuM 0 cpuM ∧ isSound (rg cpuM 0 2) = true ∧ ∃ s1 s2 s3 old,
    memPre cpuM 0 (encR 0x1D 4 1 2 (atomFn false false false 3)) .store [(0, rg cpuM 0 1), (1, rg cpuM 0 2)] [rg cpuM 0 1, rg cpuM 0 2] vaM 8 false true
      = .go 0x100000040 (.mem true) false s1 ∧
    memPre cpuM 0 (encR 0x1D 4 1 2 (atomFn false false false 2)) .store [(0, rg cpuM 0 1)] [rg cpuM 0 1, rg cpuM 0 2] vaM 8 false true
      = .go 0x100000040 (.mem true) false s1 ∧
    storesOverlap (thr s1 0) 0x100000040 8 = false ∧ ownLine s1 0 (0x100000040 / 64) = (true, s2) ∧
    l1dErrors s2 0 (0x100000040 / 64) (0x100000040 / 8 % 8) = (false, s3) ∧ ownedWord s3 0 (0x100000040 / 8) = old ∧ isSound old = true ∧
    injArmed s3 0 1 = false ∧ injArmed s3 0 2 = false :=
  ⟨ready_cpuM, rfl, _, _, _, _, rfl, rfl, rfl, rfl, rfl, rfl, rfl, rfl, rfl⟩
theorem wit_AtomicCompletes_half : ∃ s1,
    memPre cpuM 0 (encR 0x1D 4 1 2 (atomFn false false true 3)) .store [(0, rg cpuM 0 1), (1, rg cpuM 0 2)] [rg cpuM 0 1, rg cpuM 0 2] vaM 4 false true
      = .go 0x100000040 (.mem true) false s1 ∧ storesOverlap (thr s1 0) 0x100000040 4 = false := ⟨_, rfl, rfl⟩
theorem wit_BranchCompletes : Ready cpuA 0 cpuA ∧ (thr cpuA 0).slot = .none ∧ SoundReg cpuA 0 1 ∧ SoundReg cpuA 0 2 ∧ injArmed cpuA 0 2 = false :=
  ⟨ready_cpuA, rfl, rfl, rfl, rfl⟩
theorem wit_DelaySlotRefusesTransfers : Ready cpuSlot 0 cpuSlot ∧ (thr cpuSlot 0).slot ≠ .none := ⟨ready_cpuSlot, by decide⟩
theorem wit_JumpCompletes : Ready cpuA 0 cpuA ∧ (thr cpuA 0).slot = .none ∧ SoundReg cpuA 0 1 ∧
    ((rg cpuA 0 1).val + BitVec.signExtend 64 (5 : BitVec 14)).toNat % 4 = 0 := ⟨ready_cpuA, rfl, rfl, by decide⟩
theorem wit_FencesComplete : Ready cpuA 0 cpuA ∧ (thr cpuA 0).stores = [] ∧ (thr cpuA 0).level ≠ .U ∧ SoundReg cpuA 0 1 := ⟨ready_cpuA, rfl, by decide, rfl⟩

/-- A store of thread 0 has retired and not drained. -/
def cpuStore : State := cpuWith { stores := [{ word := 0x20000008, mask := 255, val := gen 1, full := true }] } [] []

theorem wit_FencesComplete_waits : Ready cpuStore 0 cpuStore ∧ (thr cpuStore 0).stores ≠ [] := ⟨⟨rfl, rfl, rfl, rfl, rfl⟩, by decide⟩
theorem wit_FencesComplete_again : let s := cpuWith { wait := some .again } [] []
    (thr s 0).run = .run ∧ draining s 0 = false ∧ (thr s 0).wait = some .again ∧ (thr s 0).stores = [] := by decide +kernel
theorem test_fence_waits_for_stores : (thr (after (exec (.fence 0 0 0 0x41) cpuStore)) 0).wait = some (.drain (.fence 0 0 0 0x41)) := by decide +kernel

/-- Thread 0 at S in the secure world, fetching secure memory. -/
def cpuSec : State :=
  { boot := { rails := true, step := 9 }
    rig := { parts := [(0, some { part := { quads := 1, secureEntry := true }, ranges := [(0x100000000, 0x1000000)] })] }
    partRun := [(0, { st := .running })]
    threads := [(0, { pc := 0x1000, run := .run, level := .S, world := .secure, g := [(1, gen 7)] })]
    cores := [(0, { l1i := [(0x40, some {})], l1iRepl := [(64, 11)] })] }

theorem wit_ControlRegistersComplete : Ready cpuA 0 cpuA ∧ crKind 0x308 = some (.M, false, false) ∧ levelNo .M ≤ levelNo (thr cpuA 0).level ∧ SoundReg cpuA 0 1 ∧
    Ready cpuSec 0 cpuSec ∧ crKind 0x202 = some (.S, true, true) ∧ levelNo .S ≤ levelNo (thr cpuSec 0).level ∧ (thr cpuSec 0).world = .secure ∧
    (thr cpuA 0).slot = .none ∧ (thr cpuA 0).level ≠ .U ∧ anyPending cpuA 0 = false ∧
    anyPending { cpuA with threads := [(0, { thr cpuA 0 with m := { (thr cpuA 0).m with ip := 2 } })] } 0 = true ∧ (thr cpuA 0).world = .normal ∧
    bit (bankOf (thr cpuA 0) (trapTarget (thr cpuA 0) 0x0D false .M)).status 7 = false ∧
    (bankOf (thr cpuA 0) (trapTarget (thr cpuA 0) 0x0D false .M)).tvec &&& maskBits 63 8 ≠ 0 :=
  ⟨ready_cpuA, rfl, by decide, rfl, ⟨rfl, rfl, rfl, rfl, rfl⟩, rfl, by decide, rfl, rfl, by decide, rfl, rfl, rfl, rfl, by decide +kernel⟩

/-- Thread 0 of a partition that may enter the secure world at entry 3. -/
def cpuEntry : State :=
  setR { cpuA with rig := { parts := [(0, some { part := { quads := 1, secureEntry := true }, ranges := [(0x100000000, 0x1000000)], cal := some { cycle := 100000, phase := 0, slots := [{ offset := 0, act := .release, target := 0 }] } })] } } .BOWL_ENTRY 0x0001000000000401#64 0 3

theorem wit_SystemInstructionsComplete : Ready cpuEntry 0 cpuEntry ∧ (thr cpuEntry 0).slot = .none ∧ (thr cpuEntry 0).level = .M ∧ (thr cpuEntry 0).world = .normal ∧
    wcallTarget cpuEntry 0 3 = some 0x400#64 ∧ wcallTarget cpuEntry 0 4 = none ∧ Ready cpuSec 0 cpuSec ∧ (thr cpuSec 0).world = .secure :=
  ⟨⟨rfl, rfl, rfl, rfl, rfl⟩, rfl, rfl, rfl, by decide +kernel, by decide +kernel, ⟨rfl, rfl, rfl, rfl, rfl⟩, rfl⟩
theorem wit_WaitsComplete : Ready cpuEntry 0 cpuEntry ∧ (thr cpuEntry 0).slot = .none ∧ hasRelease cpuEntry 0 = true ∧ (thr cpuEntry 0).latch = none ∧
    SoundReg cpuEntry 0 1 ∧ SoundReg cpuEntry 0 2 ∧ (rg cpuEntry 0 1).val.toNat < 2 ^ 15 := ⟨⟨rfl, rfl, rfl, rfl, rfl⟩, rfl, rfl, rfl, rfl, rfl, by decide⟩
theorem wit_WaitsComplete_latched : let s := { cpuEntry with threads := [(0, { thr cpuEntry 0 with latch := some 100000#64 })] }
    Ready s 0 s ∧ (thr s 0).latch = some 100000#64 ∧ hasRelease s 0 = true := ⟨⟨rfl, rfl, rfl, rfl, rfl⟩, rfl, rfl⟩
theorem test_waitslot_takes_latch :
    rg (after (exec (.waitslot 0 4 0 0 0) { cpuEntry with threads := [(0, { thr cpuEntry 0 with latch := some 100000#64 })] })) 0 4 = gen 100000 := by decide +kernel

/-- As `cpuM`, with the line M in the L2 too. -/
def cpuL2 : State := { cpuM with quads := [(0, { l2 := [(0x4000001, some (.M, {}))] })] }

theorem wit_CacheOperationsComplete : Ready cpuL2 0 cpuL2 ∧ (∃ s1, cacheAddr cpuL2 0 (encI 0x38 4 1 0) 1 0 = .inl (0x100000040, s1) ∧ (thr s1 0).stores = [] ∧
      (∃ y, l2 (quadDowngrade s1 0 0x4000001) 0 0x4000001 = some (.M, y)) ∧ (l2 s1 0 0x4000001).isSome = true ∧
      (track (l2Evict s1 0 0x4000001) 0 0x4000001).isSome = true) ∧
    (∃ s1, cacheAddr cpuM 0 (encI 0x38 5 1 0) 1 0 = .inl (0x100000040, s1) ∧ l2 s1 0 0x4000001 = none) ∧ (thr cpuL2 0).level = .M ∧ isSound (rg cpuBad 0 1) = false ∧
    (∃ s1, xlate (cpu [(1, gen vaM)]) 0 .load vaM = (.ok 0x100000040 0, s1) ∧ destOf s1 0 0x100000040 0 = .mem true ∧ l2 s1 0 0x4000001 = none ∧
      l1d s1 0 0x4000001 = none) :=
  ⟨⟨rfl, rfl, rfl, rfl, rfl⟩, ⟨_, rfl, rfl, ⟨_, rfl⟩, rfl, by decide +kernel⟩, ⟨_, rfl, rfl⟩, rfl, rfl, ⟨_, rfl, rfl, rfl, rfl⟩⟩
/-- As `cpuL2`, with a store that has not drained, or with no copy in the L1D. -/
def cpuL2s : State := { cpuL2 with threads := [(0, { thr cpuL2 0 with stores := [{ word := 0x20000020, mask := 255, val := gen 1, full := true }] })] }
def cpuL2d : State := { cpuL2 with cores := [(0, { l1i := codeLine, l1iRepl := [(0, 11)] })] }

theorem wit_CacheOperationsComplete_drains : Ready cpuL2s 0 cpuL2s ∧
    ∃ s1, cacheAddr cpuL2s 0 (encI 0x38 1 1 0) 1 0 = .inl (0x100000040, s1) ∧ (thr s1 0).stores ≠ [] := ⟨⟨rfl, rfl, rfl, rfl, rfl⟩, _, rfl, by decide +kernel⟩
theorem wit_CacheOperationsComplete_prefetch : (l1d cpuM 0 0x4000001).isSome = true ∧ l1d cpuL2d 0 0x4000001 = none ∧ (quadData cpuL2d 0 0x4000001).1.isSome = true ∧
    (l2 cpuL2d 0 0x4000001).isSome = true ∧ trackCount cpuL2 0 < 256 ∧ track cpuL2 0 0x4000001 = none := by decide +kernel

/-- Thread 0 reaches points 0 to 9; g1 = 7. -/
def cpuPt : State :=
  { cpuA with rig := { parts := [(0, some { part := { quads := 1 }, ranges := [(0x100000000, 0x1000000)], points := [{ first := 0, count := 10, cls := 0, read := true, write := true, sub := true }] })] } }

theorem wit_PointInstructionsComplete : Ready cpuPt 0 cpuPt ∧ injArmed cpuPt 0 1 = false ∧ isSound (rg cpuPt 0 1) = true ∧ isSound (rg cpuPt 0 2) = true ∧
    isSound (rg cpuPt 0 3) = true ∧ (rg cpuPt 0 1).val.toNat < ptCount cpuPt ∧ ptRight cpuPt 0 .read 7 = true ∧ ptRight cpuPt 0 .write 7 = true ∧
    ptRight cpuPt 0 .cw 7 = true ∧ ptRight cpuPt 0 .sub 7 = true := ⟨⟨rfl, rfl, rfl, rfl, rfl⟩, rfl, rfl, rfl, rfl, by decide, rfl, rfl, rfl, rfl⟩
theorem wit_PointRightsTrap : Ready cpuA 0 cpuA ∧ isPoisoned (rg cpuA 0 1) = false ∧ isPoisoned (rg cpuA 0 2) = false ∧ ptRight cpuA 0 .read 7 = false ∧
    ptCount cpuA ≤ (rg cpuA 0 3).val.toNat := ⟨ready_cpuA, rfl, rfl, rfl, by decide⟩
theorem test_psrd_out_of_reach : (thr (after (exec (.psrd 0 4 1 0 0) cpuA)) 0).m.cause = 0x0F ∧ (thr (after (exec (.psrd 0 4 1 0 0) cpuA)) 0).m.tval = 7 := by
  decide +kernel

/-! ### Witnesses: registers, threads and start-up -/

/-- The rails are on and start-up has ended. -/
def on : State := { boot := { rails := true, hk := true, pwrEn := true, commOk := true, step := 9 } }

/-- The power domain is ON. -/
def dom (s : State) (d : Nat) : State := setR s .PWR_DOM_STS 1 0 d

/-- The domains that register accesses below need. -/
def onDom : State := [0, 256, 384, 400, 408, 410, 416, 417, 418].foldl dom on

/-- The module at a step of start-up. -/
def atStep (n : Nat) : State := { boot := { rails := true, hk := true, pwrEn := true, commOk := true, step := n } }

theorem wit_StepRunsFront : ({ on with pending := [Instr.pwrEnFall] } : State).pending = .pwrEnFall :: [] := rfl
theorem wit_IdleStepCountsEpoch : on.pending = [] ∧ on.boot.rails = true ∧ on.epochFrac < 2 ^ 32 ∧ -(2 ^ 31 : Int) ≤ epochRate on := by decide +kernel

/-- Answers in flight to thread 0. -/
def answered (w : Option Wait) (reg : List RegMsg) (ps : List PsMsg) : State := { on with threads := [(0, { wait := w })], regNet := reg, psNet := ps }

theorem wit_RegisterAccessesComplete_read :
    let m : RegMsg := { thread := 0, addr := 0, write := false, answer := true, word := gen 3 }
    let s := answered (some (.regRead 4 0)) [m] []
    s.regNet.find? (fun m => m.thread = 0 && m.answer && (m.write == false) && arrivedPkt s m.pkt) = some m ∧
    (let s' : State := ejectPkt { s with regNet := s.regNet.erase m } m.pkt
     (thr s' 0).wait = some (.regRead 4 0) ∧ isSound m.word = true ∧ injArmed s' 0 1 = false) := by decide +kernel
theorem test_reg_data_lands : rg (after (exec (.regData 0) (answered (some (.regRead 4 0))
    [{ thread := 0, addr := 0, write := false, answer := true, word := gen 3 }] []))) 0 4 = gen 3 := by decide +kernel
theorem wit_RegisterAccessesComplete_write :
    let m : RegMsg := { thread := 0, addr := 0, write := true, answer := true }
    let s := answered (some .regWrite) [m] []
    s.regNet.find? (fun m => m.thread = 0 && m.answer && (m.write == true) && arrivedPkt s m.pkt) = some m ∧
    (thr (ejectPkt { s with regNet := s.regNet.erase m } m.pkt) 0).wait = some .regWrite := by decide +kernel
theorem wit_RegisterAccessesComplete_stray : strayOf on .bowline (blkBase .host 0) = none ∧ strayOf on .bowline (blkBase .host 0 + 4) = some .misaligned ∧
    strayOf on (.host 0) (blkBase .bowl 0) = some .closed ∧ strayOf on .bowline 0x8000000000 = some .unmapped := by decide +kernel
theorem wit_PointInstructionsComplete_answer : let m : PsMsg := { thread := 0, kind := .read, point := 7, answer := some (.ok (gen 3) (some (gen 4))) }
    let s := answered (some (.point 4 true)) [] [m]
    psAnswer? s 0 = some (m, .ok (gen 3) (some (gen 4))) ∧ (thr s 0).wait = some (.point 4 true) ∧ isFailed (gen 3) = false ∧
    injArmed (ejectPkt { s with psNet := s.psNet.erase m } m.pkt) 0 1 = false := by decide +kernel
theorem test_point_answer_lands : let m : PsMsg := { thread := 0, kind := .read, point := 7, answer := some (.ok (gen 3) (some (gen 4))) }
    (rg (after (exec (.psRsp 0) (answered (some (.point 4 true)) [] [m]))) 0 4, rg (after (exec (.psRsp 0) (answered (some (.point 4 true)) [] [m]))) 0 5) = (gen 3, gen 4) := by
  decide +kernel
theorem wit_RegisterAccessesComplete_access : regAccess (answered none [{ thread := 0, addr := 0, write := false, answer := false, word := ⟨0, 0⟩ }] []) 0 false = some { thread := 0, addr := 0, write := false, answer := false, word := ⟨0, 0⟩ } ∧
    regAccess (answered none [{ thread := 0, addr := 0, write := true, answer := false, word := gen 4 }] []) 0 true = some { thread := 0, addr := 0, write := true, answer := false, word := gen 4 } ∧ isSound (gen 4) = true ∧ isSound ⟨4, 5⟩ = false := by decide +kernel
theorem wit_CoreWritesComplete : regDead onDom ⟨.CORE_CTXID, 0, 0, 0⟩ = false ∧ regDead onDom ⟨.CORE_THSTART, 0, 3, 0⟩ = false ∧ regDead onDom ⟨.CORE_L0CTL, 0, 1, 0⟩ = false ∧
    regDead onDom ⟨.CORE_MODE, 0, 0, 0⟩ = false ∧ regDead onDom ⟨.CORE_CTL, 0, 0, 0⟩ = false ∧ regDead onDom ⟨.CORE_TALLY_INJ, 0, 0, 0⟩ = false ∧
    regDead onDom ⟨.CORE_IPI, 0, 0, 0⟩ = false ∧ coreWriter onDom .bowline 0 = true ∧ coreWriter onDom (.host 0) 0 = false := by decide +kernel

/-- Thread 0 at M, running, with its M bank. -/
def irqThread (k : CrBank) (r : RunSt) : State := { cpuA with threads := [(0, { pc := 0x100000000, run := r, m := k })] }

theorem wit_ThreadEventsComplete : let a := irqThread { ip := 2, ie := 2, status := 1 } .run
    wfiCheck a 0 = a ∧ deadlineDue a 0 = none ∧ interruptible a 0 = true ∧ (thr a 0).run ≠ .wfi ∧ intrPick a 0 = some (1, .M) ∧
    ecmpPending (irqThread { ecmp := 0 } .wfi) (thr (irqThread { ecmp := 0 } .wfi) 0).m = true := by decide +kernel
theorem test_interrupt_taken : (thr (after (exec (.interruptTaken 0) (irqThread { ip := 2, ie := 2, status := 1, tvec := 0x100000400#64 } .run))) 0).m.cause
    = 0x8000000000000001#64 := by decide +kernel
theorem wit_ThreadEventsComplete_deadline : let s := { cpuA with threads := [(0, { pend06 := some 5, run := .run })] }
    deadlineDue s 0 = some 5 ∧ interruptible s 0 = true ∧ s = wfiCheck s 0 := by decide +kernel
/-- `cpuM` with two stores that have not drained, and an instruction that waits for them. -/
def drains (w : Option Wait) : State :=
  { cpuM with threads := [(0, { wait := w, stores := [{ word := 0x20000008, mask := 255, val := gen 1, full := true }] })] }

theorem wit_ThreadEventsComplete_buffers :
    (thr (drains none) 0).stores = [{ word := 0x20000008, mask := 255, val := gen 1, full := true }] ∧ (ownLine (drains none) 0 (0x20000008 / 8)).1 = true ∧
    (thr (drainOne (drains none) 0) 0).wait = none ∧
    (thr (drainOne (drains (some (.drain (.fence 0 0 0 0x41)))) 0) 0).wait = some (.drain (.fence 0 0 0 0x41)) := by decide +kernel
theorem test_store_drains : ownedWord (after (exec (.storeDrain 0) (drains none))) 0 0x20000008 = gen 1 := by decide +kernel

/-- A load of thread 0 waits for line 0x4000001, which its quad's L2 holds, in its side buffer. -/
def filling : State :=
  { cpuM with
    threads := [(0, { run := .run, pc := 0x100000000, wait := some (.fill (.ld 0 4 1 0) 0x4000001), side := [{ line := 0x4000001, filled := false, stride := false }] })]
    quads := [(0, { l2 := [(0x4000001, some (.M, {}))] })] }

theorem wit_ThreadEventsComplete_fill : let d := foldS (fun x (e : SideEntry) => if e.filled then x else fillEntry x 0 e) filling (thr filling 0).side
    (quadData filling 0 0x4000001).1.isSome = true ∧ (thr d 0).wait = some (.fill (.ld 0 4 1 0) 0x4000001) ∧
    (thr d 0).side.any (fun e => e.line == 0x4000001 && e.filled) = true := by decide +kernel
theorem wit_ThreadEventsComplete_leaks : let s := { onDom with epoch := 100000000 }
    leakDue s 2 (quadOf s 63).leakCore = true ∧ leakDue s 3 (quadOf s 63).leakL2 = true ∧ leakDue s 4 (sliceOf s 63).leak = true ∧
    leakDue s 5 (chanOf s 15).leak = true := by decide +kernel
theorem wit_StartupCompletes : (State.reset.boot.pwrEn = false ∧ on.boot.pwrEn = true ∧ State.reset.boot.hk = false ∧ on.boot.hk = true ∧ on.boot.rails = true) ∧
    stepDue { State.reset with boot := { step := 1 } } 1 = true ∧ (∀ n ∈ [2, 3, 4, 5, 6, 7, 8], stepDue (atStep n) n = true) ∧
    ((atStep 2).boot.lockLost && !true) = false ∧ bankPick 0 (some 0) none 0 = some (0, 0) ∧ bankPick 0 none (some 3) 2 = some (1, 3) ∧
    bankPick 0 (some 1) none 2 = none ∧ partIds (atStep 8) = [] := by decide +kernel
theorem wit_PowerCommandsComplete_requests : regDead onDom ⟨.PWR_DOM_REQ, 0, 0, 0⟩ = false ∧
    (let r : PowReq := { who := .bowline, dom := 419, op := 1, div := 0, taken := true }
     let s := { onDom with pow := { reqs := [r] } }
     s.pow.reqs = r :: [] ∧ r.taken = true ∧ r.dom = (419 : BitVec 9).toNat ∧ s.pow.solHold ≠ some r.dom ∧ offReady s r = true) ∧
    (let r : PowReq := { who := .bowline, dom := 256, op := 2, div := 0, taken := true }
     offReady { onDom with quads := [(0, { l2 := [(5, some (.S, {}))] })] } r = false) := by decide +kernel

/-- A module whose core 0 has policy IDLE_GATE, with its threads halted. -/
def idleCore : State :=
  { onDom with epoch := 1000, rig := { dev := { power := [2] } }, threads := [(0, { run := .halted }), (1, { run := .halted }), (2, { run := .halted }), (3, { run := .halted })] }

theorem wit_PowerCommandsComplete_gate : domPolicy idleCore 0 = 2 ∧ domState idleCore 0 = 1 ∧ (coreOf idleCore 0).gated = false ∧
    (∀ t ∈ threadsOf 0, (thr idleCore t).run = .halted ∧ (thr idleCore t).stoodAt + 1000 ≤ idleCore.epoch ∧ (thr idleCore t).stores = [] ∧ releaseNamed idleCore t = false) := by decide +kernel
theorem wit_PowerCommandsComplete_ungate :
    let s := { idleCore with cores := [(0, { gated := true })], threads := [(0, { run := .halted, m := { ip := 2 } })] }
    (coreOf s 0).gated = true ∧ anyPending s 0 = true ∧ 0 ∈ threadsOf 0 := by decide +kernel
theorem wit_PowerCommandsComplete_trip : let a := { on with epoch := 10000, pow := { trip := 2 } }
    let b := { on with epoch := 10000000, pow := { trip := 2, tripOff := true } }
    let c := { on with epoch := 100000, pow := { trip := 1 } }
    (a.pow.trip = 2 ∧ a.pow.tripOff = false ∧ a.pow.tripAt + 10000 ≤ a.epoch) ∧ (c.pow.trip = 1 ∧ c.pow.tripAt + 100000 ≤ c.epoch) ∧
    (b.pow.tripOff = true ∧ b.pow.tripAt + 10000000 ≤ b.epoch) ∧ almUnmirrored { on with pow := { tripOff := true } } = false ∧
    (b.boot.rails = true ∧ b.pow.trip ≠ 0 ∧ (List.replicate 420 (0 : BitVec 16)).length = 420) ∧ on.pow.trip = 0 ∧ on.pow.outletTrip < 999 ∧
    (105 ≤ (105 : BitVec 16).toNat) := by decide +kernel
theorem wit_PowerCommandsComplete_throttle : let s := { onDom with epoch := 1000000, pow := { thr := true } }
    let b := setThrDiv { onDom with epoch := 1000000 } 0 4
    (s.pow.thr = true ∧ s.pow.thrAt + 1000000 ≤ s.epoch ∧ (thrOrder s).find? (fun q => decide (thrDiv s q < 4)) = some 0) ∧
    (b.pow.thr = false ∧ b.pow.thrAt + 1000000 ≤ b.epoch ∧ (thrOrder b).reverse.find? (fun q => decide (2 < thrDiv b q)) = some 0) := by decide +kernel
theorem wit_PowerCommandsComplete_rest : ({ on with boot := { on.boot with debug := true } } : State).boot.debug = true ∧ on.boot.debug = false ∧
    ({ on with boot := { on.boot with lockLost := true } } : State).boot.lockLost = true := by decide +kernel
theorem wit_PowerCommandsComplete_press : let p : SvcPend := { who := .bowline, revoke := false, slot := 0, since := 0 }
    let s := { on with epoch := 50 * 100000 + 1, svc := { pend := [p] } }
    s.boot.hk = true ∧ s.boot.commOk = true ∧ 50 ≤ (50 : BitVec 16).toNat ∧ s.svc.pend = [] ++ p :: [] ∧
    (p.pressed = false ∧ p.since < s.epoch - 50 * 100000 ∧ s.epoch - 50 * 100000 ≤ p.since + 6000000000) ∧ State.reset.boot.hk = false ∧ on.svc.pend = [] := by
  decide +kernel
theorem test_press_counts : let p : SvcPend := { who := .bowline, revoke := false, slot := 0, since := 0 }
    (after (exec (.commissionPress 50 false) { on with epoch := 50 * 100000 + 1, svc := { pend := [p] } })).svc.pend = [{ p with pressed := true }] ∧
    (after (exec (.commissionPress 49 true) { on with epoch := 50 * 100000 + 1, svc := { pend := [p] } })).svc.pend = [p] := by decide +kernel
theorem test_rails_order : (after (exec (.startupRails true) { State.reset with boot := { step := 1 } })).boot.step = 2 ∧
    (after (exec .pwrEnFall on)).boot.rails = false := by decide +kernel

/-! ### Witnesses: host ports -/

/-- Port 0 is up with Memory Space and Bus Master Enable. -/
def hostOn : State := setR onDom .HOST_STS 0xC0001#64 0

theorem wit_PortEventsComplete : on.boot.rails = true ∧ State.reset.boot.rails = false ∧
    (let s := setR on .HOST_STS 2#64 0
     bit (getR s .HOST_STS 0) 1 = true ∧ (hostOf s 0).resetBy ≠ 4 ∧ (hostOf { s with hosts := [(0, { resetBy := 4 })] } 0).resetBy = 4) ∧
    (hostUp hostOn 0 = true ∧ hostReady hostOn 0 = true ∧ fieldN (getR hostOn .HOST_STS 0) 15 14 = 0 ∧ hostD3 hostOn 0 = false ∧ (cfgDw hostOn 0 102).testBit 3 = false) ∧
    (cfgDw { hostOn with hosts := [(0, { cfg := [(24, 3)] })] } 0 24).testBit 0 = true ∧ (cfgDw { hostOn with hosts := [(0, { cfg := [(24, 3)] })] } 0 24).testBit 1 = true ∧
    (cfgDw { hostOn with hosts := [(0, { cfg := [(24, 3), (102, 8)] })] } 0 102).testBit 3 = true ∧
    (let s := { setR onDom .HOST_STS 0x100001#64 0 with hosts := [(0, { resetBy := 2 })] }
     (hostOf s 0).resetBy ≠ 0 ∧ (hostOf s 0).resetBy ≠ 4 ∧ portQuiet s 0 = true ∧ bit (getR (portItems (txClear s) 0) .HOST_STS 0) 1 = false) ∧
    (let s := { setR onDom .HOST_STS 0x100003#64 0 with hosts := [(0, { resetBy := 1 })] }
     (hostOf s 0).resetBy ≠ 0 ∧ (hostOf s 0).resetBy ≠ 4 ∧ portQuiet s 0 = true ∧ bit (getR (portItems (txClear s) 0) .HOST_STS 0) 1 = true) ∧
    ((hostOf (setR onDom .HOST_STS 0 0) 0).refLost = false ∧ hostUp (setR onDom .HOST_STS 0 0) 0 = false ∧ hostDomOn (setR onDom .HOST_STS 0 0) 0 = true ∧
      bit (getR (setR onDom .HOST_STS 0 0) .HOST_STS 0) 1 = false) ∧
    bit (getR (setR onDom .HOST_STS 0x11#64 0) .HOST_STS 0) 4 = true := by decide +kernel
theorem wit_HostAccessesComplete : hostUp hostOn 0 = true ∧ hostUp (txClear hostOn) 0 = true ∧ hostReady hostOn 0 = true ∧ hostMemOk (linkWake (txClear hostOn) 0) 0 = true ∧
    hostMemOk (txClear hostOn) 0 = true ∧ (cfgDw { hostOn with hosts := [(0, { cfg := [(12, 1)] })] } 0 12).testBit 0 = true ∧
    (hostOf { hostOn with hosts := [(0, { doeBusy := true })] } 0).doeBusy = true ∧
    (hostWorld hostOn 0x100000000 8 = false ∧ hostUnmapped hostOn 0x100000000 8 = false ∧ hostWorld hostOn 0x1000 8 = true ∧ 0x100000000 % 8 = 0) ∧
    isSound (cohWord hostOn (0x100000000 / 8)).1 = true ∧
    (bar0Target hostOn 0 8 = .reg (blkBase .host 0 + 8) ∧ addrCls hostOn (blkBase .host 0 + 8) = .register ∧ isBowlAddr (blkBase .host 0 + 8) = false) ∧
    (let s := setR (setR hostOn .SLCE_STS 2#64 0 5) .SLCE_BIND 0x8000000000000000#64 0 5
     barAccepted s 0 5 none = true) ∧
    ((msixEnt { hostOn with hosts := [(0, { msix := [(4159, { due := true })] })] } 0 4159).due = true ∧
      msixBlocked { hostOn with hosts := [(0, { msix := [(4159, { due := true })] })] } 0 4159 = true) := by decide +kernel
theorem wit_HostAccessesComplete_refused : let dead := setR onDom .HOST_STS 1#64 0
    hostUp dead 0 = true ∧ hostMemOk (txClear dead) 0 = false ∧ hostMemOk (linkWake (txClear dead) 0) 0 = false ∧
    hostUnmapped hostOn 0x8000000000 8 = true ∧ hostWorld hostOn 0x8000000000 8 = false ∧
    isBowlAddr (blkBase .bowl 0) = true ∧
    barAccepted (linkWake (txClear hostOn) 0) 0 5 none = false ∧
    (let s := { hostOn with hosts := [(0, { msix := [(4159, { due := true, masked := false })] })] }
     (msixEnt s 0 4159).due = true) := by decide +kernel
theorem wit_HostAccessesComplete_read : (agentBytes (linkWake (txClear hostOn) 0) 0x100000000 8 (hostAgent 0)).2.1 = true := by decide +kernel
theorem test_host_cannot_write_secure_memory :
    memByte (after (exec (.hostMemoryWrite 0 0x1000 [0xAB] false true 0 0 0) hostOn)) 0x1000 = 0 ∧
    (after (exec (.hostMemoryWrite 0 0x1000 [0xAB] false true 0 0 0) hostOn)).alm.nextSeq = 2 := by decide +kernel
theorem test_host_writes_dram :
    (cohWord (after (exec (.hostMemoryWrite 0 0x100000000 [1, 2, 3, 4, 5, 6, 7, 8] false true 0 0 0) hostOn)) (0x100000000 / 8)).1 = gen 0x0807060504030201#64 := by decide +kernel
theorem wit_HostKeptFromSecureMemory : hostUp (txClear hostOn) 0 = true ∧ hostMemOk (linkWake (txClear hostOn) 0) 0 = true ∧ addrCls hostOn 0x1000 = .dram ∧
    0x1000 < secWm hostOn := by decide +kernel

/-! ### Witnesses: rigging, calendars and field ports -/

/-- Quad 0, a calendar with a slot of each kind, a Lanyard port 0 and a raw port 1. -/
def somePart : PartKnots :=
  { part := { quads := 1 }, ranges := [(0x100000000, 0x1000000)]
    cal := some { cycle := 100000, phase := 0, slots := [⟨0, .release, 0⟩, ⟨10, .deadline, 0⟩, ⟨20, .start, 0⟩, ⟨30, .exchange, 0⟩] }
    ports := [⟨0, false, 1, 0x88B5, 1⟩, ⟨1, true, 0, 0, 1⟩] }

/-- A module rigged with that partition 0. -/
def rigged (r : PartRun) : State :=
  { onDom with
    rig := { unrigged := false, parts := [(0, some somePart)] }
    partRun := [(0, r)]
    threads := [(0, { pc := 0x100000000, run := .run })] }

theorem wit_RiggingCommandsComplete : regDead onDom ⟨.RIG_CMD, 0, 0, 0⟩ = false ∧ rigCommander onDom .bowline = true ∧ rigIdle onDom = true ∧ isThread .bowline = false ∧
    otherPart onDom .bowline 0 = false ∧ isThread (.thread 0) = true ∧ rigHead onDom (staged onDom) .partialOnly slotRoom ≠ none ∧
    rigIdle (setR onDom .RIG_STS 8#64 0) = false ∧ otherPart (rigged { st := .running }) (.thread 0) 1 = true ∧
    (let s := rigged { st := .running }
     (prun s 0).rewiring = false ∧ (prun s 0).st = .running ∧ (knots s 0).part.selfParkOnly = false ∧ (prun s 0).park = .none ∧ (prun s 0).calRunning = false) ∧
    (let s := rigged { st := .running, calRunning := true }
     (prun s 0).calRunning = true ∧ (knots s 0).cal = somePart.cal) ∧
    (let s := rigged { st := .rigged }
     underTest s 0 = false ∧ (prun s 0).st = .rigged ∧ partFenced s 0 = false) ∧
    (let s := rigged { st := .parked }
     underTest s 0 = false ∧ (prun s 0).st = .parked ∧ partFenced s 0 = false ∧ partTested s 0 = false) := by decide +kernel
theorem wit_RiggingCommandsComplete_drain :
    (let s := { cpuA with partRun := [(0, { st := .running, park := .waiting })] }
     (prun s 0).park = .waiting ∧ (prun s 0).parkAt ≤ s.epoch ∧ (knots s 0).cal = none) ∧
    (let s := { rigged { st := .running, park := .draining } with threads := [] }
     (prun s 0).park = .draining ∧ drained s 0 = true ∧ s.epoch ≤ (prun s 0).drainAt + 1000000) ∧
    (let s := { rigged { st := .running, park := .draining } with epoch := 1000000 }
     (prun s 0).drainAt + 1000000 ≤ s.epoch) ∧
    (let w : Rewire := { part := 0, image := List.replicate 8 0 ++ [0x70, 1, 0, 0], since := 0 }
     let s := { onDom with epoch := 20000000, rewire := some w }
     s.rewire = some w ∧ w.since + 20000000 ≤ s.epoch ∧ s.epoch ≤ w.since + 20000000 ∧ (rigKnots w.image).isLeft = true) := by decide +kernel

/-- The calendar runs, at an epoch before which every earlier slot has acted. -/
def ticking (e : Nat) : State :=
  { rigged { st := .running, calRunning := true, slotLast := [(0, 1), (1, 11), (2, 21)].filter (fun x => decide (x.2 ≤ e)) } with epoch := e }

theorem wit_CalendarEventsComplete :
    slotDue (ticking 0) 0 0 .release = some (⟨0, .release, 0⟩, 0) ∧ slotDue (ticking 10) 0 1 .deadline = some (⟨10, .deadline, 0⟩, 10) ∧
    (thr (slotActed (ticking 10) 0 1 10) 0).complete = true ∧
    (let s := { ticking 10 with threads := [(0, { complete := false })] }
     (thr (slotActed s 0 1 10) 0).complete = false ∧ slotDue s 0 1 .deadline = some (⟨10, .deadline, 0⟩, 10)) ∧
    slotDue (ticking 20) 0 2 .start = some (⟨20, .start, 0⟩, 20) ∧ blkState (slotActed (ticking 20) 0 2 20) (chanBlock 0) = 0 ∧
    (∀ st ∈ [1, 2], let s := setR (ticking 20) .RIG_SPLICE (BitVec.ofNat 64 (0x100 + st)) 0 (chanBlock 0)
     slotDue s 0 2 .start = some (⟨20, .start, 0⟩, 20) ∧ blkState (slotActed s 0 2 20) (chanBlock 0) = st ∧ chanOwner (slotActed s 0 2 20) 0 = (1, 0)) ∧
    (slotDue (ticking 30) 0 3 .exchange = some (⟨30, .exchange, 0⟩, 30) ∧ (gridCal (ticking 30) 0).bind (fun c => exchSlot c 0) = some (3, 30) ∧
     lanyardNext (slotActed (ticking 30) 0 3 30) 0 = some (0, ⟨0, false, 1, 0x88B5, 1⟩, 0, 0, 30)) := by decide +kernel
theorem test_slots_act_in_turn : slotDue { ticking 10 with partRun := [(0, { st := .running, calRunning := true })] } 0 1 .deadline = none := by decide +kernel
theorem wit_CalendarEventsComplete_start :
    (let s := { rigged { st := .running } with epoch := 100000 }
     (knots s 0).cal.isSome = true ∧ (prun s 0).st = .running ∧ (prun s 0).park = .none ∧ (prun s 0).calRunning = false ∧
     calStartAt s 0 { cycle := 100000, phase := 0, slots := [] } ≤ s.epoch) ∧
    (let s := setR { onDom with epoch := 300000000 } .CLK_EPOCH_STS 2 0
     fieldN (getR s .CLK_EPOCH_STS 0) 2 0 = 2 ∧ s.time.lastMark + 300000000 ≤ s.epoch) ∧
    (let s := setR onDom .CLK_EPOCH_STS 0x100#64 0
     fieldN (getR s .CLK_EPOCH_STS 0) 9 8 = 1 ∧ s.time.tod = none ∧ fieldN (getR onDom .CLK_EPOCH_STS 0) 9 8 ≠ 1) ∧
    (let m : TodMsg := { sec := 12, off := 37, q := 1, ended := 0, ok := true }
     let s := { setR onDom .CLK_EPOCH_STS 0x100#64 0 with epoch := 1000000, time := { tod := some m } }
     markAccepted s m (s.epoch * 10 + 9) = true ∧ markAccepted s m 9999999 = false) ∧
    parseTod [] = none ∧ regDead onDom ⟨.CLK_EPOCH_CTL, 0, 0, 0⟩ = false := by decide +kernel
theorem wit_CalendarEventsComplete_tighten :
    let m : TightenMsg := { thread := 0, output := 9, fn := 1, val := 18, word := 0 }
    let s (st : Nat) : State := { cpuA with
      threads := [(0, { wait := some (.guard 4) })], tightNet := [m],
      stoppers := [(9, { part := 0, st := st, min := 10, max := 20, slew := 100, safe := 15, ramp := 1, stale := 5, out := 15, target := 15 })] }
    let x := creditDone (ejectPkt { s 2 with tightNet := (s 2).tightNet.filter (· != m) } m.pkt) m.pkt
    (s 2).tightNet.find? (fun m => m.output = 9 && arrivedPkt (s 2) m.pkt) = some m ∧ (thr x 0).wait = some (.guard 4) ∧
    tightenRefused x 0 9 1 18 = false ∧ tightenRefused (s 0) 0 9 1 18 = true := by decide +kernel
/-- "KTOD,1700000000,37,1*" with its checksum: XOR of the bytes up to and with the star. -/
theorem test_tod_line : parseTod ([0x4B, 0x54, 0x4F, 0x44, 0x2C, 0x31, 0x32, 0x2C, 0x33, 0x37, 0x2C, 0x31, 0x2A, 0x30, 0x30, 0x0D, 0x0A].map (BitVec.ofNat 8))
    = some (12, 37, 1, false) := by decide +kernel
theorem wit_FieldEventsComplete : portRec (ticking 30) 0 = some (0, ⟨0, false, 1, 0x88B5, 1⟩) ∧ portRec (ticking 30) 1 = some (0, ⟨1, true, 0, 0, 1⟩) ∧
    bayOn (ticking 30) 0 = true ∧ lanyardNext (ticking 30) 0 = some (0, ⟨0, false, 1, 0x88B5, 1⟩, 0, 0, 30) ∧ portMode (ticking 30) 0 ≠ 0 ∧
    (gridCal (ticking 30) 0).isSome = true ∧ (gridCal (ticking 30) 0).bind (fun c => exchSlot c 0) = some (3, 30) ∧
    (prun (ticking 30) 0).acted < 8 ∧ slotBefore (ticking 30) 0 3 30 = false ∧
    (let m : CallMsg := { cycle := 0, epoch := 0, nodes := 1, sections := [] }
     let s := { ticking 30 with ports := [(0, { call := some m })] }
     (portOf s 0).call = some m ∧ bayOn s 0 = true) ∧
    portMode (ticking 30) 0 = 1 ∧ portMode (ticking 30) 1 = 2 ∧
    (let s := setR (setR (ticking 30) .FBAY_RAW_CTL 1 0 1) .FBAY_RAW_IDX 0x0000000100000001#64 0 1
     rawRuns s 1 0 = true ∧ fieldN (getR s .FBAY_RAW_IDX 0 1) 15 0 ≠ fieldN (getR s .FBAY_RAW_IDX 0 1) 31 16 ∧
     fieldN (getR s .FBAY_RAW_IDX 0 1) 47 32 ≠ fieldN (getR s .FBAY_RAW_IDX 0 1) 63 48) ∧ rawRuns (ticking 30) 1 0 = false ∧
    bit (getR (setR (ticking 30) .FBAY_PORT_STS 0x100#64 0 0) .FBAY_PORT_STS 0 0) 8 = true ∧ bit (getR (ticking 30) .FBAY_PORT_STS 0 0) 8 = false ∧
    ((portOf (ticking 400000) 0).lostOnce = false ∧ (portOf (ticking 400000) 0).beacon + 400000 ≤ (ticking 400000).epoch) ∧
    portWriter (ticking 30) (.thread 0) 0 = true ∧ portWriter (ticking 30) (.host 0) 0 = false ∧
    regDead (ticking 30) ⟨.FBAY_RAW_IDX, 0, 1, 0⟩ = false ∧ regDead (ticking 30) ⟨.FBAY_RAW_CTL, 0, 1, 0⟩ = false := by
  decide +kernel

/-- A broadcast frame passes the filter, whatever the port's address. -/
theorem wit_FieldEventsComplete_filter : rawFilter (ticking 30) 1 (List.replicate 60 0xFF) = true := by
  unfold rawFilter
  dsimp only
  have h : beNat (slice (List.replicate 60 (0xFF : Byte)) 0 6) = 2 ^ 48 - 1 := by decide +kernel
  rw [h]
  rw [show decide ((2 : Nat) ^ 48 - 1 = 2 ^ 48 - 1) = true from by decide, Bool.or_true, Bool.true_or, Bool.true_or]

/-! ### Witnesses: mesh, coherence and memory -/

/-- One coherence message in flight. -/
def flying (op : BitVec 6) (holder line : Nat) : State := { onDom with net := [{ op := op, holder := holder, line := line }] }

theorem wit_MeshRequestsComplete : linkOk 0 0 = true ∧ linkOk 83 0 = true ∧ (takeMsg (flying 7 71 5) (fun m => m.op = 7 && m.holder = 71 && m.line = 5)).isSome = true ∧
    (flying 4 63 5).net.any (fun m => m.op = 4 && m.holder = 63 && m.line = 5) = true ∧
    (flying 1 71 5).net.any (fun m => m.op = 4 && m.holder = 71 && m.line = 5) = false ∧ (List.replicate 8 (0 : Word)).length = 8 := by decide +kernel
theorem test_absent_link_carries_nothing : linkOk 0 1 = false ∧ after (exec (.flitHcrcFail 0 1 5 7) onDom) = onDom ∧
    after (exec (.malformedFlit 0 1) onDom) = onDom := by decide +kernel

/-- Snoop responses awaited of quad 3 at the home of line 5. -/
def awaiting (op : BitVec 6) : State :=
  { flying op 3 5 with slices := [(homeOf onDom 5, { txns := [{ req := { op := 2, holder := 4, line := 5 }, phase := .snoop, await := [3] }] })] }

theorem wit_SnoopsComplete : (takeMsg (flying 0x10 63 5) (fun m => m.op = 0x10 && m.holder = 63 && m.line = 5)).isSome = true ∧
    (takeMsg (awaiting 0x2D) (fun m => m.op = 0x2D && m.holder = 3 && m.line = 5)).any (fun x =>
      (txnOf x.2 (homeOf (awaiting 0x2D) 5) 5).any (fun t => t.await.contains 3 && !(true && t.dataDirty) && t.await.erase 3 == [] && t.phase != .rebuild)) = true ∧
    (takeMsg (flying 0x2A 3 5) (fun m => m.op = 0x2A && m.holder = 3 && m.line = 5)).any (fun x => (txnOf x.2 (homeOf (flying 0x2A 3 5) 5) 5).isNone) = true ∧
    (∀ m ∈ onDom.net, m.op ≠ 0x2A ∨ m.holder ≠ 3 ∨ m.line ≠ 5) := by
  decide +kernel

/-- Quad 3 waits for line 5. -/
def tracking (op : BitVec 6) (st : LSt) : State := { flying op 3 5 with quads := [(3, { l2 := [(5, some (.S, {}))], track := [(5, some { st := st })] })] }

theorem wit_GrantsComplete : (takeMsg (flying 0x20 70 5) (fun m => m.op = 0x20 && m.holder = 70 && m.line = 5)).isSome = true ∧
    (takeMsg (tracking 0x20 .IS) (fun m => m.op = 0x20 && m.holder = 3 && m.line = 5)).any (fun x => (track x.2 3 5).any (fun t => t.st == .IS)) = true ∧
    (takeMsg (tracking 0x22 .IM) (fun m => m.op = 0x22 && m.holder = 3 && m.line = 5)).any (fun x => (track x.2 3 5).any (fun t => t.st == .IM)) = true ∧
    (takeMsg (tracking 0x23 .SM) (fun m => m.op = 0x23 && m.holder = 3 && m.line = 5)).any (fun x =>
      (track x.2 3 5).any (fun t => t.st == .SM) && (l2 x.2 3 5).isSome) = true ∧
    (∀ op ∈ [(0x25 : BitVec 6), 0x26, 0x27, 0x28, 0x29], (takeMsg (tracking op .IS) (fun m => m.op = op && m.holder = 3 && m.line = 5)).any (fun x =>
      x.1.thread.isNone && (quadThreads 3).all (fun u => (thr x.2 u).wait.isNone)) = true) := by decide +kernel
/-- A message of thread 48's own request for line 5 in flight, which it waits for. -/
def owned (op : BitVec 6) (w : Wait) : State :=
  { onDom with net := [{ op := op, holder := 3, line := 5, data := Line.zero, thread := some 48 }], threads := [(48, { wait := some w })] }

theorem wit_GrantsComplete_threads :
    (takeMsg (owned 0x24 (.once 4 320 8 false 0 0)) (fun m => m.op = 0x24 && m.holder = 3 && m.line = 5)).any (fun x =>
      x.1.thread == some 48 && (thr x.2 48).wait == some (.once 4 320 8 false 0 0) && !injArmed x.2 48 1 && isSound (lineWord x.1.data (wordInLine 320))) = true ∧
    (takeMsg (owned 0x3A (.once 4 320 32 false 0 0)) (fun m => m.op = 0x3A && m.holder = 3 && m.line = 5)).any (fun x =>
      (thr x.2 48).wait == some (.once 4 320 32 false 0 0) && (onceLanes x.1.data 320).all isSound) = true ∧ 320 / 64 = 5 ∧
    (takeMsg (owned 0x26 (.wrAck 5)) (fun m => m.op = 0x26 && m.holder = 3 && m.line = 5)).any (fun x => (thr x.2 48).wait == some (.wrAck 5)) = true ∧
    (takeMsg (owned 0x29 (.wrAck 5)) (fun m => m.op = 0x29 && m.holder = 3 && m.line = 5)).any (fun x =>
      x.1.thread == some 48 && (thr x.2 48).wait == some (.wrAck 5)) = true := by decide +kernel
theorem wit_GrantsComplete_waiter : let s := { tracking 0x27 .IS with threads := [(48, { wait := some (.fill (.ld 48 4 1 0) 5) })] }
    (takeMsg s (fun m => m.op = 0x27 && m.holder = 3 && m.line = 5)).any (fun x => (thr x.2 48).wait == some (.fill (.ld 48 4 1 0) 5) &&
      (quadThreads 3).all (fun u => u == 48 || (thr x.2 u).wait.isNone)) = true := by decide +kernel
theorem wit_GrantsComplete_home : let s (op : BitVec 6) (p : TPhase) : State :=
      { flying op 3 5 with epoch := 100000, slices := [(homeOf onDom 5, { txns := [{ req := { op := 1, holder := 3, line := 5 }, phase := p }] })] }
    (∀ e ∈ [((0x30 : BitVec 6), TPhase.mem), (0x3B, .mem), (0x31, .flush), (0x31, .grant)], (takeMsg (s e.1 e.2) (fun m => m.op = e.1 && m.line = 5)).any (fun x =>
      x.1.holder == 3 && (txnOf x.2 (homeOf (s e.1 e.2) 5) 5).any (fun t => t.phase == e.2 && t.req.holder == 3)) = true) ∧
    (txnOf (s 0x30 .mem) (homeOf (s 0x30 .mem) 5) 5).any (fun t => decide (t.since + 100000 ≤ (s 0x30 .mem).epoch)) = true := by decide +kernel

/-- One page-code transfer in flight. -/
def pcFlying (m : PcMsg) : State := { onDom with pcNet := [m] }

theorem wit_MemoryCommandsComplete_pages :
    (takePc (pcFlying { kind := .note, page := 9, dst := 0, src := 3 }) (fun y => y.kind == .note && !y.ack && y.src = 3 && y.page = 9)).isSome = true ∧
    (takePc (pcFlying { kind := .repair, page := 9, dst := 0, src := 3 }) (fun y => y.kind == .repair && y.src = 3 && y.page = 9)).isSome = true ∧
    (takePc (pcFlying { kind := .gather, page := 9, dst := 3, src := 0 }) (fun y => y.kind == .gather && y.dst = 3 && y.page = 9)).isSome = true ∧
    (takePc (pcFlying { kind := .release, page := 9, dst := 3, src := 0 }) (fun y => y.kind == .release && y.dst = 3 && y.page = 9)).isSome = true ∧
    (takePc (pcFlying { kind := .write, page := 9, dst := 3, src := 0, line := 2 }) (fun y => y.kind == .write && !y.ack && y.dst = 3 && y.page = 9 && y.line = 2)).isSome = true ∧
    (let j : PcJob := { page := 9, repair := true, requesters := [], got := [], acksLeft := 2 }
     let s := { pcFlying { kind := .data, page := 9, dst := 0, src := 3, line := 2 } with chans := [(0, { jobs := [j] })] }
     (takePc s (fun y => y.kind == .data && y.src = 3 && y.page = 9 && y.line = 2)).isSome = true ∧
     (chanOf s 0).jobs.find? (fun j => j.page = 9 && j.got.length < 64) = some j ∧ j.got.length < 63 ∧
     (chanOf s 0).jobs.find? (fun j => j.repair && j.page = 9) = some j ∧ 2 ≤ j.acksLeft) ∧
    (takePc (pcFlying { kind := .write, ack := true, page := 9, dst := 0, src := 3 }) (fun y => y.ack && y.src = 3 && y.page = 9)).isSome = true := by decide +kernel
theorem wit_MemoryCommandsComplete_last : let j (r : Bool) : PcJob := { page := 9, repair := r, requesters := [], got := List.replicate 63 (0, 0, 0, Line.zero), acksLeft := 1 }
    let s (r : Bool) : State := { pcFlying { kind := .data, page := 9, dst := 0, src := 3, line := 2 } with chans := [(0, { jobs := [j r] })] }
    (takePc (s false) (fun y => y.kind == .data && y.src = 3 && y.page = 9 && y.line = 2)).isSome = true ∧
    (chanOf (s false) 0).jobs.find? (fun j => j.page = 9 && j.got.length < 64) = some (j false) ∧ (j false).got.length = 63 ∧
    (chanOf (s true) 0).jobs.find? (fun j => j.repair && j.page = 9) = some (j true) ∧ (j true).acksLeft ≤ 1 := by decide +kernel
theorem wit_MemoryCommandsComplete_channel :
    (takeMsg (windowSettle (flying 0x14 0 5) (channelOf 320)) (fun m => m.op = 0x14 && m.line = 5)).isSome = true ∧
    (takeMsg (windowSettle (flying 0x15 0 5) (channelOf 320)) (fun m => m.op = 0x15 && m.line = 5)).isSome = true ∧
    (let s := { onDom with chans := [(3, { rebuildQ := [(9, 0)] })] }
     (∃ e ∈ (chanOf s 3).rebuildQ, e.1 = 9 ∧ e.2 ≤ s.epoch) ∧ inWindow s 3 = false ∧ (chanOf s 3).jobs = []) ∧
    (let k := (31, 65535)
     let s (c : ChanSt) : State := { onDom with chans := [(3, { c with reread := [k] })] }
     (chanOf (s {}) 3).reread.contains k = true ∧ (chanOf (s {}) 3).spares < 2048 ∧ (chanOf (s {}) 3).spared.contains k = false ∧
     2048 ≤ (chanOf (s { spares := 2048 }) 3).spares ∧ (chanOf (s { spared := [k] }) 3).spared.contains k = true) ∧
    firstUnscrubbed { onDom with unscrubbed := [(0x1000000, 16)] } 3 = some 0x1000003 ∧ inWindow onDom 3 = false ∧
    fieldN (getR onDom .MCH_SCRUB 3) 33 0 + 1 < 285212672 ∧ 285212672 ≤ fieldN (getR (setR onDom .MCH_SCRUB 285212671#64 3) .MCH_SCRUB 3) 33 0 + 1 ∧
    (let s := windowSettle { onDom with epoch := 600001 } 3
     (s.epoch + 3200000 - 200000 * 3) % 3200000 ≤ 1 ∧ (chanOf s 3).inCal = false ∧ (chanOf s 3).calStart + 1 < s.epoch) ∧
    (let s := { onDom with chans := [(3, { inCal := true, patternRunning := true })] }
     (chanOf s 3).inCal = true ∧ (chanOf s 3).patternRunning = true) ∧
    regDead onDom ⟨.MCH_DIAG, 0, 0, 0⟩ = false ∧ mchWriter .bowline = true ∧ mchWriter (.host 0) = false ∧ regDead onDom ⟨.MCH_SPLIT_ADDR, 0, 0, 0⟩ = false := by
  decide +kernel
theorem wit_LineWriteReadsBack : (∀ l ∈ [0x4000000, 0x4000001, 0x4000002, 0x4000003], ptOfLine onDom l = none) ∧ isUnscrubbed onDom 0x1000000 = false := by decide +kernel
theorem test_word_code_single : wordDecode (gen 1) (BitVec.ofNat 8 (wordColumns.getD 0 0)) = .corrected ⟨0, 1⟩ := by decide +kernel
theorem test_line_write : memWord (putLine onDom 0x4000000 ((List.range 8).map (fun i => gen (BitVec.ofNat 64 (i + 1))))) (8 * 0x4000000 + 7) = gen 8 := by decide +kernel

/-! ### Witnesses: points, engines, services and links -/

/-- A point operation of thread 0 in flight, of point 7. -/
def pointOp (k : PsKind) : State := { onDom with psNet := [{ thread := 0, kind := k, point := 7 }] }

/-- The entry of point 7 stands in its slice. -/
def pointHeld (k : PsKind) : State := { pointOp k with slices := [(7, { llc := [(ptLine onDom 7, some {})] })] }

theorem wit_PointStoreCompletes : (pointOp .read).psNet.find? (fun m => m.thread = 0 && m.answer.isNone && m.kind == .read && arrivedPkt (pointOp .read) m.pkt)
      = some { thread := 0, kind := .read, point := 7 } ∧
    (pointOp .read).ps.wait = [] ∧ (pointOp .read).ps.fetch = [] ∧ ptCached (pointOp .read) 7 = false ∧ ptCached (pointHeld .cw) 7 = true ∧
    ({ onDom with ps := { fetch := [7] } } : State).ps.fetch.contains 7 = true ∧ 16777215 < ptCount onDom ∧
    isSecondary { onDom with rig := { dev := { hawser := [{ role := 2, mirror := true }] } } } = true ∧
    ({ onDom with ps := { notes := [default] } } : State).ps.notes = [default] ∧ ((pointOp .read).ps.fetch.filter (fun p => ptHome p == ptHome 7)).length < 32 ∧
    regDead onDom ⟨.PST_CMD, 0, 0, 0⟩ = false ∧ regDead onDom ⟨.PST_NQ_IDX, 0, 4095, 0⟩ = false := by decide +kernel
theorem test_point_compare_and_write :
    let s := { pointHeld .cw with psNet := [{ thread := 0, kind := .cw, point := 7, b := gen 0, c := gen 9 }] }
    lineWord (ptGet (after (exec (.engineCw 0 false) s)) 7) 0 = gen 9 := by decide +kernel
theorem wit_DmaCompletes :
    (let s := { onDom with epoch := 100, dma := [(255, { st := 1, loaded := true, retryAt := some 0 })] }
     (dmaOf s 255).retryAt = some 0 ∧ (dmaOf s 255).st = 1 ∧ 0 + 100 ≤ s.epoch ∧ (dmaOf s 255).loaded = true) ∧
    regDead (txClear onDom) ⟨.DMA_CH_CTL, 0, 255, 0⟩ = false ∧
    (let s := { onDom with hostNet := [{ port := 1, ch := 255, len := 16 }] }
     s.hostNet.find? (fun r => r.ch = 255 && r.port = 1) = some { port := 1, ch := 255, len := 16 } ∧ (dmaOf s 255).got = none ∧ 16 ≤ [(0 : Word), 0].length * 8) := by decide +kernel
/-- DMA channel 255 of Cordage copies DRAM. -/
def copying (c : DmaChan) : State := { setR onDom .RIG_SPLICE 0x201#64 0 23 with dma := [(255, { c with st := 1 })] }

theorem wit_DmaCompletes_burst :
    (let s := copying { loaded := true, slot := true, src := 0x100000000, dst := 0x100001000, len := 64, residue := 64 }
     let c := dmaOf s 255
     c.st = 1 ∧ c.retryAt = none ∧ c.loaded = true ∧ c.slot = true ∧ s.hostNet = [] ∧ s.hawsNet = [] ∧ c.bad = 0 ∧ c.wrote = false ∧ c.srcSp = 0 ∧
     devTo (txClear s) 255 (dmaSrc c) = .dram ∧ (devWords (txClear s) 255 (dmaSrc c) (burstLen c)).2.1 = false) ∧
    (let s := copying { ptr := 0x100000000 }
     let c := dmaOf s 255
     c.st = 1 ∧ c.loaded = false ∧ c.cmd = none ∧ c.retryAt = none ∧ s.hawsNet = [] ∧ endStatus c = none ∧ c.bad = 0 ∧ devTo (txClear s) 255 c.ptr = .dram ∧
     (devWords (txClear s) 255 c.ptr 32).2.1 = false) := by decide +kernel
theorem wit_DmaCompletes_timeout : (cfgDw onDom 1 30).testBit 4 = false ∧ 8 < 16 := by decide +kernel

/-- Slice 5 bound to port 0 with four queue pairs, the first enabled and holding one entry. -/
def sliceOn : State :=
  setR (setR (setR (setR hostOn .SLCE_STS 2#64 0 5) .SLCE_BIND 0x8000004000000000#64 0 5) .SLCE_QP_CFG 1#64 5 0) .SLCE_SQ_TAIL 1#64 5 0

/-- A point command that has begun. -/
def begun (op : Nat) : State := { sliceOn with tenants := [(5, { qps := [(0, { begun := [⟨op, 0, 1, 1, 0, 7, 0, false⟩] })] })] }

theorem wit_SliceCommandsComplete :
    (∀ r ∈ [Reg.SLCE_BIND, .SLCE_PT, .SLCE_WIN, .SLCE_POST, .SLCE_CTL], regDead (txClear onDom) ⟨r, 0, 4095, 0⟩ = false) ∧
    sliceBound sliceOn 5 = true ∧ slicePort sliceOn 5 = 0 ∧ qpOn sliceOn 5 0 = true ∧ regDead sliceOn ⟨.SLCE_QP_CTL, 5, 0, 0⟩ = false ∧
    (let s := setR sliceOn .SLCE_CTL 1 0 5
     sliceQuiescing s 5 = true ∧ bit (getR s .SLCE_STS 0 5) 0 = false ∧ sliceInflight s 5 = 0) ∧
    qpFetchable (txClear sliceOn) 5 0 = true ∧ (List.replicate 4 (0 : BitVec 64)).length = 4 ∧
    (let s := { setR sliceOn .RIG_SPLICE 0x00050401#64 0 8 with tenants := [(5, { qps := [(0, { begun := [⟨1, 0, 1, 64, 0, 7, 0, false⟩, ⟨2, 0, 1, 64, 0, 7, 0, false⟩] })] })] }
     (freeChan (txClear s) 5).isSome = true ∧ ((qpOf (txClear s) 5 0).begun.find? (fun c => c.op == 1)).isSome = true ∧
     ((qpOf (txClear s) 5 0).begun.find? (fun c => c.op == 2)).isSome = true) ∧
    (pointCmd (begun 3) 5 0 3).isSome = true ∧ upstreamOk (begun 3) 0 = true ∧ hostUp (begun 3) 0 = true ∧ hostUp onDom 0 = false ∧
    (pointCmd (begun 4) 5 0 4).isSome = true ∧
    (pointCmd (begun 5) 5 0 5).any (fun x => isSound (lineWord (ptGet (ptCheck (engCount (ptSettle (ptReach x.2 81 7) 7) (ptHome 7) 0) 7) 7) 0)) = true := by decide +kernel
theorem wit_SliceCommandsComplete_turn : fetchTurn (txClear sliceOn) 5 = true := by decide +kernel
theorem wit_ServiceCallsAndSplicesComplete : regDead onDom ⟨.RIG_SVC_CMD, 0, 0, 0⟩ = false ∧ hasBank (.thread 1023) = true ∧
    bit (getB onDom .RIG_SVC_STS .bowline) 1 = false ∧ bit (getB (setB onDom .RIG_SVC_STS .bowline 2) .RIG_SVC_STS .bowline) 1 = true ∧
    (let s := setR { onDom with epoch := 200000 } .RIG_SPLICE 0x0002000000000009#64 0 30
     blkState s 30 = 1 ∧ bit (getR s .RIG_SPLICE 0 30) 3 = true ∧ (spliceOf s 30).demandAt + fieldN (getR s .RIG_SPLICE 0 30) 63 48 * 100000 ≤ s.epoch) ∧
    (let s := setR { onDom with epoch := 1000000 } .RIG_SPLICE 2#64 0 30
     blkState s 30 = 2 ∧ blkDrained s 30 = true ∧ (spliceOf s 30).relAt + 1000000 ≤ s.epoch) ∧
    blkState (setR onDom .RIG_SPLICE 3#64 0 30) 30 = 3 ∧
    (let p : SvcPend := { who := .bowline, revoke := false, slot := 0, since := 0 }
     let s := { onDom with epoch := 6000000000, svc := { pend := [p] } }
     s.svc.pend.find? (fun p => !p.pressed && decide (p.since + 6000000000 ≤ s.epoch)) = some p) ∧
    (let p : SvcPend := { who := .bowline, revoke := true, slot := 7, since := 0, pressed := true }
     let s := { onDom with svc := { pend := [p] } }
     s.svc.pend.find? (fun p => p.pressed) = some p ∧ emptySlot s = some 0) ∧
    (let s := { setR { onDom with epoch := 100 } .BOWL_CALL_LIMIT 1 0 with threads := [(0, { callStart := some 0 })] }
     s.svc.pend.length + s.svc.fw.length < 64 ∧ (thr s 0).callStart = some 0 ∧ fieldN (getR s .BOWL_CALL_LIMIT 0) 19 0 ≠ 0 ∧ 0 + fieldN (getR s .BOWL_CALL_LIMIT 0) 19 0 * 100 ≤ s.epoch) := by decide +kernel
theorem wit_ServiceCallsAndSplicesComplete_ends :
    (let p : SvcPend := { who := .bowline, revoke := false, slot := 0, since := 0, pressed := true }
     let s := { onDom with svc := { pend := [p] } }
     s.svc.pend.find? (fun p => p.pressed) = some p ∧ emptySlot s = some 0) ∧
    ({ onDom with svc := { fw := [(.bowline, [])] } } : State).svc.fw = [(.bowline, [])] ∧ hasBank (.host 0) = false := by decide +kernel

/-- Hawser port 3 in this state, PRIMARY (1) or SECONDARY (2), with a cable and an owned block. -/
def haws (st role : Nat) (h : HawsPort) : State :=
  { setR (setR { dom onDom 413 with rig := { dev := { hawser := [{}, {}, {}, { role := role, epochSource := role == 1, mirror := true }] } } } .HAWS_STS (BitVec.ofNat 64 st) 3)
      .RIG_SPLICE 0x301#64 0 27 with haws := [(3, { h with cable := true })] }

theorem wit_HawserCompletes : hawsState (haws 0 1 {}) 3 = 0 ∧ hawsMayTrain (haws 0 1 {}) 3 = true ∧ hawsMayTrain (haws 0 0 {}) 3 = false ∧
    (∀ n ∈ [1, 2, 3], hawsState (haws n 1 {}) 3 = n) ∧ (hawsOf { haws 1 1 {} with epoch := 50000000 } 3).trainAt + 50000000 ≤ 50000000 ∧
    helloReason (haws 2 1 {}) 3 0 true 2 0 = 0 ∧ helloReason (haws 2 1 {}) 3 0 true 2 2 = 3 ∧ helloReason (haws 2 1 {}) 3 0 false 2 0 = 1 ∧
    7 ≤ (hawsOf (haws 3 1 { replays := 6 }) 3).replays + 1 ∧ (hawsKnot (haws 3 1 {}) 3).epochSource = true ∧
    (hawsOf (haws 3 1 {}) 3).timeAt + 100000 ≤ ({ haws 3 1 {} with epoch := 100000 } : State).epoch ∧
    (let s := setR (haws 3 1 { timeOut := true }) .CLK_EPOCH_STS 0xE00#64 0
     (hawsOf s 3).timeOut = true ∧ fieldN (getR s .CLK_EPOCH_STS 0) 9 8 = 2 ∧ fieldN (getR s .CLK_EPOCH_STS 0) 11 10 = 3) := by decide +kernel
theorem wit_HawserCompletes_window :
    let s (w : Word) := { setR (haws 3 1 {}) .HAWS_WIN_ACT 0x0180000000000000#64 3 15 with
      haws := [(3, { active := [(15, (w, 0x4000000000000000#64))] })] }
    SMap.get (fun _ => ((0 : Word), (0 : Word))) (hawsOf (s 1) 3).active 15 = (1, 0x4000000000000000#64) ∧
    fieldN (getR (s 1) .HAWS_WIN_ACT 3 15) 63 56 = (1 : BitVec 8).toNat ∧ fieldN (getR (s 1) .HAWS_WIN_ACT 3 15) 63 56 ≠ (255 : BitVec 8).toNat ∧
    bit (getR (s 1) .HAWS_WIN_ACT 3 15) 55 = true ∧ bit (0x4000000000000000#64) 62 = true ∧ bit (0x4000000000000000#64) 61 = false ∧
    (let l := 0x100000001#64
     fieldN l 51 21 * 0x200000 ≤ 0x1001FFFFF ∧ 0x1001FFFFF < fieldN l 51 21 * 0x200000 + fieldN l 15 0 * 0x200000) ∧
    ownerReach (s 1) (blkOwner (s 1) 27).1 (blkOwner (s 1) 27).2 0x1001FFFFF = .ok ∧
    ownerReach (s 1) (blkOwner (s 1) 27).1 (blkOwner (s 1) 27).2 0x8000000000 = .unmapped ∧
    ownerReach (s 1) 2 0 0x1000 = .secure ∧ ownerReach (s 1) 1 0 0x100000000 = .range := by decide +kernel
theorem wit_HawserCompletes_mirror :
    (let s := setR (haws 3 1 { mirrorQ := [⟨7, gen 1, 0, 0⟩] }) .HAWS_STS 0x80003#64 3
     hawsState s 3 = 3 ∧ bit (getR s .HAWS_STS 3) 19 = true ∧ (hawsKnot s 3).role = 1 ∧ (hawsOf s 3).mirrorQ = ⟨7, gen 1, 0, 0⟩ :: []) ∧
    (let s := setR (haws 3 2 {}) .HAWS_STS 0xC0003#64 3
     (hawsKnot s 3).role = 2 ∧ bit (getR s .HAWS_STS 3) 19 = true ∧ bit (getR s .HAWS_STS 3) 18 = true) ∧
    (let r : HawsReq := { port := 3, thread := 1023, write := false, pa := 0, win := 15, gen := 1, peer := 0x100000000 }
     hawsFind { onDom with hawsNet := [r] } 3 1023 0x100000000 = some r) ∧
    regDead (dom onDom 413) ⟨.HAWS_WIN_COMMIT, 3, 0, 0⟩ = false ∧ hawsWriter onDom .bowline 3 = true ∧
    (hawsOf { haws 3 1 { annSent := some 0 } with epoch := 1000000 } 3).annSent = some 0 := by decide +kernel
theorem wit_ManagementCompletes : (let s := { onDom with flash := { days := 182 } }
     s.rig.dev.ageInterval ≠ 0 ∧ s.rig.dev.ageInterval ≤ s.flash.days) ∧
    regDead onDom ⟨.SOL_CMD, 0, 0, 0⟩ = false ∧ isMgmt (.mgmt 0) = true ∧
    (let s := { onDom with pow := { solTodo := [410] } }
     solLeft s = [410] ∧ s.pow.solTodo ≠ [] ∧ s.pow.solHold = none ∧ s.pow.trip = 0 ∧ domState s 410 = 1 ∧ holdSpan s 410 = true ∧ domTested s 410 = false) ∧
    ({ onDom with pow := { solHold := some 410 } } : State).pow.solHold = some 410 ∧
    (let s := { onDom with epoch := 8640000000000, pow := { solTodo := [410] } }
     solLeft s = [410] ∧ s.pow.solHold = none ∧ s.pow.solSince + 8640000000000 ≤ s.epoch) ∧ on.boot.step = 9 ∧ on.boot.stopped = false ∧
    on.mgmt.snapAt + 10000000 ≤ ({ on with epoch := 10000000 } : State).epoch ∧
    (let n : Snapshot := { gen := 5, chg := [], passes := 0, solState := 0, parts := [], splice := [] }
     let s := { onDom with mgmt := { smbus := true, snaps := [n] } }
     s.mgmt.smbus = true ∧ s.mgmt.snaps = n :: [] ∧ snapOf s 5 = some n ∧ n.passes = s.flash.passes ∧ n.solState = b2n (solRunning s)) := by decide +kernel
theorem wit_ManagementCompletes_more : solRunning on = false ∧ on.boot.rails = true ∧ on.pow.trip = 0 ∧ isBowline .bowline = true ∧ isMgmt (.host 0) = false ∧
    isBowline (.host 0) = false ∧ snapOf onDom 9 = none ∧ (0x65 : BitVec 7).toNat = 0x64 + ({ onDom with boot := { onDom.boot with maddr := 1 } } : State).boot.maddr := by
  decide +kernel

/-- Quad 1, in no partition, is selected for a run, and its domains are on. -/
def vigilOn : State := [4, 5, 6, 7, 257].foldl dom (setR onDom .VIG_MASK_QUAD 2 0)

theorem wit_VigilAndAlmanacComplete : regDead onDom ⟨.VIG_CMD, 0, 0, 0⟩ = false ∧ vigWriter onDom .bowline = true ∧ blkState onDom 28 ≠ 2 ∧ vigilOn.vigil = none ∧
    vigTargets vigilOn = [1] ∧ (∀ t ∈ vigTargets vigilOn, vigQuiesced vigilOn t = true) ∧ (∀ t ∈ vigTargets vigilOn, ∀ d ∈ vigDoms t, domState vigilOn d = 1) ∧
    regDead onDom ⟨.ALM_SEEK, 0, 0, 0⟩ = false ∧
    (let r : AlmRec := { epoch := 0, seq := 3, code := 1, sev := 4, afterDrop := false, trip := false, start := false, cls := 0, src := 0, p0 := 0, p1 := 0, p2 := 0, due := true }
     let s := { onDom with alm := { ring := [(0, some r)], mWait := false } }
     s.alm.mStop = false ∧ s.alm.mWait = false ∧ mirrorNext s = some (0, r)) := by decide +kernel
theorem wit_VigilAndAlmanacComplete_run : (let s := { onDom with epoch := 1800000, vigil := some (0, 1, [1]) }
     s.vigil = some (0, 1, [1]) ∧ 0 + vigLongest [1] 1 * 100000 ≤ s.epoch ∧ [(0 : Word)].length = [1].length) := by decide +kernel
theorem wit_VigilAndAlmanacComplete_outcomes : (∀ t mode, (([t].zip [Config.vigilExp t mode]).filter (fun e => e.2 != Config.vigilExp e.1 mode)) = []) ∧
    (∃ e ∈ ([64].zip [Config.vigilExp 64 1 + 1]).filter (fun e => e.2 != Config.vigilExp e.1 1), 64 ≤ e.1 ∧ e.1 < 144) := by
  refine ⟨by simp, (64, Config.vigilExp 64 1 + 1), ?_, by decide, by decide⟩
  simp

/-! ### Witnesses and tests: rules of the whole module -/

theorem wit_TrapEntryAndReturn : (thr cpuA 0).world = .normal ∧ bit (bankOf (thr cpuA 0) (trapTarget (thr cpuA 0) 9 false .M)).status 7 = false ∧
    (bankOf (thr cpuA 0) (trapTarget (thr cpuA 0) 9 false .M)).tvec &&& maskBits 63 8 ≠ 0 := by decide +kernel
theorem wit_DeadRegistersReadZero : blkOf (regBase + 8) = some (.core, 0, 8) ∧ blkDead on .core 0 8 = true ∧ blkOf (regBase + 0x38) = some (.core, 0, 0x38) ∧
    regInBlk .core 0 0x38 = none := by decide +kernel
theorem wit_AlmanacRecords : onDom.alm.nextSeq < 0xFFFFFFFF ∧ ({ onDom with alm := { nextSeq := 0xFFFFFFFE } } : State).alm.nextSeq < 0xFFFFFFFF ∧
    firstFree onDom.alm.ring 0 65537 = some 0 := by decide +kernel
theorem test_seq_wraps : (after (exec (.recordAccept 1 4 0 0 0 0 0) { onDom with alm := { nextSeq := 0xFFFFFFFE } })).alm.nextSeq = 0 := by decide +kernel
theorem test_fatal_drives_fault : (after (exec (.recordAccept 1 6 0 0 0 0 0) onDom)).faultN = false ∧ (after (exec (.recordAccept 1 5 0 0 0 0 0) onDom)).faultN = true := by
  decide +kernel

/-- Stopper 9 tracks a point within 10 to 20. -/
def stopOn : State := { onDom with stoppers := [(9, { st := 2, min := 10, max := 20, slew := 100, safe := 15, ramp := 1, stale := 5, out := 15, target := 15 })] }

theorem wit_StopperWithinLimits : gLt (stopOf (stopStep stopOn 9 (gen 99) 1 false).2 9).float (stopOf (stopStep stopOn 9 (gen 99) 1 false).2 9).max
    (stopOf (stopStep stopOn 9 (gen 99) 1 false).2 9).min = false := by decide +kernel
theorem test_stopper_clamps : (stopStep stopOn 9 (gen 99) 1 false).1 = gen 20 := by decide +kernel
theorem wit_WellFormedCommandsAnswer : WellFormed (.vigilRunComplete []) = true ∧ onDom.vigil = none ∧ WellFormed (.solsticeHold 419) = true := by decide +kernel
theorem wit_StepKeepsMemoryCanonical : CanonicalMemory { onDom with mem := [(0x100000000, 1)], memTally := [(0x20000000, 1)] } := ⟨by decide, by decide, by decide⟩
theorem reset_memory_canonical : CanonicalMemory State.reset := ⟨by decide, by decide, by decide⟩
theorem test_idle_tick : (after (step onDom)).epoch = 1 := by decide +kernel
theorem test_register_write_clears : getR (after (exec (.registerWrite .bowline 0xFEC3000000 0) onDom)) .SOL_STS 0 = getR onDom .SOL_STS 0 := by decide +kernel

/-- The module answers Get Endpoint ID at its own SMBus address alone (R34): with MADDR = 1, address 0x65, byte 0xCA. -/
def smbusOn : State := { onDom with boot := { onDom.boot with maddr := 1 }, mgmt := { smbus := true } }
theorem test_mctp_own_address : (after (exec (.mctpMessage [0xCA, 0, 0, 2]) smbusOn)).mgmt.resp ≠ [] ∧
    after (exec (.mctpMessage [0xC8, 0, 0, 2]) smbusOn) = smbusOn := by decide +kernel
/-- A core whose threads have waited for less than 10 µs is not gated (R448). -/
theorem test_gate_waits : (coreOf (after (exec (.coreGate 0) { idleCore with epoch := 999 })) 0).gated = false ∧
    (coreOf (after (exec (.coreGate 0) idleCore)) 0).gated = true := by decide +kernel

end Sys2Proof.Tests
end

section
/-! PROOFS. Every register answers at its own address (R59, Table 2-6): what one place of a block's table finds, why two places of a
block never find the same offset, and how an address gives its block back. -/

namespace Sys2Proof.Machine

/-! ### The registers of one place -/

/-- The offset of register `(i, j)` of a place in its block. -/
def RegPlace.offset (p : RegPlace) (i j : Nat) : Nat := p.off + i * p.s1 + j * p.s2

/-- How far the registers of one row of a place reach from the first of the row. -/
def RegPlace.width (p : RegPlace) : Nat := (p.c2 - 1) * p.s2

/-- The offset of a place's last register. -/
def RegPlace.last (p : RegPlace) : Nat := p.off + (p.c1 - 1) * p.s1 + p.width

/-- A place has rows, the rows do not run into each other, and neither do the registers of one row. -/
def RegPlace.fits (p : RegPlace) : Bool :=
  decide (0 < p.c1) && (decide (p.width < p.s1) || p.c1 == 1) && (decide (0 < p.s2) || p.c2 == 1)

/-- `fits` as propositions. -/
theorem RegPlace.fits_iff (p : RegPlace) : p.fits = true ↔ 0 < p.c1 ∧ (p.width < p.s1 ∨ p.c1 = 1) ∧ (0 < p.s2 ∨ p.c2 = 1) := by
  simp [RegPlace.fits, and_assoc]

/-- A register of a row stands within the row's width. -/
theorem RegPlace.col_le_width {p : RegPlace} {j : Nat} (hj : j < p.c2) : j * p.s2 ≤ p.width :=
  Nat.mul_le_mul_right _ (by omega)

/-- No register of a place stands before the first. -/
theorem RegPlace.off_le_offset (p : RegPlace) (i j : Nat) : p.off ≤ p.offset i j := by
  unfold RegPlace.offset; omega

/-- No register of a place stands after the last. -/
theorem RegPlace.offset_le_last {p : RegPlace} {i j : Nat} (hi : i < p.c1) (hj : j < p.c2) : p.offset i j ≤ p.last := by
  have hrow : i * p.s1 ≤ (p.c1 - 1) * p.s1 := Nat.mul_le_mul_right _ (by omega)
  have hcol := RegPlace.col_le_width hj
  unfold RegPlace.offset RegPlace.last
  omega

/-- What `placeIdx` answers is an index of the place, and the offset is the register's own. -/
theorem offset_of_placeIdx {p : RegPlace} {off i j : Nat} (hc : 0 < p.c1) (h : placeIdx p off = some (i, j)) :
    i < p.c1 ∧ j < p.c2 ∧ off = p.offset i j := by
  simp only [placeIdx, Option.ite_none_left_eq_some, Option.ite_none_right_eq_some, Option.some.injEq, Prod.mk.injEq,
    Bool.and_eq_true, decide_eq_true_eq] at h
  obtain ⟨hoff, ⟨hr, hj⟩, hi', hj'⟩ := h
  rw [hi'] at hr hj hj'
  rw [hj'] at hr hj
  have hic : i < p.c1 := by
    rw [← hi']; split <;> omega
  have hrow : i * p.s1 ≤ off - p.off := by
    rw [← hi']
    split
    · simp
    · exact (Nat.mul_le_mul_right _ (Nat.min_le_left _ _)).trans (Nat.div_mul_le_self _ _)
  have hcol : j * p.s2 ≤ off - p.off - i * p.s1 := by
    rw [← hj']
    split
    · simp
    · exact Nat.div_mul_le_self _ _
  refine ⟨hic, hj, ?_⟩
  unfold RegPlace.offset
  omega

/-- A register of a place that fits is found at its own offset. -/
theorem placeIdx_offset {p : RegPlace} {i j : Nat} (hp : p.fits = true) (hi : i < p.c1) (hj : j < p.c2) :
    placeIdx p (p.offset i j) = some (i, j) := by
  obtain ⟨-, hrows, hcols⟩ := p.fits_iff.mp hp
  have hcol := RegPlace.col_le_width hj
  have hd : p.offset i j - p.off = i * p.s1 + j * p.s2 := by unfold RegPlace.offset; omega
  have hrow : (if p.s1 = 0 then 0 else min ((i * p.s1 + j * p.s2) / p.s1) (p.c1 - 1)) = i := by
    rcases hrows with hw | h1
    · have hq : (i * p.s1 + j * p.s2) / p.s1 = i := by
        rw [Nat.mul_comm i, Nat.mul_add_div (by omega), Nat.div_eq_of_lt (by omega), Nat.add_zero]
      rw [if_neg (by omega), hq, Nat.min_eq_left (by omega)]
    · simp only [h1, Nat.sub_self, Nat.min_zero, ite_self]; omega
  have hcolumn : (if p.s2 = 0 then 0 else j * p.s2 / p.s2) = j := by
    rcases hcols with h2 | h1
    · rw [if_neg (by omega), Nat.mul_div_cancel _ h2]
    · split
      · omega
      · exact Nat.mul_div_cancel _ (by omega)
  have hlow : ¬ p.offset i j < p.off := Nat.not_lt.mpr (p.off_le_offset i j)
  simp [placeIdx, hlow, hd, hrow, hcolumn, hj]

/-! ### Two places of one block -/

/-- The registers of two places do not meet: one place ends before the other begins, or their rows interleave with one stride and
take different parts of it. -/
def RegPlace.apart (p q : RegPlace) : Bool :=
  let a := p.off % p.s1
  let b := q.off % q.s1
  decide (p.last < q.off) || decide (q.last < p.off) ||
    (p.s1 == q.s1 && decide (a + p.width < p.s1) && decide (b + q.width < q.s1) && (decide (a + p.width < b) || decide (b + q.width < a)))

/-- Where a register of a row stands within the stride of the rows. -/
theorem RegPlace.offset_mod {p : RegPlace} {i j : Nat} (hj : j < p.c2) (hw : p.off % p.s1 + p.width < p.s1) :
    p.offset i j % p.s1 = p.off % p.s1 + j * p.s2 := by
  have hcol := RegPlace.col_le_width hj
  calc p.offset i j % p.s1 = (p.off % p.s1 + j * p.s2) % p.s1 := by
        rw [RegPlace.offset, Nat.add_right_comm, Nat.add_mul_mod_self_right, Nat.mod_add_mod]
    _ = p.off % p.s1 + j * p.s2 := Nat.mod_eq_of_lt (by omega)

/-- Registers of places that are apart have different offsets. -/
theorem RegPlace.offset_ne_of_apart {p q : RegPlace} (h : p.apart q = true) {i j i' j' : Nat} (hi : i < p.c1) (hj : j < p.c2)
    (hi' : i' < q.c1) (hj' : j' < q.c2) : p.offset i j ≠ q.offset i' j' := by
  intro he
  have hp := RegPlace.offset_le_last hi hj
  have hq := RegPlace.offset_le_last hi' hj'
  have hp0 := p.off_le_offset i j
  have hq0 := q.off_le_offset i' j'
  simp only [RegPlace.apart, Bool.or_eq_true, Bool.and_eq_true, decide_eq_true_eq, beq_iff_eq] at h
  rcases h with (hlt | hgt) | ⟨⟨⟨hs, hpw⟩, hqw⟩, hsep⟩
  · omega
  · omega
  · have hpm := RegPlace.offset_mod (i := i) hj hpw
    have hqm := RegPlace.offset_mod (i := i') hj' hqw
    have hpc := RegPlace.col_le_width hj
    have hqc := RegPlace.col_le_width hj'
    rw [he, hs] at hpm
    rw [hs] at hsep
    omega

/-- A register of one place is not found in a place that is apart from it. -/
theorem placeIdx_none_of_apart {p q : RegPlace} (hq : 0 < q.c1) (h : p.apart q = true) {i j : Nat} (hi : i < p.c1) (hj : j < p.c2) :
    placeIdx q (p.offset i j) = none := by
  rw [Option.eq_none_iff_forall_ne_some]
  rintro ⟨i', j'⟩ hx
  obtain ⟨hi', hj', he⟩ := offset_of_placeIdx hq hx
  exact RegPlace.offset_ne_of_apart h hi hj hi' hj' he

/-! ### The tables of the blocks -/

/-- The offsets that `blkOf` hands to a unit of a block, from the first and up to the second (`blkOf_blkBase`); the tenant page is in BAR2
and has none. -/
def blkWindow : Blk → Nat × Nat
  | .core => (0, 0x200000)
  | .quad => (0x800000, 0x1000000)
  | .slc | .mch | .haws => (0, 0x100000)
  | .fbay | .host | .alm | .vig => (0, 0x1000000)
  | _ => (0, 0x10000000)

/-- Every place of the tables names its own block, fits, and stands in the block's window. -/
theorem regPlaces_wf (b : Blk) : ∀ p ∈ regPlaces b, p.blk = b ∧ p.fits = true ∧ (blkWindow b).1 ≤ p.off ∧ p.last < (blkWindow b).2 := by
  cases b <;> decide +kernel

/-- Two places of a block are apart. -/
theorem regPlaces_apart (b : Blk) : ∀ p ∈ regPlaces b, ∀ q ∈ regPlaces b, q = p ∨ p.apart q = true := by
  cases b <;> decide +kernel

/-- A list searched for the one entry that answers gives that entry's answer. -/
theorem findSome?_eq_of_unique {α β : Type} {f : α → Option β} {l : List α} {a : α} {y : β} (ha : a ∈ l) (hy : f a = some y)
    (hother : ∀ c ∈ l, c = a ∨ f c = none) : l.findSome? f = some y := by
  obtain ⟨z, hz⟩ := Option.isSome_iff_exists.mp (List.findSome?_isSome_iff.mpr ⟨a, ha, Option.isSome_of_eq_some hy⟩)
  obtain ⟨c, hc, hcz⟩ := List.exists_of_findSome?_eq_some hz
  obtain rfl | hnone := hother c hc
  · rw [hz, ← hcz, hy]
  · rw [hnone] at hcz
    cases hcz

/-- A register of a block's table is the one found at its offset. -/
theorem regInBlk_offset {b : Blk} {p : RegPlace} (hp : p ∈ regPlaces b) (u : Nat) {i j : Nat} (hi : i < p.c1) (hj : j < p.c2) :
    regInBlk b u (p.offset i j) = some ⟨p.reg, u, i, j⟩ := by
  obtain ⟨-, hfits, -⟩ := regPlaces_wf b p hp
  refine findSome?_eq_of_unique hp (by rw [placeIdx_offset hfits hi hj]; rfl) (fun q hq => ?_)
  obtain ⟨-, hqfits, -⟩ := regPlaces_wf b q hq
  refine (regPlaces_apart b p hp q hq).imp_right (fun h => ?_)
  rw [placeIdx_none_of_apart (q.fits_iff.mp hqfits).1 h hi hj]
  rfl

/-! ### Blocks and addresses -/

/-- An offset in a block's window of a unit that the module has decodes to that block, unit and offset. -/
theorem blkOf_blkBase {b : Blk} (hb : b ≠ .page) {u off : Nat} (hu : u < blkUnits b) (h1 : (blkWindow b).1 ≤ off) (h2 : off < (blkWindow b).2) :
    blkOf (blkBase b u + off) = some (b, u, off) := by
  cases b
  case page => exact absurd rfl hb
  all_goals
    dsimp only [blkUnits, blkWindow] at hu h1 h2
    simp (disch := omega) only [blkOf, blkBase, Nat.add_assoc, Nat.add_sub_cancel_left, Bool.and_eq_true, decide_eq_true_eq,
      if_neg, if_pos, Option.some.injEq, Prod.mk.injEq, true_and, and_true]
    omega

/-- The table entry of a register, over all blocks. -/
def regPlaceOf (r : Reg) : Option RegPlace :=
  [Blk.rig, .core, .quad, .slc, .mesh, .mch, .pwr, .fbay, .pst, .bowl, .host, .dma, .page, .haws, .vig, .alm].findSome?
    (fun b => (regPlaces b).find? (fun p => p.reg == r))

/-- The search over all blocks finds each place by its register: no register stands in two. -/
theorem regPlaceOf_reg (b : Blk) : ∀ p ∈ regPlaces b, regPlaceOf p.reg = some p := by
  cases b <;> decide +kernel

/-- A register's address is that of its block's unit and its offset in the block. -/
theorem regAddr_of_regPlaceOf {r : RegRef} {p : RegPlace} (h : regPlaceOf r.reg = some p) :
    regAddr r = blkBase p.blk r.u + p.offset r.i r.j := by
  unfold regPlaceOf at h
  simp only [regAddr, h, RegPlace.offset, Nat.add_assoc]

/-- Settles O51: the address lies in the block's window, so `blkOf` gives the block, the unit and the offset back; and of the block's
places, which are pairwise apart, only the register's own answers at that offset. -/
theorem registerAddressesDecode : Obligations.RegisterAddressesDecode := by
  intro b hb p hp u hu i hi j hj
  obtain ⟨hblk, -, hfirst, hlast⟩ := regPlaces_wf b p hp
  have hoff : blkBase b u + p.off + i * p.s1 + j * p.s2 = blkBase b u + p.offset i j := by
    simp only [RegPlace.offset, Nat.add_assoc]
  have hin : blkOf (blkBase b u + p.offset i j) = some (b, u, p.offset i j) :=
    blkOf_blkBase hb hu (hfirst.trans (p.off_le_offset i j)) ((RegPlace.offset_le_last hi hj).trans_lt hlast)
  rw [hoff]
  constructor
  · rw [regAddr_of_regPlaceOf (regPlaceOf_reg b p hp), hblk]
  · rw [regAt, hin]
    exact regInBlk_offset hp u hi hj

end Sys2Proof.Machine
end

section
/-! PROOFS. Register accesses and their answers complete (R7, R59, R141). -/

namespace Sys2Proof.Machine

/-- A load from register space whose sound word no injection spoils ends with the word in its register. -/
theorem regLoadDone_sound {s : State} {t : Nat} {x : TWord} (hs : isSound x = true) (ha : injArmed s t 1 = false) (gd : Nat) (iw : Word) :
    regLoadDone s t gd iw x = .done (wg s t (BitVec.ofNat 6 gd) x) := by
  have htal : (x.tal == tallyOf x.val) = true := hs
  simp [regLoadDone, residueOk, ha, htal]

/-- The state once the answer `m` to a register access has left the network. -/
def regTaken (s : State) (m : RegMsg) : State := ejectPkt { s with regNet := s.regNet.erase m } m.pkt

/-- The answer to a register access of thread `t`, a write or a read, that has arrived. -/
def regArrived (s : State) (t : Nat) (write : Bool) : Option RegMsg :=
  s.regNet.find? (fun m => m.thread = t && m.answer && (m.write == write) && arrivedPkt s m.pkt)

/-- REG_DATA with an answer for a waiting load (R59). -/
theorem execRegData_arrived {s : State} {t : BitVec 10} {m : RegMsg} {gd : Nat} {iw : Word} (hm : regArrived s t.toNat false = some m)
    (hw : (thr (regTaken s m) t.toNat).wait = some (.regRead gd iw)) :
    execRegData t s = .next (applyAct t.toNat 1 false (regLoadDone (regTaken s m) t.toNat gd iw m.word)) := by
  simp only [regArrived, beq_false] at hm
  unfold regTaken at hw
  simp only [execRegData, hm, hw, regTaken]

/-- REG_ACK with an answer for a waiting store (R59). -/
theorem execRegAck_arrived {s : State} {t : BitVec 10} {m : RegMsg} (hm : regArrived s t.toNat true = some m)
    (hw : (thr (regTaken s m) t.toNat).wait = some .regWrite) :
    execRegAck t s = .next (applyAct t.toNat 1 false (.done (regTaken s m))) := by
  simp only [regArrived, beq_true] at hm
  unfold regTaken at hw
  simp only [execRegAck, hm, hw, regTaken]

/-- REG_DATA with a sound word puts it in the load's register and completes the load (R59, R164). -/
theorem execRegData_lands {s : State} {t : BitVec 10} {m : RegMsg} {gd : Nat} {iw : Word} (hm : regArrived s t.toNat false = some m)
    (hw : (thr (regTaken s m) t.toNat).wait = some (.regRead gd iw)) (hs : isSound m.word = true)
    (ha : injArmed (regTaken s m) t.toNat 1 = false) :
    execRegData t s = .next (finish (wg (regTaken s m) t.toNat (BitVec.ofNat 6 gd) m.word) t.toNat 1 false) := by
  rw [execRegData_arrived hm hw, regLoadDone_sound hs ha, applyAct_done]

/-- REG_ACK completes the store (R59). -/
theorem execRegAck_completes {s : State} {t : BitVec 10} {m : RegMsg} (hm : regArrived s t.toNat true = some m)
    (hw : (thr (regTaken s m) t.toNat).wait = some .regWrite) :
    execRegAck t s = .next (finish (regTaken s m) t.toNat 1 false) := by
  rw [execRegAck_arrived hm hw, applyAct_done]

/-- REGISTER_WRITE where the write reaches a register (R7). -/
theorem execRegisterWrite_reaches {s : State} {who : Requester} {addr : BitVec 52} (val : Word)
    (h : strayOf (txClear s) who addr.toNat = none) :
    execRegisterWrite who addr val s = .next (writeReg (txClear s) who addr.toNat val fullMask) := by
  simp only [execRegisterWrite, h]

/-- REGISTER_WRITE where the write reaches no register (R3, R4, R8, R54). -/
theorem execRegisterWrite_stray {s : State} {who : Requester} {addr : BitVec 52} {y : Stray} (val : Word)
    (h : strayOf (txClear s) who addr.toNat = some y) :
    execRegisterWrite who addr val s = .next (strayWrite (txClear s) who addr.toNat y) := by
  simp only [execRegisterWrite, h]

/-- REG_READ of an access that has arrived. -/
theorem execRegRead_access {s : State} {t : BitVec 10} {m : RegMsg} (h : regAccess s t.toNat false = some m) :
    execRegRead t s = .next (regAnswer (readReg s (.thread t) m.addr fullMask).2 m (gen (readReg s (.thread t) m.addr fullMask).1)) := by
  simp only [execRegRead, h]

/-- REG_WRITE of an access that has arrived: the word's tally decides (R141). -/
theorem execRegWrite_access {s : State} {t : BitVec 10} {m : RegMsg} (h : regAccess s t.toNat true = some m) :
    execRegWrite t s = .next (regAnswer (if badWord m.word then regDiscarded (txClear s) 1 t.toNat m.addr (t.toNat / 16)
      else writeReg (txClear s) (.thread t) m.addr m.word.val fullMask) m m.word) := by
  simp only [execRegWrite, h]

/-- Settles O27: each row by the lemma that says what it does with an access or an answer that has arrived. -/
theorem registerAccessesComplete : Obligations.RegisterAccessesComplete := by
  refine ⟨fun s t m gd iw => ⟨execRegData_lands, execRegAck_completes⟩, fun s who addr val t m =>
    ⟨execRegisterWrite_reaches val, fun y => execRegisterWrite_stray val, execRegRead_access, fun h => ⟨fun hsound => ?_, fun hbad => ?_⟩⟩⟩
  · exact (execRegWrite_access h).trans (by rw [hsound]; rfl)
  · exact (execRegWrite_access h).trans (by rw [hbad]; rfl)

end Sys2Proof.Machine
end

section
/-! PROOFS. The module pins and the steps of start-up complete (R19–R21, R35, R36, R281, R369, R465, Table 20-4). -/

namespace Sys2Proof.Machine

/-! ### Commands with a guard -/

/-- A command whose guard holds takes the first branch. -/
theorem next_if_pos {c : Prop} [Decidable c] (h : c) {s t : State} :
    (.next (if c then s else t) : Host.Outcome State Fault Refusal) = .next s := by rw [if_pos h]

/-- A command whose guard fails takes the second branch. -/
theorem next_if_neg {c : Prop} [Decidable c] (h : ¬ c) {s t : State} :
    (.next (if c then s else t) : Host.Outcome State Fault Refusal) = .next t := by rw [if_neg h]

/-! ### Pins and rails -/

/-- PWR_EN rises: start-up begins, unless PWR_EN must first be low for 100 ms (R21). -/
theorem execPwrEnRise_low {s : State} (h : s.boot.pwrEn = false) (low : Bool) :
    execPwrEnRise low s = .next (startBegin { s with boot := { s.boot with pwrEn := true, needLow := s.boot.needLow && !low } }) :=
  next_if_neg (Bool.eq_false_iff.mp h)

/-- PWR_EN falls: the rails go off (R36). -/
theorem execPwrEnFall_high {s : State} (h : s.boot.pwrEn = true) :
    execPwrEnFall s = .next { powerOff s with boot := { (powerOff s).boot with pwrEn := false } } :=
  next_if_pos h

/-- The housekeeping supply comes up: the straps are sampled (R34). -/
theorem execHousekeepingOn_off {s : State} (h : s.boot.hk = false) (a : BitVec 2) (high : Bool) :
    execHousekeepingOn a high s = .next (startBegin { s with boot := { s.boot with hk := true, maddr := a.toNat, commOk := high } }) :=
  next_if_neg (Bool.eq_false_iff.mp h)

/-- The housekeeping supply goes away: the rails go off. -/
theorem execHousekeepingOff_on {s : State} (h : s.boot.hk = true) :
    execHousekeepingOff s = .next { powerOff s with boot := { (powerOff s).boot with hk := false } } :=
  next_if_pos h

/-- A module reset with the rails on. -/
theorem execModuleReset_rails {s : State} (h : s.boot.rails = true) : execModuleReset s = .next (moduleReset s 2) :=
  next_if_pos h

/-- From 10 µs a low level of RESET_N is a reset (R35). -/
theorem resetTaken_long {ns : Nat} (h : 10000 ≤ ns) (s : State) : resetTaken ns s = (true, s) := if_pos h

/-- Below 1 µs a low level of RESET_N is none (R35). -/
theorem resetTaken_short {ns : Nat} (h : ns < 1000) (s : State) : resetTaken ns s = (false, s) :=
  (if_neg (by omega)).trans (if_pos h)

/-- RESET_N low for long enough resets the module where its rails are on, and holds it in reset. -/
theorem execResetNAssert_long {s : State} {ns : BitVec 32} (h : 10000 ≤ ns.toNat) : execResetNAssert ns s = .next
    (let z := if s.boot.rails then moduleReset s 2 else s
     { z with boot := { z.boot with heldReset := true } }) := by
  simp only [execResetNAssert, resetTaken_long h, if_true]

/-- RESET_N low for too short a time leaves the module. -/
theorem execResetNAssert_short {s : State} {ns : BitVec 32} (h : ns.toNat < 1000) : execResetNAssert ns s = .next s := by
  simp only [execResetNAssert, resetTaken_short h, Bool.false_eq_true, if_false]

/-! ### The steps of start-up -/

/-- The guard of a step that is due. -/
theorem not_stepDue_eq_false {s : State} {n : Nat} (h : stepDue s n = true) : ¬ (!stepDue s n) = true := by
  rw [h]; exact Bool.false_ne_true

/-- The Rails step succeeds: the epoch starts and its source is chosen (R281). -/
theorem execStartupRails_ok {s : State} (h : stepDue s 1 = true) : execStartupRails true s =
    .next (evalSource { s with epoch := 0, epochFrac := 0, boot := { s.boot with rails := true, step := 2 } }) :=
  next_if_neg (not_stepDue_eq_false h)

/-- The Rails step fails: the rails go off with FAULT_N low. -/
theorem execStartupRails_fails {s : State} (h : stepDue s 1 = true) :
    execStartupRails false s = .next { powerOff s with faultN := false } :=
  next_if_neg (not_stepDue_eq_false h)

/-- What the Bowline ROM step sets, whatever the kind of the start. -/
def bowlineRomBegun (s : State) : State :=
  { s with alm := { s.alm with startNext := true }, boot := { s.boot with lockLost := false, step := 3, bank := s.flash.bank } }

/-- The Bowline ROM step restarts the epoch after a module reset only (R281). -/
theorem execStartupBowlineRom_due {s : State} (h : stepDue s 2 = true) {lk : Bool} (hl : (s.boot.lockLost && !lk) = false) :
    execStartupBowlineRom lk s = .next (evalSource { bowlineRomBegun s with
      epoch := if s.boot.kind = 2 then 0 else s.epoch, epochFrac := if s.boot.kind = 2 then 0 else s.epochFrac }) :=
  next_if_neg (by simp [h, hl])

/-- The Bowline image step takes the bank that verifies (R369). -/
theorem execStartupBowlineImage_picks {s : State} (h : stepDue s 3 = true) {a b : Option (BitVec 7)} {n r : Nat}
    (hp : bankPick s.boot.bank a b s.flash.rbBowl = some (n, r)) : execStartupBowlineImage a b s = .next
      (alm { s with boot := { s.boot with step := 4, bank := n, bowlRoll := r, bowlImage := Config.fwPart 0 (bankBytes s n) },
                    alm := { s.alm with mWait := false } } 0xD010 1 17 0 s.boot.kind n) := by
  simp only [execStartupBowlineImage, h, hp, Bool.not_true, Bool.false_eq_true, if_false]

/-- Without a bank that verifies, the Bowline image step stops start-up (R369). -/
theorem execStartupBowlineImage_stops {s : State} (h : stepDue s 3 = true) {a b : Option (BitVec 7)}
    (hp : bankPick s.boot.bank a b s.flash.rbBowl = none) :
    execStartupBowlineImage a b s = .next (stepStop (alm s 0xD012 6 0 0 2)) := by
  simp only [execStartupBowlineImage, h, hp, Bool.not_true, Bool.false_eq_true, if_false]

/-- The Rigging step goes on to Vigil, with the injection field locked as ERROR_POLICY says (R164). -/
theorem execStartupRigging_due {s : State} (h : stepDue s 4 = true) (m : Bool) :
    ∃ t, execStartupRigging m s = .next t ∧ t.boot.step = 5 ∧ t.boot.injLock = !t.rig.dev.patternAllowed :=
  ⟨_, next_if_neg (not_stepDue_eq_false h), rfl, rfl⟩

/-- A target's signature among those that Vigil found bad, by its place in the list. -/
theorem mem_vigilBad_iff {sigs : List Word} {t : Nat} {w : Word} :
    (t, w) ∈ (sigs.zipIdx.map (fun e => (e.2, e.1))).filter (fun e => e.2 != Config.vigilExp e.1 3) ↔
      sigs[t]? = some w ∧ w ≠ Config.vigilExp t 3 := by
  simp [List.mem_filter, List.mem_zipIdx_iff_getElem?]

/-- Some target that is neither a quad nor a field bay has a bad signature (R465). -/
def vigilStops (sigs : List Word) : Bool :=
  ((sigs.zipIdx.map (fun e => (e.2, e.1))).filter (fun e => e.2 != Config.vigilExp e.1 3)).any
    (fun e => decide (64 ≤ e.1) && decide (e.1 < 144))

/-- Those targets are the ones from 64 to 143. -/
theorem vigilStops_iff {sigs : List Word} :
    vigilStops sigs = true ↔ ∃ i w, 64 ≤ i ∧ i < 144 ∧ sigs[i]? = some w ∧ w ≠ Config.vigilExp i 3 := by
  simp only [vigilStops, List.any_eq_true, Prod.exists, mem_vigilBad_iff, Bool.and_eq_true, decide_eq_true_eq]
  constructor
  · rintro ⟨i, w, ⟨hw, hne⟩, hlo, hhi⟩
    exact ⟨i, w, hlo, hhi, hw, hne⟩
  · rintro ⟨i, w, hlo, hhi, hw, hne⟩
    exact ⟨i, w, ⟨hw, hne⟩, hlo, hhi⟩

/-- The Vigil step of 152 signatures stops start-up, or goes on to DRAM training (R465). -/
theorem execStartupVigil_due {s : State} (h : stepDue s 5 = true) {sigs : List Word} (hl : sigs.length = 152) :
    ∃ z, execStartupVigil sigs s = .next (if vigilStops sigs then vigStop z else stepNext z 6) :=
  ⟨_, (if_neg (not_not.mpr hl)).trans (next_if_neg (not_stepDue_eq_false h))⟩

/-- A failed training stops start-up. -/
theorem execStartupDramTraining_fails {s : State} (h : stepDue s 6 = true) (pf : BitVec 16) :
    execStartupDramTraining false pf s = .next (stepStop (alm s 0xD012 6 0 0 6)) :=
  next_if_neg (not_stepDue_eq_false h)

/-- A training that succeeds goes on to the load of Cordage. -/
theorem execStartupDramTraining_ok {s : State} (h : stepDue s 6 = true) (pf : BitVec 16) :
    ∃ t, execStartupDramTraining true pf s = .next t ∧ t.boot.step = 7 :=
  ⟨_, next_if_neg (not_stepDue_eq_false h), rfl⟩

/-- The Cordage load takes the bank that verifies, and SMBus answers from now on (R34, R369). -/
theorem execStartupCordageLoad_picks {s : State} (h : stepDue s 7 = true) {a b : Option (BitVec 7)} {n r : Nat}
    (hp : bankPick s.boot.bank a b s.flash.rbCord = some (n, r)) : execStartupCordageLoad a b s = .next
      { s with boot := { s.boot with step := 8, cordRoll := r, cordBank := n, cordImage := Config.fwPart 1 (bankBytes s n) },
               mgmt := { s.mgmt with smbus := true } } := by
  simp only [execStartupCordageLoad, h, hp, Bool.not_true, Bool.false_eq_true, if_false]

/-- Without a bank that verifies, the Cordage load stops start-up (R369). -/
theorem execStartupCordageLoad_stops {s : State} (h : stepDue s 7 = true) {a b : Option (BitVec 7)}
    (hp : bankPick s.boot.bank a b s.flash.rbCord = none) :
    execStartupCordageLoad a b s = .next (stepStop (alm s 0x8018 6 17 0)) := by
  simp only [execStartupCordageLoad, h, hp, Bool.not_true, Bool.false_eq_true, if_false]

/-- A snapshot leaves the rigged partitions. -/
@[simp] theorem partIds_snapshotNow (s : State) : partIds (snapshotNow s) = partIds s := rfl

/-- A step of start-up leaves the rigged partitions. -/
@[simp] theorem partIds_stepNext (s : State) (n : Nat) : partIds (stepNext s n) = partIds s := rfl

/-- The first snapshot ends start-up; with no partition rigged nothing else happens. -/
theorem execStartupCordageInit_due {s : State} (h : stepDue s 8 = true) : ∃ t, execStartupCordageInit s = .next t ∧
    (partIds s = [] → t = snapshotNow (stepNext s 9)) := by
  refine ⟨_, next_if_neg (not_stepDue_eq_false h), fun hp => ?_⟩
  dsimp only
  rw [partIds_snapshotNow, partIds_stepNext, hp]
  rfl

/-- Settles O30: each pin and each step by the lemma that says where it leads. -/
theorem startupCompletes : Obligations.StartupCompletes := by
  refine ⟨fun s => ⟨execPwrEnRise_low, execPwrEnFall_high, execHousekeepingOn_off, execHousekeepingOff_on, rfl, rfl,
    execModuleReset_rails, fun ns hns => ⟨fun hr => ?on, fun hr => ?off⟩, fun ns => execResetNAssert_short,
    fun h => ⟨execStartupRails_ok h, execStartupRails_fails h⟩,
    fun h lk hl => ⟨fun hk => ?warm, fun hk => ?cold⟩,
    fun h a b n r => execStartupBowlineImage_picks h, fun h a b => execStartupBowlineImage_stops h,
    execStartupDramTraining_fails, fun h a b => ⟨fun n r => execStartupCordageLoad_picks h, execStartupCordageLoad_stops h⟩⟩,
    fun s => ⟨execStartupRigging_due, fun h sigs hl => ?vigil, execStartupDramTraining_ok, execStartupCordageInit_due⟩⟩
  case on => exact (execResetNAssert_long hns).trans (by rw [if_pos hr])
  case off => exact (execResetNAssert_long hns).trans (by rw [if_neg (Bool.eq_false_iff.mp hr)])
  case warm => exact (execStartupBowlineRom_due h hl).trans (by rw [if_pos hk, if_pos hk]; rfl)
  case cold => exact (execStartupBowlineRom_due h hl).trans (by rw [if_neg hk, if_neg hk]; rfl)
  case vigil =>
    obtain ⟨z, hz⟩ := execStartupVigil_due h hl
    constructor
    · intro hgood
      have hgo : ¬ vigilStops sigs = true := by
        rw [vigilStops_iff]
        rintro ⟨i, w, hlo, hhi, hw, hne⟩
        rw [hgood i hlo hhi] at hw
        exact hne (Option.some.inj hw).symm
      exact ⟨_, hz.trans (next_if_neg hgo), rfl⟩
    · intro hbad
      exact ⟨_, hz.trans (next_if_pos (vigilStops_iff.mpr hbad)), rfl⟩

end Sys2Proof.Machine
end

section
/-! PROOFS. The resets and link events of a host port complete (R24, R403–R408). -/

namespace Sys2Proof.Machine

/-! ### The state of a host port -/

/-- The host port just updated. -/
@[simp] theorem hostOf_updHost_same (s : State) (h : Nat) (f : HostSt → HostSt) : hostOf (updHost s h f) h = f (hostOf s h) :=
  SMap.get_set_same _ _ _ _

/-- A register update leaves every host port. -/
@[simp] theorem hostOf_updR (s : State) (r : Reg) (f : Word → Word) (u i j h : Nat) : hostOf (updR s r f u i j) h = hostOf s h := rfl

/-! ### Resets (Table 16-8) -/

/-- PERST# is asserted: its level is seen, and with the rails on the port is reset (R404). -/
theorem execPerstAssert_eq (h : BitVec 1) (s : State) : execPerstAssert h s = .next
    (let low := updR (txClear s) .HOST_STS (fun w => setBit w 1 true) h.toNat
     if s.boot.rails then portReset low h.toNat 1 else low) := rfl

/-- PERST# is deasserted: the reference clock is selected, and a port whose items are complete leaves reset (R24). -/
theorem execPerstDeassert_held {h : BitVec 1} {s : State} (hp : bit (getR s .HOST_STS h.toNat) 1 = true) (tg : Bool) :
    execPerstDeassert h tg s = .next
      (let x := updHost (updR s .HOST_STS (fun w => setBit (setBit w 1 false) 4 tg) h.toNat) h.toNat (fun p => { p with refLost := false })
       if (hostOf s h.toNat).resetBy = 4 then
         updR (updHost x h.toNat (fun p => { p with resetBy := 0 })) .HOST_STS (fun w => setBit w 20 false) h.toNat
       else x) := by
  simp only [execPerstDeassert, hp, Bool.not_true, Bool.false_eq_true, if_false, hostOf_updHost_same, hostOf_updR]

/-- A hot reset of a port that is up. -/
theorem execHotReset_up {h : BitVec 1} {s : State} (hu : hostUp s h.toNat = true) :
    execHotReset h s = .next (portReset (txClear s) h.toNat 2) := next_if_pos hu

/-- A function level reset of a port that is up and ready. -/
theorem execFlr_ready {h : BitVec 1} {s : State} (hu : hostUp s h.toNat = true) (hr : hostReady s h.toNat = true) :
    execFlr h s = .next (portReset (txClear s) h.toNat 3) := next_if_pos (by rw [hu, hr]; rfl)

/-- Bus Master Enable is cleared on a port that is up and ready (R407). -/
theorem execBmeClear_ready {h : BitVec 1} {s : State} (hu : hostUp s h.toNat = true) (hr : hostReady s h.toNat = true) :
    execBmeClear h s = .next (setBme (txClear s) h.toNat false) := next_if_pos (by rw [hu, hr]; rfl)

/-- A reset completes once no burst runs on the port; while PERST# is held the port stays in reset (R405). -/
theorem execHostResetComplete_quiet {h : BitVec 1} {s : State} (h0 : (hostOf s h.toNat).resetBy ≠ 0) (h4 : (hostOf s h.toNat).resetBy ≠ 4)
    (hq : portQuiet s h.toNat = true) : execHostResetComplete h s = .next
      (if bit (getR (portItems (txClear s) h.toNat) .HOST_STS h.toNat) 1 then
        updHost (portItems (txClear s) h.toNat) h.toNat (fun p => { p with resetBy := 4 })
      else updR (updHost (portItems (txClear s) h.toNat) h.toNat (fun p => { p with resetBy := 0 })) .HOST_STS
        (fun w => setBit w 20 false) h.toNat) :=
  next_if_neg (by simp [h0, h4, hq])

/-! ### The link (R24, R403, R408) -/

/-- The reference clock is lost in common-clock mode: the link goes down until PERST# cycles. -/
theorem execRefclkLoss_common {h : BitVec 1} {s : State} (hu : hostUp s h.toNat = true) (hc : bit (getR s .HOST_STS h.toNat) 4 = true) :
    execRefclkLoss h s = .next (updHost (linkDown (txClear s) h.toNat) h.toNat (fun p => { p with refLost := true })) :=
  next_if_pos (by rw [hu, hc]; rfl)

/-- L0s is entered from L0 where Link Control enables it. -/
theorem execL0sEntry_enabled {h : BitVec 1} {s : State} (hu : hostUp s h.toNat = true) (h0 : fieldN (getR s .HOST_STS h.toNat) 15 14 = 0)
    (he : (cfgDw s h.toNat 24).testBit 0 = true) :
    execL0sEntry h s = .next (updR s .HOST_STS (fun w => setField w 15 14 1) h.toNat) :=
  next_if_pos (by simp [hu, h0, he])

/-- L1 is entered where Link Control enables it or in D3hot, and L1.1 where the host enables that too. -/
theorem execL1Entry_enabled {h : BitVec 1} {s : State} (hu : hostUp s h.toNat = true) (h1 : fieldN (getR s .HOST_STS h.toNat) 15 14 ≤ 1)
    (he : (cfgDw s h.toNat 24).testBit 1 = true ∨ hostD3 s h.toNat = true) {sub : Bool}
    (hs : (if hostD3 s h.toNat then (cfgDw s h.toNat 102).testBit 1 else (cfgDw s h.toNat 102).testBit 3) = sub) :
    execL1Entry h s = .next (updR s .HOST_STS (fun w => setField w 15 14 (if sub then 3 else 2)) h.toNat) := by
  subst hs
  exact next_if_pos (by simp [hu, h1, he])

/-- A link of 4, 8 or 16 lanes at one of the five speeds comes up where training may start, and asserts manager entry 0. -/
theorem execHostLinkUp_trains {h : BitVec 1} {s : State} {width : BitVec 5} {speed : BitVec 3} (hw : width = 4 ∨ width = 8 ∨ width = 16)
    (hlo : 1 ≤ speed.toNat) (hhi : speed.toNat ≤ 5) (hr : s.boot.rails = true) (hp : bit (getR s .HOST_STS h.toNat) 1 = false)
    (hl : (hostOf s h.toNat).refLost = false) (hu : hostUp s h.toNat = false) (hd : 5 ≤ s.boot.step → hostDomOn s h.toNat = true) :
    execHostLinkUp h width speed s = .next (msixUnblock (msixAssert (updR (txClear s) .HOST_STS
      (fun w => setField (setField (setField (setBit w 0 true) 7 5 speed.toNat) 12 8 width.toNat) 15 14 0) h.toNat) h.toNat 0 srcLinkChange)
      h.toNat) := by
  have hspeed : speed ≠ 0#3 := by
    rintro rfl
    exact absurd hlo (by decide)
  refine (if_neg (by obtain rfl | rfl | rfl := hw <;> simp [hspeed, hhi])).trans (next_if_neg ?_)
  simpa [hr, hp, hl, hu] using hd

/-- Settles O32: each event by the lemma that says what it does to the port. -/
theorem portEventsComplete : Obligations.PortEventsComplete := by
  refine fun s h => ⟨fun hr => ?on, fun hr => ?off, fun hp tg => ⟨fun hn => ?waits, fun h4 => ?leaves⟩,
    fun hu => ⟨execHotReset_up hu, execRefclkLoss_common hu, fun hr => ⟨execFlr_ready hu hr, execBmeClear_ready hu hr⟩,
      execL0sEntry_enabled hu, fun h1 he => ⟨execL1Entry_enabled hu h1 he, execL1Entry_enabled hu h1 he⟩⟩,
    fun h0 h4 hq => ⟨fun hd => ?done, fun ha => ?held⟩, rfl, fun _ _ => execHostLinkUp_trains⟩
  case on => exact (execPerstAssert_eq h s).trans (next_if_pos hr)
  case off => exact (execPerstAssert_eq h s).trans (next_if_neg (Bool.eq_false_iff.mp hr))
  case waits => exact (execPerstDeassert_held hp tg).trans (next_if_neg hn)
  case leaves => exact (execPerstDeassert_held hp tg).trans (next_if_pos h4)
  case done => exact (execHostResetComplete_quiet h0 h4 hq).trans (next_if_neg (Bool.eq_false_iff.mp hd))
  case held => exact (execHostResetComplete_quiet h0 h4 hq).trans (next_if_pos ha)

end Sys2Proof.Machine
end

section
/-! PROOFS. The events of a field port complete (R30, R305, R309–R324). -/

namespace Sys2Proof.Machine

/-! ### Lanyard (R290, R309–R315) -/

/-- A Lanyard cycle that is due, with an exchange slot in the calendar, begins where the slot's turn has come. -/
theorem execLanyardCycleStart_slot {s : State} {port : BitVec 9} {p k st t j o : Nat} {r : PortRec} {c : Cal} {gens lost : List (BitVec 15)}
    (hn : lanyardNext s port.toNat = some (p, r, k, st, t)) (hc : gridCal s p = some c) (ht : t ≤ s.epoch)
    (hx : exchSlot c port.toNat = some (j, o)) (ha : (prun s p).acted < 8) (hb : slotBefore s p j t = false) :
    execLanyardCycleStart port gens lost s =
      .next (lanyardBegin (slotActed s p j t) port.toNat p r k st (gens.map BitVec.toNat) (lost.map BitVec.toNat)) := by
  simp only [execLanyardCycleStart, hn, hc, Option.bind_some, hx, if_neg (Nat.not_lt.mpr ht)]
  exact next_if_pos (by simp [ha, hb])

/-- A Lanyard cycle that is due, without an exchange slot in the calendar, begins at once. -/
theorem execLanyardCycleStart_free {s : State} {port : BitVec 9} {p k st t : Nat} {r : PortRec} {c : Cal} {gens lost : List (BitVec 15)}
    (hn : lanyardNext s port.toNat = some (p, r, k, st, t)) (hc : gridCal s p = some c) (ht : t ≤ s.epoch)
    (hx : exchSlot c port.toNat = none) : execLanyardCycleStart port gens lost s =
      .next (lanyardBegin s port.toNat p r k st (gens.map BitVec.toNat) (lost.map BitVec.toNat)) := by
  simp only [execLanyardCycleStart, hn, hc, Option.bind_some, hx, if_neg (Nat.not_lt.mpr ht)]

/-- A prepared CALL is sent, counted, and shown in the status of its output exchanges (R311). -/
theorem execCallTransmit_prepared {s : State} {port : BitVec 9} {m : CallMsg} (hm : (portOf s port.toNat).call = some m)
    (hon : bayOn s port.toNat = true) : execCallTransmit port s = .next
      (foldS (fun s (e : ExchRec) =>
          if e.output then updR s .FBAY_CTX_STS (fun w => setField w 63 32 m.cycle) (port.toNat / 64) (e.ctx % 8192) else s)
        (updR (updPort s port.toNat (fun x => { x with
            call := none, sent := true, wire := some m, frame := callFrame port.toNat ((x.cfg.map PortRec.ethertype).getD 0) m }))
          .FBAY_PORT_CNT (fun w => satInc w 31 0) (port.toNat / 64) (port.toNat % 64) 0)
        (portOf s port.toNat).exch) := by
  simp only [execCallTransmit, hm]
  exact next_if_neg (by simp [hon])

/-- A frame on a Lanyard port is received under the settings of its cycle (R312, R315). -/
theorem execReplyFrame_lanyard {s : State} {port : BitVec 9} {q : Nat} {r : PortRec} (hr : portRec s port.toNat = some (q, r))
    (hon : bayOn s port.toNat = true) (hm : portMode s port.toNat = 1) (ok : Bool) (frame : List Byte) (sfd : Word) :
    execReplyFrame port ok frame sfd s =
      .next (lanyardReceive s port.toNat ((portOf s port.toNat).cfg.getD r) ok frame sfd) := by
  simp only [execReplyFrame, hr]
  exact next_if_neg (by simp [hon, hm])

/-! ### Raw ports (R317–R321) -/

section
variable {s : State} {port : BitVec 9} {q : Nat} {r : PortRec} (hr : portRec s port.toNat = some (q, r)) (hon : bayOn s port.toNat = true)
  (hm : portMode s port.toNat = 2) (frame : List Byte) (sfd : Word)
include hr hon hm

/-- A frame with a bad FCS is counted. -/
theorem execRawRxFrame_badFcs : execRawRxFrame port false frame sfd s = .next (portCount s port.toNat 2) := by
  simp only [execRawRxFrame, hr]
  exact (next_if_neg (by simp [hon, hm])).trans (next_if_pos rfl)

/-- A frame with a good FCS: its length, then the filter, then the ring decide (R318). -/
theorem execRawRxFrame_goodFcs : execRawRxFrame port true frame sfd s = .next
    (let idx := getR s .FBAY_RAW_IDX (port.toNat / 64) (port.toNat % 64)
     if frame.length + 4 < 64 || 1522 < frame.length + 4 then portCount s port.toNat 10
     else if !rawFilter s port.toNat frame || !rawRuns s port.toNat q then portCount s port.toNat 8
     else if fieldN idx 15 0 = fieldN idx 31 16 then portCount s port.toNat 9
     else rawDeliver s port.toNat q frame sfd) := by
  simp only [execRawRxFrame, hr]
  exact (next_if_neg (by simp [hon, hm])).trans (next_if_neg Bool.false_ne_true)

/-- A frame that is too short or too long is counted. -/
theorem execRawRxFrame_badLength (hl : frame.length + 4 < 64 ∨ 1522 < frame.length + 4) :
    execRawRxFrame port true frame sfd s = .next (portCount s port.toNat 10) :=
  (execRawRxFrame_goodFcs hr hon hm frame sfd).trans
    (next_if_pos (by simpa only [Bool.or_eq_true, decide_eq_true_eq] using hl))

section
variable (hmin : 64 ≤ frame.length + 4) (hmax : frame.length + 4 ≤ 1522)
include hmin hmax

/-- A sound frame: the filter, then the ring decide. -/
theorem execRawRxFrame_sound : execRawRxFrame port true frame sfd s = .next
    (let idx := getR s .FBAY_RAW_IDX (port.toNat / 64) (port.toNat % 64)
     if !rawFilter s port.toNat frame || !rawRuns s port.toNat q then portCount s port.toNat 8
     else if fieldN idx 15 0 = fieldN idx 31 16 then portCount s port.toNat 9
     else rawDeliver s port.toNat q frame sfd) := by
  have hlen : ¬ (decide (frame.length + 4 < 64) || decide (1522 < frame.length + 4)) = true := by
    simp only [Bool.or_eq_true, decide_eq_true_eq]
    omega
  exact (execRawRxFrame_goodFcs hr hon hm frame sfd).trans (next_if_neg hlen)

/-- A sound frame that the filter drops, or that comes while the port does not run, is counted. -/
theorem execRawRxFrame_filtered (hf : rawFilter s port.toNat frame = false ∨ rawRuns s port.toNat q = false) :
    execRawRxFrame port true frame sfd s = .next (portCount s port.toNat 8) :=
  (execRawRxFrame_sound hr hon hm frame sfd hmin hmax).trans (next_if_pos (by simpa using hf))

/-- A sound frame that the filter passes is delivered, unless the ring has no free buffer. -/
theorem execRawRxFrame_passed (hf : rawFilter s port.toNat frame = true) (hruns : rawRuns s port.toNat q = true) :
    execRawRxFrame port true frame sfd s = .next
      (if fieldN (getR s .FBAY_RAW_IDX (port.toNat / 64) (port.toNat % 64)) 15 0 =
          fieldN (getR s .FBAY_RAW_IDX (port.toNat / 64) (port.toNat % 64)) 31 16 then portCount s port.toNat 9
       else rawDeliver s port.toNat q frame sfd) :=
  (execRawRxFrame_sound hr hon hm frame sfd hmin hmax).trans (next_if_neg (by simp [hf, hruns]))

end

omit frame sfd in
/-- A running raw port with a frame in its transmit ring sends it (R319). -/
theorem execRawTxFrame_sends (hruns : rawRuns s port.toNat q = true)
    (hx : fieldN (getR s .FBAY_RAW_IDX (port.toNat / 64) (port.toNat % 64)) 47 32 ≠
      fieldN (getR s .FBAY_RAW_IDX (port.toNat / 64) (port.toNat % 64)) 63 48) :
    execRawTxFrame port s = .next (rawSend s port.toNat q) := by
  simp only [execRawTxFrame, hr]
  exact next_if_neg (by simp [hon, hm, hruns, hx])

end

/-! ### PLCA and surges (R30, R305, R322) -/

/-- A BEACON on a port in use is seen; one that comes back after a loss leaves a record. -/
theorem execPlcaBeacon_used {s : State} {port : BitVec 9} (hm : portMode s port.toNat ≠ 0) (hon : bayOn s port.toNat = true) :
    execPlcaBeacon port s = .next
      (let x := updPort s port.toNat (fun x => { x with beacon := s.epoch, lostOnce := false })
       let y := updR x .FBAY_PORT_STS (fun w => setBit w 8 true) (port.toNat / 64) (port.toNat % 64)
       if bit (getR s .FBAY_PORT_STS (port.toNat / 64) (port.toNat % 64)) 8 then x
       else if (portOf s port.toNat).lostOnce then alm y 0x5012 2 7 port.toNat else y) :=
  next_if_neg (by simp [hm, hon])

/-- No BEACON for 4 ms: PLCA is lost, once. -/
theorem execPlcaLost_late {s : State} {port : BitVec 9} (hm : portMode s port.toNat ≠ 0) (hon : bayOn s port.toNat = true)
    (hl : (portOf s port.toNat).lostOnce = false) (ht : (portOf s port.toNat).beacon + 400000 ≤ s.epoch) :
    execPlcaLost port s = .next (bayErr (portCause (alm (updR (updPort s port.toNat (fun x => { x with lostOnce := true }))
      .FBAY_PORT_STS (fun w => setBit w 8 false) (port.toNat / 64) (port.toNat % 64)) 0x5011 3 7 port.toNat) port.toNat 44) port.toNat 4) :=
  next_if_neg (by simp [hm, hon, hl, ht])

/-- An immunity event on a port in use counts what it cost, and a lost frame is an error of the bay. -/
theorem execFieldImmunityEvent_used {s : State} {port : BitVec 9} (hm : portMode s port.toNat ≠ 0) (lost symbols : BitVec 16) :
    execFieldImmunityEvent port lost symbols s = .next
      (let x := portLoses (portLoses s port.toNat 2 lost.toNat) port.toNat 11 symbols.toNat
       if lost = 0 then x else bayErr x port.toNat 6) :=
  next_if_neg hm

/-! ### Writes of a port's registers (R317, R320, R324) -/

/-- A write of a register of a port that answers: by the port's partition or Bowline it has its effect, by another it is refused. -/
theorem portWrite_answers {s : State} {who : Requester} {r : Reg} {l : Nat} (h : regDead s ⟨r, l / 64, l % 64, 0⟩ = false) (f : State → State) :
    portWrite s who r l f = if portWriter s who l then f s else refuseReg s ⟨r, l / 64, l % 64, 0⟩ who :=
  if_neg (Bool.eq_false_iff.mp h)

/-- The write of a requester that may. -/
theorem next_portWrite_writer {s : State} {who : Requester} {r : Reg} {l : Nat} (h : regDead s ⟨r, l / 64, l % 64, 0⟩ = false)
    (hw : portWriter s who l = true) (f : State → State) :
    (.next (portWrite s who r l f) : Host.Outcome State Fault Refusal) = .next (f s) := by rw [portWrite_answers h, if_pos hw]

/-- The write of a requester that may not. -/
theorem next_portWrite_other {s : State} {who : Requester} {r : Reg} {l : Nat} (h : regDead s ⟨r, l / 64, l % 64, 0⟩ = false)
    (hw : portWriter s who l = false) (f : State → State) :
    (.next (portWrite s who r l f) : Host.Outcome State Fault Refusal) = .next (refuseReg s ⟨r, l / 64, l % 64, 0⟩ who) := by
  rw [portWrite_answers h, if_neg (Bool.eq_false_iff.mp hw)]

/-- Settles O35: each event by the lemma that says what it does to the port; the writes by what every write of a port's register does. -/
theorem fieldEventsComplete : Obligations.FieldEventsComplete := by
  refine fun s who port q r frame sfd =>
    ⟨fun p k st t c gens lost hn hc ht => ⟨fun j o => execLanyardCycleStart_slot hn hc ht, execLanyardCycleStart_free hn hc ht⟩,
    fun m => execCallTransmit_prepared,
    fun hr hon => ⟨fun hm ok => execReplyFrame_lanyard hr hon hm ok frame sfd, fun hm => ⟨execRawRxFrame_badFcs hr hon hm frame sfd,
      execRawRxFrame_badLength hr hon hm frame sfd, fun hmin hmax => ⟨execRawRxFrame_filtered hr hon hm frame sfd hmin hmax,
        fun hf hruns => ⟨fun he => ?full, fun hne => ?room⟩⟩, execRawTxFrame_sends hr hon hm⟩⟩,
    fun hm hon => ⟨⟨fun hb => ?seen, fun hb => ?back⟩, execPlcaLost_late hm hon⟩,
    fun hm lost symbols => ⟨fun h0 => ?kept, fun h0 => ?cost⟩,
    fun hd tx tail => ⟨fun hw => next_portWrite_writer hd hw _, fun hw => next_portWrite_other hd hw _⟩,
    fun hd => ⟨fun hw => ⟨next_portWrite_writer hd hw _, fun en => next_portWrite_writer hd hw _⟩,
      fun hw => ⟨next_portWrite_other hd hw _, fun en => next_portWrite_other hd hw _⟩⟩⟩
  case full => exact (execRawRxFrame_passed hr hon hm frame sfd hmin hmax hf hruns).trans (next_if_pos he)
  case room => exact (execRawRxFrame_passed hr hon hm frame sfd hmin hmax hf hruns).trans (next_if_neg hne)
  case seen => exact (execPlcaBeacon_used hm hon).trans (next_if_pos hb)
  case back => exact (execPlcaBeacon_used hm hon).trans (next_if_neg (Bool.eq_false_iff.mp hb))
  case kept => exact (execFieldImmunityEvent_used hm lost symbols).trans (next_if_pos h0)
  case cost => exact (execFieldImmunityEvent_used hm lost symbols).trans (next_if_neg h0)

end Sys2Proof.Machine
end

section
/-! PROOFS. The commands of Solstice and of the management bus complete (R37, R452–R457). -/

namespace Sys2Proof.Machine

/-! ### Solstice (R452–R454) -/

/-- A pass starts where none runs: it has every domain that is on to measure. -/
theorem solStart_idle {s : State} (hrun : solRunning s = false) (hr : s.boot.rails = true) (ht : s.pow.trip = 0) :
    solStart s = { s with pow := { s.pow with
      solTodo := (List.range 420).filter (fun d => domState s d = 1), solHold := none, solSince := s.epoch } } :=
  if_neg (by simp [hrun, hr, ht])

/-- A pass is due INTERVAL days after the last one. -/
theorem execSolsticePassStart_due {s : State} (h0 : s.rig.dev.ageInterval ≠ 0) (hd : s.rig.dev.ageInterval ≤ s.flash.days) :
    execSolsticePassStart s = .next (solStart s) := next_if_pos (by simp [h0, hd])

/-- The command START of SOL_CMD, of a requester that is Cordage or Bowline or another (R458). -/
theorem execSolCmdStart_answers {s : State} (hr : regDead s ⟨.SOL_CMD, 0, 0, 0⟩ = false) (who : Requester) : execSolCmdStart who s = .next
    (if !isMgmt who && !isBowline who then refuseReg s ⟨.SOL_CMD, 0, 0, 0⟩ who else solStart s) :=
  next_if_neg (Bool.eq_false_iff.mp hr)

/-- A pass with domains to measure runs. -/
theorem solRunning_of_todo {s : State} (h : s.pow.solTodo ≠ []) : solRunning s = true := by
  simp [solRunning, h]

/-- A hold starts on the domain that the pass has reached, where it is on, not under test, and a hold span is open (R453). -/
theorem execSolsticeHold_reached {s : State} {d : BitVec 9} {r : List Nat} (hd : d.toNat < 420) (hl : solLeft s = d.toNat :: r)
    (htodo : s.pow.solTodo ≠ []) (hh : s.pow.solHold = none) (ht : s.pow.trip = 0) (hon : domState s d.toNat = 1)
    (hspan : holdSpan s d.toNat = true) (htest : domTested s d.toNat = false) :
    execSolsticeHold d s = .next { s with pow := { s.pow with solTodo := d.toNat :: r, solHold := some d.toNat } } := by
  have hready : ¬ (!solRunning s || s.pow.solHold.isSome || decide (s.pow.trip ≠ 0)) = true := by
    simp [solRunning_of_todo htodo, hh, ht]
  have hgo : (decide (d.toNat = d.toNat) && decide (domState s d.toNat = 1) && holdSpan s d.toNat && !domTested s d.toNat) = true := by
    simp [hon, hspan, htest]
  rw [execSolsticeHold, if_neg (Nat.not_le.mpr hd), if_neg hready, hl]
  exact next_if_pos hgo

/-- What a hold has measured is committed (R454). -/
theorem execSolsticeMeasure_held {s : State} {d : Nat} (h : s.pow.solHold = some d) (need : BitVec 8) :
    execSolsticeMeasure need s = .next (solCommit s d need.toNat (s.pow.solTodo.drop 1)) := by
  simp only [execSolsticeMeasure, h]

/-- A domain for which no hold span arose within 24 hours is skipped (R453). -/
theorem execSolsticeSkip_late {s : State} {d : BitVec 9} {r : List Nat} (hd : d.toNat < 420) (hl : solLeft s = d.toNat :: r)
    (hh : s.pow.solHold = none) (ht : s.pow.solSince + 8640000000000 ≤ s.epoch) : execSolsticeSkip d s =
      .next (solNext (alm (updR s .SOL_DOM (fun w => setBit w 1 true) 0 d.toNat) 0xC018 2 14 d.toNat) r) := by
  rw [execSolsticeSkip, if_neg (Nat.not_le.mpr hd), hl]
  exact next_if_pos (by simp [hh, ht])

/-! ### The management endpoint (R37, R456, R457) -/

/-- A snapshot is due every 100 ms once start-up has ended. -/
theorem execManagementSnapshot_due {s : State} (h9 : s.boot.step = 9) (hs : s.boot.stopped = false)
    (hd : s.mgmt.snapAt + 10000000 ≤ s.epoch) : execManagementSnapshot s = .next (snapshotNow s) :=
  next_if_pos (by simp [h9, hs, hd])

section
variable {s : State} (hb : s.mgmt.smbus = true)
include hb

/-- Once the bus answers, a command's body runs. -/
theorem next_smbus {x : State} : (.next (if !s.mgmt.smbus then s else x) : Host.Outcome State Fault Refusal) = .next x :=
  next_if_neg (by simp [hb])

/-- GET_VIEW answers with the current snapshot and takes the next. -/
theorem execGetView_answers (gen : BitVec 32) {n : Snapshot} {r : List Snapshot} (h : s.mgmt.snaps = n :: r) :
    execGetView gen s = .next (takeSnapshot (mgmtReply s (viewBytes n))) := by
  rw [execGetView, next_smbus hb, h]

/-- A power request with the GEN of a kept snapshot expects the snapshot's CHG. -/
theorem execPowerRequest_kept {gen : BitVec 32} {n : Snapshot} {d : BitVec 9} (hd : d.toNat < 420) (h : snapOf s gen.toNat = some n)
    (op div : BitVec 4) : execPowerRequest gen op d div s =
      .next (powRequest s (.mgmt 0) (some (SMap.get (fun _ => 0) n.chg d.toNat)) d.toNat op.toNat div.toNat true) := by
  rw [execPowerRequest, if_neg (Nat.not_le.mpr hd), next_smbus hb, h]

/-- A power request with another GEN is answered with status 3. -/
theorem execPowerRequest_unknown {gen : BitVec 32} {d : BitVec 9} (hd : d.toNat < 420) (h : snapOf s gen.toNat = none)
    (op div : BitVec 4) : execPowerRequest gen op d div s = .next (mgmtReply s [3]) := by
  rw [execPowerRequest, if_neg (Nat.not_le.mpr hd), next_smbus hb, h]

/-- SOLSTICE_START with the GEN of a kept snapshot that still holds starts a pass. -/
theorem execSolsticeStart_kept {gen : BitVec 32} {n : Snapshot} (h : snapOf s gen.toNat = some n) (hp : n.passes = s.flash.passes)
    (hs : n.solState = b2n (solRunning s)) : execSolsticeStart gen s = .next (takeSnapshot (mgmtReply (solStart s) [0])) := by
  rw [execSolsticeStart, next_smbus hb, h]
  exact next_if_pos (by simp [hp, hs])

/-- SOLSTICE_START with another GEN is answered with status 3. -/
theorem execSolsticeStart_unknown {gen : BitVec 32} (h : snapOf s gen.toNat = none) : execSolsticeStart gen s = .next (mgmtReply s [3]) := by
  rw [execSolsticeStart, next_smbus hb, h]

/-- A message at the module's own address (R34) is taken by its type: MCTP control (0) or PLDM (1). -/
theorem execMctpMessage_own {addr : BitVec 7} (ha : addr.toNat = 0x64 + s.boot.maddr) (i c : Byte) (l : List Byte) :
    execMctpMessage (BitVec.ofNat 8 (2 * addr.toNat) :: 0 :: i :: c :: l) s = .next (mctpControl s i c l) ∧
    ∀ ty, execMctpMessage (BitVec.ofNat 8 (2 * addr.toNat) :: 1 :: i :: ty :: c :: l) s = .next (pldmMessage s i ty c l) := by
  have hown : (BitVec.ofNat 8 (2 * addr.toNat)).toNat = 2 * smbusAddr s := by
    have hlt := addr.isLt
    rw [BitVec.toNat_ofNat, Nat.mod_eq_of_lt (by omega), ha, smbusAddr]
  have hguard : ¬ (!s.mgmt.smbus || decide ((BitVec.ofNat 8 (2 * addr.toNat)).toNat ≠ 2 * smbusAddr s)) = true := by
    simp [hb, hown]
  exact ⟨next_if_neg hguard, fun ty => next_if_neg hguard⟩

/-- The alert response releases ALERT_N (R37). -/
theorem execSmbusAlertResponse_releases :
    execSmbusAlertResponse s = .next { s with mgmt := { s.mgmt with alertN := true } } := next_if_pos hb

end

/-- Settles O46: each command by the lemma that says what it does where its guard holds. -/
theorem managementCompletes : Obligations.ManagementCompletes := by
  refine fun s who d gen addr => ⟨solStart_idle, execSolsticePassStart_due, fun hr => ⟨fun hw => ?may, fun hm hb => ?mayNot⟩,
    fun r => execSolsticeHold_reached, fun x need hx => execSolsticeMeasure_held hx need, fun r => execSolsticeSkip_late,
    execManagementSnapshot_due, fun hb => ⟨fun n r => execGetView_answers hb gen,
      fun hn => ⟨fun op div hd => execPowerRequest_unknown hb hd hn op div, execSolsticeStart_unknown hb hn⟩,
      fun n op div hd hn => execPowerRequest_kept hb hd hn op div, fun n => execSolsticeStart_kept hb,
      fun ha => ⟨fun i c l => (execMctpMessage_own hb ha i c l).1, fun i ty c l => (execMctpMessage_own hb ha i c l).2 ty⟩,
      execSmbusAlertResponse_releases hb⟩⟩
  case may => exact (execSolCmdStart_answers hr who).trans (next_if_neg (by simpa [or_iff_not_imp_left] using hw))
  case mayNot => exact (execSolCmdStart_answers hr who).trans (next_if_pos (by rw [hm, hb]; rfl))

end Sys2Proof.Machine
end

section
/-! PROOFS. Support: fields of a word, registers at other keys, and what a record in Almanac leaves as it was. -/

namespace Sys2Proof.Machine

/-! ### Fields of a word -/

/-- A bit of a word with a field replaced: the value's inside the field, the word's outside. -/
theorem getLsbD_setField (w : Word) {hi : Nat} (hhi : hi < 64) (lo v k : Nat) :
    (setField w hi lo v).getLsbD k = if lo ≤ k ∧ k ≤ hi then v.testBit (k - lo) else w.getLsbD k := by
  have hbits : (setField w hi lo v).getLsbD k = if k < 64 then
      (if lo ≤ k ∧ k - lo < hi + 1 - lo then v.testBit (k - lo) else w.getLsbD k) else false := by
    simp only [setField, BitVec.getLsbD_or, BitVec.getLsbD_and, BitVec.getLsbD_not, BitVec.getLsbD_ofNat, Nat.testBit_mul_two_pow,
      Nat.testBit_two_pow_sub_one, Nat.testBit_mod_two_pow]
    by_cases hk : k < 64 <;> by_cases hlo : lo ≤ k <;> by_cases hw : k - lo < hi + 1 - lo <;> simp [hk, hlo, hw]
  rw [hbits]
  split
  · exact if_congr (by omega) rfl rfl
  · rw [if_neg (by omega), BitVec.getLsbD_of_ge _ _ (by omega)]

/-- A bit of a field, as a number. -/
theorem testBit_fieldN (w : Word) (hi lo i : Nat) : (fieldN w hi lo).testBit i = (decide (i < hi + 1 - lo) && w.getLsbD (lo + i)) := by
  simp [fieldN, Nat.testBit_mod_two_pow, Nat.testBit_div_two_pow, BitVec.testBit_toNat, Nat.add_comm]

/-- The field just replaced. -/
theorem fieldN_setField_same (w : Word) {hi lo : Nat} (hhi : hi < 64) (v : Nat) :
    fieldN (setField w hi lo v) hi lo = v % 2 ^ (hi + 1 - lo) := by
  refine Nat.eq_of_testBit_eq fun i => ?_
  rw [testBit_fieldN, getLsbD_setField w hhi, Nat.testBit_mod_two_pow, Nat.add_sub_cancel_left]
  by_cases hi' : i < hi + 1 - lo
  · rw [if_pos (by omega)]
  · simp [hi']

/-- A field that does not meet the one replaced. -/
theorem fieldN_setField_other (w : Word) {hi lo hi' lo' : Nat} (hhi : hi < 64) (hd : hi' < lo ∨ hi < lo') (v : Nat) :
    fieldN (setField w hi lo v) hi' lo' = fieldN w hi' lo' := by
  refine Nat.eq_of_testBit_eq fun i => ?_
  rw [testBit_fieldN, testBit_fieldN, getLsbD_setField w hhi]
  by_cases hi' : i < hi' + 1 - lo'
  · rw [if_neg (by omega)]
  · simp [hi']

/-! ### Units and registers -/

/-- A write leaves every other key, also as one reads it with another table's unlisted values. -/
theorem SMap.get_set_other_default {α : Type} [DecidableEq α] (d d' : Nat → α) (m : SMap α) {k i : Nat} (v : α) (h : i ≠ k) :
    SMap.get d (SMap.set d' m k v) i = SMap.get d m i := by
  unfold SMap.set
  split
  · exact SMap.get_drop_other d m k i h
  · rw [SMap.get_put_other d _ k i v h, SMap.get_drop_other d m k i h]

/-- A register write leaves the register at another key. -/
theorem getR_setR_other (s : State) {r q : Reg} {u i j u' i' j' : Nat} (h : regKey q u' i' j' ≠ regKey r u i j) (v : Word) :
    getR (setR s r v u i j) q u' i' j' = getR s q u' i' j' := by
  unfold getR setR
  exact SMap.get_set_other_default (fun _ => regDefault q i' j') (fun _ => regDefault r i j) s.regs v h

/-- A register update leaves the register at another key. -/
theorem getR_updR_other (s : State) {r q : Reg} {u i j u' i' j' : Nat} (h : regKey q u' i' j' ≠ regKey r u i j) (f : Word → Word) :
    getR (updR s r f u i j) q u' i' j' = getR s q u' i' j' :=
  getR_setR_other s h _

/-- The core just updated. -/
@[simp] theorem coreOf_updCore_same (s : State) (c : Nat) (f : Core → Core) : coreOf (updCore s c f) c = f (coreOf s c) :=
  SMap.get_set_same _ _ _ _

/-- Register updates leave the pins and the state of start-up. -/
theorem foldS_updR_boot {α : Type} (s : State) (r : Reg) (f : α → Word → Word) (u i : α → Nat) (l : List α) :
    (foldS (fun s e => updR s r (f e) (u e) (i e)) s l).boot = s.boot := by
  refine foldS_keeps (fun y => y.boot = s.boot) _ ?_ l s rfl
  exact fun _ _ hy => hy

/-- Register updates leave the power state. -/
theorem foldS_updR_pow {α : Type} (s : State) (r : Reg) (f : α → Word → Word) (u i : α → Nat) (l : List α) :
    (foldS (fun s e => updR s r (f e) (u e) (i e)) s l).pow = s.pow := by
  refine foldS_keeps (fun y => y.pow = s.pow) _ ?_ l s rfl
  exact fun _ _ hy => hy

/-! ### Records in Almanac (R479) -/

/-- What a record changes: Almanac, FAULT_N, and the drop count of its severity where no slot takes it. -/
theorem recordAcceptOp_cases (s : State) (code sev cls src p0 p1 p2 : Nat) (trip : Bool) :
    ∃ (f : Bool) (a : Alm), recordAcceptOp s code sev cls src p0 p1 p2 trip = { s with faultN := f, alm := a } ∨
      recordAcceptOp s code sev cls src p0 p1 p2 trip =
        { updR s .ALM_DROP (fun w => satInc w 31 0) 0 sev with faultN := f, alm := a } := by
  unfold recordAcceptOp
  by_cases h6 : sev = 6
  · simp only [if_pos h6]
    split
    · exact ⟨_, _, .inl rfl⟩
    · exact ⟨_, _, .inr rfl⟩
  · simp only [if_neg h6]
    split
    · exact ⟨_, _, .inl rfl⟩
    · exact ⟨_, _, .inr rfl⟩

/-- A record leaves the power state. -/
@[simp] theorem recordAcceptOp_pow (s : State) (code sev cls src p0 p1 p2 : Nat) (trip : Bool) :
    (recordAcceptOp s code sev cls src p0 p1 p2 trip).pow = s.pow := by
  obtain ⟨f, a, h | h⟩ := recordAcceptOp_cases s code sev cls src p0 p1 p2 trip <;> exact (congrArg State.pow h).trans rfl

/-- A record leaves the pins and the state of start-up. -/
@[simp] theorem recordAcceptOp_boot (s : State) (code sev cls src p0 p1 p2 : Nat) (trip : Bool) :
    (recordAcceptOp s code sev cls src p0 p1 p2 trip).boot = s.boot := by
  obtain ⟨f, a, h | h⟩ := recordAcceptOp_cases s code sev cls src p0 p1 p2 trip <;> exact (congrArg State.boot h).trans rfl

/-- A record leaves every register but the drop count of its severity. -/
theorem getR_recordAcceptOp (s : State) (code : Nat) {sev : Nat} (cls src p0 p1 p2 : Nat) (trip : Bool) {q : Reg} {u i j : Nat}
    (hk : regKey q u i j ≠ regKey .ALM_DROP 0 sev 0) :
    getR (recordAcceptOp s code sev cls src p0 p1 p2 trip) q u i j = getR s q u i j := by
  obtain ⟨f, a, h | h⟩ := recordAcceptOp_cases s code sev cls src p0 p1 p2 trip
  · rw [h]
    rfl
  · rw [h]
    exact getR_updR_other s hk (fun w => satInc w 31 0)

end Sys2Proof.Machine
end

section
/-! PROOFS. The commissioning press, the debug tap and the power domains' commands complete (R39, R41, R442–R451). -/

namespace Sys2Proof.Machine

/-! ### Requests of power domains (R446, R447) -/

/-- A request of a domain that the module has, while the power registers answer. -/
theorem powCommand_answers {s : State} {d : BitVec 9} (hd : d.toNat < 420) (hr : regDead s ⟨.PWR_DOM_REQ, 0, 0, 0⟩ = false)
    (who : Requester) (exp : Option (BitVec 16)) (op div : Nat) :
    powCommand who exp d op div s = .next (powRequest s who (exp.map BitVec.toNat) d.toNat op div) :=
  (if_neg (Nat.not_le.mpr hd)).trans (next_if_neg (Bool.eq_false_iff.mp hr))

section
variable {s : State} {d : BitVec 9} {r : PowReq} {rest : List PowReq} (hq : s.pow.reqs = r :: rest) (ht : r.taken = true)
  (hd : r.dom = d.toNat) (hlt : d.toNat < 420) (hh : s.pow.solHold ≠ some r.dom)
include hq ht hd hlt hh

/-- The switch of the oldest request, where Solstice does not hold its domain: it completes once the domain is ready for it, and until
then the domain's caches are written back. -/
theorem execDomainSwitchComplete_taken :
    execDomainSwitchComplete d s = .next (if offReady s r then powComplete s else domWriteback s r.dom) := by
  have hguard : ¬ (!r.taken || decide (r.dom ≠ d.toNat) || s.pow.solHold == some r.dom) = true := by
    simp [ht, hd, hd ▸ hh]
  simp only [execDomainSwitchComplete, if_neg (Nat.not_le.mpr hlt), hq]
  exact next_if_neg hguard

omit hd hlt hh in
/-- A taken request completes with its effect, and the next one is taken. -/
theorem powComplete_taken : powComplete s = powTake (powDone (powEffect { s with pow := { s.pow with reqs := rest } } r) r 0) := by
  simp only [powComplete, hq, ht, if_true]

end

/-! ### Clock gating of cores (R448) -/

/-- Thread `t` lets its core be gated: it stands in a state without work for 10 µs, has no store to drain, and no release names it. -/
def coreGateable (s : State) (t : Nat) : Prop :=
  ((thr s t).run = .halted ∨ (thr s t).run = .held ∨ (thr s t).run = .waitslot ∨ ((thr s t).run = .wfi ∧ anyPending s t = false)) ∧
    (thr s t).stoodAt + 1000 ≤ s.epoch ∧ (thr s t).stores = [] ∧ releaseNamed s t = false

/-- A core that runs and may gate, with four threads that let it, is gated with empty caches. -/
theorem execCoreGate_idle {s : State} {c : BitVec 8} (hp : domPolicy s c.toNat = 2) (hon : domState s c.toNat = 1)
    (hg : (coreOf s c.toNat).gated = false) (hi : ∀ t ∈ threadsOf c.toNat, coreGateable s t) :
    ∃ x, execCoreGate c s = .next x ∧ (coreOf x c.toNat).gated = true ∧ (coreOf x c.toNat).l1d = [] ∧ (coreOf x c.toNat).l1i = [] := by
  have hidle : (threadsOf c.toNat).all (fun t =>
      let r := (thr s t).run
      (r == .wfi || r == .waitslot || r == .held || r == .halted) && decide ((thr s t).stoodAt + 1000 ≤ s.epoch) &&
        (thr s t).stores.isEmpty && !releaseNamed s t && !(r == .wfi && anyPending s t)) = true := by
    refine List.all_eq_true.mpr fun t ht => ?_
    obtain ⟨hrun, hstood, hstores, hnamed⟩ := hi t ht
    obtain hrun | hrun | hrun | ⟨hrun, hpend⟩ := hrun
    · simp [hrun, hstood, hstores, hnamed]
    · simp [hrun, hstood, hstores, hnamed]
    · simp [hrun, hstood, hstores, hnamed]
    · simp [hrun, hstood, hstores, hnamed, hpend]
  refine ⟨_, next_if_pos (by simp only [hp, hon, hg, hidle]; rfl), ?_⟩
  simp only [coreOf_updCore_same, and_self]

/-- A gated core with a thread that has work is clocked again. -/
theorem execCoreUngate_work {s : State} {c : BitVec 8} (hg : (coreOf s c.toNat).gated = true)
    (hw : ∃ t ∈ threadsOf c.toNat, anyPending s t = true ∨ (thr s t).run = .run) : execCoreUngate c s = .next (ungate s c.toNat) :=
  next_if_pos (by simpa [hg] using hw)

/-! ### Clocks and the throttle (R442, R450) -/

/-- CLK_ROOT does not lock again in time: the rails go off. -/
theorem execClkRootRelockTimeout_lost {s : State} (hr : s.boot.rails = true) (hl : s.boot.lockLost = true) :
    execClkRootRelockTimeout s = .next { powerOff s with faultN := false } := next_if_pos (by rw [hr, hl]; rfl)

/-- CLK_ROOT loses its lock: a module reset, with a record. -/
theorem execClkRootLockLoss_rails {s : State} (hr : s.boot.rails = true) : execClkRootLockLoss s = .next
    { moduleReset (alm s 0xC015 6 0 0) 2 with boot := { (moduleReset (alm s 0xC015 6 0 0) 2).boot with lockLost := true } } :=
  next_if_pos hr

/-- While the throttle is on, the first quad in order whose divider may still rise is slowed. -/
theorem execThrottleStep_slows {s : State} (hd : s.pow.thrAt + 1000000 ≤ s.epoch) (ht : s.pow.thr = true) {q : Nat}
    (hq : (thrOrder s).find? (fun q => decide (thrDiv s q < 4)) = some q) :
    execThrottleStep s = .next (setThrDiv { s with pow := { s.pow with thrAt := s.epoch } } q (thrDiv s q + 1)) := by
  simp only [execThrottleStep, if_neg (Nat.not_lt.mpr hd), if_pos ht, hq]

/-- While it is off, the last quad in order that is still slowed runs faster. -/
theorem execThrottleStep_restores {s : State} (hd : s.pow.thrAt + 1000000 ≤ s.epoch) (ht : s.pow.thr = false) {q : Nat}
    (hq : (thrOrder s).reverse.find? (fun q => decide (2 < thrDiv s q)) = some q) :
    execThrottleStep s = .next (setThrDiv { s with pow := { s.pow with thrAt := s.epoch } } q (thrDiv s q - 1)) := by
  simp only [execThrottleStep, if_neg (Nat.not_lt.mpr hd), if_neg (Bool.eq_false_iff.mp ht), hq]

/-! ### Trips (R451) -/

/-- A trip begins where none runs and the rails are on. -/
theorem tripBegin_trip {s : State} (ht : s.pow.trip = 0) (hr : s.boot.rails = true) (kind : Nat) : (tripBegin s kind).pow.trip = kind := by
  rw [tripBegin, if_neg (by simp [ht, hr])]

/-- While a trip runs no other begins. -/
theorem tripBegin_running {s : State} (ht : s.pow.trip ≠ 0) (kind : Nat) : tripBegin s kind = s := if_pos (by simp [ht])

/-- Nothing that the domains held is left. -/
def unitsLost (s : State) : Prop := s.threads = [] ∧ s.cores = [] ∧ s.quads = [] ∧ s.slices = []

/-- The time of a trip is over: the domains go off with what they held, and Almanac is flushed. -/
theorem execTripDomainsOff_due {s : State}
    (ht : s.pow.trip = 1 ∧ s.pow.tripAt + 100000 ≤ s.epoch ∨ s.pow.trip = 2 ∧ s.pow.tripAt + 10000 ≤ s.epoch) (ho : s.pow.tripOff = false) :
    ∃ x, execTripDomainsOff s = .next x ∧ x.pow.tripOff = true ∧ x.alm.flushing = true ∧ unitsLost x := by
  have hguard : ¬ (decide (s.pow.trip = 0) || s.pow.tripOff ||
      decide (s.epoch < s.pow.tripAt + (if s.pow.trip = 1 then 100000 else 10000))) = true := by
    obtain ⟨h1, hd⟩ | ⟨h2, hd⟩ := ht
    · simp [h1, ho, hd]
    · simp [h2, ho, hd]
  refine ⟨_, next_if_neg hguard, rfl, rfl, ?_⟩
  unfold unitsLost
  dsimp only
  generalize List.range 16 = l
  refine foldS_keeps unitsLost _ ?_ _ _ ?_
  · exact fun _ _ hx => hx
  · exact ⟨rfl, rfl, rfl, rfl⟩

/-- Almanac is flushed, or its time is over: the rails go off. -/
theorem execTripFlushComplete_due {s : State} (ho : s.pow.tripOff = true) (hd : almUnmirrored s = false ∨ s.pow.tripAt + 10000000 ≤ s.epoch) :
    execTripFlushComplete s = .next { powerOff { s with boot := { s.boot with needLow := true } } with faultN := false } :=
  next_if_pos (by simpa [ho] using hd)

/-! ### Sensors (R449) -/

/-- The hottest of the temperatures is at most `b` where each is. -/
theorem hottest_le_iff (temps : List (BitVec 8)) (b : Nat) : (hottest temps).2 ≤ b ↔ ∀ v ∈ temps, v.toNat ≤ b := by
  have hfold (l : List (BitVec 8 × Nat)) (a : Nat × Nat) :
      (l.foldl (fun a e => if a.2 < e.1.toNat then (e.2, e.1.toNat) else a) a).2 ≤ b ↔ a.2 ≤ b ∧ ∀ e ∈ l, e.1.toNat ≤ b := by
    induction l generalizing a with
    | nil => simp
    | cons e r ih =>
      rw [List.foldl_cons, ih, List.forall_mem_cons, ← and_assoc]
      refine and_congr_left' ?_
      split <;> omega
  have hmem : (∀ e ∈ temps.zipIdx, e.1.toNat ≤ b) ↔ ∀ v ∈ temps, v.toNat ≤ b := by
    rw [← List.forall_mem_map (f := Prod.fst) (P := fun v : BitVec 8 => v.toNat ≤ b), List.zipIdx_map_fst]
  rw [hottest, hfold, hmem]
  simp

/-- State `z` shows the readings of a sample, with the trip and the pins of `s`. -/
structure SensorsRead (s z : State) (inlet outlet pin : BitVec 16) : Prop where
  trip : z.pow.trip = s.pow.trip
  boot : z.boot = s.boot
  pin : fieldN (getR z .PWR_IN 0) 31 16 = pin.toNat
  inlet : fieldN (getR z .PWR_COOLANT 0) 63 48 = inlet.toNat
  outlet : fieldN (getR z .PWR_COOLANT 0) 47 32 = outlet.toNat

section
variable {s z : State} {inlet outlet pin : BitVec 16} (h : SensorsRead s z inlet outlet pin)
include h

/-- A record of severity 3 leaves the readings. -/
theorem SensorsRead.alm (code cls src p0 p1 p2 : Nat) : SensorsRead s (alm z code 3 cls src p0 p1 p2) inlet outlet pin := by
  change SensorsRead s (recordAcceptOp z code 3 cls src p0 p1 p2 false) inlet outlet pin
  constructor
  · rw [recordAcceptOp_pow, h.trip]
  · rw [recordAcceptOp_boot, h.boot]
  · rw [getR_recordAcceptOp z code cls src p0 p1 p2 false (by decide), h.pin]
  · rw [getR_recordAcceptOp z code cls src p0 p1 p2 false (by decide), h.inlet]
  · rw [getR_recordAcceptOp z code cls src p0 p1 p2 false (by decide), h.outlet]

/-- A change of the management endpoint leaves the readings. -/
theorem SensorsRead.mgmt (m : MgmtSt) : SensorsRead s { z with mgmt := m } inlet outlet pin :=
  ⟨h.trip, h.boot, h.pin, h.inlet, h.outlet⟩

/-- The event of a new thermal state leaves the readings. -/
theorem SensorsRead.thermEvent (before after : Nat) : SensorsRead s (thermEvent z before after) inlet outlet pin := by
  unfold Machine.thermEvent
  split
  · exact h
  · exact h.mgmt _

/-- What keeps the readings may happen or not. -/
theorem SensorsRead.ite {c : Prop} [Decidable c] {z' : State} (hz : SensorsRead s z inlet outlet pin → SensorsRead s z' inlet outlet pin) :
    SensorsRead s (if c then z' else z) inlet outlet pin := by
  split
  · exact hz h
  · exact h

end

/-- The writes of PWR_IN and PWR_COOLANT show the readings, and a write of PWR_THERM and of the power state leaves them. -/
theorem SensorsRead.shown {s y : State} (hboot : y.boot = s.boot) (hpow : y.pow = s.pow) {p : PowSt} (hp : p.trip = y.pow.trip)
    (inlet outlet vin iin pin : BitVec 16)
    (therm : Word → Word) : SensorsRead s
      { updR (updR (updR y .PWR_IN (fun w => setField (setField (setField w 63 48 vin.toNat) 47 32 iin.toNat) 31 16 pin.toNat) 0)
          .PWR_COOLANT (fun w => setField (setField w 63 48 inlet.toNat) 47 32 outlet.toNat) 0) .PWR_THERM therm 0 with pow := p }
      inlet outlet pin := by
  have htherm (z : State) (q : Reg) (hq : regKey q 0 0 0 ≠ regKey .PWR_THERM 0 0 0) :
      getR { updR z .PWR_THERM therm 0 with pow := p } q 0 = getR z q 0 := getR_updR_other z hq therm
  refine ⟨hp.trans (congrArg PowSt.trip hpow), hboot, ?_, ?_, ?_⟩
  · rw [htherm _ _ (by decide), getR_updR_other _ (by decide), getR_updR_same, fieldN_setField_same _ (by decide)]
    exact Nat.mod_eq_of_lt pin.isLt
  · rw [htherm _ _ (by decide), getR_updR_same, fieldN_setField_other _ (by decide) (by decide), fieldN_setField_same _ (by decide)]
    exact Nat.mod_eq_of_lt inlet.isLt
  · rw [htherm _ _ (by decide), getR_updR_same, fieldN_setField_same _ (by decide)]
    exact Nat.mod_eq_of_lt outlet.isLt

/-- A sample shows its readings, and a trip begins where a junction has 105 °C or the outlet has been too hot for 1,000 samples. -/
theorem execSensorSample_reads {s : State} {temps : List (BitVec 8)} (hr : s.boot.rails = true) (hl : temps.length = 420)
    (inlet outlet vin iin pin : BitVec 16) : ∃ z, SensorsRead s z inlet outlet pin ∧
      execSensorSample temps inlet outlet vin iin pin s = .next
        (if 105 ≤ (hottest temps).2 || 1000 ≤ (if reading outlet ≥ outletLimit + 300 then s.pow.outletTrip + 1 else 0) then tripBegin z 1
         else z) := by
  unfold execSensorSample
  rw [if_neg (not_not.mpr hl), if_neg (by simp [hr])]
  rcases hottest temps with ⟨dom, hot⟩
  dsimp -zeta only
  extract_lets
  refine ⟨_, .thermEvent (.ite (.ite (.shown ?boot ?pow ?trip ..) fun h => (h.alm ..).mgmt _) fun h => h.alm ..) .., rfl⟩
  case boot => exact foldS_updR_boot s ..
  case pow => exact foldS_updR_pow s ..
  case trip => rfl

/-- A sample begins no trip where one runs, or where each junction and the outlet stay below their limits. -/
theorem execSensorSample_noTrip {s : State} {temps : List (BitVec 8)} (hr : s.boot.rails = true) (hl : temps.length = 420)
    (hn : s.pow.trip ≠ 0 ∨ ((∀ v ∈ temps, v.toNat < 105) ∧ s.pow.outletTrip < 999)) (inlet outlet vin iin pin : BitVec 16) :
    ∃ x, execSensorSample temps inlet outlet vin iin pin s = .next x ∧ SensorsRead s x inlet outlet pin := by
  obtain ⟨z, hz, he⟩ := execSensorSample_reads hr hl inlet outlet vin iin pin
  refine ⟨z, he.trans ?_, hz⟩
  obtain ht | ⟨hcool, hout⟩ := hn
  · rw [tripBegin_running (by rw [hz.trip]; exact ht), ite_self]
  · have hhot : (hottest temps).2 ≤ 104 := (hottest_le_iff temps 104).mpr fun v hv => Nat.le_of_lt_succ (hcool v hv)
    refine next_if_neg ?_
    simp only [Bool.or_eq_true, decide_eq_true_eq]
    split <;> omega

/-- A sample with a junction of 105 °C or more begins a trip where none runs. -/
theorem execSensorSample_trips {s : State} {temps : List (BitVec 8)} (hr : s.boot.rails = true) (hl : temps.length = 420)
    (ht : s.pow.trip = 0) (hhot : ∃ v ∈ temps, 105 ≤ v.toNat) (inlet outlet vin iin pin : BitVec 16) :
    ∃ x, execSensorSample temps inlet outlet vin iin pin s = .next x ∧ x.pow.trip = 1 := by
  obtain ⟨z, hz, he⟩ := execSensorSample_reads hr hl inlet outlet vin iin pin
  obtain ⟨v, hv, hv105⟩ := hhot
  have hmax : 105 ≤ (hottest temps).2 := hv105.trans ((hottest_le_iff temps _).mp le_rfl v hv)
  exact ⟨_, he.trans (next_if_pos (by simp [hmax])), tripBegin_trip (hz.trip.trans ht) (hz.boot ▸ hr) 1⟩

/-! ### COMMISSION_N and the debug tap (R39, R41) -/

/-- The call awaits a press that began at `began`. -/
def SvcPend.awaits (began : Nat) (p : SvcPend) : Prop := p.pressed = false ∧ p.since < began ∧ began ≤ p.since + 6000000000

/-- A call that awaits the press, in front of the queue, has it. -/
theorem press_cons_awaits {began : Nat} {p : SvcPend} (h : p.awaits began) (r : List SvcPend) :
    execCommissionPress.press began (p :: r) = { p with pressed := true } :: r := by
  obtain ⟨hp, hsince, hlate⟩ := h
  simp [execCommissionPress.press, hp, hsince, hlate]

/-- A call that does not await the press is passed over. -/
theorem press_cons_other {began : Nat} {p : SvcPend} (h : ¬ p.awaits began) (r : List SvcPend) :
    execCommissionPress.press began (p :: r) = p :: execCommissionPress.press began r := by
  rw [execCommissionPress.press, if_neg (by simpa [SvcPend.awaits, and_assoc] using h)]

/-- The oldest call that awaits the press has it. -/
theorem press_append_awaits {began : Nat} {p : SvcPend} (h : p.awaits began) (r : List SvcPend) :
    ∀ a : List SvcPend, (∀ y ∈ a, ¬ y.awaits began) →
      execCommissionPress.press began (a ++ p :: r) = a ++ { p with pressed := true } :: r
  | [], _ => press_cons_awaits h r
  | y :: a, ha => by
    obtain ⟨hy, hrest⟩ := List.forall_mem_cons.mp ha
    rw [List.cons_append, press_cons_other hy, press_append_awaits h r a hrest, List.cons_append]

/-- Where no call awaits the press, none has it. -/
theorem press_of_none_awaits {began : Nat} : ∀ l : List SvcPend, (∀ y ∈ l, ¬ y.awaits began) → execCommissionPress.press began l = l
  | [], _ => rfl
  | y :: l, hl => by
    obtain ⟨hy, hrest⟩ := List.forall_mem_cons.mp hl
    rw [press_cons_other hy, press_of_none_awaits l hrest]

/-- The state after a press that the module sees, with these calls. -/
def commissionSeen (s : State) (l : List SvcPend) : State :=
  { s with boot := { s.boot with commOk := true }, svc := { s.svc with pend := l } }

/-- The module sees a press while its housekeeping supply is on and the input has been high for 50 ms; from 50 ms on it is a call's. -/
theorem execCommissionPress_seen {s : State} {high : Bool} (hk : s.boot.hk = true) (hc : s.boot.commOk = true ∨ high = true) (ms : BitVec 16) :
    execCommissionPress ms high s = .next (commissionSeen s
      (if 50 ≤ ms.toNat then execCommissionPress.press (s.epoch - ms.toNat * 100000) s.svc.pend else s.svc.pend)) :=
  next_if_pos (by simpa [hk] using hc)

/-- The oldest call that awaits a press of at least 50 ms has it. -/
theorem execCommissionPress_awaited {s : State} {high : Bool} (hk : s.boot.hk = true) (hc : s.boot.commOk = true ∨ high = true)
    {ms : BitVec 16} (hms : 50 ≤ ms.toNat) {a r : List SvcPend} {p : SvcPend} (hq : s.svc.pend = a ++ p :: r)
    (ha : ∀ y ∈ a, ¬ y.awaits (s.epoch - ms.toNat * 100000)) (hp : p.awaits (s.epoch - ms.toNat * 100000)) :
    execCommissionPress ms high s = .next (commissionSeen s (a ++ { p with pressed := true } :: r)) := by
  rw [execCommissionPress_seen hk hc, if_pos hms, hq, press_append_awaits hp r a ha]

/-- A press that is too short, or that no call awaits, is no call's. -/
theorem execCommissionPress_unawaited {s : State} {high : Bool} (hk : s.boot.hk = true) (hc : s.boot.commOk = true ∨ high = true)
    {ms : BitVec 16} (h : ms.toNat < 50 ∨ ∀ y ∈ s.svc.pend, ¬ y.awaits (s.epoch - ms.toNat * 100000)) :
    execCommissionPress ms high s = .next (commissionSeen s s.svc.pend) := by
  rw [execCommissionPress_seen hk hc]
  obtain hshort | hnone := h
  · rw [if_neg (Nat.not_le.mpr hshort)]
  · rw [press_of_none_awaits _ hnone, ite_self]

/-- A press is not seen without the housekeeping supply, or where the input has not been high for 50 ms. -/
theorem execCommissionPress_unseen {s : State} {high : Bool} (h : s.boot.hk = false ∨ (s.boot.commOk = false ∧ high = false))
    (ms : BitVec 16) : execCommissionPress ms high s = .next s :=
  next_if_neg (by
    obtain hk | ⟨hc, hh⟩ := h
    · simp [hk]
    · simp [hc, hh])

/-- The tap takes an instruction that is open to all, or any while debug is enabled (R41). -/
theorem execDebugTapInstruction_open {s : State} {tap : TapInstr} (h : s.boot.debug = true ∨ tap = .idcode ∨ tap = .bypass) :
    execDebugTapInstruction tap s = .next { s with boot := { s.boot with tap := tap } } := by
  cases tap with
  | idcode => rfl
  | bypass => rfl
  | other k =>
    have hd : s.boot.debug = true := by simpa using h
    simp only [execDebugTapInstruction, hd, if_true]

/-- Any other instruction is BYPASS while debug is disabled (R41). -/
theorem execDebugTapInstruction_locked {s : State} (h : s.boot.debug = false) (k : BitVec 8) :
    execDebugTapInstruction (.other k) s = .next { s with boot := { s.boot with tap := .bypass } } := by
  simp only [execDebugTapInstruction, h, Bool.false_eq_true, if_false]

/-- Settles O31: each command by the lemma that says what it does where it is due. -/
theorem powerCommandsComplete : Obligations.PowerCommandsComplete := by
  refine fun s who exp d div c => ⟨fun hd hr => ?requests, fun r rest hq ht hdom hlt hh => ⟨fun hready => ?completes, fun hnot => ?writesBack⟩,
    execCoreGate_idle, execCoreUngate_work, fun high => rfl, execClkRootRelockTimeout_lost, execClkRootLockLoss_rails,
    execTripFlushComplete_due, execTripDomainsOff_due,
    fun hr temps inlet outlet vin iin pin hl => ⟨fun hn => ?sampled, fun ht hhot => execSensorSample_trips hr hl ht hhot ..⟩,
    fun hd => ⟨fun ht q => execThrottleStep_slows hd ht, fun ht q => execThrottleStep_restores hd ht⟩,
    fun tap => execDebugTapInstruction_open, fun k hd => execDebugTapInstruction_locked hd k,
    fun ms high => ⟨fun hk hc => ⟨fun hms a p r => execCommissionPress_awaited hk hc hms, execCommissionPress_unawaited hk hc⟩,
      fun h => execCommissionPress_unseen h ms⟩⟩
  case requests => exact ⟨powCommand_answers hd hr .., powCommand_answers hd hr .., powCommand_answers hd hr ..,
    powCommand_answers hd hr .., powCommand_answers hd hr ..⟩
  case completes =>
    rw [← powComplete_taken hq ht]
    exact (execDomainSwitchComplete_taken hq ht hdom hlt hh).trans (next_if_pos hready)
  case writesBack => exact (execDomainSwitchComplete_taken hq ht hdom hlt hh).trans (next_if_neg (Bool.eq_false_iff.mp hnot))
  case sampled =>
    obtain ⟨x, hx, hread⟩ := execSensorSample_noTrip hr hl hn inlet outlet vin iin pin
    exact ⟨x, hx, hread.pin, hread.inlet, hread.outlet⟩

end Sys2Proof.Machine
end

section
/-! PROOFS. Reset leaves the module without power (R36; the values that the spec gives no rule for: log 3). -/

namespace Sys2Proof.Machine

/-- At reset every register reads as its reset value. -/
@[simp] theorem getR_reset (r : Reg) (u i j : Nat) : getR State.reset r u i j = regDefault r i j := rfl

/-- At reset every power domain is off. -/
theorem domState_reset (d : Nat) : domState State.reset d = 0 := by
  rw [domState, getR_reset]
  change fieldN (regReset .PWR_DOM_STS) 2 0 = 0
  decide

/-- At reset every general register reads as zero. -/
theorem rg_reset (t : Nat) (r : BitVec 6) : rg State.reset t r = ⟨0, 0⟩ := ite_self _

/-- Settles O59: the plain fields are the structure's values; the domains and the registers read as their tables' unlisted values. -/
theorem resetState : Obligations.ResetState :=
  ⟨rfl, rfl, rfl, rfl, rfl, rfl, ⟨rfl, rfl, rfl⟩, rfl, rfl, fun d _ => domState_reset d, fun _ => rfl, rg_reset, rfl⟩

end Sys2Proof.Machine
end

section
/-! PROOFS. An access that reaches no register reads as zero and writes nothing: the block does not answer, or the word is a hole of its
window (R60, R470). -/

namespace Sys2Proof.Machine

/-- A read of a block that does not answer returns zero and has no effect. -/
theorem readReg_dead {s : State} {b : Blk} {u off addr : Nat} (ha : blkOf (addr / 8 * 8) = some (b, u, off))
    (hd : blkDead s b u off = true) (who : Requester) (mask : Word) : readReg s who addr mask = (0, s) := by
  simp only [readReg, ha, hd, if_true]

/-- A write to a block that does not answer has no effect. -/
theorem writeReg_dead {s : State} {b : Blk} {u off addr : Nat} (ha : blkOf (addr / 8 * 8) = some (b, u, off))
    (hd : blkDead s b u off = true) (who : Requester) (v mask : Word) : writeReg s who addr v mask = s := by
  simp only [writeReg, ha, hd, if_true]

/-- An offset of a block holds nothing: it is no register's, and lies neither in the window of RIG_STAGE nor in one of the Almanac's. -/
def RegHole (s : State) (who : Requester) (b : Blk) (u off : Nat) : Prop :=
  regInBlk b u off = none ∧ ¬ (b = .rig ∧ 0x1000000 ≤ off ∧ off < 0x5000000) ∧ (b = .alm → almWindow s who off = none)

section Hole
variable {s : State} {who : Requester} {b : Blk} {u off addr : Nat}

/-- The accesses' own test for the window of RIG_STAGE fails at a hole. -/
theorem RegHole.not_stage (h : RegHole s who b u off) : (b == .rig && decide (0x1000000 ≤ off) && decide (off < 0x5000000)) = false := by
  obtain ⟨-, hstage, -⟩ := h
  simpa [and_assoc] using hstage

/-- A read finds no word of the Almanac's windows at a hole. -/
theorem RegHole.read_window (h : RegHole s who b u off) : (if b == .alm then almWindow s who off else none) = none := by
  obtain ⟨-, -, halm⟩ := h
  simpa using halm

/-- A write finds no word of the Almanac's windows at a hole. -/
theorem RegHole.write_window (h : RegHole s who b u off) : (b == .alm && (almWindow s who off).isSome) = false := by
  obtain ⟨-, -, halm⟩ := h
  simpa using halm

/-- A read of a hole returns zero and has no effect, whether the block answers or not. -/
theorem readReg_hole (ha : blkOf (addr / 8 * 8) = some (b, u, off)) (h : RegHole s who b u off) (mask : Word) :
    readReg s who addr mask = (0, s) := by
  have hreg : regInBlk b u off = none := h.1
  simp only [readReg, ha, h.not_stage, h.read_window, hreg, Bool.false_eq_true, if_false, ite_self]

/-- A write to a hole has no effect, whether the block answers or not. -/
theorem writeReg_hole (ha : blkOf (addr / 8 * 8) = some (b, u, off)) (h : RegHole s who b u off) (v mask : Word) :
    writeReg s who addr v mask = s := by
  have hreg : regInBlk b u off = none := h.1
  simp only [writeReg, ha, h.not_stage, h.write_window, hreg, Bool.false_eq_true, if_false, ite_self]

end Hole

/-- Settles O52: the access ends at the block where that does not answer, and after every window and register has been tried where the
word is a hole. -/
theorem deadRegistersReadZero : Obligations.DeadRegistersReadZero := by
  rintro s who b u off addr v mask ha (hdead | hhole)
  · exact ⟨readReg_dead ha hdead who mask, writeReg_dead ha hdead who v mask⟩
  · exact ⟨readReg_hole ha hhole mask, writeReg_hole ha hhole v mask⟩

end Sys2Proof.Machine
end

section
/-! PROOFS. The commands of rigging complete, and a partition parks and is re-rigged (R80, R84, R86, R87, R90, R291, R294, R466). -/

namespace Sys2Proof.Machine

/-- A command that is a register access has its effect while the register answers. -/
theorem next_regCmd {s : State} {r : RegRef} (h : regDead s r = false) (f : State → State) :
    (.next (regCmd s r f) : Host.Outcome State Fault Refusal) = .next (f s) :=
  next_if_neg (Bool.eq_false_iff.mp h)

/-- A write of RIG_CMD by a requester that may command, while the register answers, runs the command (R90). -/
theorem next_rigCommand {s t : State} {who : Requester} (hd : regDead s ⟨.RIG_CMD, 0, 0, 0⟩ = false) (hw : rigCommander s who = true)
    {f : State → State} (h : f s = t) : (.next (rigCommand s who f) : Host.Outcome State Fault Refusal) = .next t := by
  rw [rigCommand, next_regCmd hd, if_pos hw, h]

/-! ### The loader: VERIFY, STORE, SELECT and REWIRE (R80, R86, R466) -/

section
variable {s : State} {who : Requester}

/-- While the loader is busy, VERIFY ends BUSY. -/
theorem verifyOp_busy (hi : rigIdle s = false) : verifyOp s = cmdDone s 0x0C := if_pos (by rw [hi]; rfl)

/-- While the loader is busy, REWIRE ends BUSY. -/
theorem rewireOp_busy (hi : rigIdle s = false) : rewireOp who s = cmdDone s 0x0C := by
  simp only [rewireOp, hi, Bool.not_false, if_true]

/-- STORE by a partition's thread ends NOT_PERMITTED. -/
theorem rigStoreOp_thread (ht : isThread who = true) (n : Nat) (ok : Bool) : rigStoreOp who n ok s = cmdDone s 0x0F := if_pos ht

/-- SELECT by a partition's thread ends NOT_PERMITTED. -/
theorem selectOp_thread (ht : isThread who = true) (n : Nat) : selectOp who n s = cmdDone s 0x0F := if_pos ht

section
variable (hi : rigIdle s = true)
include hi

/-- The idle loader passes the guard of its commands. -/
theorem not_rigBusy : ¬ (!rigIdle s) = true := by rw [hi]; exact Bool.false_ne_true

/-- VERIFY ends as the verification of the staged image does, by its kind. -/
theorem verifyOp_idle : verifyOp s = rigEnd s (if leAt (staged s) 0x13 1 = 1 then failOf (verifyPartial s (staged s) slotRoom .either)
    else failOf (verifyFull s (staged s) slotRoom .either)) := if_neg (not_rigBusy hi)

/-- REWIRE of an image that fails one of the checks 1 to 6 ends with that check's status. -/
theorem rewireOp_badHead {f : RigFail} (hf : rigHead s (staged s) .partialOnly slotRoom = some f) :
    rewireOp who s = rigEnd s (some f) := by
  simp only [rewireOp, if_neg (not_rigBusy hi), hf]

section
variable (hh : rigHead s (staged s) .partialOnly slotRoom = none) (ho : otherPart s who (leAt (staged s) 0x1C 1) = false)
include hh ho

/-- REWIRE of an image that fails a later check ends with that check's status. -/
theorem rewireOp_fails {f : RigFail} (hv : verifyPartial s (staged s) slotRoom = .inr f) : rewireOp who s = rigEnd s (some f) := by
  simp only [rewireOp, if_neg (not_rigBusy hi), hh, ho, Bool.false_eq_true, if_false, hv]

/-- REWIRE of an image that verifies begins to apply it where the partition is absent or stands, and is not under test (R86, R470). -/
theorem rewireOp_verified {q : Nat} {k : PartKnots} (hv : verifyPartial s (staged s) slotRoom = .inl (q, k)) : rewireOp who s =
    if underTest s q = false ∧ ((prun s q).st = .absent ∨ (prun s q).st = .parked ∨ (prun s q).st = .faulted) then
      { updR (updPrun s q (fun r => { r with rewiring := true })) .RIG_STS (fun w => setField w 3 2 2) 0 with
        rewire := some { part := q, image := staged s, since := s.epoch } }
    else cmdDone s (if underTest s q then 0x0C else 0x0D) := by
  simp only [rewireOp, if_neg (not_rigBusy hi), hh, ho, Bool.false_eq_true, if_false, hv]
  cases ht : underTest s q with
  | true => simp
  | false => cases (prun s q).st <;> simp

end

section
variable (ht : isThread who = false) {n : Nat}
include ht

/-- SELECT of a slot whose image fails ends with the failed check's status. -/
theorem selectOp_fails {f : RigFail} (hv : verifyFull s (slotImage s n) slotRoom = .inr f) : selectOp who n s = rigEnd s (some f) := by
  simp only [selectOp, ht, Bool.false_eq_true, if_false, if_neg (not_rigBusy hi), hv]

/-- SELECT of a slot whose image verifies makes it the active one, and the active one the fallback. -/
theorem selectOp_verified {g : Rig} (hv : verifyFull s (slotImage s n) slotRoom = .inl g) : selectOp who n s =
    rigEnd { s with flash := { s.flash with active := n, fallback := s.flash.active } } none := by
  simp only [selectOp, ht, Bool.false_eq_true, if_false, if_neg (not_rigBusy hi), hv]

section
variable (hn : n < 8)
include hn

/-- STORE of an image that fails ends with the failed check's status. -/
theorem rigStoreOp_fails {f : RigFail} (hv : verifyFull s (staged s) slotRoom = .inr f) (ok : Bool) :
    rigStoreOp who n ok s = rigEnd s (some f) := by
  simp only [rigStoreOp, ht, Bool.false_eq_true, if_false, if_neg (not_rigBusy hi), if_pos hn, hv]

/-- STORE of an image that verifies and reads back makes it the slot's image, and the slot valid. -/
theorem rigStoreOp_readsBack {g : Rig} (hv : verifyFull s (staged s) slotRoom = .inl g) : rigStoreOp who n true s =
    rigEnd { s with flash := { s.flash with
      slots := SMap.set (fun _ => []) s.flash.slots n (staged s), valid := Nat.lor s.flash.valid (2 ^ n) } } none := by
  simp only [rigStoreOp, ht, Bool.false_eq_true, if_false, if_neg (not_rigBusy hi), if_pos hn, hv, if_true]

/-- STORE of an image that verifies and does not read back leaves the slot not valid, and a status other than 0 (log 2). -/
theorem rigStoreOp_badReadBack {g : Rig} (hv : verifyFull s (staged s) slotRoom = .inl g) : ∃ w x,
    freeW { s with flash := { s.flash with
      slots := SMap.set (fun _ => []) s.flash.slots n (staged s), valid := s.flash.valid - (if s.flash.valid.testBit n then 2 ^ n else 0) } } = (w, x) ∧
    rigStoreOp who n false s = cmdDone x (1 + w.toNat % 255) := by
  refine ⟨(freeW _).1, (freeW _).2, rfl, ?_⟩
  simp only [rigStoreOp, ht, Bool.false_eq_true, if_false, if_neg (not_rigBusy hi), if_pos hn, hv]

end
end
end
end

/-! ### Commands on a partition: START, PARK, RESUME and RESET (R84, R90, R291, R294) -/

section
variable {s : State} {who : Requester} {n : Nat}

/-- Each command on a partition ends NOT_PERMITTED for a thread of another partition. -/
theorem partOps_other (h : otherPart s who n = true) : startOp who n s = cmdDone s 0x0F ∧ parkOp who n s = cmdDone s 0x0F ∧
    resumeOp who n s = cmdDone s 0x0F ∧ resetOp who n s = cmdDone s 0x0F :=
  ⟨if_pos h, if_pos (by rw [h, Bool.true_or]), if_pos h, if_pos h⟩

variable (ho : otherPart s who n = false) (hr : (prun s n).rewiring = false)
include ho hr

section
variable (hst : (prun s n).st = .running) (hself : (knots s n).part.selfParkOnly = false ∨ isThread who = true)
  (hp : (prun s n).park = .none)
include hst hself hp

omit ho hr hst hp in
/-- A SELF_PARK_ONLY partition is parked by a thread (R90). -/
theorem selfPark_may : ((knots s n).part.selfParkOnly && !isThread who) = false := by
  rcases hself with h | h
  · rw [h, Bool.false_and]
  · rw [h, Bool.not_true, Bool.and_false]

/-- PARK without a running calendar begins the drain at once. -/
theorem parkOp_drains (hc : (prun s n).calRunning = false ∨ (knots s n).cal = none) : parkOp who n s = drainBegin s n s.epoch := by
  simp only [parkOp, ho, selfPark_may hself, Bool.or_false, hr, hst, hp, bne_self_eq_false, Bool.false_eq_true, if_false]
  rcases hc with h | h
  · rw [h]
  · rw [h]
    cases (prun s n).calRunning with
    | false => rfl
    | true => rfl

/-- PARK under a running calendar waits for the end of the cycle (R291). -/
theorem parkOp_waits {c : Cal} (hc : (prun s n).calRunning = true) (hk : (knots s n).cal = some c) : parkOp who n s =
    updPrun s n (fun r => { r with park := .waiting, parkAt := cycleStart c ((s.epoch - c.phase) / c.cycle + 1) }) := by
  simp only [parkOp, ho, selfPark_may hself, Bool.or_false, hr, hst, hp, bne_self_eq_false, Bool.false_eq_true, if_false, hc, hk]

end

variable (hu : underTest s n = false)
include hu

/-- START of a rigged partition without a fenced quad or bay. -/
theorem startOp_rigged (hst : (prun s n).st = .rigged) (hf : partFenced s n = false) :
    startOp who n s = cmdDone (enterRunning s n false) 0 := by
  simp only [startOp, ho, hr, hu, hst, hf, bne_self_eq_false, Bool.or_self, Bool.false_eq_true, if_false]

/-- RESUME of a parked partition without a fenced or tested quad. -/
theorem resumeOp_parked (hst : (prun s n).st = .parked) (hf : partFenced s n = false) (ht : partTested s n = false) :
    resumeOp who n s = cmdDone (enterRunning s n true) 0 := by
  simp only [resumeOp, ho, hr, hu, hst, hf, ht, bne_self_eq_false, Bool.or_self, Bool.false_eq_true, if_false]

/-- RESET of a partition that stands. -/
theorem resetOp_stands (hst : (prun s n).st = .parked ∨ (prun s n).st = .faulted) :
    resetOp who n s = cmdDone (untest (partReset s n) n) 0 := by
  have hguard : ¬ ((prun s n).st != .parked && (prun s n).st != .faulted) = true := by
    rcases hst with h | h <;> simp [h]
  simp only [resetOp, ho, hr, hu, if_neg hguard, Bool.or_self, Bool.false_eq_true, if_false]

end

/-! ### The drain of a PARK (R84, R291) -/

section
variable {s : State} {p : BitVec 4}

/-- A slot of the cycle that a PARK waits for has yet to act. -/
def slotLeft (s : State) (n : Nat) (c : Cal) : Bool :=
  c.slots.zipIdx.any (fun e => e.1.act != .exchange && decide (slotNext s n c e.2 e.1.offset (prun s n).calFrom < (prun s n).parkAt))

/-- None is left when the next time of every slot but an EXCHANGE lies at or after the cycle's end. -/
theorem slotLeft_eq_false {n : Nat} {c : Cal} (h : ∀ i k, c.slots[i]? = some k → k.act ≠ .exchange →
    (prun s n).parkAt ≤ slotNext s n c i k.offset (prun s n).calFrom) : slotLeft s n c = false := by
  refine List.any_eq_false.mpr fun e he hleft => ?_
  simp only [Bool.and_eq_true, bne_iff_ne, decide_eq_true_eq] at hleft
  obtain ⟨hact, hlt⟩ := hleft
  exact absurd hlt (Nat.not_lt.mpr (h e.2 e.1 (List.mem_zipIdx_iff_getElem?.mp he) hact))

/-- The drain begins at the end of the cycle, once every slot of it has acted. -/
theorem execParkDrainStart_due (hw : (prun s p.toNat).park = .waiting) (ht : (prun s p.toNat).parkAt ≤ s.epoch)
    (h : ∀ c, (knots s p.toNat).cal = some c → ∀ i k, c.slots[i]? = some k → k.act ≠ .exchange →
      (prun s p.toNat).parkAt ≤ slotNext s p.toNat c i k.offset (prun s p.toNat).calFrom) :
    execParkDrainStart p s = .next (drainBegin s p.toNat (prun s p.toNat).parkAt) := by
  cases hc : (knots s p.toNat).cal with
  | none =>
    simp only [execParkDrainStart, hc]
    exact next_if_pos (by simp [hw, ht])
  | some c =>
    have hleft := slotLeft_eq_false (h c hc)
    rw [slotLeft] at hleft
    simp only [execParkDrainStart, hc, hleft]
    exact next_if_pos (by simp [hw, ht])

variable (hp : (prun s p.toNat).park = .draining)
include hp

/-- A drain that ends within 10 ms parks the partition. -/
theorem execParkComplete_drained (hd : drained s p.toNat = true) (ht : s.epoch ≤ (prun s p.toNat).drainAt + 1000000) :
    execParkComplete p s =
      .next (cmdDone (haltThreads (updPrun s p.toNat (fun r => { r with st := .parked, park := .none })) p.toNat) 0) :=
  next_if_pos (by simp [hp, hd, ht])

/-- After 10 ms the partition enters FAULTED. -/
theorem execParkDrainTimeout_late (ht : (prun s p.toNat).drainAt + 1000000 ≤ s.epoch) :
    execParkDrainTimeout p s = .next (faultPartition (alm s 0xE012 4 15 p.toNat) p.toNat) :=
  next_if_pos (by simp [hp, ht])

end

/-! ### The end of a partial re-rig (R87) -/

section
variable {s : State} {w : Rewire} (hw : s.rewire = some w)
include hw

/-- Within 200 ms the change of the staged knots takes effect. -/
theorem execRewireComplete_inTime (ht : s.epoch ≤ w.since + 20000000) {ks : List Knot} (hk : rigKnots w.image = .inl ks) :
    execRewireComplete s = .next (rigDone (rewireApply { s with rewire := none } w.part (partOf ks w.part (knots s w.part))
      (fun ty => (bodyOf ks ty w.part).isSome) (w64 (leAt w.image 0x20 8)) (slice w.image 0x30 48)) 0 0 0 0) := by
  simp only [execRewireComplete, hw, if_neg (Nat.not_lt.mpr ht), hk]

/-- After 200 ms the old knots stand, and the command ends TIMEOUT. -/
theorem execRewireTimeout_late (ht : w.since + 20000000 ≤ s.epoch) : execRewireTimeout s =
    .next (rigDone (updPrun { s with rewire := none } w.part (fun r => { r with rewiring := false })) 0x10 0xFFFF 2 0) := by
  simp only [execRewireTimeout, hw, if_pos ht]

end

/-- Settles O34: each command by the lemma of its case, run for one who may command; the events of a PARK and of a re-rig by theirs. -/
theorem riggingCommandsComplete : Obligations.RiggingCommandsComplete := by
  refine fun s who p slot => ⟨fun hd hw => ⟨fun hi => next_rigCommand hd hw (verifyOp_idle hi),
      fun ht ok => ⟨next_rigCommand hd hw (rigStoreOp_thread ht _ ok), next_rigCommand hd hw (selectOp_thread ht _)⟩,
      fun hi ht hn => ?store, fun hi ht hn g hv => ?badReadBack, fun hi ht => ?select, fun hi hh ho => ?rewire,
      fun hi f hf => next_rigCommand hd hw (rewireOp_badHead hi hf),
      fun hi => ⟨next_rigCommand hd hw (verifyOp_busy hi), next_rigCommand hd hw (rewireOp_busy hi)⟩,
      fun ho => ?other, fun ho hr => ⟨fun hst hself hp => ⟨fun hc => next_rigCommand hd hw (parkOp_drains ho hr hst hself hp hc),
        fun c hc hk => next_rigCommand hd hw (parkOp_waits ho hr hst hself hp hc hk)⟩,
      fun hu => ⟨fun hst hf => next_rigCommand hd hw (startOp_rigged ho hr hu hst hf),
        fun hst hf ht => next_rigCommand hd hw (resumeOp_parked ho hr hu hst hf ht),
        fun hst => next_rigCommand hd hw (resetOp_stands ho hr hu hst)⟩⟩⟩,
    execParkDrainStart_due, execParkComplete_drained, execParkDrainTimeout_late,
    fun w ks hw ht hk => execRewireComplete_inTime hw ht hk, fun w hw ht => execRewireTimeout_late hw ht⟩
  case store =>
    rcases hv : verifyFull s (staged s) slotRoom with g | f
    · exact next_rigCommand hd hw (rigStoreOp_readsBack hi ht hn hv)
    · exact next_rigCommand hd hw (rigStoreOp_fails hi ht hn hv true)
  case badReadBack =>
    obtain ⟨w, x, hx, hop⟩ := rigStoreOp_badReadBack hi ht hn hv
    exact ⟨w, x, hx, next_rigCommand hd hw hop⟩
  case select =>
    rcases hv : verifyFull s (slotImage s slot.toNat) slotRoom with g | f
    · exact next_rigCommand hd hw (selectOp_verified hi ht hv)
    · exact next_rigCommand hd hw (selectOp_fails hi ht hv)
  case rewire =>
    rcases hv : verifyPartial s (staged s) slotRoom with ⟨q, k⟩ | f
    · exact next_rigCommand hd hw (rewireOp_verified hi hh ho hv)
    · exact next_rigCommand hd hw (rewireOp_fails hi hh ho hv)
  case other =>
    obtain ⟨hstart, hpark, hresume, hreset⟩ := partOps_other ho
    exact ⟨next_rigCommand hd hw hstart, next_rigCommand hd hw hpark, next_rigCommand hd hw hresume, next_rigCommand hd hw hreset⟩

end Sys2Proof.Machine
end

section
/-! PROOFS. The slots of a calendar act, time messages and edges are taken, and stoppers answer tighten requests (R285–R288, R290, R291,
R293, R296, R335). -/

namespace Sys2Proof.Machine

/-! ### Slots (R290, R293, R296) -/

section
variable {s : State} {p : BitVec 4} {i : BitVec 12} {sl : Slot} {t : Nat}

/-- A RELEASE that acts reaches its thread. -/
theorem execSlotRelease_due (h : slotDue s p.toNat i.toNat .release = some (sl, t)) :
    execSlotRelease p i s = .next (releaseThread (slotActed s p.toNat i.toNat t) p.toNat i.toNat sl.target t) := by
  simp only [execSlotRelease, h]

/-- A DEADLINE that acts is missed by a thread that is not complete. -/
theorem execSlotDeadline_due (h : slotDue s p.toNat i.toNat .deadline = some (sl, t)) : execSlotDeadline p i s = .next
    (let acted := slotActed s p.toNat i.toNat t
     if (thr acted sl.target).complete then acted else deadlineMiss acted p.toNat i.toNat sl.target t) := by
  simp only [execSlotDeadline, h]

/-- A START that acts: by the state of the channel's group, and where the group is the partition's own. -/
theorem execSlotStart_due (h : slotDue s p.toNat i.toNat .start = some (sl, t)) : execSlotStart p i s = .next
    (let acted := slotActed s p.toNat i.toNat t
     let blk := chanBlock sl.target
     if blkState acted blk = 1 ∧ chanOwner acted sl.target = (1, p.toNat) then dmaStart acted sl.target
     else if blkState acted blk = 2 ∧ chanOwner acted sl.target = (1, p.toNat) then alm acted 0x8019 2 16 blk blk
     else alm acted 0xA011 2 11 sl.target sl.target) := by
  simp only [execSlotStart, h, Bool.and_eq_true, decide_eq_true_eq, beq_iff_eq]

/-- An EXCHANGE that acts begins the cycle of the Lanyard port whose first slot it is, where that cycle is the port's next. -/
theorem execSlotExchange_due {c : Cal} {o k st : Nat} {r : PortRec} (h : slotDue s p.toNat i.toNat .exchange = some (sl, t))
    (hc : gridCal s p.toNat = some c) (hx : exchSlot c sl.target = some (i.toNat, o))
    (hn : lanyardNext (slotActed s p.toNat i.toNat t) sl.target = some (p.toNat, r, k, st, t)) :
    execSlotExchange p i s = .next (lanyardBegin (slotActed s p.toNat i.toNat t) sl.target p.toNat r k st [] []) := by
  simp only [execSlotExchange, h, hc, hn]
  exact next_if_pos (by simp [hx])

end

/-- The calendar of a running partition starts at the cycle start that R291 gives. -/
theorem execCalendarStartRunning_due {s : State} {p : BitVec 4} {c : Cal} (hc : (knots s p.toNat).cal = some c)
    (hst : (prun s p.toNat).st = .running) (hp : (prun s p.toNat).park = .none) (hr : (prun s p.toNat).calRunning = false)
    (ht : calStartAt s p.toNat c ≤ s.epoch) : execCalendarStartRunning p s =
      .next (updPrun s p.toNat (fun r => { r with calRunning := true, calFrom := calStartAt s p.toNat c })) := by
  simp only [execCalendarStartRunning, hc]
  exact next_if_pos (by simp [hst, hp, hr, ht])

/-! ### The time source (R285–R288) -/

/-- 3 s after the last accepted mark the alignment goes into holdover. -/
theorem execAlignmentHoldover_due {s : State} (h : fieldN (getR s .CLK_EPOCH_STS 0) 2 0 = 1 ∨ fieldN (getR s .CLK_EPOCH_STS 0) 2 0 = 2)
    (ht : s.time.lastMark + 300000000 ≤ s.epoch) : execAlignmentHoldover s = .next
      (alm { updR s .CLK_EPOCH_STS (fun w => setField w 2 0 3) 0 with time := { s.time with good := 0 } } 0x4015 3 0 0
        (fieldN (getR s .CLK_EPOCH_STS 0) 9 8)) :=
  next_if_pos (by simp [h, ht])

/-- A line of the form of Table 11-1 names the next edge. -/
theorem execTodMessage_parsed {line : List Byte} {sec off q : Nat} {ok : Bool} (h : parseTod line = some (sec, off, q, ok)) (s : State) :
    execTodMessage line s =
      .next { s with time := { s.time with tod := some { sec := sec, off := off, q := q, ended := s.epoch, ok := ok } } } := by
  simp only [execTodMessage, h]

/-- Any other line is discarded. -/
theorem execTodMessage_other {line : List Byte} (h : parseTod line = none) (s : State) : execTodMessage line s = .next s := by
  simp only [execTodMessage, h]

section
variable {s : State} {ns : BitVec 4} (hns : ns.toNat < 10)
include hns

/-- An edge while the TIME inputs are not the source uses up the message that named it. -/
theorem execTime1ppsEdge_otherSource (hs : fieldN (getR s .CLK_EPOCH_STS 0) 9 8 ≠ 1) :
    execTime1ppsEdge ns s = .next { s with time := { s.time with tod := none } } :=
  (if_neg (Nat.not_le.mpr hns)).trans (next_if_pos hs)

section
variable (hs : fieldN (getR s .CLK_EPOCH_STS 0) 9 8 = 1)
include hs

/-- An edge that no message named is stamped. -/
theorem execTime1ppsEdge_unnamed (ht : s.time.tod = none) : execTime1ppsEdge ns s =
    .next { s with time := { s.time with lastEdge := some (s.epoch * 10 + ns.toNat), tod := none } } := by
  simp only [execTime1ppsEdge, if_neg (Nat.not_le.mpr hns), if_neg (not_not.mpr hs), ht]

/-- An edge that a message named is stamped, and taken as a mark where R286 accepts it. -/
theorem execTime1ppsEdge_named {m : TodMsg} (ht : s.time.tod = some m) : execTime1ppsEdge ns s = .next
    (let stamp := s.epoch * 10 + ns.toNat
     let x : State := { s with time := { s.time with lastEdge := some stamp, tod := none } }
     if markAccepted s m stamp then
       acceptMark (setR x .CLK_TOD_LAST (setField (setField (setField 0 63 62 m.q) 57 48 m.off) 39 0 m.sec) 0)
         ((m.sec : Int) * 1000000000 + (BitVec.ofNat 16 (fieldN (getR s .CLK_EPOCH_CTL 0) 47 32)).toInt - (stamp : Int)) 1000000000
     else x) := by
  simp only [execTime1ppsEdge, if_neg (Nat.not_le.mpr hns), if_neg (not_not.mpr hs), ht]

end
end

/-! ### GUARD.TIGHTEN at the stopper (R335) -/

section
variable {s x : State} {o : BitVec 15} {m : TightenMsg} {gd : Nat}
  (hm : s.tightNet.find? (fun m => m.output = o.toNat && arrivedPkt s m.pkt) = some m)
  (hx : creditDone (ejectPkt { s with tightNet := s.tightNet.filter (· != m) } m.pkt) m.pkt = x)
  (hw : (thr x m.thread).wait = some (.guard gd))
include hm hx hw

/-- A request that R335 does not allow ends in cause 0x10 at the thread that waits for it. -/
theorem execTightenRequest_refused (hr : tightenRefused x m.thread m.output m.fn m.val = true) :
    execTightenRequest o s = .next (trapped x m.thread 0x10 (w64 m.output)) := by
  simp only [execTightenRequest, hm, tightenNow, hx, hw, if_pos hr, applyAct_trap]

/-- A request that is allowed is accepted by the stopper, and the thread goes on with 0. -/
theorem execTightenRequest_accepted (hr : tightenRefused x m.thread m.output m.fn m.val = false) :
    execTightenRequest o s = .next (finish (wg (updStop x m.output (fun y => { y with
      accepted := y.accepted ++ [(m.fn, m.val)], tightened := y.tightened || setLimit (limitsSeen y) m.fn m.val != limitsSeen y }))
      m.thread (BitVec.ofNat 6 gd) TWord.zero) m.thread 1 false) := by
  simp only [execTightenRequest, hm, tightenNow, hx, hw, if_neg (Bool.eq_false_iff.mp hr), applyAct_done]

end

/-- Settles O36: each event by the lemma that says what it does when it is due; for a DEADLINE, a START and a named edge that lemma is a
choice, and the clause's hypotheses make it. -/
theorem calendarEventsComplete : Obligations.CalendarEventsComplete := by
  refine fun s who p i sl t => ⟨execSlotRelease_due, fun h => ⟨fun hc => ?met, fun hc => ?missed⟩,
    fun h => ⟨fun h1 hmine => ?owned, fun h2 hmine => ?handing, fun hnot => ?dropped⟩,
    fun c o r k st h hc hx hn => execSlotExchange_due h hc hx hn, fun c => execCalendarStartRunning_due, execAlignmentHoldover_due,
    fun line => ⟨fun sec off q ok h => execTodMessage_parsed h s, fun h => execTodMessage_other h s⟩,
    fun ns hns => ⟨execTime1ppsEdge_otherSource hns, fun hs => ⟨execTime1ppsEdge_unnamed hns hs,
      fun m hm => ⟨fun ha => ?unmarked, fun ha => ?marked⟩⟩⟩,
    fun hd => ⟨next_regCmd hd _, fun en => next_regCmd hd _⟩,
    fun o m gd hm hw => ⟨execTightenRequest_refused hm rfl hw, execTightenRequest_accepted hm rfl hw⟩⟩
  case met => exact (execSlotDeadline_due h).trans (next_if_pos hc)
  case missed => exact (execSlotDeadline_due h).trans (next_if_neg (Bool.eq_false_iff.mp hc))
  case owned => exact (execSlotStart_due h).trans (next_if_pos ⟨h1, hmine⟩)
  case handing =>
    have hne : blkState (slotActed s p.toNat i.toNat t) (chanBlock sl.target) ≠ 1 := by omega
    exact (execSlotStart_due h).trans ((next_if_neg fun hc => hne hc.1).trans (next_if_pos ⟨h2, hmine⟩))
  case dropped =>
    have h1 : ¬ (blkState (slotActed s p.toNat i.toNat t) (chanBlock sl.target) = 1 ∧
        chanOwner (slotActed s p.toNat i.toNat t) sl.target = (1, p.toNat)) := by tauto
    have h2 : ¬ (blkState (slotActed s p.toNat i.toNat t) (chanBlock sl.target) = 2 ∧
        chanOwner (slotActed s p.toNat i.toNat t) sl.target = (1, p.toNat)) := by tauto
    exact (execSlotStart_due h).trans ((next_if_neg h1).trans (next_if_neg h2))
  case unmarked => exact (execTime1ppsEdge_named hns hs hm).trans (next_if_neg (Bool.eq_false_iff.mp ha))
  case marked => exact (execTime1ppsEdge_named hns hs hm).trans (next_if_pos ha)

end Sys2Proof.Machine
end

section
/-! PROOFS. An instruction that a thread begins does what its body answers, and the predicted tallies of sound operands are those of the
results (R132, R136, R137, R146–R148, Table 5-5). -/

namespace Sys2Proof.Machine

/-! ### What a body answers -/

section
variable {s s' x : State} {t : Nat} {w : IWord} {uops : Nat} {breaks : Bool} {body : State → Act}

/-- The body completes. -/
theorem Ready.done (h : Ready s t s') (hb : body s' = .done x) :
    (.next (runInstr s t w false uops breaks body) : Host.Outcome State Fault Refusal) = .next (finish x t uops breaks) := by
  rw [runInstr_ready h w false uops breaks body nofun, hb, applyAct_done]

/-- The body raises a cause. -/
theorem Ready.trap {c : Nat} {v : Word} (h : Ready s t s') (hb : body s' = .trap x c v) :
    (.next (runInstr s t w false uops breaks body) : Host.Outcome State Fault Refusal) = .next (trapped x t c v) := by
  rw [runInstr_ready h w false uops breaks body nofun, hb, applyAct_trap]

/-- The body waits. -/
theorem Ready.wait {y : Wait} (h : Ready s t s') (hb : body s' = .wait x y) :
    (.next (runInstr s t w false uops breaks body) : Host.Outcome State Fault Refusal) =
      .next (updThr x t (fun z => { z with wait := some y })) := by
  rw [runInstr_ready h w false uops breaks body nofun, hb, applyAct_wait]

/-- The body parks the thread. -/
theorem Ready.park {r : RunSt} {y : Option Wait} (h : Ready s t s') (hb : body s' = .park x r y) :
    (.next (runInstr s t w false uops breaks body) : Host.Outcome State Fault Refusal) =
      .next (updThr x t (fun z => { z with run := r, stoodAt := x.epoch, wait := y })) := by
  rw [runInstr_ready h w false uops breaks body nofun, hb, applyAct_park]

/-- An instruction that must not stand in a delay slot, outside one (R101). -/
theorem Ready.outsideSlot {a : Act} (h : Ready s t s') (hs : (thr s t).slot = .none) (hb : body s' = a) :
    (.next (runInstr s t w true uops breaks body) : Host.Outcome State Fault Refusal) = .next (applyAct t uops breaks a) := by
  rw [runInstr_ready h w true uops breaks body (fun _ => hs), hb]

end

/-! ### Sources -/

/-- Of sound sources none is poisoned. -/
theorem firstPoisoned_sound {l : List (Nat × TWord)} (h : ∀ e ∈ l, isSound e.2 = true) : firstPoisoned l = none := by
  simp only [firstPoisoned, Option.map_eq_none_iff, List.find?_eq_none]
  exact fun e he => Bool.eq_false_iff.mp (sound_not_bad (h e he)).1

/-- Of sound sources none is failed. -/
theorem anyFailed_sound {l : List (Nat × TWord)} (h : ∀ e ∈ l, isSound e.2 = true) : anyFailed l = false := by
  simp only [anyFailed, List.any_eq_false]
  exact fun e he => Bool.eq_false_iff.mp (sound_not_bad (h e he)).2

/-- A sound word's tally is that of its value. -/
theorem tal_of_sound {w : TWord} (h : isSound w = true) : w.tal = tallyOf w.val := beq_iff_eq.mp h

/-- A generated word is sound. -/
@[simp] theorem isSound_gen (v : Word) : isSound (gen v) = true := beq_self_eq_true _

/-- A word that is not failed is poisoned or sound. -/
theorem isSound_of_not_bad {w : TWord} (hf : isFailed w = false) (hp : isPoisoned w = false) : isSound w = true := by
  simpa [isFailed, hp] using hf

/-! ### Predicted tallies (Table 5-5) -/

/-- A sound word's tally as a number. -/
theorem tal_toNat_of_sound {w : TWord} (h : isSound w = true) : w.tal.toNat = w.val.toNat % 251 := by
  rw [tal_of_sound h, tallyOf, BitVec.toNat_ofNat]
  omega

/-- A difference of residues is the residue of what makes up the minuend. -/
theorem mod251Sub_eq {x y z : Nat} (h : (z + y) % 251 = x % 251) : mod251Sub x y = z % 251 := by
  unfold mod251Sub
  omega

/-- What wraps at 2^64 counts 69 for each wrap, as 2^64 mod 251 is 69. -/
theorem mod251Sub_wrap {m n : Nat} (h : m % 251 = n % 251) : mod251Sub m (69 * (n / 2 ^ 64)) = n % 2 ^ 64 % 251 :=
  mod251Sub_eq (by omega)

/-- The same with the wraps reduced first. -/
theorem mod251Sub_wrap_mod {m n : Nat} (h : m % 251 = n % 251) :
    mod251Sub m (69 * (n / 2 ^ 64 % 251)) = n % 2 ^ 64 % 251 :=
  mod251Sub_eq (by omega)

section
variable {a b d : TWord} (ha : isSound a = true)
include ha

/-- The predicted tally of a left shift is exact. -/
theorem predShl_sound (n : Nat) : predShl a n = tallyOf (a.val <<< n) := by
  have hm : a.tal.toNat * (2 ^ n % 251) % 251 = a.val.toNat * 2 ^ n % 251 := by
    rw [tal_toNat_of_sound ha, ← Nat.mul_mod]
  simp only [predShl, tallyOf, mod251Sub_wrap_mod hm, BitVec.toNat_shiftLeft, Nat.shiftLeft_eq]

variable (hb : isSound b = true)
include hb

/-- The predicted tally of a sum is exact. -/
theorem predAdd_sound : predAdd a b = tallyOf (a.val + b.val) := by
  have hm : (a.tal.toNat + b.tal.toNat) % 251 = (a.val.toNat + b.val.toNat) % 251 := by
    rw [tal_toNat_of_sound ha, tal_toNat_of_sound hb, ← Nat.add_mod]
  simp only [predAdd, tallyOf, mod251Sub_wrap hm, BitVec.toNat_add]

/-- The predicted tally of a difference is exact. -/
theorem predSub_sound : predSub a b = tallyOf (a.val - b.val) := by
  have hwrap : (a.val - b.val).toNat + b.val.toNat = a.val.toNat + 2 ^ 64 * (if a.val.toNat < b.val.toNat then 1 else 0) := by
    rw [BitVec.toNat_sub]
    split <;> omega
  simp only [predSub, tallyOf, tal_toNat_of_sound ha, tal_toNat_of_sound hb]
  rw [mod251Sub_eq (z := (a.val - b.val).toNat) (by omega)]

/-- The predicted tally of a product added to a word is exact. -/
theorem predMadd_sound (hd : isSound d = true) : predMadd d a b = tallyOf (d.val + a.val * b.val) := by
  have hm : (d.tal.toNat + a.tal.toNat * b.tal.toNat) % 251 = (d.val.toNat + a.val.toNat * b.val.toNat) % 251 := by
    rw [tal_toNat_of_sound ha, tal_toNat_of_sound hb, tal_toNat_of_sound hd, Nat.add_mod, ← Nat.mul_mod, Nat.mod_mod, ← Nat.add_mod]
  simp only [predMadd, tallyOf, mod251Sub_wrap_mod hm, BitVec.toNat_add, BitVec.toNat_mul, Nat.add_mod_mod]

/-- The predicted tally of a product is exact. -/
theorem predMadd_zero_sound : predMadd TWord.zero a b = tallyOf (a.val * b.val) := by
  rw [predMadd_sound ha hb rfl]
  exact congrArg tallyOf (BitVec.zero_add _)

end

/-! ### Checks of a result (R147, R148) -/

section
variable {s : State} {t : Nat}

/-- An exact prediction passes where no residue injection is armed. -/
theorem residueOk_exact (hi : injArmed s t 1 = false) (r : Word) : residueOk s t r (tallyOf r) = (true, s) := by
  simp [residueOk, hi]

/-- A sound word passes as its own prediction. -/
theorem residueOk_sound (hi : injArmed s t 1 = false) {x : TWord} (hx : isSound x = true) : residueOk s t x.val x.tal = (true, s) := by
  rw [tal_of_sound hx, residueOk_exact hi]

/-- A carried word is checked unless it is poisoned; one that is not failed passes (R143, Table 5-7). -/
theorem residueOk_carried (hi : injArmed s t 1 = false) {x : TWord} (hx : isFailed x = false) :
    (if isPoisoned x then (true, s) else residueOk s t x.val x.tal) = (true, s) := by
  cases hp : isPoisoned x with
  | true => rfl
  | false => exact residueOk_sound hi (isSound_of_not_bad hx hp)

/-- Two executions agree where no shadow injection is armed. -/
theorem shadowOk_unarmed (hi : injArmed s t 2 = false) : shadowOk s t = (true, s) := by
  simp [shadowOk, hi]

variable {srcs : List (Nat × TWord)} (hs : ∀ e ∈ srcs, isSound e.2 = true)
include hs

/-- An operation of the residue class completes with an exact prediction. -/
theorem residueOp_sound (hi : injArmed s t 1 = false) {r : Word} {pred : Byte} (hp : pred = tallyOf r) (gd : BitVec 6) (w : IWord) :
    residueOp t gd w srcs r pred s = .done (wg s t gd (gen r)) := by
  simp only [residueOp, firstPoisoned_sound hs, anyFailed_sound hs, hp, residueOk_exact hi]
  rfl

/-- An operation of the shadow class completes. -/
theorem shadowOp_sound (hi : injArmed s t 2 = false) (r : Word) (gd : BitVec 6) (w : IWord) :
    shadowOp t gd w srcs r s = .done (wg s t gd (gen r)) := by
  simp only [shadowOp, firstPoisoned_sound hs, anyFailed_sound hs, shadowOk_unarmed hi]
  rfl

end

/-- One sound source. -/
theorem sources_sound {a : TWord} {i : Nat} (ha : isSound a = true) : ∀ e ∈ [(i, a)], isSound e.2 = true :=
  List.forall_mem_singleton.mpr ha

/-- Two sound sources. -/
theorem sources_sound₂ {a b : TWord} {i j : Nat} (ha : isSound a = true) (hb : isSound b = true) :
    ∀ e ∈ [(i, a), (j, b)], isSound e.2 = true :=
  List.forall_mem_cons.mpr ⟨ha, sources_sound hb⟩

/-- Three sound sources. -/
theorem sources_sound₃ {a b c : TWord} {i j k : Nat} (ha : isSound a = true) (hb : isSound b = true) (hc : isSound c = true) :
    ∀ e ∈ [(i, a), (j, b), (k, c)], isSound e.2 = true :=
  List.forall_mem_cons.mpr ⟨ha, sources_sound₂ hb hc⟩

end Sys2Proof.Machine
end

section
/-! PROOFS. The integer instructions complete, trap on bad operands, and change nothing but gd, the pc and the counters (R93, R97, R98,
R129, R142–R149). -/

namespace Sys2Proof.Machine

/-! ### General registers -/

/-- Settles O48: the laws of general registers, for another register of the thread and for another thread. -/
theorem generalRegisters : Obligations.GeneralRegisters := by
  refine fun s t u r q v => ⟨rfl, wg_zero s t v, rg_wg_same s t r v, fun h => ?_⟩
  by_cases hu : u = t
  · subst hu
    exact rg_wg_other s u r q v (h.resolve_left (not_not_intro rfl))
  · exact rg_wg_thread s t u r q v hu

/-! ### Completion -/

/-- Settles O4: each is an operation of the residue class whose prediction Table 5-5 makes exact. -/
theorem integerResidueCompletes : Obligations.IntegerResidueCompletes := by
  intro s s' t gd ga gb h ha hb hi a b done
  have hab := sources_sound₂ (i := 0) (j := 1) ha hb
  refine ⟨?add, ?sub, ?sll, ?mul, ?madd, ?addi, ?slli, ?immh, ?pcadd⟩
  case add => exact h.done (residueOp_sound hab hi (predAdd_sound ha hb) gd _)
  case sub => exact h.done (residueOp_sound hab hi (predSub_sound ha hb) gd _)
  case sll => exact h.done (residueOp_sound hab hi (predShl_sound ha _) gd _)
  case mul => exact h.done (residueOp_sound hab hi (predMadd_zero_sound ha hb) gd _)
  case madd => exact fun hd => h.done (residueOp_sound (sources_sound₃ ha hb hd) hi (predMadd_sound ha hb hd) gd _)
  case addi =>
    intro imm
    have hp : isPoisoned (rg s' t.toNat ga) = false := (sound_not_bad ha).1
    refine h.done (Eq.trans (if_neg (by simp [hp])) ?_)
    exact residueOp_sound (sources_sound ha) hi (predAdd_sound ha (isSound_gen _)) gd _
  case slli =>
    intro imm him
    exact h.done ((if_neg (by omega)).trans (residueOp_sound (sources_sound ha) hi (predShl_sound ha _) gd _))
  case immh => exact fun imm => h.done (residueOp_sound (by simp) hi (predShl_sound (isSound_gen _) 12) gd _)
  case pcadd => exact fun imm => h.done (residueOp_sound (by simp) hi (predAdd_sound (isSound_gen _) (isSound_gen _)) gd _)

/-- A comparison as a word. -/
theorem bw_decide (p : Prop) [Decidable p] : bw (decide p) = if p then 1 else 0 := by
  simp [bw]

/-- Settles O5: each is an operation of the shadow class. -/
theorem integerShadowCompletes : Obligations.IntegerShadowCompletes := by
  intro s s' t gd ga gb h ha hb hi a b done
  have one (w : IWord) (r : Word) := shadowOp_sound (sources_sound (i := 0) ha) hi r gd w
  have two (w : IWord) (r : Word) := shadowOp_sound (sources_sound₂ (i := 0) (j := 1) ha hb) hi r gd w
  have unary (w : IWord) (r : Word) : (if (0 : BitVec 6) ≠ 0 then Act.trap s' 0x08 (iwVal w) else
      shadowOp t.toNat gd w [(0, rg s' t.toNat ga)] r s') = .done (wg s' t.toNat gd (gen r)) := one w r
  rw [← bw_decide, ← bw_decide]
  refine ⟨h.done (two _ _), h.done (two _ _), h.done (two _ _), h.done (two _ _), h.done (two _ _), h.done (two _ _), h.done (two _ _),
    h.done (two _ _), h.done (two _ _), h.done (two _ _), h.done (two _ _), h.done (two _ _), h.done (unary _ _), h.done (unary _ _),
    h.done (two _ _), h.done (two _ _), h.done (two _ _), fun imm => ?imm, fun imm him => ?shift, fun imm hd => ?luh⟩
  case imm =>
    intro i
    rw [← bw_decide, ← bw_decide]
    exact ⟨h.done (one _ _), h.done (one _ _), h.done (one _ _), h.done (one _ _), h.done (one _ _)⟩
  case shift =>
    have hn : ¬ imm.toNat ≥ 64 := by omega
    exact ⟨h.done ((if_neg hn).trans (one _ _)), h.done ((if_neg hn).trans (one _ _))⟩
  case luh => exact h.done (shadowOp_sound (sources_sound hd) hi _ gd _)

/-! ### Divides (R129) -/

section
variable {s s' : State} {t : BitVec 10} {ga gb : BitVec 6} (h : Ready s t.toNat s') (ha : SoundReg s' t.toNat ga)
  (hb : SoundReg s' t.toNat gb) (fn : Nat) (f z : Word → Word → Word) (gd : BitVec 6)
include h ha hb

/-- A divide that raises no trap for its divisor. -/
theorem divide_done (hi : injArmed s' t.toNat 2 = false) (hz : (rg s' t.toNat gb).val = 0 → bit (thr s' t.toNat).flags 8 = false) :
    divide fn f z t gd ga gb s = .next (finish (wg s' t.toNat gd (gen
      (if (rg s' t.toNat gb).val = 0 then z (rg s' t.toNat ga).val (rg s' t.toNat gb).val
        else f (rg s' t.toNat ga).val (rg s' t.toNat gb).val))) t.toNat 1 false) := by
  have hs := sources_sound₂ (i := 0) (j := 1) ha hb
  refine h.done ?_
  simp only [firstPoisoned_sound hs]
  refine (if_neg ?_).trans (shadowOp_sound hs hi _ gd _)
  simpa [flagsDZT] using hz

/-- A zero divisor with FLAGS.DZT = 1. -/
theorem divide_traps (h0 : (rg s' t.toNat gb).val = 0) (hz : bit (thr s' t.toNat).flags 8 = true) :
    divide fn f z t gd ga gb s = .next (trapped s' t.toNat 0x11 0) := by
  have hs := sources_sound₂ (i := 0) (j := 1) ha hb
  refine h.trap ?_
  simp only [firstPoisoned_sound hs]
  exact if_pos (by simp [flagsDZT, h0, hz])

end

/-- Settles O6: a divide computes where its divisor is not zero, gives its zero result with DZT = 0, and traps with DZT = 1. -/
theorem divideCompletes : Obligations.DivideCompletes := by
  intro s s' t gd ga gb h ha hb hi a b done trap
  have hdiv : exec (.div t gd ga gb) s = execDiv t gd ga gb s := rfl
  have hdivu : exec (.divu t gd ga gb) s = execDivu t gd ga gb s := rfl
  have hrem : exec (.rem t gd ga gb) s = execRem t gd ga gb s := rfl
  have hremu : exec (.remu t gd ga gb) s = execRemu t gd ga gb s := rfl
  rw [hdiv, hdivu, hrem, hremu]
  refine ⟨fun hne => ?quotient, fun h0 hz => ?zero, fun h0 hz => ?traps⟩
  case quotient =>
    have run (fn : Nat) (f z : Word → Word → Word) : divide fn f z t gd ga gb s = done (f a b) := by
      rw [divide_done h ha hb fn f z gd hi (fun h0 => absurd h0 hne), if_neg hne]
    exact ⟨run _ _ _, run _ _ _, run _ _ _, run _ _ _⟩
  case zero =>
    have run (fn : Nat) (f z : Word → Word → Word) : divide fn f z t gd ga gb s = done (z a b) := by
      rw [divide_done h ha hb fn f z gd hi (fun _ => hz), if_pos h0]
    exact ⟨run _ _ _, run _ _ _, run _ _ _, run _ _ _⟩
  case traps =>
    have run (fn : Nat) (f z : Word → Word → Word) : divide fn f z t gd ga gb s = trap := divide_traps h ha hb fn f z gd h0 hz
    exact ⟨run _ _ _, run _ _ _, run _ _ _, run _ _ _⟩

/-! ### The integer instructions of two source registers -/

/-- The instruction runs one operation on ga and gb: of the residue class, whose prediction is exact, or of the shadow class. -/
def TwoSourceOp (t : BitVec 10) (gd ga gb : BitVec 6) (i : Instr) : Prop :=
  (∃ (w : IWord) (f : Word → Word → Word) (pred : TWord → TWord → Byte),
    (∀ a b, isSound a = true → isSound b = true → pred a b = tallyOf (f a.val b.val)) ∧
    ∀ s, exec i s = .next (runInstr s t.toNat w false 1 false (fun s =>
      let a := rg s t.toNat ga
      let b := rg s t.toNat gb
      residueOp t.toNat gd w [(0, a), (1, b)] (f a.val b.val) (pred a b) s))) ∨
  (∃ (w : IWord) (f : Word → Word → Word),
    ∀ s, exec i s = .next (runInstr s t.toNat w false 1 false (fun s =>
      let a := rg s t.toNat ga
      let b := rg s t.toNat gb
      shadowOp t.toNat gd w [(0, a), (1, b)] (f a.val b.val) s)))

/-- The integer instructions of two source registers, MADD and the divides aside, as O7 and O8 list them. -/
theorem twoSourceOp_of_mem (t : BitVec 10) (gd ga gb : BitVec 6) :
    ∀ i ∈ [Instr.add t gd ga gb, .sub t gd ga gb, .sll t gd ga gb, .mul t gd ga gb, .and t gd ga gb, .or t gd ga gb, .xor t gd ga gb,
      .andn t gd ga gb, .srl t gd ga gb, .sra t gd ga gb, .clt t gd ga gb, .cltu t gd ga gb, .min t gd ga gb, .max t gd ga gb,
      .minu t gd ga gb, .maxu t gd ga gb, .mulhi t gd ga gb, .mulhiu t gd ga gb, .mulhix t gd ga gb], TwoSourceOp t gd ga gb i := by
  have alu {i : Instr} {fn : Nat} {f : Word → Word → Word} (h : ∀ s, exec i s = aluShadow fn f t gd ga gb s) : TwoSourceOp t gd ga gb i :=
    .inr ⟨_, f, h⟩
  have high {i : Instr} {fn : Nat} {f : Word → Word → Word} (h : ∀ s, exec i s = mulHi fn f t gd ga gb s) : TwoSourceOp t gd ga gb i :=
    .inr ⟨_, f, h⟩
  simp only [List.forall_mem_cons, List.not_mem_nil, false_implies, implies_true, and_true]
  refine ⟨?add, ?sub, ?sll, ?mul,
    alu fun s => (rfl : execAnd t gd ga gb s = _), alu fun s => (rfl : execOr t gd ga gb s = _),
    alu fun s => (rfl : execXor t gd ga gb s = _), alu fun s => (rfl : execAndn t gd ga gb s = _),
    alu fun s => (rfl : execSrl t gd ga gb s = _), alu fun s => (rfl : execSra t gd ga gb s = _),
    alu fun s => (rfl : execClt t gd ga gb s = _), alu fun s => (rfl : execCltu t gd ga gb s = _),
    alu fun s => (rfl : execMin t gd ga gb s = _), alu fun s => (rfl : execMax t gd ga gb s = _),
    alu fun s => (rfl : execMinu t gd ga gb s = _), alu fun s => (rfl : execMaxu t gd ga gb s = _),
    high fun s => (rfl : execMulhi t gd ga gb s = _), high fun s => (rfl : execMulhiu t gd ga gb s = _),
    high fun s => (rfl : execMulhix t gd ga gb s = _)⟩
  case add => exact .inl ⟨_, (· + ·), predAdd, fun _ _ => predAdd_sound, fun _ => rfl⟩
  case sub => exact .inl ⟨_, (· - ·), predSub, fun _ _ => predSub_sound, fun _ => rfl⟩
  case sll => exact .inl ⟨_, sll, fun a b => predShl a (b.val.toNat % 64), fun _ _ ha _ => predShl_sound ha _, fun _ => rfl⟩
  case mul => exact .inl ⟨_, (· * ·), predMadd TWord.zero, fun _ _ => predMadd_zero_sound, fun _ => rfl⟩

section
variable {s s' : State} {t : BitVec 10} {gd ga gb : BitVec 6} {i : Instr} (ho : TwoSourceOp t gd ga gb i) (h : Ready s t.toNat s')
include ho h

/-- On sound operands it completes with some result. -/
theorem TwoSourceOp.completes (ha : SoundReg s' t.toNat ga) (hb : SoundReg s' t.toNat gb) (hi1 : injArmed s' t.toNat 1 = false)
    (hi2 : injArmed s' t.toNat 2 = false) : ∃ r, exec i s = .next (finish (wg s' t.toNat gd (gen r)) t.toNat 1 false) := by
  have hs := sources_sound₂ (i := 0) (j := 1) ha hb
  obtain ⟨w, f, pred, hp, he⟩ | ⟨w, f, he⟩ := ho
  · exact ⟨_, (he s).trans (h.done (residueOp_sound hs hi1 (hp _ _ ha hb) gd w))⟩
  · exact ⟨_, (he s).trans (h.done (shadowOp_sound hs hi2 _ gd w))⟩

/-- A poisoned source raises cause 0x05 with its index (R160). -/
theorem TwoSourceOp.poisoned {n : Nat} (hn : firstPoisoned [(0, rg s' t.toNat ga), (1, rg s' t.toNat gb)] = some n) :
    exec i s = .next (trapped s' t.toNat 0x05 (w64 n)) := by
  obtain ⟨w, f, pred, -, he⟩ | ⟨w, f, he⟩ := ho
  · exact (he s).trans (h.trap (by simp only [residueOp, hn]))
  · exact (he s).trans (h.trap (by simp only [shadowOp, hn]))

/-- A failed source, with none poisoned, raises cause 0x03 (R144). -/
theorem TwoSourceOp.failed (hn : firstPoisoned [(0, rg s' t.toNat ga), (1, rg s' t.toNat gb)] = none)
    (hf : anyFailed [(0, rg s' t.toNat ga), (1, rg s' t.toNat gb)] = true) : ∃ w, exec i s = .next (trapped s' t.toNat 0x03 w) := by
  obtain ⟨w, f, pred, -, he⟩ | ⟨w, f, he⟩ := ho
  · exact ⟨_, (he s).trans (h.trap (by simp only [residueOp, hn, if_pos hf]; rfl))⟩
  · exact ⟨_, (he s).trans (h.trap (by simp only [shadowOp, hn, if_pos hf]; rfl))⟩

end

/-- Settles O7: the first poisoned source decides, then a failed one. -/
theorem integerBadOperandTraps : Obligations.IntegerBadOperandTraps := by
  intro s s' t gd ga gb i hmem h
  have ho := twoSourceOp_of_mem t gd ga gb i hmem
  refine ⟨fun ha => ho.poisoned h ?_, fun ha hb => ho.poisoned h ?_, fun ha hb hf => ho.failed h ?_ ?_⟩
  · simp [firstPoisoned, ha]
  · simp [firstPoisoned, ha, hb]
  · simp [firstPoisoned, ha, hb]
  · simpa [anyFailed] using hf

/-! ### What a completed instruction leaves (R93, R146) -/

/-- A register write leaves the rest of the thread. -/
theorem thr_wg (s : State) (t : Nat) (r : BitVec 6) (v : TWord) : ∃ g, thr (wg s t r v) t = { thr s t with g := g } := by
  unfold wg
  split
  · exact ⟨(thr s t).g, rfl⟩
  · exact ⟨_, thr_updThr_same _ _ _⟩

/-- Replacing threads and registers, all of them but thread `t` as they were, is a change of `t` and of registers alone. -/
theorem onlyThread_of_eq {s s2 : State} {t : Nat} {th : SMap Thread} {r : SMap Word} (h : s2 = { s with threads := th, regs := r })
    (ho : ∀ u, u ≠ t → thr s2 u = thr s u) : OnlyThread s s2 t := by
  subst h
  exact ⟨fun _ => rfl, rfl, rfl, ho, rfl, rfl, rfl, rfl, rfl⟩

/-- A register write changes the thread alone. -/
theorem wg_threads (s : State) (t : Nat) (r : BitVec 6) (v : TWord) : ∃ th, wg s t r v = { s with threads := th } := by
  unfold wg
  split
  · exact ⟨s.threads, rfl⟩
  · exact ⟨_, rfl⟩

/-- A register write leaves every other thread. -/
theorem thr_wg_other (s : State) {t u : Nat} (r : BitVec 6) (v : TWord) (h : u ≠ t) : thr (wg s t r v) u = thr s u := by
  unfold wg
  split
  · rfl
  · exact thr_updThr_other _ _ _ _ h

/-- The thread of a completed instruction. -/
def retired (x : Thread) (uops : Nat) (breaks : Bool) : Thread :=
  { x with pc := nextPc x, slot := .none, wait := none, missNoted := false, runAhead := false, owed := [],
           loopUops := x.loopUops + uops, loopBad := x.loopBad || breaks }

/-- A thread is what the table of threads holds. -/
theorem thr_congr {s s2 : State} (h : s.threads = s2.threads) (t : Nat) : thr s t = thr s2 t := by
  unfold thr
  rw [h]

/-- Counting an instruction leaves every other thread. -/
theorem thr_commitCount_other (s : State) {t u : Nat} (uops : Nat) (breaks : Bool) (h : u ≠ t) :
    thr (commitCount s t uops breaks) u = thr s u := by
  obtain ⟨r, hr⟩ := commitCount_frame s t uops breaks
  rw [hr, thr_updThr_other _ _ _ _ h]
  exact thr_congr rfl u

/-- Counting an instruction pays what the thread owes the counters, and measures the path of a loop. -/
theorem thr_commitCount (s : State) (t uops : Nat) (breaks : Bool) : thr (commitCount s t uops breaks) t =
    { thr s t with owed := [], loopUops := (thr s t).loopUops + uops, loopBad := (thr s t).loopBad || breaks } := by
  obtain ⟨r, hr⟩ := commitCount_frame s t uops breaks
  rw [hr, thr_updThr_same]
  rfl

/-- Completion moves the thread past the instruction. -/
theorem thr_finish (s : State) (t uops : Nat) (breaks : Bool) : thr (finish s t uops breaks) t = retired (thr s t) uops breaks := by
  simp only [finish, thr_commitCount, retire, thr_updThr_same, retired]

/-- Completion leaves every other thread. -/
theorem thr_finish_other (s : State) {t u : Nat} (uops : Nat) (breaks : Bool) (h : u ≠ t) :
    thr (finish s t uops breaks) u = thr s u := by
  rw [finish, thr_commitCount_other _ _ _ h, retire, thr_updThr_other _ _ _ _ h]

/-- Completion changes threads and registers alone. -/
theorem finish_threads (s : State) (t uops : Nat) (breaks : Bool) :
    ∃ th r, finish s t uops breaks = { s with threads := th, regs := r } := by
  obtain ⟨r, hr⟩ := finish_frame s t uops breaks
  exact ⟨_, r, hr⟩

/-- An instruction that completes with a register written changes its thread alone. -/
theorem finish_wg_onlyThread (s : State) (t : Nat) (r : BitVec 6) (v : TWord) (uops : Nat) (breaks : Bool) :
    OnlyThread s (finish (wg s t r v) t uops breaks) t := by
  obtain ⟨th, hw⟩ := wg_threads s t r v
  obtain ⟨th2, q, hf⟩ := finish_threads (wg s t r v) t uops breaks
  refine onlyThread_of_eq (hf.trans (by rw [hw])) fun u hu => ?_
  rw [thr_finish_other _ uops breaks hu, thr_wg_other s r v hu]

/-- Settles O8: the instruction completes, and completion with gd written is such a change. -/
theorem integerFrame : Obligations.IntegerFrame := by
  intro s s' s2 t gd ga gb i hmem h ha hb hi1 hi2 he
  obtain ⟨v, hv⟩ := (twoSourceOp_of_mem t gd ga gb i hmem).completes h ha hb hi1 hi2
  obtain rfl : finish (wg s' t.toNat gd (gen v)) t.toNat 1 false = s2 := Host.Outcome.next.inj (hv.symm.trans he)
  obtain ⟨g, hg⟩ := thr_wg s' t.toNat gd (gen v)
  have hthr : thr (finish (wg s' t.toNat gd (gen v)) t.toNat 1 false) t.toNat = retired { thr s' t.toNat with g := g } 1 false := by
    rw [thr_finish, hg]
  refine ⟨finish_wg_onlyThread _ _ _ _ _ _, fun r hr => ?_, fun r k => ?_, fun hslot => ?_, ?_⟩
  · have hregs : (thr (finish (wg s' t.toNat gd (gen v)) t.toNat 1 false) t.toNat).g = (thr (wg s' t.toNat gd (gen v)) t.toNat).g := by
      rw [thr_finish]
      rfl
    rw [← rg_wg_other s' t.toNat gd r (gen v) hr]
    simp only [rg, hregs]
  · simp only [rv, hthr, retired]
  · simp [hthr, retired, nextPc, hslot]
  · simp only [hthr, retired, and_self]

end Sys2Proof.Machine
end

section
/-! PROOFS. The floating-point, vector, move and tally instructions complete (R99, R121, R142, R148, R151, R157, R158). -/

namespace Sys2Proof.Machine

/-! ### Scalar floating point (R99) -/

/-- Rounding modes 0 to 4 are no reserved mode (Table 4-2). -/
theorem badRM_of_le {s : State} {t : Nat} (h : flagsRM s t ≤ 4) : badRM s t = false := by
  simp [badRM, h]

/-- A floating-point instruction computes on sound sources under a rounding mode of Table 4-2. -/
theorem fpCheck_sound {s : State} {t : Nat} (hrm : flagsRM s t ≤ 4) {srcs : List (Nat × TWord)} (hs : ∀ e ∈ srcs, isSound e.2 = true)
    (w : IWord) (rounds : Bool) : fpCheck s t w rounds false srcs = none := by
  simp [fpCheck, badRM_of_le hrm, firstPoisoned_sound hs, anyFailed_sound hs]

section
variable {s s' : State} {t : BitVec 10} {ga gb gc : BitVec 6} (h : Ready s t.toNat s') (ha : SoundReg s' t.toNat ga)
  (hb : SoundReg s' t.toNat gb) (hi : injArmed s' t.toNat 2 = false) (hrm : flagsRM s' t.toNat ≤ 4)
include h ha hb hi hrm

/-- A scalar instruction of one or two sources; gb is g0 where there is one. -/
theorem fpOp_done (fn : Nat) (rounds : Bool) {unary : Bool} (hu : unary = true → gb = 0) (f : Nat → Word → Word → Word × Word) (gd : BitVec 6) :
    fpOp fn rounds unary f t gd ga gb s = .next (finish
      (wg (accrue s' t.toNat (f (flagsRM s' t.toNat) (rg s' t.toNat ga).val (rg s' t.toNat gb).val).2) t.toNat gd
        (gen (f (flagsRM s' t.toNat) (rg s' t.toNat ga).val (rg s' t.toNat gb).val).1)) t.toNat 1 false) := by
  have hres : (unary && gb != 0) = false := by
    cases unary with
    | false => rfl
    | true => simp [hu rfl]
  have hsrc : ∀ e ∈ (if unary then [(0, rg s' t.toNat ga)] else [(0, rg s' t.toNat ga), (1, rg s' t.toNat gb)]), isSound e.2 = true := by
    cases unary with
    | false => exact sources_sound₂ ha hb
    | true => exact sources_sound ha
  refine h.done ?_
  simp only [hres, fpCheck_sound hrm hsrc, shadowOk_unarmed hi]
  rfl

/-- A scalar fused multiply-add. -/
theorem fmaOp_done (hc : SoundReg s' t.toNat gc) (fn : Nat) (p n : Bool) (gd : BitVec 6) :
    fmaOp fn p n t gd ga gb gc s = .next (finish
      (wg (accrue s' t.toNat (fMulAdd (flagsRM s' t.toNat) p n (rg s' t.toNat ga).val (rg s' t.toNat gb).val (rg s' t.toNat gc).val).2) t.toNat gd
        (gen (fMulAdd (flagsRM s' t.toNat) p n (rg s' t.toNat ga).val (rg s' t.toNat gb).val (rg s' t.toNat gc).val).1)) t.toNat 1 false) := by
  refine h.done ?_
  simp only [fpCheck_sound hrm (sources_sound₃ ha hb hc), shadowOk_unarmed hi]
  rfl

end

/-- Settles O9: each is a scalar operation of one or two sources, or a fused multiply-add. -/
theorem floatCompletes : Obligations.FloatCompletes := by
  intro s s' t gd ga gb gc h ha hb hc hi hrm a b c rm done
  have two (fn : Nat) (rounds : Bool) (f : Nat → Word → Word → Word × Word) : fpOp fn rounds false f t gd ga gb s = done (f rm a b) :=
    fpOp_done h ha hb hi hrm fn rounds (unary := false) nofun f gd
  have one (fn : Nat) (f : Nat → Word → Word × Word) : fpOp fn true true (fun rm a _ => f rm a) t gd ga 0 s = done (f rm a) :=
    fpOp_done h ha (rfl : SoundReg s' t.toNat 0) hi hrm fn true (fun _ => rfl) (fun rm a _ => f rm a) gd
  have fma (fn : Nat) (p n : Bool) : fmaOp fn p n t gd ga gb gc s = done (fMulAdd rm p n a b c) := fmaOp_done h ha hb hi hrm hc fn p n gd
  exact ⟨two 1 true fAdd, two 2 true fSub, two 3 true fMul, two 4 true fDiv, one 5 fSqrt, two 6 false fun _ => fMinMax false,
    two 7 false fun _ => fMinMax true, two 8 false fun _ a b => cmpWord (fEq a b), two 9 false fun _ a b => cmpWord (fLt a b),
    two 10 false fun _ a b => cmpWord (fLe a b), one 11 fOfInt, one 12 fOfNat, one 13 (fToInt true), one 14 (fToInt false),
    two 15 false fun _ a b => (fCopySign false a b, 0), two 16 false fun _ a b => (fCopySign true a b, 0),
    fma 0 false false, fma 1 false true, fma 2 true true, fma 3 true false⟩

/-! ### Vectors (R157) -/

/-- A lane of a sound vector is sound, and so is the zero that stands for a lane it does not have. -/
theorem isSound_getD {l : List TWord} (h : ∀ x ∈ l, isSound x = true) (i : Nat) : isSound (l.getD i TWord.zero) = true := by
  rw [List.getD_eq_getElem?_getD]
  cases hi : l[i]? with
  | none => rfl
  | some x => exact h x (List.mem_of_getElem? hi)

section
variable {srcs : List (Nat × List TWord)} (hs : ∀ e ∈ srcs, ∀ x ∈ e.2, isSound x = true)
include hs

/-- Of sound lanes none is poisoned. -/
theorem firstPoisonedLane_sound : firstPoisonedLane srcs = none := by
  simp only [firstPoisonedLane, List.findSome?_eq_none_iff, Option.map_eq_none_iff, List.find?_eq_none]
  exact fun e he i _ => Bool.eq_false_iff.mp (sound_not_bad (isSound_getD (hs e he) i)).1

/-- A vector instruction computes on sound lanes under a rounding mode of Table 4-2. -/
theorem vecCheck_sound {s : State} {t : Nat} (w : IWord) {rounds : Bool} (hrm : rounds = true → flagsRM s t ≤ 4) :
    vecCheck s t w rounds false srcs = none := by
  have hr : (rounds && badRM s t) = false := by
    cases rounds with
    | false => rfl
    | true => exact badRM_of_le (hrm rfl)
  have hf : srcs.any (fun e => e.2.any isFailed) = false := by
    simp only [List.any_eq_false, List.any_eq_true, not_exists, not_and]
    exact fun e he x hx => Bool.eq_false_iff.mp (sound_not_bad (hs e he x hx)).2
  simp [vecCheck, hr, firstPoisonedLane_sound hs, hf]

end

section
variable {s : State} {t : Nat} {va vb vc : BitVec 5} {i j k : Nat} (ha : SoundVec s t va) (hb : SoundVec s t vb)
include ha hb

/-- Two sound vectors. -/
theorem lanes_sound₂ : ∀ e ∈ [(i, lanes s t va), (j, lanes s t vb)], ∀ x ∈ e.2, isSound x = true := by
  simp only [List.forall_mem_cons]
  exact ⟨ha, hb, nofun⟩

/-- Three sound vectors. -/
theorem lanes_sound₃ (hc : SoundVec s t vc) : ∀ e ∈ [(i, lanes s t va), (j, lanes s t vb), (k, lanes s t vc)], ∀ x ∈ e.2, isSound x = true := by
  simp only [List.forall_mem_cons]
  exact ⟨ha, hb, hc, nofun⟩

end

section
variable {s s' : State} {t : BitVec 10} {va vb vc : BitVec 5} (h : Ready s t.toNat s') (ha : SoundVec s' t.toNat va)
  (hb : SoundVec s' t.toNat vb)
include h ha hb

/-- A vector operation of the residue class whose prediction is exact on sound words. -/
theorem vecResidue_done (hi : injArmed s' t.toNat 1 = false) (fn : Nat) (f : Word → Word → Word) {pred : TWord → TWord → Byte}
    (hp : ∀ a b, isSound a = true → isSound b = true → pred a b = tallyOf (f a.val b.val)) (vd : BitVec 5) :
    vecResidue fn f pred t vd va vb 0 s = .next (finish (wvAll s' t.toNat vd
      (((lanes s' t.toNat va).zip (lanes s' t.toNat vb)).map (fun e => gen (f e.1.val e.2.val)))) t.toNat 1 false) := by
  have hl : ((lanes s' t.toNat va).zip (lanes s' t.toNat vb)).map (fun e => (⟨f e.1.val e.2.val, pred e.1 e.2⟩ : TWord)) =
      ((lanes s' t.toNat va).zip (lanes s' t.toNat vb)).map (fun e => gen (f e.1.val e.2.val)) := by
    refine List.map_congr_left fun e he => ?_
    rw [hp e.1 e.2 (ha _ (List.of_mem_zip he).1) (hb _ (List.of_mem_zip he).2)]
    rfl
  have hc : vecCheck s' t.toNat (encV 0x32 vd va vb 0 fn) false ((0 : BitVec 5) != 0) [(0, lanes s' t.toNat va), (1, lanes s' t.toNat vb)] = none :=
    vecCheck_sound (lanes_sound₂ ha hb) _ nofun
  refine h.done ?_
  simp only [hc, hl]
  generalize (lanes s' t.toNat va).zip (lanes s' t.toNat vb) = z
  cases z with
  | nil => rfl
  | cons e z => simp [residueOk_sound hi]

variable (hi : injArmed s' t.toNat 2 = false) (hrm : flagsRM s' t.toNat ≤ 4)
include hi hrm

/-- A vector operation of the shadow class. -/
theorem vecShadow_done (fn : Nat) (rounds : Bool) (f : Nat → Word → Word → Word × Word) {l : List (Word × Word)}
    (hl : ((lanes s' t.toNat va).zip (lanes s' t.toNat vb)).map (fun e => f (flagsRM s' t.toNat) e.1.val e.2.val) = l) (vd : BitVec 5) :
    vecShadow fn rounds f t vd va vb 0 s = .next (finish (wvAll (accrue s' t.toNat (l.foldl (fun x e => x ||| e.2) 0)) t.toNat vd
      (l.map (fun e => gen e.1))) t.toNat 1 false) := by
  have hc : vecCheck s' t.toNat (encV 0x32 vd va vb 0 fn) rounds ((0 : BitVec 5) != 0) [(0, lanes s' t.toNat va), (1, lanes s' t.toNat vb)] =
      none := vecCheck_sound (lanes_sound₂ ha hb) _ (fun _ => hrm)
  refine h.done ?_
  simp only [hc, shadowOk_unarmed hi, hl]
  rfl

/-- A vector fused multiply-add. -/
theorem vfmaOp_done (hv : SoundVec s' t.toNat vc) (fn : Nat) (p n : Bool) {l : List (Word × Word)}
    (hl : (((lanes s' t.toNat va).zip (lanes s' t.toNat vb)).zip (lanes s' t.toNat vc)).map
      (fun e => fMulAdd (flagsRM s' t.toNat) p n e.1.1.val e.1.2.val e.2.val) = l) (vd : BitVec 5) :
    vfmaOp fn p n t vd va vb vc s = .next (finish (wvAll (accrue s' t.toNat (l.foldl (fun x e => x ||| e.2) 0)) t.toNat vd
      (l.map (fun e => gen e.1))) t.toNat 1 false) := by
  have hc := vecCheck_sound (s := s') (t := t.toNat) (rounds := true) (lanes_sound₃ (i := 0) (j := 1) (k := 2) ha hb hv)
    (encV 0x33 vd va vb vc fn) (fun _ => hrm)
  refine h.done ?_
  simp only [hc, shadowOk_unarmed hi, hl]
  rfl

end

/-- Settles O10: each is a vector operation of the residue or of the shadow class, or a fused multiply-add. -/
theorem vectorCompletes : Obligations.VectorCompletes := by
  intro s s' t vd va vb vc h ha hb hc hi1 hi2 hrm a b c rm done plain two three
  have res (fn : Nat) (f : Word → Word → Word) {pred : TWord → TWord → Byte}
      (hp : ∀ a b, isSound a = true → isSound b = true → pred a b = tallyOf (f a.val b.val)) :
      vecResidue fn f pred t vd va vb 0 s = plain f := vecResidue_done h ha hb hi1 fn f hp vd
  have shadow (fn : Nat) (rounds : Bool) (f : Nat → Word → Word → Word × Word) : vecShadow fn rounds f t vd va vb 0 s = two (f rm) :=
    vecShadow_done h ha hb hi2 hrm fn rounds f rfl vd
  have fma (fn : Nat) (p n : Bool) : vfmaOp fn p n t vd va vb vc s = three p n := vfmaOp_done h ha hb hi2 hrm hc fn p n rfl vd
  change execVadd t vd va vb 0 s = _ ∧ execVsub t vd va vb 0 s = _ ∧ execVsll t vd va vb 0 s = _ ∧ execVmul t vd va vb 0 s = _ ∧
    execVand t vd va vb 0 s = _ ∧ execVor t vd va vb 0 s = _ ∧ execVxor t vd va vb 0 s = _ ∧ execVsrl t vd va vb 0 s = _ ∧
    execVsra t vd va vb 0 s = _ ∧ execVfadd t vd va vb 0 s = _ ∧ execVfsub t vd va vb 0 s = _ ∧ execVfmul t vd va vb 0 s = _ ∧
    execVfdiv t vd va vb 0 s = _ ∧ execVfmin t vd va vb 0 s = _ ∧ execVfmax t vd va vb 0 s = _ ∧ execVfeq t vd va vb 0 s = _ ∧
    execVflt t vd va vb 0 s = _ ∧ execVfmadd t vd va vb vc s = _ ∧ execVfmsub t vd va vb vc s = _ ∧ execVfnmadd t vd va vb vc s = _ ∧
    execVfnmsub t vd va vb vc s = _
  exact ⟨res 1 (· + ·) fun _ _ => predAdd_sound, res 2 (· - ·) fun _ _ => predSub_sound,
    res 6 (fun x y => x <<< (y.toNat % 64)) fun _ _ ha _ => predShl_sound ha _, res 9 (· * ·) fun _ _ => predMadd_zero_sound,
    shadow 3 false fun _ x y => (x &&& y, 0), shadow 4 false fun _ x y => (x ||| y, 0), shadow 5 false fun _ x y => (x ^^^ y, 0),
    shadow 7 false fun _ x y => (x >>> (y.toNat % 64), 0), shadow 8 false fun _ x y => (BitVec.sshiftRight x (y.toNat % 64), 0),
    shadow 16 true fAdd, shadow 17 true fSub, shadow 18 true fMul, shadow 19 true fDiv, shadow 20 false fun _ => fMinMax false,
    shadow 21 false fun _ => fMinMax true, shadow 22 false fun _ x y => cmpLane (fEq x y), shadow 23 false fun _ x y => cmpLane (fLt x y),
    fma 0 false false, fma 1 false true, fma 2 true true, fma 3 true false⟩

/-! ### Moves and tally instructions (R121, R158) -/

/-- A move carries a word that is not failed. -/
theorem vgMove_carries {s : State} {t : Nat} {x : TWord} (hi : injArmed s t 1 = false) (hx : isFailed x = false) (w : IWord)
    (write : State → State) : vgMove w false t x write s = .done (write s) := by
  simp [vgMove, hx, residueOk_carried hi hx]

/-- Settles O11: moves carry the word; of the tally instructions only TALLY.GEN looks at the word's tally first. -/
theorem movesAndTalliesComplete : Obligations.MovesAndTalliesComplete := by
  intro s s' t vd gd ga gb lane h hi1 hi2 done trap a
  refine ⟨fun hf => ⟨h.done (vgMove_carries hi1 hf _ _), h.done (vgMove_carries hi1 hf _ _)⟩, fun hf => h.done (vgMove_carries hi1 hf _ _),
    fun hp => h.done ?gen, h.done rfl, h.done rfl, fun hp => h.trap ?genPoisoned, fun hgb => ?reserved⟩
  case gen =>
    change isPoisoned (rg s' t.toNat ga) = false at hp
    simp [hp, shadowOk_unarmed hi2]
    rfl
  case genPoisoned =>
    change isPoisoned (rg s' t.toNat ga) = true at hp
    simp [hp]
  case reserved =>
    have hne : (gb != 0) = true := bne_iff_ne.mpr hgb
    exact ⟨⟨_, h.trap (if_pos hne)⟩, ⟨_, h.trap (if_pos hne)⟩, ⟨_, h.trap (if_pos hne)⟩⟩

end Sys2Proof.Machine
end

section
/-! PROOFS. Loads, stores, LL and SC, and the atomics complete once their address is reached (R112–R117, R142, R152–R160, R209). -/

namespace Sys2Proof.Machine

/-! ### Loads (R112, R152, R159) -/

/-- What a load puts in its register from the containing word. -/
def loaded (x : TWord) (pa size : Nat) (signed : Bool) : TWord :=
  if size = 8 then x else if isPoisoned x then poison (extract x.val pa size signed) else gen (extract x.val pa size signed)

/-- A load ends with its register written where its word is not failed; a 32-bit LL refuses a poisoned one (R116). -/
theorem loadFinish_done {s : State} {t : Nat} {x : TWord} (hx : isFailed x = false) (hi1 : injArmed s t 1 = false)
    (hi2 : injArmed s t 2 = false) {ll : Bool} (hll : ll = true → isPoisoned x = false) (w : IWord) (gd : BitVec 6) (pa size : Nat)
    (signed : Bool) : loadFinish s t w gd x pa size signed ll = .done (wg s t gd (loaded x pa size signed)) := by
  have hrefused : ¬ (ll && decide (size = 4) && isPoisoned x) = true := by
    cases ll with
    | false => nofun
    | true => simp [hll rfl]
  unfold loadFinish loaded
  rw [if_neg hrefused, if_neg (by simp [hx])]
  cases hp : isPoisoned x with
  | true => by_cases h8 : size = 8 <;> simp [h8]
  | false =>
    by_cases h8 : size = 8
    · simp [h8, residueOk_sound hi1 (isSound_of_not_bad hx hp)]
    · simp [h8, shadowOk_unarmed hi2]

section
variable {s s1 s2 z : State} {t pa size uk : Nat} {i : Instr} {w : IWord} {kind : AccKind} {signed acq atomic : Bool} {gd ga : BitVec 6}
  {off : Word} (hacq : acq = true → (thr s t).stores.any (fun e => e.rel) = false)
include hacq

/-- A load of memory that finds its word runs its end, trains the prefetcher, and then `fin`. -/
theorem loadBody_words {x : TWord} (hpre : memPre s t w kind [(0, rg s t ga)] [rg s t ga] ((rg s t ga).val + off) size (size ≠ 8) atomic =
      .go pa (.mem true) false s1)
    (hov : atomic = true → storesOverlap (thr s1 t) pa size = false)
    (hc : cacheLoad s1 t i ((rg s t ga).val + off) pa size = .words [x] s2)
    (hf : loadFinish s2 t w gd x pa size signed atomic = .done z) (fin : State → Nat → State) :
    loadBody i w kind size signed acq atomic uk t gd ga off fin s = .done (fin (strideTrain z t (thr s2 t).pc pa) (pa / 64)) := by
  have hwait : (acq && (thr s t).stores.any (fun e => e.rel) && !isPoisoned (rg s t ga)) = false := by
    cases acq with
    | false => rfl
    | true => simp [hacq rfl]
  have hdrain : (atomic && storesOverlap (thr s1 t) pa size) = false := by
    cases atomic with
    | false => rfl
    | true => simp [hov rfl]
  simp only [loadBody, hwait, hpre, hdrain, hc, List.headD_cons, hf]
  rfl

/-- A load from an address that nothing holds takes 0 with tally 0xFF, and the access is recorded (R54). -/
theorem loadBody_unmapped (hpre : memPre s t w kind [(0, rg s t ga)] [rg s t ga] ((rg s t ga).val + off) size (size ≠ 8) false =
    .go pa .unmapped false s1) (fin : State → Nat → State) :
    loadBody i w kind size signed acq false uk t gd ga off fin s = .done (wg (threadUnmapped s1 t uk pa) t gd (poison 0)) := by
  have hwait : (acq && (thr s t).stores.any (fun e => e.rel) && !isPoisoned (rg s t ga)) = false := by
    cases acq with
    | false => rfl
    | true => simp [hacq rfl]
  simp only [loadBody, hwait, hpre]
  rfl

end

/-- Settles O12: each load by what a load of memory, or of an address that nothing holds, does. -/
theorem loadCompletes : Obligations.LoadCompletes := by
  intro s s' s1 s2 t gd ga imm pa x h hi1 hi2 hx va claim
  have load (i : Instr) (op size : Nat) (signed acq : Bool) (hacq : acq = true → (thr s' t.toNat).stores.any (fun e => e.rel) = false)
      (he : exec i s = loadOp i op size signed acq t gd ga imm s) : claim i op size signed := by
    refine ⟨fun hpre hc => he.trans (h.done ?_), fun hpre => he.trans (h.done (loadBody_unmapped hacq hpre _))⟩
    exact loadBody_words hacq hpre nofun hc (loadFinish_done hx hi1 hi2 (ll := false) nofun _ gd pa size signed) _
  exact ⟨load _ 0x10 8 false false nofun rfl, fun hrel => load _ 0x17 8 false true (fun _ => hrel) rfl, load _ 0x11 4 true false nofun rfl,
    load _ 0x12 4 false false nofun rfl, load _ 0x13 2 true false nofun rfl, load _ 0x14 2 false false nofun rfl,
    load _ 0x15 1 true false nofun rfl, load _ 0x16 1 false false nofun rfl⟩

/-! ### Stores (R112, R114, R209) -/

/-- A release finds nothing to wait for among stores that have drained. -/
theorem release_drained {x : Thread} {rl : Bool} (h : rl = true → x.stores = []) : (rl && !x.stores.isEmpty) = false := by
  cases rl with
  | false => rfl
  | true => simp [h rfl]

/-- Settles O13: the word passes its check, and the entry goes to the store buffer, or nowhere. -/
theorem storeCompletes : Obligations.StoreCompletes := by
  intro s s' s1 t gs ga imm pa h hi hv va claim
  have checked (size : Nat) : (if size = 8 && !isPoisoned (rg s' t.toNat gs) then
      residueOk s1 t.toNat (rg s' t.toNat gs).val (rg s' t.toNat gs).tal else (true, s1)) = (true, s1) := by
    cases hp : isPoisoned (rg s' t.toNat gs) with
    | true => simp
    | false => simp [residueOk_sound hi (isSound_of_not_bad hv hp)]
  have store (i : Instr) (op size : Nat) (rel : Bool) (he : exec i s = storeOp i op size rel t gs ga imm s) : claim i op size rel := by
    refine ⟨fun hpre hroom => he.trans (h.done ?_), fun hpre hrel hov => he.trans (h.done ?_)⟩
    · have hpre' : memPre s' t.toNat (encI op gs ga imm) .store [(0, rg s' t.toNat ga)] [rg s' t.toNat ga, rg s' t.toNat gs]
        ((rg s' t.toNat ga).val + sx imm) size (size ≠ 8) false = _ := hpre
      simp only [hpre', Bool.false_eq_true, if_false, checked, hroom]
      rfl
    · have hpre' : memPre s' t.toNat (encI op gs ga imm) .store [(0, rg s' t.toNat ga)] [rg s' t.toNat ga, rg s' t.toNat gs]
        ((rg s' t.toNat ga).val + sx imm) size (size ≠ 8) false = _ := hpre
      simp only [hpre', Bool.false_eq_true, if_false, checked, storeOut, release_drained hrel, hov]
      rfl
  exact ⟨store _ 0x18 8 false rfl, store _ 0x19 4 false rfl, store _ 0x1A 2 false rfl, store _ 0x1B 1 false rfl, store _ 0x1C 8 true rfl⟩

/-! ### Vector loads and stores (R158) -/

/-- Settles O14: the four words pass their check and are carried. -/
theorem vectorMemoryCompletes : Obligations.VectorMemoryCompletes := by
  intro s s' s1 s2 t vd ga imm pa l h va
  refine ⟨fun hpre hc hl hi => h.done ?load, fun hpre hl hi hroom => h.done ?store⟩
  case load =>
    have hpre' : memPre s' t.toNat (encVM vd ga false imm) .load [(0, rg s' t.toNat ga)] [rg s' t.toNat ga]
      ((rg s' t.toNat ga).val + (sx imm <<< 5)) 32 true false = _ := hpre
    have hc' : cacheLoad s1 t.toNat (.vld t vd ga imm) ((rg s' t.toNat ga).val + (sx imm <<< 5)) pa 32 = _ := hc
    have hf : l.any isFailed = false := List.any_eq_false.mpr fun x hx => Bool.eq_false_iff.mp (hl x hx)
    cases hx : l.find? isSound with
    | none => simp [hpre', hc', hf, hx]
    | some x => simp [hpre', hc', hf, hx, residueOk_sound hi (List.find?_some hx)]
  case store =>
    have hpre' : memPre s' t.toNat (encVM vd ga true imm) .store [(0, rg s' t.toNat ga)]
      (rg s' t.toNat ga :: (List.range 4).map (rv s' t.toNat vd)) ((rg s' t.toNat ga).val + (sx imm <<< 5)) 32 true false = _ := hpre
    cases hx : ((List.range 4).map (rv s' t.toNat vd)).find? isSound with
    | none => simp [hpre', hx, hroom, lanes]
    | some x => simp [hpre', hx, residueOk_sound hi (List.find?_some hx), hroom, lanes]

end Sys2Proof.Machine
end

section
/-! PROOFS. LL and SC, and the atomics, complete on a line that the core owns (R116, R117, R142, R156). -/

namespace Sys2Proof.Machine

/-- Neither a release nor an overlapping store of the thread holds the access back. -/
theorem no_drain {x : Thread} {rl : Bool} {pa size : Nat} (hrl : rl = true → x.stores = []) (hov : storesOverlap x pa size = false) :
    (rl && !x.stores.isEmpty || storesOverlap x pa size) = false := by
  rw [release_drained hrl, hov, Bool.false_or]

/-- A sound word loaded by LL: the word, or its half that the address names, sign-extended. -/
theorem loaded_ll {x : TWord} (hx : isSound x = true) (pa : Nat) (wide : Bool) :
    loaded x pa (if wide then 4 else 8) true = if wide then gen (extract x.val pa 4 true) else x := by
  cases wide with
  | false => rfl
  | true => exact if_neg (Bool.eq_false_iff.mp (sound_not_bad hx).1)

section
variable {s s' s1 s2 : State} {t : BitVec 10} {gd ga gb : BitVec 6} {aq rl : Bool} {pa : Nat} (h : Ready s t.toNat s')
include h

/-- LL where its load finds a sound word. -/
theorem execLl_done {wide : Bool} {x : TWord} (hrl : rl = true → (thr s' t.toNat).stores = [])
    (hpre : memPre s' t.toNat (encR 0x1D gd ga gb (atomFn aq rl wide 0)) .store [(0, rg s' t.toNat ga)] [rg s' t.toNat ga]
      ((rg s' t.toNat ga).val + 0) (if wide then 4 else 8) ((if wide then 4 else 8) ≠ 8) true = .go pa (.mem true) false s1)
    (hov : storesOverlap (thr s1 t.toNat) pa (if wide then 4 else 8) = false)
    (hc : cacheLoad s1 t.toNat (.ll t gd ga gb aq rl wide) ((rg s' t.toNat ga).val + 0) pa (if wide then 4 else 8) = .words [x] s2)
    (hx : isSound x = true) (hi1 : injArmed s2 t.toNat 1 = false) (hi2 : injArmed s2 t.toNat 2 = false) {s3 : State}
    (h3 : strideTrain (wg s2 t.toNat gd (if wide then gen (extract x.val pa 4 true) else x)) t.toNat (thr s2 t.toNat).pc pa = s3) :
    execLl t gd ga gb aq rl wide s = .next (finish (updThr s3 t.toNat (fun y =>
      { y with resv := if (l1d s3 (t.toNat / 4) (pa / 64)).isSome then some (pa / 64) else none })) t.toNat 1 false) := by
  obtain ⟨hp, hf⟩ := sound_not_bad hx
  have hfin : loadFinish s2 t.toNat (encR 0x1D gd ga gb (atomFn aq rl wide 0)) gd x pa (if wide then 4 else 8) true true =
      .done (wg s2 t.toNat gd (if wide then gen (extract x.val pa 4 true) else x)) :=
    (loadFinish_done hf hi1 hi2 (fun _ => hp) _ gd pa _ true).trans (by rw [loaded_ll hx])
  subst h3
  refine h.done (Eq.trans (if_neg (by simp [release_drained hrl])) ?_)
  exact loadBody_words (acq := false) nofun hpre (fun _ => hov) hc hfin _

variable (hrl : rl = true → (thr s1 t.toNat).stores = [])
include hrl

/-- SC without the reservation on its line writes 1 and ends the reservation. -/
theorem execSc_fails {wide : Bool}
    (hpre : memPre s' t.toNat (encR 0x1D gd ga gb (atomFn aq rl wide 1)) .store [(0, rg s' t.toNat ga)] [rg s' t.toNat ga, rg s' t.toNat gb]
      (rg s' t.toNat ga).val (if wide then 4 else 8) false true = .go pa (.mem true) false s1)
    (hov : storesOverlap (thr s1 t.toNat) pa (if wide then 4 else 8) = false) (hr : (thr s1 t.toNat).resv ≠ some (pa / 64)) :
    execSc t gd ga gb aq rl wide s =
      .next (finish (wg (updThr s1 t.toNat (fun y => { y with resv := none })) t.toNat gd (gen 1)) t.toNat 2 false) := by
  refine h.done ?_
  simp only [hpre, no_drain hrl hov, bne_iff_ne.mpr hr]
  rfl

/-- SC of a word with the reservation on its line stores gb and writes 0. -/
theorem execSc_word
    (hpre : memPre s' t.toNat (encR 0x1D gd ga gb (atomFn aq rl false 1)) .store [(0, rg s' t.toNat ga)] [rg s' t.toNat ga, rg s' t.toNat gb]
      (rg s' t.toNat ga).val 8 false true = .go pa (.mem true) false s1)
    (hov : storesOverlap (thr s1 t.toNat) pa 8 = false) (hr : (thr s1 t.toNat).resv = some (pa / 64))
    (hown : ownLine s1 t.toNat (pa / 64) = (true, s2)) (hv : isSound (rg s' t.toNat gb) = true) (hi : injArmed s2 t.toNat 1 = false) :
    execSc t gd ga gb aq rl false s = .next (finish (wg (updThr (storeWord s2 t.toNat (pa / 8) (rg s' t.toNat gb)) t.toNat
      (fun y => { y with resv := none })) t.toNat gd (gen 0)) t.toNat 2 false) := by
  refine h.done ?_
  simp only [Bool.false_eq_true, if_false, hpre, no_drain hrl hov, hr, bne_self_eq_false, hown, residueOk_carried hi (sound_not_bad hv).2]
  rfl

/-- SC of a half word merges it into the sound containing word and writes 0 (R156). -/
theorem execSc_half {s3 : State} {old : TWord}
    (hpre : memPre s' t.toNat (encR 0x1D gd ga gb (atomFn aq rl true 1)) .store [(0, rg s' t.toNat ga)] [rg s' t.toNat ga, rg s' t.toNat gb]
      (rg s' t.toNat ga).val 4 false true = .go pa (.mem true) false s1)
    (hov : storesOverlap (thr s1 t.toNat) pa 4 = false) (hr : (thr s1 t.toNat).resv = some (pa / 64))
    (hown : ownLine s1 t.toNat (pa / 64) = (true, s2)) (hv : isSound (rg s' t.toNat gb) = true)
    (he : l1dErrors s2 (t.toNat / 4) (pa / 64) (pa / 8 % 8) = (false, s3)) (hold : ownedWord s3 t.toNat (pa / 8) = old)
    (hs : isSound old = true) (hi : injArmed s3 t.toNat 2 = false) :
    execSc t gd ga gb aq rl true s = .next (finish (wg (updThr (storeWord s3 t.toNat (pa / 8)
      (mergeWord old (storeEntry pa 4 (rg s' t.toNat gb) false).placed.val false (storeEntry pa 4 (rg s' t.toNat gb) false).mask false).1) t.toNat
      (fun y => { y with resv := none })) t.toNat gd (gen 0)) t.toNat 2 false) := by
  obtain ⟨hp, hf⟩ := sound_not_bad hs
  refine h.done ?_
  simp only [if_true, hpre, no_drain hrl hov, hr, bne_self_eq_false, hown, he, hold, hp, hf, (sound_not_bad hv).1, shadowOk_unarmed hi]
  rfl

end

/-- Settles O15: LL by its load; SC by whether the reservation stands, and by its width. -/
theorem loadReserveStoreConditional : Obligations.LoadReserveStoreConditional := by
  intro s s' s1 s2 t gd ga gb aq rl wide pa x h hrl va size
  refine ⟨fun hpre hov hc hx hi1 hi2 => execLl_done h (fun hr => (hrl hr).1) hpre hov hc hx hi1 hi2 rfl,
    fun hpre hov => ⟨fun hr => execSc_fails h (fun hr => (hrl hr).2) hpre hov hr, ?word, ?half⟩⟩
  case word =>
    rintro hr hown hv hi rfl
    exact execSc_word h (fun hr => (hrl hr).2) hpre hov hr hown hv hi
  case half =>
    rintro s3 hr hown hv rfl he hs hi
    exact execSc_half h (fun hr => (hrl hr).2) hpre hov hr hown hv he rfl hs hi

/-! ### Atomics (R117, R142, R156) -/

section
variable {s s' s1 s2 s3 : State} {t : BitVec 10} {gd ga gb : BitVec 6} {aq rl : Bool} {pa : Nat} {old : TWord} (h : Ready s t.toNat s')
  (hrl : rl = true → (thr s1 t.toNat).stores = []) (hb : isSound (rg s' t.toNat gb) = true) (ho : isSound old = true)
  (hown : ownLine s1 t.toNat (pa / 64) = (true, s2)) (he : l1dErrors s2 (t.toNat / 4) (pa / 64) (pa / 8 % 8) = (false, s3))
  (hold : ownedWord s3 t.toNat (pa / 8) = old) (hi2 : injArmed s3 t.toNat 2 = false) (i : Instr) {code : Nat} {k : AtomKind}
  (f32 : Word → Word → Word)
include h hrl hb ho hown he hold hi2

/-- An atomic of a word: gd takes the old word, and the combination is stored with its own tally. -/
theorem atomicOp_word (hi1 : injArmed s3 t.toNat 1 = false) (hov : storesOverlap (thr s1 t.toNat) pa 8 = false)
    (hpre : memPre s' t.toNat (encR 0x1D gd ga gb (atomFn aq rl false code)) .store
      (if k.isSwap then [(0, rg s' t.toNat ga)] else [(0, rg s' t.toNat ga), (1, rg s' t.toNat gb)]) [rg s' t.toNat ga, rg s' t.toNat gb]
      (rg s' t.toNat ga).val 8 false true = .go pa (.mem true) false s1) :
    atomicOp i code k f32 t gd ga gb aq rl false s = .next (finish
      (wg (storeWord s3 t.toNat (pa / 8) (gen (k.apply old.val (rg s' t.toNat gb).val))) t.toNat gd old) t.toNat 2 false) := by
  obtain ⟨hp, hf⟩ := sound_not_bad ho
  have hgen : rg s' t.toNat gb = gen (rg s' t.toNat gb).val := by
    rw [gen, ← tal_of_sound hb]
  refine h.done ?_
  cases k with
  | swap =>
    simp only [Bool.false_eq_true, if_false, hpre, no_drain hrl hov, hown, he, hold, hp, hf, (sound_not_bad hb).1, residueOk_sound hi1 hb]
    exact congrArg (fun v => Act.done (wg (storeWord s3 t.toNat (pa / 8) v) t.toNat gd old)) hgen
  | add =>
    simp only [Bool.false_eq_true, if_false, hpre, no_drain hrl hov, hown, he, hold, hp, hf, predAdd_sound ho hb, AtomKind.apply,
      residueOk_exact hi1]
    rfl
  | logic f =>
    simp only [Bool.false_eq_true, if_false, hpre, no_drain hrl hov, hown, he, hold, hp, hf, shadowOk_unarmed hi2]
    rfl

/-- An atomic of a half word: gd takes the old half, and the combination is merged into the containing word. -/
theorem atomicOp_half (hov : storesOverlap (thr s1 t.toNat) pa 4 = false)
    (hpre : memPre s' t.toNat (encR 0x1D gd ga gb (atomFn aq rl true code)) .store
      (if k.isSwap then [(0, rg s' t.toNat ga)] else [(0, rg s' t.toNat ga), (1, rg s' t.toNat gb)]) [rg s' t.toNat ga, rg s' t.toNat gb]
      (rg s' t.toNat ga).val 4 false true = .go pa (.mem true) false s1) {e : StoreEnt}
    (hent : storeEntry pa 4 ⟨f32 (extract old.val pa 4 true) (BitVec.signExtend 64 ((rg s' t.toNat gb).val.setWidth 32)),
      (rg s' t.toNat gb).tal⟩ false = e) :
    atomicOp i code k f32 t gd ga gb aq rl true s = .next (finish
      (wg (storeWord s3 t.toNat (pa / 8) (mergeWord old e.placed.val false e.mask false).1) t.toNat gd (gen (extract old.val pa 4 true)))
      t.toNat 2 false) := by
  obtain ⟨hp, hf⟩ := sound_not_bad ho
  refine h.done ?_
  simp only [if_true, hpre, no_drain hrl hov, hown, he, hold, hp, hf, (sound_not_bad hb).1, shadowOk_unarmed hi2, half32, hent]
  rfl

end

/-- Settles O16: each atomic is one kind of combination, of a word and of a half word. -/
theorem atomicCompletes : Obligations.AtomicCompletes := by
  intro s s' s1 s2 s3 t gd ga gb aq rl pa old h hrl hb ho hov8 hov4 hown he hold hi1 hi2 base b claim
  have op (i : Bool → Instr) (code : Nat) (k : AtomKind) (f : Word → Word → Word) (hk : ∀ a b, k.apply a b = f a b)
      (hx : ∀ w, exec (i w) s = atomicOp (i w) code k f t gd ga gb aq rl w s) : claim i code k.isSwap f := by
    refine ⟨fun hpre => (hx false).trans ?_, fun hpre => (hx true).trans ?_⟩
    · rw [atomicOp_word h hrl hb ho hown he hold hi2 _ f hi1 hov8 hpre, hk]
    · exact atomicOp_half h hrl hb ho hown he hold hi2 _ f hov4 hpre rfl
  exact ⟨op _ 2 .swap (fun _ b => b) (fun _ _ => rfl) fun _ => rfl, op _ 3 .add (· + ·) (fun _ _ => rfl) fun _ => rfl,
    op _ 4 (.logic (· &&& ·)) (· &&& ·) (fun _ _ => rfl) fun _ => rfl, op _ 5 (.logic (· ||| ·)) (· ||| ·) (fun _ _ => rfl) fun _ => rfl,
    op _ 6 (.logic (· ^^^ ·)) (· ^^^ ·) (fun _ _ => rfl) fun _ => rfl,
    op _ 7 (.logic fun a b => if a.toInt ≤ b.toInt then b else a) (fun a b => if a.toInt ≤ b.toInt then b else a) (fun _ _ => rfl) fun _ => rfl,
    op _ 8 (.logic fun a b => if a.toInt ≤ b.toInt then a else b) (fun a b => if a.toInt ≤ b.toInt then a else b) (fun _ _ => rfl) fun _ => rfl,
    op _ 9 (.logic fun a b => if a.toNat ≤ b.toNat then b else a) (fun a b => if a.toNat ≤ b.toNat then b else a) (fun _ _ => rfl) fun _ => rfl,
    op _ 10 (.logic fun a b => if a.toNat ≤ b.toNat then a else b) (fun a b => if a.toNat ≤ b.toNat then a else b) (fun _ _ => rfl) fun _ => rfl⟩

end Sys2Proof.Machine
end

section
/-! PROOFS. Branches, jumps and fences complete, and a delay slot refuses transfers (R97, R100–R102, R111, R114, R118, R148). -/

namespace Sys2Proof.Machine

/-! ### Where a transfer leaves the thread (R100) -/

section
variable (s : State) (t uops : Nat) (breaks : Bool)

/-- A taken transfer stands in its delay slot with the target held. -/
theorem thr_xfer_taken (g : Word) (annul : Bool) : thr (applyAct t uops breaks (.xfer s (some g) annul)) t =
    { thr (commitCount s t uops breaks) t with pc := (thr s t).pc + 4, slot := .taken g, wait := none } := by
  have hpc : (thr (commitCount s t uops breaks) t).pc = (thr s t).pc := by rw [thr_commitCount]
  simp only [applyAct, thr_updThr_same, hpc]

/-- One not taken stands in a slot that falls through. -/
theorem thr_xfer_notTaken : thr (applyAct t uops breaks (.xfer s none false)) t =
    { thr (commitCount s t uops breaks) t with pc := (thr s t).pc + 4, slot := .notTaken, wait := none } := by
  have hpc : (thr (commitCount s t uops breaks) t).pc = (thr s t).pc := by rw [thr_commitCount]
  simp only [applyAct, Bool.false_eq_true, if_false, thr_updThr_same, hpc]

/-- One not taken that annuls its slot passes it over. -/
theorem thr_xfer_annulled : thr (applyAct t uops breaks (.xfer s none true)) t =
    { thr (commitCount s t uops breaks) t with pc := (thr s t).pc + 8, slot := .none, wait := none } := by
  have hpc : (thr (commitCount s t uops breaks) t).pc = (thr s t).pc := by rw [thr_commitCount]
  simp only [applyAct, if_true, thr_updThr_same, hpc]

end

/-! ### Branches and jumps -/

/-- A branch on sound operands goes where its comparison says. -/
theorem branch_done {s s' : State} {t : BitVec 10} {ga gb : BitVec 6} (h : Ready s t.toNat s') (hs : (thr s t.toNat).slot = .none)
    (ha : SoundReg s' t.toNat ga) (hb : SoundReg s' t.toNat gb) (hi : injArmed s' t.toNat 2 = false) (op : Nat) {f : Word → Word → Bool}
    {taken : Bool} (hf : f (rg s' t.toNat ga).val (rg s' t.toNat gb).val = taken) (annul : Bool) (disp : BitVec 13) :
    branch op f t ga gb annul disp s = .next (applyAct t.toNat 1 false (.xfer
      (xferCommit s' t.toNat (thr s' t.toNat).pc .cond ((thr s' t.toNat).pc + (sx disp <<< 2)) taken)
      (if taken then some ((thr s' t.toNat).pc + (sx disp <<< 2)) else none) annul)) := by
  refine h.outsideSlot hs ?_
  simp only [firstPoisoned_sound (sources_sound₂ (i := 0) (j := 1) ha hb), (sound_not_bad ha).2, (sound_not_bad hb).2, shadowOk_unarmed hi, hf]
  rfl

/-- Settles O17: where a transfer leaves the thread, and each branch by its comparison. -/
theorem branchCompletes : Obligations.BranchCompletes := by
  constructor
  · intro s t target annul x y
    refine ⟨?_, ?_, ?_, ?_⟩
    · exact congrArg Thread.pc (thr_xfer_taken s t 1 false target annul)
    · exact congrArg Thread.slot (thr_xfer_taken s t 1 false target annul)
    · rintro rfl
      exact ⟨congrArg Thread.pc (thr_xfer_notTaken s t 1 false), congrArg Thread.slot (thr_xfer_notTaken s t 1 false)⟩
    · rintro rfl
      exact ⟨congrArg Thread.pc (thr_xfer_annulled s t 1 false), congrArg Thread.slot (thr_xfer_annulled s t 1 false)⟩
  · intro s s' t ga gb annul disp h hs ha hb hi a b pc target claim
    have run (op : Nat) (f : Word → Word → Bool) {i : Instr} {taken : Bool} (he : exec i s = branch op f t ga gb annul disp s)
        (hf : f a b = taken) : claim i taken := he.trans (branch_done h hs ha hb hi op hf annul disp)
    have hne : (a != b) = decide (a ≠ b) := by
      rw [bne, decide_not]
      rfl
    exact ⟨run 0x20 (fun x y => x == y) (rfl : execBeq t ga gb annul disp s = _) rfl,
      run 0x21 (fun x y => x != y) (rfl : execBne t ga gb annul disp s = _) hne,
      run 0x22 (fun x y => decide (x.toInt < y.toInt)) (rfl : execBlt t ga gb annul disp s = _) rfl,
      run 0x23 (fun x y => decide (y.toInt ≤ x.toInt)) (rfl : execBge t ga gb annul disp s = _) rfl,
      run 0x24 (fun x y => decide (x.toNat < y.toNat)) (rfl : execBltu t ga gb annul disp s = _) rfl,
      run 0x25 (fun x y => decide (y.toNat ≤ x.toNat)) (rfl : execBgeu t ga gb annul disp s = _) rfl⟩

/-- Settles O18: each of them is an instruction that must not stand in a delay slot. -/
theorem delaySlotRefusesTransfers : Obligations.DelaySlotRefusesTransfers := by
  intro s s' t gd ga gb annul disp far imm h hs
  have refused {i : Instr} {w : IWord} {uops : Nat} {breaks : Bool} {body : State → Act}
      (he : exec i s = .next (runInstr s t.toNat w true uops breaks body)) : ∃ v, exec i s = .next (trapEnter s' t.toNat 0x08 false v) :=
    ⟨iwVal w, he.trans (congrArg Host.Outcome.next (runInstr_slot h hs w uops breaks body))⟩
  simp only [List.forall_mem_cons]
  exact ⟨refused rfl, refused rfl, refused rfl, refused rfl, refused rfl, refused rfl, refused rfl, refused rfl, refused rfl, refused rfl,
    refused rfl, refused rfl, refused rfl, refused rfl, refused rfl, refused rfl, fun _ h => absurd h List.not_mem_nil⟩

/-- Settles O19: J and JLNK transfer; JIND does where its target is a multiple of 4. -/
theorem jumpCompletes : Obligations.JumpCompletes := by
  intro s s' t gd ga disp imm h hs pc target ind
  refine ⟨h.outsideSlot hs rfl, h.outsideSlot hs rfl, fun ha hal =>
    ⟨if gd = 63 then .icall else if gd = 0 && ga = 63 then .ret else .indirect, h.outsideSlot hs ?_⟩⟩
  have hal' : ¬ ((rg s' t.toNat ga).val + sx imm).toNat % 4 ≠ 0 := not_not_intro hal
  simp only [(sound_not_bad ha).1, (sound_not_bad ha).2, if_neg hal']
  rfl

/-! ### Fences (R111, R114, R118) -/

/-- An instruction of the thread runs its body on `s'`. -/
def RunsOn (s : State) (t : Nat) (s' : State) : Prop :=
  ∀ (w : IWord) (uops : Nat) (breaks : Bool) (body : State → Act), runInstr s t w false uops breaks body = applyAct t uops breaks (body s')

/-- A thread that begins an instruction runs it on what the fetch leaves. -/
theorem Ready.runsOn {s s' : State} {t : Nat} (h : Ready s t s') : RunsOn s t s' :=
  fun w uops breaks body => runInstr_ready h w false uops breaks body nofun

section
variable {s s' : State} {t : BitVec 10} (h : RunsOn s t.toNat s')
include h

/-- The body completes. -/
theorem RunsOn.done {w : IWord} {uops : Nat} {breaks : Bool} {body : State → Act} {x : State} (hb : body s' = .done x) :
    (.next (runInstr s t.toNat w false uops breaks body) : Host.Outcome State Fault Refusal) = .next (finish x t.toNat uops breaks) := by
  rw [h w uops breaks body, hb, applyAct_done]

/-- FENCE with nothing to wait for. -/
theorem execFence_done {imm : BitVec 14} (him : imm.toNat < 256)
    (hw : imm.getLsbD 6 = false ∨ imm.toNat % 16 = 0 ∨ (thr s' t.toNat).stores = []) :
    execFence t 0 0 imm s = .next (finish s' t.toNat 1 false) := by
  have hok : ¬ (decide ((0 : BitVec 6) ≠ 0) || decide ((0 : BitVec 6) ≠ 0) || decide (imm.toNat ≥ 256)) = true := by
    simpa using him
  have hgo : ¬ (imm.getLsbD 6 && decide (imm.toNat % 16 ≠ 0) && !(thr s' t.toNat).stores.isEmpty) = true := by
    obtain h6 | h16 | hst := hw
    · rw [h6, Bool.false_and, Bool.false_and]
      nofun
    · simp [h16]
    · simp [hst]
  exact h.done ((if_neg hok).trans (if_neg hgo))

/-- SYNC.I with every store drained. -/
theorem execSyncI_done (hst : (thr s' t.toNat).stores = []) (gd ga gb : BitVec 6) :
    execSyncI t gd ga gb s = .next (finish (sideClear (loopEnd s' t.toNat) t.toNat) t.toNat 1 true) :=
  h.done (if_neg (by simp [hst]))

/-- XLSYNC at S or M with every store drained. -/
theorem execXlsync_done (hst : (thr s' t.toNat).stores = []) (hl : (thr s' t.toNat).level ≠ .U) {ga gb : BitVec 6}
    (ha : SoundReg s' t.toNat ga) (hb : SoundReg s' t.toNat gb) (gd : BitVec 6) :
    execXlsync t gd ga gb s = .next (finish (updThr (loopEnd s' t.toNat) t.toNat (fun x => { x with tlb := x.tlb.filter (fun e =>
      !((ga == 0 || (rg s' t.toNat ga).val.toNat / 2 ^ (12 + 9 * (e.level - 1)) == e.vpn) &&
        (gb == 0 || e.global || e.asid == fieldN (rg s' t.toNat gb).val 15 0))) })) t.toNat 1 true) := by
  refine h.done ((if_neg (by simpa using hl)).trans ?_)
  simp only [firstPoisoned_sound (sources_sound₂ (i := 0) (j := 1) ha hb), (sound_not_bad ha).2, (sound_not_bad hb).2, hst]
  rfl

end

/-- Settles O20: the instruction runs, begun now or after its wait; with stores to drain it waits. -/
theorem fencesComplete : Obligations.FencesComplete := by
  intro s s' t gd ga gb imm fenced synced translated waits
  have fence {x : State} (h : RunsOn s t.toNat x) : fenced x := fun him hw => execFence_done h him hw
  have sync {x : State} (h : RunsOn s t.toNat x) : synced x := fun hst => execSyncI_done h hst gd ga gb
  have xlsync {x : State} (h : RunsOn s t.toNat x) : translated x := fun hst hl ha hb => execXlsync_done h hst hl ha hb gd
  refine ⟨fun h => ⟨fence h.runsOn, sync h.runsOn, xlsync h.runsOn, fun hbad => h.trap (if_pos ?_), fun hst => ⟨h.wait (if_pos ?_),
    fun him h6 h16 => h.wait ((if_neg ?_).trans (if_pos ?_))⟩⟩, fun hrun hd hw => ?_⟩
  · have := hbad
    simp
    tauto
  · simpa using hst
  · simpa using him
  · simp [h6, h16, hst]
  · have h : RunsOn s t.toNat (updThr s t.toNat (fun x => { x with wait := none })) :=
      fun w uops breaks body => runInstr_again hrun hd hw w false uops breaks body
    exact ⟨fence h, sync h, xlsync h⟩

end Sys2Proof.Machine
end

section
/-! PROOFS. Taking a trap saves the thread in the bank of its target, and a return restores it (R104, R131, R133). -/

namespace Sys2Proof.Machine

/-! ### Bits of STATUS -/

/-- A bit of a word with a bit replaced. -/
theorem bit_setBit (w : Word) {i : Nat} (hi : i < 64) (b : Bool) (j : Nat) : bit (setBit w i b) j = if j = i then b else bit w j := by
  simp only [bit, setBit, getLsbD_setField w hi]
  by_cases h : j = i
  · subst h
    cases b <;> simp
  · rw [if_neg (by omega), if_neg h]

/-- A bit outside a replaced field. -/
theorem bit_setField_other (w : Word) {hi lo : Nat} (hhi : hi < 64) (v : Nat) {j : Nat} (hj : j < lo ∨ hi < j) :
    bit (setField w hi lo v) j = bit w j := by
  simp only [bit, getLsbD_setField w hhi]
  exact if_neg (by omega)

/-- A field that a replaced bit is no part of. -/
theorem fieldN_setBit_other (w : Word) {i hi lo : Nat} (hi' : i < 64) (hd : hi < i ∨ i < lo) (b : Bool) :
    fieldN (setBit w i b) hi lo = fieldN w hi lo := fieldN_setField_other w hi' hd _

/-- A bit replaced by itself. -/
theorem setBit_of_bit {w : Word} {i : Nat} (hi : i < 64) {b : Bool} (h : bit w i = b) : setBit w i b = w := by
  refine BitVec.eq_of_getLsbD_eq fun j _ => ?_
  change bit (setBit w i b) j = bit w j
  rw [bit_setBit w hi]
  split
  · next hj => rw [hj, h]
  · rfl

/-- PPL names the level whose number it holds (Table 4-3). -/
theorem levelOf_levelNo (l : Level) : levelOf (levelNo l) = l := by
  cases l <;> rfl

/-- STATUS as a trap entry from `lvl` leaves it: PDS, PIE and PPL saved, IE clear, TRAP set. -/
def enterStatus (st : Word) (pds : Bool) (lvl : Level) : Word :=
  setBit (setBit (setField (setBit (setBit st 4 pds) 1 (bit st 0)) 3 2 (levelNo lvl)) 0 false) 7 true

/-- STATUS as a return leaves it: IE restored, PIE set, TRAP and PDS clear. -/
def returnStatus (st : Word) : Word := setBit (setBit (setBit (setBit st 0 (bit st 1)) 1 true) 7 false) 4 false

section
variable (st : Word) (pds : Bool) (lvl : Level)

theorem enterStatus_ie : bit (enterStatus st pds lvl) 0 = false := by
  simp [enterStatus, bit_setBit]

theorem enterStatus_pie : bit (enterStatus st pds lvl) 1 = bit st 0 := by
  simp [enterStatus, bit_setBit, bit_setField_other]

theorem enterStatus_pds : bit (enterStatus st pds lvl) 4 = pds := by
  simp [enterStatus, bit_setBit, bit_setField_other]

theorem enterStatus_trap : bit (enterStatus st pds lvl) 7 = true := by
  simp [enterStatus, bit_setBit]

theorem enterStatus_ppl : fieldN (enterStatus st pds lvl) 3 2 = levelNo lvl := by
  rw [enterStatus, fieldN_setBit_other _ (by omega) (by omega), fieldN_setBit_other _ (by omega) (by omega), fieldN_setField_same _ (by omega)]
  cases lvl <;> rfl

theorem returnStatus_ie : bit (returnStatus st) 0 = bit st 1 := by
  simp [returnStatus, bit_setBit]

theorem returnStatus_trap : bit (returnStatus st) 7 = false := by
  simp [returnStatus, bit_setBit]

end

/-! ### Banks -/

section
variable (x : Thread) (b : BankId) (k : CrBank)

@[simp] theorem bankOf_setBank : bankOf (setBank x b k) b = k := by cases b <;> rfl
@[simp] theorem setBank_pc : (setBank x b k).pc = x.pc := by cases b <;> rfl
@[simp] theorem setBank_g : (setBank x b k).g = x.g := by cases b <;> rfl
@[simp] theorem setBank_v : (setBank x b k).v = x.v := by cases b <;> rfl
@[simp] theorem setBank_level : (setBank x b k).level = x.level := by cases b <;> rfl
@[simp] theorem setBank_run : (setBank x b k).run = x.run := by cases b <;> rfl
@[simp] theorem setBank_slot : (setBank x b k).slot = x.slot := by cases b <;> rfl
@[simp] theorem setBank_resv : (setBank x b k).resv = x.resv := by cases b <;> rfl

end

/-! ### Prediction at a change of level (R174, R178, R179) -/

/-- The state differs in registers, in the prediction of cores and in the count of free values alone. -/
def PredictionOnly (s s2 : State) : Prop := ∃ r c n, s2 = { s with regs := r, cores := c, free := n }

/-- Nothing changed. -/
theorem PredictionOnly.refl (s : State) : PredictionOnly s s := ⟨s.regs, s.cores, s.free, rfl⟩

/-- One change after another. -/
theorem PredictionOnly.trans {s s2 s3 : State} (h : PredictionOnly s s2) (h' : PredictionOnly s2 s3) : PredictionOnly s s3 := by
  obtain ⟨r, c, n, rfl⟩ := h
  obtain ⟨r', c', n', rfl⟩ := h'
  exact ⟨r', c', n', rfl⟩

/-- The threads and the memory stand. -/
theorem PredictionOnly.keeps {s s2 : State} (h : PredictionOnly s s2) :
    s2.threads = s.threads ∧ s2.mem = s.mem ∧ s2.memTally = s.memTally := by
  obtain ⟨r, c, n, rfl⟩ := h
  exact ⟨rfl, rfl, rfl⟩

/-- The flush of an ordinary thread. -/
theorem flushOrdinary_predictionOnly (s : State) (t : Nat) : PredictionOnly s (flushOrdinary s t) := by
  unfold flushOrdinary
  obtain ⟨r, hr⟩ := pmcCount_regs _ t 0x10 1
  exact ⟨r, _, s.free, hr⟩

/-- The choice of a key. -/
theorem rekey_predictionOnly (s : State) (t : Nat) : PredictionOnly s (rekey s t) := by
  unfold rekey
  dsimp only
  split
  · exact ⟨s.regs, _, s.free, rfl⟩
  · exact ⟨s.regs, _, s.free + 1, rfl⟩

/-- A change of the thread under a flush: the flushes before and after it touch prediction alone. -/
theorem predFlush_eq (s : State) (t : Nat) (f : State → State) :
    ∃ y, PredictionOnly s y ∧ PredictionOnly (updThr (f y) t (fun x => { x with rstack := [] })) (predFlush s t f) := by
  refine ⟨if isKeyed s t then s else flushOrdinary s t, ?_, ?_⟩
  · split
    · exact .refl s
    · exact flushOrdinary_predictionOnly s t
  · unfold predFlush
    dsimp only
    generalize (if isKeyed s t then s else flushOrdinary s t) = y
    split
    · exact rekey_predictionOnly _ t
    · split
      · exact flushOrdinary_predictionOnly _ t
      · exact .refl _

/-- A thread after its path has ended: no loop, and the return stack that is left (R174, R178). -/
def pathEnded (x : Thread) (stack : List Word) : Thread :=
  { x with rstack := stack, loop := false, loopCand := none, loopUops := 0, loopBad := false, loopPath := [], loopDirs := [] }

/-- The end of streaming. -/
theorem thr_loopEnd (s : State) (t : Nat) : thr (loopEnd s t) t = pathEnded (thr s t) (thr s t).rstack := thr_updThr_same _ _ _

/-- What a trap entry and a return do last: the thread is replaced, its prediction flushed where its level changes, and its path ends. -/
def replaceThr (s : State) (t : Nat) (changed : Bool) (x : Thread) : State :=
  if changed then loopEnd (predFlush s t (fun s => setThr s t x)) t else loopEnd (setThr s t x) t

/-- The thread is then the one put in, with its path ended. -/
theorem thr_replaceThr (s : State) (t : Nat) (changed : Bool) (x : Thread) : ∃ stack, thr (replaceThr s t changed x) t = pathEnded x stack := by
  cases changed with
  | false => exact ⟨x.rstack, (thr_loopEnd _ t).trans (by rw [thr_setThr_same])⟩
  | true =>
    obtain ⟨y, -, hy⟩ := predFlush_eq s t (fun s => setThr s t x)
    have hthr : thr (predFlush s t (fun s => setThr s t x)) t = { x with rstack := [] } := by
      rw [thr_congr hy.keeps.1, thr_updThr_same, thr_setThr_same]
    exact ⟨[], (thr_loopEnd _ t).trans (by rw [hthr]; rfl)⟩

/-- All of memory stands. -/
theorem replaceThr_mem (s : State) (t : Nat) (changed : Bool) (x : Thread) :
    (replaceThr s t changed x).mem = s.mem ∧ (replaceThr s t changed x).memTally = s.memTally := by
  have ends (s2 : State) : (loopEnd s2 t).mem = s2.mem ∧ (loopEnd s2 t).memTally = s2.memTally := ⟨rfl, rfl⟩
  obtain ⟨y, hs, hy⟩ := predFlush_eq s t (fun s => setThr s t x)
  obtain ⟨-, hmem, htally⟩ := hs.keeps
  obtain ⟨-, hmem', htally'⟩ := hy.keeps
  cases changed with
  | false => exact ends _
  | true => exact ⟨(ends _).1.trans (hmem'.trans hmem), (ends _).2.trans (htally'.trans htally)⟩

/-! ### Entry and return (R133) -/

/-- The delay slot as an entry saves it: PDS and ETGT. -/
def savedSlot (x : Thread) (k : CrBank) : Bool × Word :=
  match x.slot with
  | .taken g => (true, g)
  | _ => (false, k.etgt)

/-- The bank after an exception is taken through it. -/
def enteredBank (x : Thread) (k : CrBank) (code : Nat) (tval : Word) : CrBank :=
  { k with epc := x.pc, etgt := (savedSlot x k).2, cause := setBit (w64 code) 63 false, tval := tval,
           status := enterStatus k.status (savedSlot x k).1 x.level }

/-- The thread after an exception is taken. -/
def enteredThr (x : Thread) (b : BankId) (code : Nat) (tval : Word) : Thread :=
  setBank { x with pc := (bankOf x b).tvec &&& maskBits 63 8, slot := .none, level := b.level, run := .run, wait := none, owed := [],
                   resv := none, runAhead := false } b (enteredBank x (bankOf x b) code tval)

/-- The entry of an exception, its bank decided. -/
theorem enterBank_exception (s : State) (t : Nat) (b : BankId) (code : Nat) (tval : Word) :
    enterBank s t b code false tval = replaceThr s t ((thr s t).level != b.level) (enteredThr (thr s t) b code tval) := by
  simp only [enterBank, Bool.and_false, Bool.false_eq_true, if_false]
  rfl

/-- The bank and the thread after a return. -/
def returnedThr (x : Thread) (b : BankId) : Thread :=
  setBank { x with
    level := if b == .sSecure then Level.S else levelOf (fieldN (bankOf x b).status 3 2), pc := (bankOf x b).epc,
    slot := if bit (bankOf x b).status 4 then .taken (bankOf x b).etgt else .none } b
    { bankOf x b with status := returnStatus (bankOf x b).status }

/-- A return. -/
theorem trapReturn_eq (s : State) (t : Nat) (b : BankId) : trapReturn s t b = replaceThr s t
    ((if b == .sSecure then Level.S else levelOf (fieldN (bankOf (thr s t) b).status 3 2)) != (thr s t).level) (returnedThr (thr s t) b) := rfl

/-- The thread after a return. -/
theorem thr_trapReturn (s : State) (t : Nat) (b : BankId) : ∃ stack, thr (trapReturn s t b) t = pathEnded (returnedThr (thr s t) b) stack := by
  rw [trapReturn_eq]
  exact thr_replaceThr _ _ _ _

/-- What a tally exception counts and records leaves the threads and the memory (R145). -/
theorem tallyRecord_keeps (s : State) (t code : Nat) : (tallyRecord s t code).threads = s.threads ∧ (tallyRecord s t code).mem = s.mem ∧
    (tallyRecord s t code).memTally = s.memTally := by
  have record (y : State) (c sev cls src p0 p1 p2 : Nat) : (alm y c sev cls src p0 p1 p2).threads = y.threads ∧
      (alm y c sev cls src p0 p1 p2).mem = y.mem ∧ (alm y c sev cls src p0 p1 p2).memTally = y.memTally := by
    unfold alm
    split
    · exact ⟨rfl, rfl, rfl⟩
    · obtain ⟨f, a, h | h⟩ := recordAcceptOp_cases y c sev cls src p0 p1 p2 false <;> rw [h] <;> exact ⟨rfl, rfl, rfl⟩
  unfold tallyRecord
  dsimp only
  split
  · exact record _ _ _ _ _ _ _ _
  · split
    · exact record _ _ _ _ _ _ _ _
    · split <;> exact ⟨rfl, rfl, rfl⟩

section
variable {s : State} {t code : Nat} (hw : (thr s t).world = .normal)
include hw

/-- In the normal world the target is the S bank of that world or the M bank. -/
theorem trapTarget_normal : trapTarget (thr s t) code false .M = .sNormal ∨ trapTarget (thr s t) code false .M = .m := by
  simp only [trapTarget, hw, Bool.false_and, Bool.false_eq_true, if_false]
  rw [if_neg (by decide)]
  split
  · exact .inl rfl
  · split
    · exact .inl rfl
    · exact .inr rfl

variable (htrap : bit (bankOf (thr s t) (trapTarget (thr s t) code false .M)).status 7 = false)
  (hvec : (bankOf (thr s t) (trapTarget (thr s t) code false .M)).tvec &&& maskBits 63 8 ≠ 0) (tval : Word)
include htrap hvec

/-- An exception with TRAP = 0 and a handler enters the bank of its target. -/
theorem trapEnter_normal : trapEnter s t code false tval = replaceThr (tallyRecord s t code) t
    ((thr s t).level != (trapTarget (thr s t) code false .M).level) (enteredThr (thr s t) (trapTarget (thr s t) code false .M) code tval) := by
  have hthr : thr (tallyRecord s t code) t = thr s t := thr_congr (tallyRecord_keeps s t code).1 t
  have hsec : ¬ ((thr s t).world == .secure) = true := by rw [hw]; decide
  have hdouble : ¬ (!false && trapTarget (thr s t) code false .M == .sNormal && bit (thr s t).sN.status 7) = true := by
    obtain h | h := trapTarget_normal (code := code) hw
    · rw [h] at htrap ⊢
      rw [show (thr s t).sN = bankOf (thr s t) .sNormal from rfl, htrap]
      nofun
    · rw [h]
      nofun
  have hfault : ¬ (!false && trapTarget (thr s t) code false .M == .m && bit (thr s t).m.status 7) = true := by
    obtain h | h := trapTarget_normal (code := code) hw
    · rw [h]
      nofun
    · rw [h] at htrap ⊢
      rw [show (thr s t).m = bankOf (thr s t) .m from rfl, htrap]
      nofun
  simp only [trapEnter, Bool.false_eq_true, if_false, hthr, if_neg hsec, trapNormal, if_neg hdouble, if_neg hfault, if_neg hvec,
    enterBank_exception]

/-- The thread after the exception. -/
theorem thr_trapEnter_normal : ∃ stack, thr (trapEnter s t code false tval) t =
    pathEnded (enteredThr (thr s t) (trapTarget (thr s t) code false .M) code tval) stack := by
  rw [trapEnter_normal hw htrap hvec]
  exact thr_replaceThr _ _ _ _

end

/-- Ending a thread's path leaves its banks. -/
@[simp] theorem bankOf_pathEnded (x : Thread) (stack : List Word) (b : BankId) : bankOf (pathEnded x stack) b = bankOf x b := by
  cases b <;> rfl

/-- Settles O49: the entry puts in the thread that `enteredThr` gives, and the return the one that `returnedThr` gives. -/
theorem trapEntryAndReturn : Obligations.TrapEntryAndReturn := by
  intro s t code tval x b k hcode hw htrap hvec s' y k'
  obtain ⟨stack, hy⟩ : ∃ stack, y = pathEnded (enteredThr x b code tval) stack := thr_trapEnter_normal hw htrap hvec tval
  have hk : k' = enteredBank x k code tval := by
    simp only [k', hy, bankOf_pathEnded, enteredThr, bankOf_setBank, k]
  have hb : (b == .sSecure) = false := by
    obtain h | h : b = .sNormal ∨ b = .m := trapTarget_normal hw <;> rw [h] <;> rfl
  constructor
  · have hcause : setBit (w64 code) 63 false = BitVec.ofNat 64 code := by
      refine setBit_of_bit (by omega) ?_
      simp only [bit, w64, BitVec.getLsbD_ofNat, Nat.testBit_lt_two_pow (show code < 2 ^ 63 by omega), Bool.and_false]
    have hmem := replaceThr_mem (tallyRecord s t code) t (x.level != b.level) (enteredThr x b code tval)
    have hs' : s' = replaceThr (tallyRecord s t code) t (x.level != b.level) (enteredThr x b code tval) := trapEnter_normal hw htrap hvec tval
    rw [hk]
    refine ⟨?_, ?_, ?_, ?_, ?_, ?_, ?_, rfl, hcause, rfl, enterStatus_ie _ _ _, enterStatus_pie _ _ _, enterStatus_ppl _ _ _,
      enterStatus_trap _ _ _, fun g hg => ?_, fun hg => ?_, ?_, ?_⟩
    · simp [hy, pathEnded, enteredThr, k]
    · simp [hy, pathEnded, enteredThr]
    · simp [hy, pathEnded, enteredThr]
    · simp [hy, pathEnded, enteredThr]
    · simp [hy, pathEnded, enteredThr]
    · simp [hy, pathEnded, enteredThr]
    · simp [hy, pathEnded, enteredThr]
    · have hslot : savedSlot x k = (true, g) := by simp only [savedSlot, hg]
      exact ⟨(enterStatus_pds _ _ _).trans (by rw [hslot]), by simp only [enteredBank, hslot]⟩
    · refine (enterStatus_pds _ _ _).trans ?_
      unfold savedSlot
      split
      · next g h => exact absurd h (hg g)
      · rfl
    · rw [hs', hmem.1, (tallyRecord_keeps s t code).2.1]
    · rw [hs', hmem.2, (tallyRecord_keeps s t code).2.2]
  · intro z
    obtain ⟨stack', hz⟩ : ∃ stack', z = pathEnded (returnedThr y b) stack' := thr_trapReturn s' t b
    have hky : bankOf y b = enteredBank x k code tval := hk
    refine ⟨?_, ?_, ?_, ?_⟩
    · simp [hz, pathEnded, returnedThr, hky, enteredBank]
    · simp only [hz, pathEnded, returnedThr, setBank_level, hb, hky, enteredBank, enterStatus_ppl, levelOf_levelNo]
      rfl
    · simp only [hz, bankOf_pathEnded, returnedThr, bankOf_setBank, returnStatus_ie, hky, enteredBank, enterStatus_pie]
    · simp only [hz, bankOf_pathEnded, returnedThr, bankOf_setBank, returnStatus_trap]

end Sys2Proof.Machine
end

section
/-! PROOFS. The control-register instructions, WFI, SYSCALL and BREAK complete (R94, R128, R133); a world call may not, where the clearing
of the side buffer resets the module (R126, R211). -/

namespace Sys2Proof.Machine

/-! ### Control registers (R94, R128) -/

/-- Secure registers from the secure world, and others, are within reach of the world. -/
theorem worldReaches {sec : Bool} {x : World} (h : sec = true → x = .secure) : (sec && x == .normal) = false := by
  cases sec with
  | false => rfl
  | true => rw [h rfl]; rfl

section
variable {s s' : State} {t : BitVec 10} {cr : BitVec 12} {lvl : Level} {sec ro : Bool} (h : Ready s t.toNat s')
  (hk : crKind cr.toNat = some (lvl, sec, ro)) (hl : levelNo lvl ≤ levelNo (thr s' t.toNat).level)
  (hsec : sec = true → (thr s' t.toNat).world = .secure) (gd ga : BitVec 6)
include h hk hl hsec

/-- A control register within reach is read. -/
theorem crOp_read (sel : Nat) : crOp sel none t gd ga cr s =
    .next (finish (wg s' t.toNat gd (gen (crRead s' t.toNat cr.toNat))) t.toNat 1 false) := by
  have hlevel : ¬ levelNo (thr s' t.toNat).level < levelNo lvl := by omega
  refine h.done ?_
  simp only [hk, hlevel, worldReaches hsec]
  simp

/-- A control register within reach that is not read-only is changed by a sound operand. -/
theorem crOp_write (hro : ro = false) (ha : SoundReg s' t.toNat ga) (sel : Nat) (f : Word → Word → Word) : crOp sel (some f) t gd ga cr s =
    .next (finish (wg (crWrite s' t.toNat cr.toNat (f (crRead s' t.toNat cr.toNat) (rg s' t.toNat ga).val)) t.toNat gd
      (gen (crRead s' t.toNat cr.toNat))) t.toNat 1 true) := by
  have hlevel : ¬ levelNo (thr s' t.toNat).level < levelNo lvl := by omega
  refine h.done ?_
  simp only [hk, hlevel, worldReaches hsec, hro, (sound_not_bad ha).1, (sound_not_bad ha).2]
  simp

end

/-! ### WFI, SYSCALL and BREAK (R128) -/

/-- WFI that goes on leaves the thread running at the next instruction. -/
theorem thr_wfiWake {s : State} {t : Nat} (h : (thr s t).run = .wfi) :
    (thr (wfiWake s t) t).run = .run ∧ (thr (wfiWake s t) t).pc = (thr s t).pc + 4 := by
  have hw : wfiWake s t = commitCount (updThr s t (fun x => { x with run := .run, pc := x.pc + 4, slot := .none })) t 1 true :=
    if_pos (by rw [h]; rfl)
  rw [hw, thr_commitCount, thr_updThr_same]
  exact ⟨rfl, rfl⟩

/-- An instruction that ends in a cause saves its own address in the bank of its target (R133). -/
theorem trapped_epc {s : State} {t code : Nat} (tval : Word) (hw : (thr s t).world = .normal) {b : BankId}
    (hb : b = trapTarget (thr s t) code false .M) (htrap : bit (bankOf (thr s t) b).status 7 = false)
    (hvec : (bankOf (thr s t) b).tvec &&& maskBits 63 8 ≠ 0) : (bankOf (thr (trapped s t code tval) t) b).epc = (thr s t).pc := by
  have hthr : thr (updThr s t (fun x => { x with wait := none, owed := [] })) t = { thr s t with wait := none, owed := [] } :=
    thr_updThr_same _ _ _
  have htarget : trapTarget { thr s t with wait := none, owed := [] } code false .M = b := hb.symm
  have hbank : bankOf { thr s t with wait := none, owed := [] } b = bankOf (thr s t) b := by cases b <;> rfl
  obtain ⟨stack, hx⟩ := thr_trapEnter_normal (s := updThr s t (fun x => { x with wait := none, owed := [] })) (t := t) (code := code)
    (by rw [hthr]; exact hw) (by rw [hthr, htarget, hbank]; exact htrap) (by rw [hthr, htarget, hbank]; exact hvec) tval
  rw [trapped, hx, hthr, htarget, bankOf_pathEnded, enteredThr, bankOf_setBank]
  rfl

/-- Settles O21: each control-register instruction is a read or a change; WFI goes on or parks; SYSCALL and BREAK trap. -/
theorem controlRegistersComplete : Obligations.ControlRegistersComplete := by
  intro s s' t gd ga cr lvl sec ro h hk hl hsec old a done
  refine ⟨crOp_read h hk hl hsec gd ga 0, fun hro ha => ⟨?crwr, ?crset, ?crclr⟩, fun hs => ?system⟩
  case crwr => exact crOp_write h hk hl hsec gd ga hro ha 1 (fun _ a => a)
  case crset => exact crOp_write h hk hl hsec gd ga hro ha 2 (fun o a => o ||| a)
  case crclr => exact crOp_write h hk hl hsec gd ga hro ha 3 (fun o a => o &&& ~~~ a)
  case system =>
    intro x saved
    have hlevel (hu : x.level ≠ .U) : ¬ (decide ((0 : BitVec 6) ≠ 0) || decide ((0 : BitVec 6) ≠ 0) || (thr s' t.toNat).level == .U) = true := by
      simpa using hu
    have epc (code : Nat) (tval : Word) : saved code tval := fun hw b hb => trapped_epc tval hw hb
    refine ⟨fun hu hp => ?_, fun hu hp => ⟨?_, fun y hy => ?_⟩, ?_, epc _ _, ?_, epc _ _⟩
    · refine (h.outsideSlot hs (a := .done s') ((if_neg (hlevel hu)).trans (if_pos hp))).trans ?_
      rw [applyAct_done]
    · refine (h.outsideSlot hs (a := .park s' .wfi none) ((if_neg (hlevel hu)).trans (if_neg (Bool.eq_false_iff.mp hp)))).trans ?_
      rw [applyAct_park]
    · have hthr := thr_updThr_same s' t.toNat (fun x => { x with run := .wfi, stoodAt := s'.epoch, wait := none })
      obtain ⟨hrun, hpc⟩ := thr_wfiWake (t := t.toNat) (congrArg Thread.run hthr)
      rw [hy]
      exact ⟨hrun, hpc.trans (congrArg (fun x => x.pc + 4) hthr)⟩
    · refine (h.outsideSlot hs (a := .trap s' 0x0D 0) rfl).trans ?_
      rw [applyAct_trap]
    · refine (h.outsideSlot hs (a := .trap s' 0x0E (thr s' t.toNat).pc) rfl).trans ?_
      rw [applyAct_trap]

/-! ### World calls (R126) -/

/-- A thread at a registered entry whose side buffer holds a line that the L2 holds for it alone, and both of whose tag copies are bad: the
eviction that goes with the clearing of the side buffer finds the line lost, and the module resets (R127, R202, R211). -/
def lostSideLine : State :=
  setR {
    boot := { rails := true, step := 9 }
    rig := { parts := [(0, some { part := { quads := 1, secureEntry := true }, ranges := [(0x100000000, 0x1000000)] })] }
    partRun := [(0, { st := .running })]
    threads := [(0, { pc := 0x100000000, run := .run, side := [{ line := 0x4000002, filled := true, stride := false }] })]
    cores := [(0, { l1i := [(0x4000000, some {})], l1iRepl := [(0, 11)] })]
    quads := [(0, { l2 := [(0x4000002, some (.E, { inArr := false, tagErr := 2 }))] })] } .BOWL_ENTRY 0x0001000000000401#64 0 3

/-- The world call resets the thread, which then stands in the normal world. -/
theorem enterSecure_lostSideLine : (thr (enterSecure (jumpCount lostSideLine 0) 0 3 0x400#64) 0).world = .normal := by
  decide +kernel

/-- Refutes O22: WCALL clears the side buffer, and where the L2 line that leaves with it has lost its tag the module resets, so the thread
does not stand in the secure world after it. -/
theorem not_systemInstructionsComplete : ¬ Obligations.SystemInstructionsComplete := by
  intro h
  have hready : Ready lostSideLine 0 lostSideLine := ⟨rfl, rfl, rfl, rfl, rfl⟩
  have htarget : wcallTarget lostSideLine 0 3 = some 0x400#64 := by decide +kernel
  obtain ⟨hcall, -⟩ := h lostSideLine lostSideLine 0 3 0x400#64 hready rfl
  obtain ⟨hentered, -⟩ := hcall (by decide) rfl
  obtain ⟨-, hworld, -⟩ := (hentered htarget).2 _ rfl
  exact absurd (hworld.symm.trans enterSecure_lostSideLine) (by decide)

end Sys2Proof.Machine
end

section
/-! PROOFS. WAITSLOT and GUARD.TIGHTEN, and the Point Store instructions with their responses (R119, R123, R124, R132, R354). -/

namespace Sys2Proof.Machine

/-! ### Waits (R123, R124) -/

/-- Settles O23: WAITSLOT takes the latch or parks, and GUARD.TIGHTEN sends its packet. -/
theorem waitsComplete : Obligations.WaitsComplete := by
  intro s s' t gd ga gb fn r h x o
  refine ⟨fun hw hrel => ?slot, fun hl hfn ha hb ho => ?guard⟩
  case slot =>
    have hlegal : ¬ (decide ((0 : BitVec 6) ≠ 0) || decide ((0 : BitVec 6) ≠ 0) || (thr s' t.toNat).world == .secure) = true := by
      rw [show (thr s' t.toNat).world = .normal from hw]
      decide
    have hslot : ¬ (!hasRelease s' t.toNat) = true := by simp [hrel]
    exact ⟨fun hlatch => h.done ((if_neg hlegal).trans ((if_neg hslot).trans (by rw [show (thr s' t.toNat).latch = some r from hlatch]))),
      fun hlatch => h.park ((if_neg hlegal).trans ((if_neg hslot).trans (by rw [show (thr s' t.toNat).latch = none from hlatch])))⟩
  case guard =>
    have hlegal : ¬ (decide (fn.toNat ≥ 4) || (thr s' t.toNat).level == .U) = true := by
      simpa using And.intro hfn hl
    have hrange : ¬ (rg s' t.toNat ga).val.toNat ≥ 2 ^ 15 := Nat.not_le.mpr ho
    refine ⟨_, _, _, rfl, rfl, h.wait ((if_neg hlegal).trans ?_)⟩
    simp only [firstPoisoned_sound (sources_sound₂ (i := 0) (j := 1) ha hb), if_neg hrange, (sound_not_bad ha).2, (sound_not_bad hb).2]
    rfl

/-! ### Requests to the Point Store (R119) -/

section
variable {s : State} {t : Nat} {k : PsKind} {ga gd : BitVec 6} {illegal : Bool} {srcs : List (Nat × TWord)} {all : List TWord} {m : PsMsg}
  {stored : Option TWord} (w : IWord)

/-- A reserved form is refused before anything else (R132). -/
theorem pointOp_reserved (hill : illegal = true) : pointOp w t k ga gd illegal srcs all m stored s = .trap s 0x08 (iwVal w) := if_pos hill

variable (hill : illegal = false) (hsrcs : firstPoisoned srcs = none)
include hill hsrcs

/-- A point that does not exist, or that is out of reach (R354). -/
theorem pointOp_outOfReach (hout : 2 ^ 24 ≤ (rg s t ga).val.toNat ∨ ptCount s ≤ (rg s t ga).val.toNat ∨
      ptRight s t k (rg s t ga).val.toNat = false) :
    pointOp w t k ga gd illegal srcs all m stored s = .trap s 0x0F (w64 ((rg s t ga).val.toNat % 2 ^ 24)) := by
  have hc : (decide ((rg s t ga).val.toNat ≥ 2 ^ 24) || decide ((rg s t ga).val.toNat ≥ ptCount s) ||
      !ptRight s t k (rg s t ga).val.toNat) = true := by
    simpa [or_assoc] using hout
  refine (if_neg (by simp [hill])).trans ?_
  rw [hsrcs]
  exact if_pos hc

/-- A point within reach: the request goes to the engine of its home, and the instruction waits for the response. -/
theorem pointOp_request (h24 : (rg s t ga).val.toNat < 2 ^ 24) (hcount : (rg s t ga).val.toNat < ptCount s)
    (hright : ptRight s t k (rg s t ga).val.toNat = true) (hall : all.any isFailed = false)
    (hst : ∀ v, stored = some v → isFailed v = false ∧ injArmed s t 1 = false) :
    ∃ p s1, mkPkt s (threadUnit s t) (ptHome (rg s t ga).val.toNat) 6 0x19 false 1 = (p, s1) ∧
      pointOp w t k ga gd illegal srcs all m stored s =
        .wait { s1 with psNet := s1.psNet ++ [{ m with thread := t, kind := k, point := (rg s t ga).val.toNat, iw := iwVal w, pkt := p }] }
          (.point gd.toNat m.mode1) := by
  have hc : ¬ (decide ((rg s t ga).val.toNat ≥ 2 ^ 24) || decide ((rg s t ga).val.toNat ≥ ptCount s) ||
      !ptRight s t k (rg s t ga).val.toNat) = true := by
    simpa [or_assoc] using ⟨h24, hcount, hright⟩
  refine ⟨_, _, rfl, ?_⟩
  refine (if_neg (by simp [hill])).trans ?_
  rw [hsrcs]
  refine (if_neg hc).trans ((if_neg (by simp [hall])).trans ?_)
  cases stored with
  | none => rfl
  | some v =>
    obtain ⟨hf, hi⟩ := hst v rfl
    simp only [residueOk_carried hi hf]
    rfl

end

/-! ### Responses of the Point Store -/

/-- A packet that leaves the mesh counts its flits alone. -/
theorem ejectPkt_regs (s : State) (p : Pkt) : ∃ r, ejectPkt s p = { s with regs := r } := by
  have flits (y : State) (l : List Nat) : ∃ r, foldS (fun s _ => updR s .MESH_CNT cnt48 0 p.dst 1) y l = { y with regs := r } :=
    foldS_regs (fun s _ => updR s .MESH_CNT cnt48 0 p.dst 1) (fun _ _ => ⟨_, rfl⟩) l y
  obtain ⟨r, hr⟩ := flits s (List.range p.flits)
  unfold ejectPkt flitCount
  rw [hr]
  split
  · exact ⟨_, rfl⟩
  · exact ⟨r, rfl⟩

/-- A response with a word that is not failed is delivered. -/
theorem psDeliver_ok {s : State} {t gd : Nat} {mode1 : Bool} {m : PsMsg} {v : TWord} {e : Option TWord} (hf : isFailed v = false)
    (hi : injArmed s t 1 = false) : psDeliver t gd mode1 m (.ok v e) s = match mode1, e with
      | true, some x => .done (wg (wg s t (BitVec.ofNat 6 gd) v) t (BitVec.ofNat 6 (gd + 1)) x)
      | _, _ => .done (wg s t (BitVec.ofNat 6 gd) v) := by
  have hok : (if m.kind == PsKind.read && !isPoisoned v then residueOk s t v.val v.tal else (true, s)) = (true, s) := by
    split
    · next h =>
      refine residueOk_sound hi (isSound_of_not_bad hf ?_)
      simpa using (Bool.and_eq_true_iff.mp h).2
    · rfl
  simp only [psDeliver, hf, Bool.and_false, hok]
  rfl

/-! ### The Point Store instructions -/

section
variable {t : BitVec 10} {gd ga gb gc : BitVec 6}

/-- The instruction runs a point operation: of kind `k`, on operands and with a message that the state gives. -/
def RunsPointOp (t : BitVec 10) (gd ga gb gc : BitVec 6) (i : Instr) (k : PsKind) (sub : Nat) (illegal : Bool)
    (srcs : State → List (Nat × TWord)) (all : State → List TWord) (m : State → PsMsg) (stored : State → Option TWord) : Prop :=
  ∃ uops, ∀ s, exec i s = .next (runInstr s t.toNat (encQ 0x36 gd ga gb gc sub) false uops false (fun s =>
    pointOp (encQ 0x36 gd ga gb gc sub) t.toNat k ga gd illegal (srcs s) (all s) (m s) (stored s) s))

/-- PSRD: gb is the mode, and mode 1 needs a pair of registers. -/
theorem runsPointOp_psrd : RunsPointOp t gd ga gb gc (.psrd t gd ga gb gc) .read 0
    (decide (gb.toNat ≥ 2) || (gb == 1 && (gd.toNat % 2 = 1 || gd = 0 || gd = 63)))
    (fun s => [(0, rg s t.toNat ga)]) (fun s => [rg s t.toNat ga])
    (fun _ => { thread := 0, kind := .read, point := 0, mode1 := gb == 1 }) (fun _ => none) :=
  ⟨_, fun s => (rfl : execPsrd t gd ga gb gc s = _)⟩

/-- PSWR. -/
theorem runsPointOp_pswr : RunsPointOp t gd ga gb gc (.pswr t gd ga gb gc) .write 1 false
    (fun s => [(0, rg s t.toNat ga)]) (fun s => [rg s t.toNat ga, rg s t.toNat gb])
    (fun s => { thread := 0, kind := .write, point := 0, b := rg s t.toNat gb }) (fun s => some (rg s t.toNat gb)) :=
  ⟨_, fun s => (rfl : execPswr t gd ga gb gc s = _)⟩

/-- PSCW. -/
theorem runsPointOp_pscw : RunsPointOp t gd ga gb gc (.pscw t gd ga gb gc) .cw 2 false
    (fun s => [(0, rg s t.toNat ga), (1, rg s t.toNat gb)]) (fun s => [rg s t.toNat ga, rg s t.toNat gb, rg s t.toNat gc])
    (fun s => { thread := 0, kind := .cw, point := 0, b := rg s t.toNat gb, c := rg s t.toNat gc }) (fun s => some (rg s t.toNat gc)) :=
  ⟨_, fun s => (rfl : execPscw t gd ga gb gc s = _)⟩

/-- PSSUB: gc says whether it subscribes. -/
theorem runsPointOp_pssub : RunsPointOp t gd ga gb gc (.pssub t gd ga gb gc) .sub 3 (decide (gc.toNat ≥ 2))
    (fun s => [(0, rg s t.toNat ga), (1, rg s t.toNat gb)]) (fun s => [rg s t.toNat ga, rg s t.toNat gb])
    (fun s => { thread := 0, kind := .sub, point := 0, b := rg s t.toNat gb, unsub := gc == 1 }) (fun _ => none) :=
  ⟨_, fun s => (rfl : execPssub t gd ga gb gc s = _)⟩

variable {s s' : State} {i : Instr} {k : PsKind} {sub : Nat} {illegal : Bool} {srcs : State → List (Nat × TWord)} {all : State → List TWord}
  {m : State → PsMsg} {stored : State → Option TWord} (hr : RunsPointOp t gd ga gb gc i k sub illegal srcs all m stored)
  (h : Ready s t.toNat s')
include hr h

/-- A reserved form traps. -/
theorem RunsPointOp.reserved (hill : illegal = true) : exec i s = .next (trapped s' t.toNat 0x08 (iwVal (encQ 0x36 gd ga gb gc sub))) := by
  obtain ⟨uops, he⟩ := hr
  exact (he s).trans (h.trap (pointOp_reserved _ hill))

variable (hill : illegal = false)
include hill

/-- A point out of reach traps. -/
theorem RunsPointOp.outOfReach (hsrcs : firstPoisoned (srcs s') = none) (hout : 2 ^ 24 ≤ (rg s' t.toNat ga).val.toNat ∨
      ptCount s' ≤ (rg s' t.toNat ga).val.toNat ∨ ptRight s' t.toNat k (rg s' t.toNat ga).val.toNat = false) :
    exec i s = .next (trapped s' t.toNat 0x0F (w64 ((rg s' t.toNat ga).val.toNat % 2 ^ 24))) := by
  obtain ⟨uops, he⟩ := hr
  exact (he s).trans (h.trap (pointOp_outOfReach _ hill hsrcs hout))

/-- A point within reach: the request goes out, and the thread waits for its response. -/
theorem RunsPointOp.request (h24 : (rg s' t.toNat ga).val.toNat < 2 ^ 24) (hcount : (rg s' t.toNat ga).val.toNat < ptCount s')
    (hsrcs : ∀ e ∈ srcs s', isSound e.2 = true) (hall : ∀ x ∈ all s', isFailed x = false)
    (hst : ∀ v, stored s' = some v → isFailed v = false ∧ injArmed s' t.toNat 1 = false)
    (hright : ptRight s' t.toNat k (rg s' t.toNat ga).val.toNat = true) :
    ∃ p s1, mkPkt s' (threadUnit s' t.toNat) (ptHome (rg s' t.toNat ga).val.toNat) 6 0x19 false 1 = (p, s1) ∧
      exec i s = .next (updThr { s1 with psNet := s1.psNet ++ [{ m s' with
          thread := t.toNat, kind := k, point := (rg s' t.toNat ga).val.toNat, iw := iwVal (encQ 0x36 gd ga gb gc sub), pkt := p }] } t.toNat
        (fun y => { y with wait := some (.point gd.toNat (m s').mode1) })) := by
  obtain ⟨uops, he⟩ := hr
  have hany : (all s').any isFailed = false := by simpa using hall
  obtain ⟨p, s1, hp, hop⟩ := pointOp_request _ hill (firstPoisoned_sound hsrcs) h24 hcount hright hany hst
  exact ⟨p, s1, hp, (he s).trans (h.wait hop)⟩

end

/-- A mode of PSRD that is not reserved: mode 0, or mode 1 with a pair of registers. -/
theorem psrd_mode_legal {gd gb : BitVec 6} (h : gb = 0 ∨ gb = 1 ∧ gd.toNat % 2 = 0 ∧ gd ≠ 0) :
    (decide (gb.toNat ≥ 2) || (gb == 1 && (gd.toNat % 2 = 1 || gd = 0 || gd = 63))) = false := by
  obtain rfl | ⟨rfl, heven, h0⟩ := h
  · rfl
  · have h63 : gd ≠ 63 := by
      rintro rfl
      exact absurd heven (by decide)
    simpa [heven] using And.intro h0 h63

/-- Any other mode of PSRD is reserved. -/
theorem psrd_mode_reserved {gd gb : BitVec 6} (h : 2 ≤ gb.toNat ∨ (gb = 1 ∧ ¬ (gd.toNat % 2 = 0 ∧ gd ≠ 0))) :
    (decide (gb.toNat ≥ 2) || (gb == 1 && (gd.toNat % 2 = 1 || gd = 0 || gd = 63))) = true := by
  obtain h2 | ⟨rfl, hp⟩ := h
  · simp [h2]
  · by_cases h0 : gd = 0
    · simp [h0]
    · have hodd : gd.toNat % 2 = 1 := Nat.mod_two_ne_zero.mp fun h => hp ⟨h, h0⟩
      simp [hodd]

/-- Settles O25: the requests are those of a point operation, and a response is delivered and completes. -/
theorem pointInstructionsComplete : Obligations.PointInstructionsComplete := by
  refine ⟨fun s s' t gd ga gb gc h => ?requests, fun s t gd mode1 m v e hans hwait hf hi => ?responses⟩
  case requests =>
    intro n a b c pair claim
    have nothing (v : TWord) (hv : (none : Option TWord) = some v) : isFailed v = false ∧ injArmed s' n 1 = false := nomatch hv
    refine ⟨fun ha h24 hcount => ?_, fun hbad => runsPointOp_psrd.reserved h (psrd_mode_reserved hbad),
      fun hbad => runsPointOp_pssub.reserved h (by simpa using hbad)⟩
    have hfa : isFailed (rg s' n ga) = false := (sound_not_bad ha).2
    have one : ∀ x ∈ [rg s' n ga], isFailed x = false := List.forall_mem_singleton.mpr hfa
    have two (hb : isFailed b = false) : ∀ x ∈ [rg s' n ga, b], isFailed x = false :=
      List.forall_mem_cons.mpr ⟨hfa, List.forall_mem_singleton.mpr hb⟩
    have three (hb : isFailed b = false) (hc : isFailed c = false) : ∀ x ∈ [rg s' n ga, b, c], isFailed x = false :=
      List.forall_mem_cons.mpr ⟨hfa, List.forall_mem_cons.mpr ⟨hb, List.forall_mem_singleton.mpr hc⟩⟩
    refine ⟨fun h0 => ?read, fun h1 hp => ?read1, fun hb hi => ?write, fun hb hc hi => ?cw, fun hb h0 => ?sub, fun hb h1 => ?unsub⟩
    case read =>
      subst h0
      exact runsPointOp_psrd.request h rfl h24 hcount (sources_sound ha) one nothing
    case read1 =>
      subst h1
      exact runsPointOp_psrd.request h (psrd_mode_legal (.inr ⟨rfl, hp⟩)) h24 hcount (sources_sound ha) one nothing
    case write =>
      exact runsPointOp_pswr.request h rfl h24 hcount (sources_sound ha) (two hb) fun v hv => Option.some.inj hv ▸ ⟨hb, hi⟩
    case cw =>
      exact runsPointOp_pscw.request h rfl h24 hcount (sources_sound₂ ha hb) (three (sound_not_bad hb).2 hc)
        fun v hv => Option.some.inj hv ▸ ⟨hc, hi⟩
    case sub =>
      subst h0
      exact runsPointOp_pssub.request h rfl h24 hcount (sources_sound₂ ha hb) (two (sound_not_bad hb).2) nothing
    case unsub =>
      subst h1
      exact runsPointOp_pssub.request h rfl h24 hcount (sources_sound₂ ha hb) (two (sound_not_bad hb).2) nothing
  case responses =>
    intro s1
    obtain ⟨r, hr⟩ := ejectPkt_regs { s with psNet := s.psNet.erase m } m.pkt
    have hthr : thr (ejectPkt { s with psNet := s.psNet.erase m } m.pkt) t.toNat = thr s t.toNat := by
      rw [hr]
      rfl
    have he : exec (.psRsp t) s = .next (applyAct t.toNat (if mode1 then 2 else 1) false
        (psDeliver t.toNat gd mode1 m (.ok v e) (ejectPkt { s with psNet := s.psNet.erase m } m.pkt))) := by
      change execPsRsp t s = _
      simp only [execPsRsp, hans, hthr, hwait]
    rw [he, psDeliver_ok hf hi]
    constructor
    · rintro rfl
      exact congrArg Host.Outcome.next (applyAct_done _ _ _ _)
    · rintro x rfl rfl
      exact congrArg Host.Outcome.next (applyAct_done _ _ _ _)

/-- Settles O26: the reach of the point is checked after the poison of the operands. -/
theorem pointRightsTrap : Obligations.PointRightsTrap := by
  intro s s' t gd ga gb gc h ha hb n a claim
  have one : firstPoisoned [(0, rg s' t.toNat ga)] = none := by simp [firstPoisoned, ha]
  have two : firstPoisoned [(0, rg s' t.toNat ga), (1, rg s' t.toNat gb)] = none := by simp [firstPoisoned, ha, hb]
  exact ⟨fun hmode => runsPointOp_psrd.outOfReach h (psrd_mode_legal hmode) one, runsPointOp_pswr.outOfReach h rfl one,
    runsPointOp_pscw.outOfReach h rfl two, fun hgc => runsPointOp_pssub.outOfReach h (by simpa using hgc) two⟩

end Sys2Proof.Machine
end

section
/-! PROOFS. The events of a thread complete (R95, R128, R132, R133, R188, R191, R207, R209, R276, R297). -/

namespace Sys2Proof.Machine

section
variable {s : State} {t : Nat}

/-! ### What is taken at a boundary (R132, R297) -/

/-- A cause 0x06 that is due enters its trap. -/
theorem takeDeadline_due {slot : Nat} (hd : deadlineDue s t = some slot) (hi : interruptible s t = true) :
    takeDeadline s t = trapEnter (updThr (abandon (wfiWake s t) t) t (fun x => { x with pend06 := none })) t 6 false (w64 slot) := by
  simp only [takeDeadline, hd, hi, if_true]

/-- With no cause 0x06 due the interrupt that is picked enters its trap. -/
theorem takeInterrupt_picked {code : Nat} {lvl : Level} (hd : deadlineDue (wfiCheck s t) t = none)
    (hi : interruptible (wfiCheck s t) t = true) (hr : (thr (wfiCheck s t) t).run ≠ .wfi) (hp : intrPick (wfiCheck s t) t = some (code, lvl)) :
    takeInterrupt s t = trapEnter (abandon (freeW (wfiCheck s t)).2 t) t code true (freeW (wfiCheck s t)).1 lvl := by
  have hrun : ((thr (wfiCheck s t) t).run != .wfi) = true := bne_iff_ne.mpr hr
  simp only [takeInterrupt, hd, hi, hrun, hp, Option.isSome_none, Bool.false_eq_true, if_false, Bool.and_self, if_true]

/-- A cause 0x06 that is due goes before any interrupt. -/
theorem takeInterrupt_deadline {slot : Nat} (hd : deadlineDue (wfiCheck s t) t = some slot) : takeInterrupt s t = takeDeadline (wfiCheck s t) t := by
  simp only [takeInterrupt, hd, Option.isSome_some, if_true]

/-! ### Waiting instructions run again (R207, R209) -/

/-- What stands in no wait that is over goes on waiting. -/
theorem wakeIf_waits {f : Wait → Bool} (h : ∀ w, (thr s t).wait = some w → f w = false) : wakeIf s t f = s := by
  unfold wakeIf
  split
  · next w hw => simp [h w hw]
  · rfl

/-- An instruction that waits for stores to drain runs again. -/
theorem wakeIf_drain {f : Wait → Bool} {i : Instr} (h : (thr s t).wait = some (.drain i)) (hf : f (.drain i) = true) :
    wakeIf s t f = rerun s t i := by
  simp only [wakeIf, h, hf]
  rfl

/-- A load that waits for a line runs again. -/
theorem wakeIf_fill {f : Wait → Bool} {i : Instr} {line : Nat} (h : (thr s t).wait = some (.fill i line)) (hf : f (.fill i line) = true) :
    wakeIf s t f = rerun s t i := by
  simp only [wakeIf, h, hf]
  rfl

/-- The oldest store, whole and on an owned line, drains. -/
theorem drainOne_full {e : StoreEnt} {rest : List StoreEnt} {x : State} (hst : (thr s t).stores = e :: rest)
    (ho : ownLine s t (e.word / 8) = (true, x)) (hf : e.full = true) :
    drainOne s t = storeWord (updThr x t (fun x => { x with stores := rest })) t e.word e.val := by
  simp only [drainOne, hst, ho, hf, if_true]

/-- The line of an entry arrives. -/
theorem fillEntry_found {e : SideEntry} {d : Line} {x : State} (h : quadData s (t / 16) e.line = (some d, x)) : fillEntry s t e =
    sideGone (sideUpd (pmcCount (shareLine x (t / 4) e.line) t 0x23 1) t (fun x => fillSide x e.line d)) (t / 16) e.line := by
  simp only [fillEntry, h]

/-- The wait for a line is over: its entry is filled, or there is none. -/
def fillOver (s : State) (t : Nat) : Wait → Bool
  | .fill _ line => (thr s t).side.any (fun e => e.line == line && e.filled) || !(thr s t).side.any (fun e => e.line == line)
  | _ => false

/-- The wait is over. -/
theorem fillOver_of {i : Instr} {line : Nat}
    (h : (∃ e ∈ (thr s t).side, e.line = line ∧ e.filled = true) ∨ ∀ e ∈ (thr s t).side, e.line ≠ line) :
    fillOver s t (.fill i line) = true := by
  simpa [fillOver] using h

/-- The wait goes on. -/
theorem not_fillOver_of {i : Instr} {line : Nat} (h : ∀ e ∈ (thr s t).side, e.filled = false ∨ e.line ≠ line)
    (he : ∃ e ∈ (thr s t).side, e.line = line) : fillOver s t (.fill i line) = false := by
  obtain ⟨e, hm, hl⟩ := he
  simp only [fillOver, Bool.or_eq_false_iff, List.any_eq_false, Bool.not_eq_false', List.any_eq_true]
  refine ⟨fun e he hc => ?_, e, hm, by simpa using hl⟩
  obtain ⟨hline, hfilled⟩ : e.line = line ∧ e.filled = true := by simpa using hc
  exact (h e he).elim (fun hf => Bool.false_ne_true (hf.symm.trans hfilled)) (fun hne => hne hline)

end

/-- Settles O29: each event by the rule for what it does. -/
theorem threadEventsComplete : Obligations.ThreadEventsComplete := by
  intro s t c n m u ends x0 d filled swept
  have drain (x : State) (h : wakeIf d u (fun w => match w with | .drain _ => true | _ => false) = x) : ends (.storeDrain t) x :=
    congrArg Host.Outcome.next h
  have fill (x : State) (h : wakeIf filled u (fillOver filled u) = x) : ends (.loadFill t) (swept x) :=
    congrArg (fun x => Host.Outcome.next (swept x)) h
  refine ⟨fun code lvl hd hi hr hp => ⟨_, _, rfl, congrArg Host.Outcome.next (takeInterrupt_picked hd hi hr hp)⟩, fun slot hd hi => ?deadline,
    fun he => ?compare, fun hw => drain d ?noDrain, fun i hw => drain _ (wakeIf_drain hw rfl), fun e rest x1 hst ho hf => drainOne_full hst ho hf,
    fun hw => fill filled ?noFill, fun i line hw => ?fills, fun e dat x1 hside hf hq => ?arrives, rfl, fun hdue => next_if_pos hdue,
    fun hdue => next_if_pos hdue, fun hdue => next_if_pos hdue, fun hdue => next_if_pos hdue, rfl, rfl⟩
  case deadline =>
    have hafter := takeDeadline_due hd hi
    refine ⟨congrArg Host.Outcome.next hafter, fun hx => congrArg Host.Outcome.next ?_⟩
    change takeInterrupt s u = _
    rw [takeInterrupt_deadline (show deadlineDue x0 u = some slot from hx ▸ hd), show wfiCheck s u = s from hx.symm, hafter]
  case compare => exact next_if_pos (by simpa [or_assoc] using he)
  case noDrain =>
    refine wakeIf_waits fun w h => ?_
    cases w with
    | drain i => exact absurd h (hw i)
    | _ => rfl
  case noFill =>
    refine wakeIf_waits fun w h => ?_
    cases w with
    | fill i line => exact absurd h (hw i line)
    | _ => rfl
  case fills =>
    refine ⟨fun h => fill _ (wakeIf_fill hw (fillOver_of h)), fun h he => fill filled (wakeIf_waits fun w hw' => ?_)⟩
    obtain rfl : Wait.fill i line = w := Option.some.inj (hw.symm.trans hw')
    exact not_fillOver_of h he
  case arrives =>
    have hfilled : filled = fillEntry s u e := by
      simp only [filled, hside, foldS, List.foldl_cons, List.foldl_nil, hf, Bool.false_eq_true, if_false]
    exact hfilled.trans (fillEntry_found hq)

end Sys2Proof.Machine
end

section
/-! PROOFS. The Point Store's operations complete (R309, R312, R347–R350, R352, R355, R357). -/

namespace Sys2Proof.Machine

/-! ### A thread's operation arrives at its engine (R357) -/

section
variable {s : State} {t : Nat} {k : PsKind} {m : PsMsg} {genFail : Bool}
  (hm : s.psNet.find? (fun m => m.thread = t && m.answer.isNone && m.kind == k && arrivedPkt s m.pkt) = some m)
  (hw : s.ps.wait.contains (m.point, t) = false)
include hm hw

/-- It waits with those that wait for the same entry. -/
theorem ptArrive_joins (hf : s.ps.fetch.contains m.point = true) :
    ptArrive s t k genFail = { s with ps := { s.ps with wait := s.ps.wait ++ [(m.point, t)] } } := by
  simp only [ptArrive, hm, hw, hf, Bool.false_eq_true, if_false, if_true]

variable (hf : s.ps.fetch.contains m.point = false)
include hf

/-- It is performed where the entry stands in its slice. -/
theorem ptArrive_performs (hc : ptCached s m.point = true) :
    ptArrive s t k genFail = psAnswer (ptThreadOp s m genFail).2 m (ptThreadOp s m genFail).1 := by
  simp only [ptArrive, hm, hw, hf, hc, Bool.false_eq_true, if_false, if_true]

/-- It begins the fetch of its entry where fewer than 32 are outstanding. -/
theorem ptArrive_fetches (hc : ptCached s m.point = false) (hn : (s.ps.fetch.filter (fun p => ptHome p == ptHome m.point)).length < 32) :
    ptArrive s t k genFail = { s with ps := { s.ps with fetch := s.ps.fetch ++ [m.point], wait := s.ps.wait ++ [(m.point, t)] } } := by
  simp only [ptArrive, hm, hw, hf, hc, Bool.false_eq_true, if_false, Nat.not_le.mpr hn]

end

/-- Settles O41: arrivals by the place of the entry, the other commands by their conditions. -/
theorem pointStoreCompletes : Obligations.PointStoreCompletes := by
  intro s who t p m ends n arrives
  have arrival {i : Instr} {k : PsKind} {gf : Bool} (he : exec i s = .next (ptArrive s t.toNat k gf)) : arrives i k gf := fun hm hw =>
    ⟨fun hf => he.trans (congrArg _ (ptArrive_joins hm hw hf)), fun hf =>
      ⟨fun hc => he.trans (congrArg _ (ptArrive_performs hm hw hf hc)), fun hc hn => he.trans (congrArg _ (ptArrive_fetches hm hw hf hc hn))⟩⟩
  refine ⟨arrival (rfl : execEngineRead t s = _), fun gf => ⟨arrival (rfl : execEngineWrite t gf s = _), arrival (rfl : execEngineCw t gf s = _)⟩,
    arrival (rfl : execEngineSub t s = _), fun hf => next_if_pos hf, ?exchange,
    fun hs val ep w2 tal gf => next_if_pos hs, fun x r hnotes => ?note, fun hd => ⟨fun fmt => next_regCmd hd _, next_regCmd hd _⟩,
    fun g tail hd => next_regCmd hd _⟩
  case exchange =>
    intro hn port node val ep q gf b
    have hin : ¬ p.toNat ≥ ptCount s := Nat.not_le.mpr hn
    constructor
    · change execExchangeRead port p s = _
      simp only [execExchangeRead, if_neg hin]
      rfl
    · change execExchangeWrite port node p val ep q gf s = _
      simp only [execExchangeWrite, if_neg hin]
      rfl
  case note =>
    change execNotificationRecord s = _
    simp only [execNotificationRecord, hnotes]

end Sys2Proof.Machine
end

section
/-! PROOFS. The cache operations and the prefetches complete (R119, R122, R202, R211, R244, R253, Table 4-13). -/

namespace Sys2Proof.Machine

/-! ### Levels (Table 4-13) -/

/-- An operation of level U runs at every level. -/
theorem levelOk_zero (l : Level) : levelOk l 0 = true := by cases l <;> rfl

/-- An operation of level S runs outside U. -/
theorem levelOk_one {l : Level} (h : l ≠ .U) : levelOk l 1 = true := by
  cases l with
  | U => exact absurd rfl h
  | S => rfl
  | M => rfl

/-- An operation of level M runs at M alone. -/
theorem levelOk_two {l : Level} : levelOk l 2 = true ↔ l = .M := by cases l <;> decide

/-! ### Operations with an address (R122, R211) -/

/-- What an operation with an address answers: its level and address are checked, the thread's stores drain, and then it acts on the
line. -/
def cacheBody (i : Instr) (w : IWord) (need : Nat) (act : State → Nat → Act) (t : Nat) (ga : BitVec 6) (imm : BitVec 14) (s : State) : Act :=
  if !levelOk (thr s t).level need then .trap s 0x08 (iwVal w)
  else match cacheAddr s t w ga imm with
    | .inr a => a
    | .inl (pa, s) => if !(thr s t).stores.isEmpty then .wait s (.drain i) else act s (pa / 64)

/-- The instruction runs an operation with an address. -/
def RunsCacheOp (t : BitVec 10) (ga : BitVec 6) (imm : BitVec 14) (i : Instr) (code : BitVec 6) (need : Nat) (act : State → Nat → Act) : Prop :=
  ∀ s, exec i s = .next (runInstr s t.toNat (encI 0x38 code ga imm) false 1 false
    (cacheBody i (encI 0x38 code ga imm) need act t.toNat ga imm))

section
variable {t : BitVec 10} {ga : BitVec 6} {imm : BitVec 14} {i : Instr} {code : BitVec 6} {need : Nat} {act : State → Nat → Act} {s s' s1 : State}
  {pa : Nat} (hr : RunsCacheOp t ga imm i code need act) (h : Ready s t.toNat s')
include hr h

/-- A level that may not run it traps. -/
theorem RunsCacheOp.refused (hl : levelOk (thr s' t.toNat).level need ≠ true) :
    exec i s = .next (trapped s' t.toNat 0x08 (iwVal (encI 0x38 code ga imm))) :=
  (hr s).trans (h.trap (if_pos (by simpa using hl)))

variable (hl : levelOk (thr s' t.toNat).level need = true) (ha : cacheAddr s' t.toNat (encI 0x38 code ga imm) ga imm = .inl (pa, s1))
include hl ha

/-- It waits while the thread has stores to drain. -/
theorem RunsCacheOp.drains (hst : (thr s1 t.toNat).stores ≠ []) :
    exec i s = .next (updThr s1 t.toNat (fun y => { y with wait := some (.drain i) })) :=
  (hr s).trans (h.wait (by simp [cacheBody, hl, ha, hst]))

variable (hst : (thr s1 t.toNat).stores = [])
include hst

omit hr h in
/-- With the stores drained it acts on the line. -/
theorem cacheBody_acts : cacheBody i (encI 0x38 code ga imm) need act t.toNat ga imm s' = act s1 (pa / 64) := by
  simp [cacheBody, hl, ha, hst]

/-- Its act completes. -/
theorem RunsCacheOp.done {x : State} (hx : act s1 (pa / 64) = .done x) : exec i s = .next (finish x t.toNat 1 false) :=
  (hr s).trans (h.done ((cacheBody_acts hl ha hst).trans hx))

/-- Its act waits. -/
theorem RunsCacheOp.wait {x : State} {y : Wait} (hx : act s1 (pa / 64) = .wait x y) :
    exec i s = .next (updThr x t.toNat (fun z => { z with wait := some y })) :=
  (hr s).trans (h.wait ((cacheBody_acts hl ha hst).trans hx))

end

/-! ### The operations on a quad's L2 (R211, R244, R253) -/

/-- L2 clean: the quad keeps a clean copy, and modified data is written to the home. -/
def l2CleanAct (t : Nat) (s : State) (line : Nat) : Act :=
  match l2 (quadDowngrade s (t / 16) line) (t / 16) line with
  | some (.M, y) => .wait (sendMsg (setL2 (quadDowngrade s (t / 16) line) (t / 16) line (some (.E, y)))
      { op := 0x09, holder := t / 16, line := line, data := y.data, thread := some t }) (.wrAck line)
  | _ => .done (quadDowngrade s (t / 16) line)

/-- A modified line is sent to its home. -/
theorem l2CleanAct_modified {t : Nat} {s : State} {line : Nat} {y : CLine}
    (h : l2 (quadDowngrade s (t / 16) line) (t / 16) line = some (.M, y)) : l2CleanAct t s line =
      .wait (sendMsg (setL2 (quadDowngrade s (t / 16) line) (t / 16) line (some (.E, y)))
        { op := 0x09, holder := t / 16, line := line, data := y.data, thread := some t }) (.wrAck line) := by
  simp only [l2CleanAct, h]

/-- Any other line has nothing to send. -/
theorem l2CleanAct_clean {t : Nat} {s : State} {line : Nat}
    (h : ∀ y, l2 (quadDowngrade s (t / 16) line) (t / 16) line ≠ some (.M, y)) :
    l2CleanAct t s line = .done (quadDowngrade s (t / 16) line) := by
  unfold l2CleanAct
  split
  · next y hy => exact absurd hy (h y)
  · rfl

/-- The line leaves the quad, and its eviction message names the thread that waits for the acknowledgement. -/
def evictFor (t : Nat) (s : State) (line : Nat) : State :=
  { l2Evict s (t / 16) line with net := (l2Evict s (t / 16) line).net.map (fun m =>
      if m.holder = t / 16 && m.line = line && (m.op = 0x07 || m.op = 0x08) then { m with thread := some t } else m) }

/-- An upgrade of the line is in flight, or no miss-tracking entry is free. -/
def l2Busy (s : State) (q line : Nat) : Bool := (match track s q line with | some tr => tr.st == .SM | none => false) || trackCount s q ≥ 256

/-- What the line's eviction waits for. -/
theorem l2Busy_iff {s : State} {q line : Nat} :
    l2Busy s q line = true ↔ (∃ tr, track s q line = some tr ∧ tr.st = .SM) ∨ 256 ≤ trackCount s q := by
  unfold l2Busy
  cases track s q line <;> simp

/-- L2 clean and invalidate. -/
def l2CleanInvalidateAct (i : Instr) (t : Nat) (s : State) (line : Nat) : Act :=
  if l2Busy s (t / 16) line then .wait s (.own i line)
  else match l2 s (t / 16) line with
    | some _ => if (track (evictFor t s line) (t / 16) line).isSome then .wait (evictFor t s line) (.wrAck line) else .done (evictFor t s line)
    | none => .done (quadPurge s (t / 16) line)

/-- It waits while the eviction may not begin. -/
theorem l2CleanInvalidateAct_busy {t : Nat} {s : State} {line : Nat} (hb : l2Busy s (t / 16) line = true) (i : Instr) :
    l2CleanInvalidateAct i t s line = .wait s (.own i line) := if_pos hb

section
variable {t : Nat} {s : State} {line : Nat} (hb : ¬ l2Busy s (t / 16) line = true) (i : Instr)
include hb

/-- Without an L2 copy every other copy leaves the quad. -/
theorem l2CleanInvalidateAct_absent (h : l2 s (t / 16) line = none) :
    l2CleanInvalidateAct i t s line = .done (quadPurge s (t / 16) line) := by
  simp only [l2CleanInvalidateAct, hb, h, Bool.false_eq_true, if_false]

/-- An L2 copy is evicted. -/
theorem l2CleanInvalidateAct_evicts (h : (l2 s (t / 16) line).isSome = true) : l2CleanInvalidateAct i t s line =
    if (track (evictFor t s line) (t / 16) line).isSome then .wait (evictFor t s line) (.wrAck line) else .done (evictFor t s line) := by
  obtain ⟨y, hy⟩ := Option.isSome_iff_exists.mp h
  simp only [l2CleanInvalidateAct, hb, hy, Bool.false_eq_true, if_false]

end

/-! ### The instructions of CACHEOP with an address -/

section
variable {t : BitVec 10} {ga : BitVec 6} {imm : BitVec 14}

/-- Operation 1 merges the line into the L2. -/
theorem runsCacheOp_l1dClean :
    RunsCacheOp t ga imm (.l1dClean t ga imm) 1 0 (fun s line => .done (l1dMerge s (t.toNat / 4) line)) :=
  fun s => (rfl : execL1dClean t ga imm s = _)

/-- Operation 2 also removes it from the core. -/
theorem runsCacheOp_l1dCleanInvalidate :
    RunsCacheOp t ga imm (.l1dCleanInvalidate t ga imm) 2 0 (fun s line => .done (l1dRemove s (t.toNat / 4) line true)) :=
  fun s => (rfl : execL1dCleanInvalidate t ga imm s = _)

/-- Operation 3 removes it without writing it back, at M alone. -/
theorem runsCacheOp_l1dInvalidate :
    RunsCacheOp t ga imm (.l1dInvalidate t ga imm) 3 2 (fun s line => .done (l1dRemove s (t.toNat / 4) line false)) :=
  fun s => (rfl : execL1dInvalidate t ga imm s = _)

/-- Operation 4. -/
theorem runsCacheOp_l2Clean : RunsCacheOp t ga imm (.l2Clean t ga imm) 4 1 (l2CleanAct t.toNat) :=
  fun s => (rfl : execL2Clean t ga imm s = _)

/-- Operation 5. -/
theorem runsCacheOp_l2CleanInvalidate :
    RunsCacheOp t ga imm (.l2CleanInvalidate t ga imm) 5 1 (l2CleanInvalidateAct (.l2CleanInvalidate t ga imm) t.toNat) :=
  fun s => (rfl : execL2CleanInvalidate t ga imm s = _)

/-- Operation 6 sends FLUSH_LINE to the home. -/
theorem runsCacheOp_llcClean : RunsCacheOp t ga imm (.llcClean t ga imm) 6 1 (fun s line => .wait (sendMsg s
    { op := 0x0A, holder := t.toNat / 16, line := line, part := (threadPart s t.toNat).getD 0, sec := (thr s t.toNat).world == .secure,
      thread := some t.toNat }) (.wrAck line)) :=
  fun s => (rfl : execLlcClean t ga imm s = _)

/-- Operation 7 removes the line from the L1I. -/
theorem runsCacheOp_l1iInvalidate :
    RunsCacheOp t ga imm (.l1iInvalidate t ga imm) 7 0 (fun s line => .done (setL1i s (t.toNat / 4) line none)) :=
  fun s => (rfl : execL1iInvalidate t ga imm s = _)

end

/-! ### Operations without an address -/

section
variable {s s' : State} {t : BitVec 10} (h : Ready s t.toNat s')
include h

/-- A reserved field that is not zero, or a level that may not run it, traps. -/
theorem cacheOpAll_refused {ga : BitVec 6} {imm : BitVec 14} {need : Nat}
    (hbad : ga ≠ 0 ∨ imm ≠ 0 ∨ levelOk (thr s' t.toNat).level need ≠ true) (i : Instr) (code : Nat) (drain : Bool) (f : State → State) :
    cacheOpAll i code need drain f t ga imm s = .next (trapped s' t.toNat 0x08 (iwVal (encI 0x38 (BitVec.ofNat 6 code) ga imm))) :=
  h.trap (if_pos (by simpa [or_assoc] using hbad))

/-- It completes once the stores that it waits for have drained. -/
theorem cacheOpAll_done {need : Nat} {drain : Bool} (hl : levelOk (thr s' t.toNat).level need = true)
    (hst : drain = true → (thr s' t.toNat).stores = []) (i : Instr) (code : Nat) (f : State → State) :
    cacheOpAll i code need drain f t 0 0 s = .next (finish (f s') t.toNat 1 false) := by
  have hdrained : ¬ (drain && !(thr s' t.toNat).stores.isEmpty) = true := by
    simpa using hst
  exact h.done ((if_neg (by simp [hl])).trans (if_neg hdrained))

/-! ### Prefetches (R122) -/

section
variable (code : Nat) (f : State → Nat → State) {ga : BitVec 6} (imm : BitVec 14)

/-- A base that is not sound drops the prefetch. -/
theorem prefetch_unsound (hs : isSound (rg s' t.toNat ga) = false) : prefetch code f t ga imm s = .next (finish s' t.toNat 1 false) :=
  h.done (if_pos (by simp [hs]))

variable {imm} {s1 : State} (hs : isSound (rg s' t.toNat ga) = true)
include hs

/-- A translation that faults drops it. -/
theorem prefetch_faults {c : Nat} (hx : xlate s' t.toNat .load ((rg s' t.toNat ga).val + sx imm) = (.fault c, s1)) :
    prefetch code f t ga imm s = .next (finish s1 t.toNat 1 false) :=
  h.done (by simp only [hs, hx, Bool.not_true, Bool.false_eq_true, if_false])

variable {pa attr : Nat} (hx : xlate s' t.toNat .load ((rg s' t.toNat ga).val + sx imm) = (.ok pa attr, s1))
include hx

/-- An address outside cacheable memory drops it. -/
theorem prefetch_uncached (hd : destOf s1 t.toNat pa attr ≠ .mem true) : prefetch code f t ga imm s = .next (finish s1 t.toNat 1 false) :=
  h.done (by simp only [hs, hx, beq_eq_false_iff_ne.mpr hd, Bool.not_true, Bool.false_eq_true, if_false])

/-- In cacheable memory it reaches its line. -/
theorem prefetch_reaches (hd : destOf s1 t.toNat pa attr = .mem true) :
    prefetch code f t ga imm s = .next (finish (f s1 (pa / 64)) t.toNat 1 false) :=
  h.done (by simp only [hs, hx, hd, beq_self_eq_true, Bool.not_true, Bool.false_eq_true, if_false, if_true])

end
end

/-- What a prefetch to the L1D of thread `t`'s core does to a line that it reaches. -/
def prefetchedL1d (t : Nat) (s : State) (line : Nat) : State :=
  match l1d s (t / 4) line, l2 s (t / 16) line with
  | some _, _ => s
  | none, some _ =>
    match quadData s (t / 16) line with
    | (some d, s) => l1dCopy (l2Array s (t / 16) line) (t / 4) line d
    | (none, s) => s
  | none, none => prefRequest s (t / 16) line (some (t / 4))

/-- What a prefetch to the L2 does. -/
def prefetchedL2 (t : Nat) (s : State) (line : Nat) : State :=
  match l2 s (t / 16) line with
  | some (_, y) => if y.inArr then s else l2Array s (t / 16) line
  | none => prefRequest s (t / 16) line none

/-- Operation 9. -/
theorem exec_prefetchL1d (t : BitVec 10) (ga : BitVec 6) (imm : BitVec 14) (s : State) :
    exec (.prefetchL1d t ga imm) s = prefetch 9 (prefetchedL1d t.toNat) t ga imm s := (rfl : execPrefetchL1d t ga imm s = _)

/-- Operation 10. -/
theorem exec_prefetchL2 (t : BitVec 10) (ga : BitVec 6) (imm : BitVec 14) (s : State) :
    exec (.prefetchL2 t ga imm) s = prefetch 10 (prefetchedL2 t.toNat) t ga imm s := (rfl : execPrefetchL2 t ga imm s = _)

section
variable {t : Nat} {s : State} {line : Nat}

/-- A line that stands in the L1D stays as it is. -/
theorem prefetchedL1d_present (h : (l1d s (t / 4) line).isSome = true) : prefetchedL1d t s line = s := by
  obtain ⟨x, hx⟩ := Option.isSome_iff_exists.mp h
  simp only [prefetchedL1d, hx]

/-- A line that the quad does not hold is asked for. -/
theorem prefetchedL1d_absent (h1 : l1d s (t / 4) line = none) (h2 : l2 s (t / 16) line = none) :
    prefetchedL1d t s line = prefRequest s (t / 16) line (some (t / 4)) := by
  simp only [prefetchedL1d, h1, h2]

/-- A line that the quad's L2 holds is copied. -/
theorem prefetchedL1d_copied {s2 : State} {y : LSt × CLine} {d : Line} (h1 : l1d s (t / 4) line = none) (h2 : l2 s (t / 16) line = some y)
    (hd : quadData s (t / 16) line = (some d, s2)) : prefetchedL1d t s line = l1dCopy (l2Array s2 (t / 16) line) (t / 4) line d := by
  simp only [prefetchedL1d, h1, h2, hd]

/-- A line that the L2 does not hold is asked for. -/
theorem prefetchedL2_absent (h : l2 s (t / 16) line = none) : prefetchedL2 t s line = prefRequest s (t / 16) line none := by
  simp only [prefetchedL2, h]

/-- A line that it holds comes to stand in its array. -/
theorem prefetchedL2_present {st : LSt} {y : CLine} (h : l2 s (t / 16) line = some (st, y)) :
    prefetchedL2 t s line = if y.inArr then s else l2Array s (t / 16) line := by
  simp only [prefetchedL2, h]

end

/-- Settles O24: the operations with an address by their act on the line, the others by their own rule, and a prefetch by how far it
gets. -/
theorem cacheOperationsComplete : Obligations.CacheOperationsComplete := by
  intro s s' s1 s2 t ga imm pa h n c q ln done waitFor waits lvl addr at_ drains evicted asked busy
  have hU : levelOk (thr s' t.toNat).level 0 = true := levelOk_zero _
  refine ⟨?l0inv, fun hbad => ?l0invReserved,
    fun ⟨ha, hst⟩ => runsCacheOp_l1dClean.done h hU ha hst rfl, fun ha hst => runsCacheOp_l1dClean.drains h hU ha hst,
    fun ⟨ha, hst⟩ => runsCacheOp_l1dCleanInvalidate.done h hU ha hst rfl, fun ha hst => runsCacheOp_l1dCleanInvalidate.drains h hU ha hst,
    fun hM => ?l1dInvalidate, fun hS => ?homes,
    fun ⟨ha, hst⟩ => runsCacheOp_l1iInvalidate.done h hU ha hst rfl, fun ha hst => runsCacheOp_l1iInvalidate.drains h hU ha hst,
    fun hM hst => ?all, fun hM => ?refused, fun hs => ?unsound, fun hs => ?sound⟩
  case l0inv =>
    change execL0inv t 0 0 s = _
    exact cacheOpAll_done (drain := false) h hU nofun _ _ _
  case l0invReserved => exact cacheOpAll_refused h (hbad.imp_right .inl) _ 0 _ _
  case l1dInvalidate =>
    have hl := levelOk_two.mpr hM
    exact ⟨fun ⟨ha, hst⟩ => runsCacheOp_l1dInvalidate.done h hl ha hst rfl, fun ha hst => runsCacheOp_l1dInvalidate.drains h hl ha hst⟩
  case homes =>
    have hl := levelOk_one hS
    refine ⟨fun ha hst => runsCacheOp_l2Clean.drains h hl ha hst, fun ha hst => runsCacheOp_l2CleanInvalidate.drains h hl ha hst,
      fun ha hst => runsCacheOp_llcClean.drains h hl ha hst,
      fun ⟨ha, hst⟩ => ⟨fun y hy => runsCacheOp_l2Clean.wait h hl ha hst (l2CleanAct_modified hy),
        fun hn => runsCacheOp_l2Clean.done h hl ha hst (l2CleanAct_clean hn)⟩,
      fun ⟨ha, hst⟩ => ?evict, fun ⟨ha, hst⟩ => runsCacheOp_llcClean.wait h hl ha hst rfl⟩
    refine ⟨fun hb => runsCacheOp_l2CleanInvalidate.wait h hl ha hst (l2CleanInvalidateAct_busy (l2Busy_iff.mpr hb) _),
      fun hb hn => runsCacheOp_l2CleanInvalidate.done h hl ha hst (l2CleanInvalidateAct_absent (mt l2Busy_iff.mp hb) _ hn),
      fun hb hy htr => runsCacheOp_l2CleanInvalidate.wait h hl ha hst
        ((l2CleanInvalidateAct_evicts (mt l2Busy_iff.mp hb) _ hy).trans (if_pos htr)),
      fun hb hy htr => runsCacheOp_l2CleanInvalidate.done h hl ha hst
        ((l2CleanInvalidateAct_evicts (mt l2Busy_iff.mp hb) _ hy).trans (if_neg (Bool.eq_false_iff.mp htr)))⟩
  case all =>
    change execL1dCleanInvalidateAll t 0 0 s = _
    exact cacheOpAll_done h (levelOk_two.mpr hM) (fun _ => hst) _ _ _
  case refused =>
    have hl := mt levelOk_two.mp hM
    exact ⟨runsCacheOp_l1dInvalidate.refused h hl, cacheOpAll_refused h (.inr (.inr hl)) _ 8 _ _⟩
  case unsound =>
    rw [exec_prefetchL1d, exec_prefetchL2]
    exact ⟨prefetch_unsound h _ _ _ hs, prefetch_unsound h _ _ _ hs⟩
  case sound =>
    intro va
    rw [exec_prefetchL1d, exec_prefetchL2]
    refine ⟨fun k hx => ⟨prefetch_faults h _ _ hs hx, prefetch_faults h _ _ hs hx⟩, fun attr hx =>
      ⟨fun hd => ⟨prefetch_uncached h _ _ hs hx hd, prefetch_uncached h _ _ hs hx hd⟩, fun hd => ?_⟩⟩
    have toL1d {x : State} (hp : prefetchedL1d n s1 ln = x) : prefetch 9 (prefetchedL1d n) t ga imm s = done x :=
      hp ▸ prefetch_reaches h _ _ hs hx hd
    have toL2 {x : State} (hp : prefetchedL2 n s1 ln = x) : prefetch 10 (prefetchedL2 n) t ga imm s = done x :=
      hp ▸ prefetch_reaches h _ _ hs hx hd
    exact ⟨fun h1 => toL1d (prefetchedL1d_present h1), fun h1 h2 => toL1d (prefetchedL1d_absent h1 h2),
      fun y d h1 h2 hq => toL1d (prefetchedL1d_copied h1 h2 hq), fun h2 => toL2 (prefetchedL2_absent h2),
      fun st y h2 => toL2 (prefetchedL2_present h2)⟩

end Sys2Proof.Machine
end

section
/-! PROOFS. Snoops are answered and their responses taken (R243, R244, R246, R256). -/

namespace Sys2Proof.Machine

/-- The holder of a command is one that the directory names (R238). -/
theorem holderOk_of_lt {h : BitVec 7} (hn : h.toNat < 72) : holderOk h = true := decide_eq_true hn

/-- No message in flight is one of the kind looked for: none is taken. -/
theorem takeMsg_eq_none {s : State} {f : Msg → Bool} (hf : onWay s f = false) : takeMsg s f = none := by
  have hnone : s.net.find? (fun m => f m && arrivedPkt s m.pkt) = none :=
    List.find?_eq_none.mpr fun m hm => by simp [List.any_eq_false.mp hf m hm]
  rw [takeMsg, hnone]

section
variable {s s1 : State} {m : Msg} {h : BitVec 7} {line : BitVec 32} {op : BitVec 6} (hn : h.toNat < 72)
include hn

/-- A response that is neither here nor on its way is a breach (R256). -/
theorem snoopRsp_unsent (hno : ∀ m ∈ s.net, m.op ≠ op ∨ m.holder ≠ h.toNat ∨ m.line ≠ line.toNat) (keeps hasData dirty : Bool) :
    snoopRsp op keeps hasData dirty h line s = .next (protocolBreach s line.toNat op.toNat) := by
  have haway : onWay s (fun m => m.op = op && m.holder = h.toNat && m.line = line.toNat) = false :=
    List.any_eq_false.mpr fun m hm => by
      simpa [imp_iff_not_or, or_assoc] using hno m hm
  simp only [snoopRsp, holderOk_of_lt hn, takeMsg_eq_none haway, haway]
  rfl

variable (hm : takeMsg s (fun m => m.op = op && m.holder = h.toNat && m.line = line.toNat) = some (m, s1))
include hm

/-! ### Snoops at a holder (R244, Table 9-5) -/

/-- A snoop that has arrived is answered with the response that the holder's state gives. -/
theorem snoopCmd_arrived {k : Snoop} {r : BitVec 6} {d : Line} {s2 : State} (hh : holderSnoop s1 h.toNat line.toNat k = (r, d, s2)) :
    snoopCmd op k h line s = .next (creditDone (sendMsg s2
      { op := r, holder := h.toNat, line := line.toNat, data := d, part := if h.toNat < 64 then (quadPart s2 h.toNat).getD 0 else 0 })
      m.pkt) := by
  simp only [snoopCmd, holderOk_of_lt hn, hm, hh]
  rfl

/-! ### Responses at the home (R243, R246) -/

/-- A response to a line that is not BUSY is a breach (R256). -/
theorem snoopRsp_idle (ht : txnOf s1 (homeOf s line.toNat) line.toNat = none) (keeps hasData dirty : Bool) :
    snoopRsp op keeps hasData dirty h line s = .next (protocolBreach s1 line.toNat op.toNat) := by
  simp only [snoopRsp, holderOk_of_lt hn, hm, ht]
  rfl

end

/-- The transaction once holder `n` has answered with message `m`. -/
def answeredTxn (t : Txn) (n : Nat) (m : Msg) (hasData dirty : Bool) : Txn :=
  { t with await := t.await.erase n, data := if hasData && !t.dataDirty then some m.data else t.data, dataDirty := t.dataDirty || dirty }

/-- The state once holder `n` has answered for transaction `t` of home `hm`: unless it keeps a copy it leaves the directory. -/
def answeredState (s : State) (hm line n : Nat) (keeps : Bool) (t t' : Txn) : State :=
  putTxn (if keeps || t.phase == .rebuild then s else dirRemove s hm line n) hm t'

section
variable {s s1 : State} {m : Msg} {h : BitVec 7} {line : BitVec 32} {op : BitVec 6} (hn : h.toNat < 72)
  (hm : takeMsg s (fun m => m.op = op && m.holder = h.toNat && m.line = line.toNat) = some (m, s1))
  {t : Txn} (ht : txnOf s1 (homeOf s line.toNat) line.toNat = some t) (ha : t.await.contains h.toNat = true)
  {dirty : Bool} (hd : (dirty && t.dataDirty) = false) {keeps hasData : Bool}
include hn hm ht ha hd

/-- A response that its transaction awaits is taken; after the last one the transaction goes on. -/
theorem snoopRsp_awaited : snoopRsp op keeps hasData dirty h line s = .next
    (let t' := answeredTxn t h.toNat m hasData dirty
     let s2 := answeredState s1 (homeOf s line.toNat) line.toNat h.toNat keeps t t'
     if !t'.await.isEmpty then s2
     else homeNext (if t.phase == .rebuild then rebuildDone s2 (homeOf s line.toNat) t'
       else homeAfterSnoop s2 (homeOf s line.toNat) t') line.toNat) := by
  simp only [snoopRsp, holderOk_of_lt hn, hm, ht, ha, hd]
  rfl

/-- A response that is not the last leaves the transaction waiting. -/
theorem snoopRsp_more (he : (answeredTxn t h.toNat m hasData dirty).await ≠ []) : snoopRsp op keeps hasData dirty h line s = .next
    (answeredState s1 (homeOf s line.toNat) line.toNat h.toNat keeps t (answeredTxn t h.toNat m hasData dirty)) :=
  (snoopRsp_awaited hn hm ht ha hd).trans (next_if_pos (by simpa using he))

/-- The last response to an entry's rebuilding ends that. -/
theorem snoopRsp_rebuilt (he : (answeredTxn t h.toNat m hasData dirty).await = []) (hp : t.phase = .rebuild) :
    snoopRsp op keeps hasData dirty h line s = .next (homeNext (rebuildDone
      (answeredState s1 (homeOf s line.toNat) line.toNat h.toNat keeps t (answeredTxn t h.toNat m hasData dirty))
      (homeOf s line.toNat) (answeredTxn t h.toNat m hasData dirty)) line.toNat) := by
  rw [snoopRsp_awaited hn hm ht ha hd]
  simp only [he, hp]
  rfl

/-- After the last response to a request's snoops the request goes on. -/
theorem snoopRsp_last (he : (answeredTxn t h.toNat m hasData dirty).await = []) (hp : t.phase ≠ .rebuild) :
    snoopRsp op keeps hasData dirty h line s = .next (homeNext (homeAfterSnoop
      (answeredState s1 (homeOf s line.toNat) line.toNat h.toNat keeps t (answeredTxn t h.toNat m hasData dirty))
      (homeOf s line.toNat) (answeredTxn t h.toNat m hasData dirty)) line.toNat) := by
  rw [snoopRsp_awaited hn hm ht ha hd]
  simp only [he, beq_eq_false_iff_ne.mpr hp]
  rfl

end

/-- Settles O38: each snoop by the answer of its holder, each response by whether it is here, awaited, and the last. -/
theorem snoopsComplete : Obligations.SnoopsComplete := by
  intro s s1 h line m n l hm hn came claim taken
  have htaken (c : Instr) (op : BitVec 6) (keeps hasData dirty : Bool) (hx : exec c s = snoopRsp op keeps hasData dirty h line s) :
      taken c op keeps hasData dirty := by
    refine ⟨fun hc t ht ha hd => ⟨fun he => ?more, fun he => ⟨fun hp => ?rebuilt, fun hp => ?last⟩⟩, fun hc ht => ?idle, fun hno => ?unsent⟩
    case more => exact hx.trans (snoopRsp_more hn hc ht ha hd he)
    case rebuilt => exact hx.trans (snoopRsp_rebuilt hn hc ht ha hd he hp)
    case last => exact hx.trans (snoopRsp_last hn hc ht ha hd he hp)
    case idle => exact hx.trans (snoopRsp_idle hn hc ht ..)
    case unsent => exact hx.trans (snoopRsp_unsent hn hno ..)
  exact ⟨fun hc _ _ _ => snoopCmd_arrived hn hc, fun hc _ _ _ => snoopCmd_arrived hn hc, fun hc _ _ _ => snoopCmd_arrived hn hc,
    fun hc _ _ _ => snoopCmd_arrived hn hc, htaken _ _ _ _ _ rfl, htaken _ _ _ _ _ rfl, htaken _ _ _ _ _ rfl, htaken _ _ _ _ _ rfl,
    htaken _ _ _ _ _ rfl, htaken _ _ _ _ _ rfl⟩

end Sys2Proof.Machine
end

section
/-! PROOFS. Grants, acknowledgements, data, refusals and denials complete (R239, R242–R244, R248, R251, R252, R256, R272). -/

namespace Sys2Proof.Machine

/-! ### Folds over the threads of a quad -/

/-- A fold whose steps all leave the state leaves it. -/
theorem foldS_eq_self {σ α : Type} {f : σ → α → σ} {s : σ} {l : List α} (hf : ∀ a ∈ l, f s a = s) : foldS f s l = s := by
  induction l with
  | nil => rfl
  | cons a l ih =>
    obtain ⟨ha, hl⟩ := List.forall_mem_cons.mp hf
    exact (congrArg (foldS f · l) ha).trans (ih hl)

/-- A fold in which one element alone acts, before and after it has, is that element's step. -/
theorem foldS_eq_single {σ α : Type} {f : σ → α → σ} {s : σ} {l : List α} {a : α} (hd : l.Nodup) (ha : a ∈ l)
    (hf : ∀ b ∈ l, b ≠ a → f s b = s ∧ f (f s a) b = f s a) : foldS f s l = f s a := by
  obtain ⟨l1, l2, rfl⟩ := List.append_of_mem ha
  have hother {b : α} (hb : b ∈ l1 ∨ b ∈ l2) : b ≠ a := by
    rintro rfl
    simp [List.nodup_middle, hb] at hd
  have hbefore : foldS f s l1 = s := foldS_eq_self fun b hb => (hf b (by simp [hb]) (hother (.inl hb))).1
  have hafter : foldS f (f s a) l2 = f s a := foldS_eq_self fun b hb => (hf b (by simp [hb]) (hother (.inr hb))).2
  calc foldS f s (l1 ++ a :: l2) = foldS f (f (foldS f s l1) a) l2 := List.foldl_append
    _ = f s a := by rw [hbefore, hafter]

/-- A quad's threads are different. -/
theorem quadThreads_nodup (q : Nat) : (quadThreads q).Nodup := by
  unfold quadThreads
  split
  · exact List.nodup_range.map (fun a b h => Nat.add_left_cancel h)
  · exact List.nodup_nil

/-! ### Grants at the requester (R239, R244) -/

/-- A quad and I/O agent 7 have an L2, and no read buffer (R235). -/
theorem not_agent {n : Nat} (h : n < 64 ∨ n = 71) : (decide (64 ≤ n) && decide (n < 71)) = false := by
  simp only [Bool.and_eq_false_iff, decide_eq_false_iff_not]
  omega

/-- COMP_ACK of holder `n` for a line. -/
def compAcked (s : State) (n line : Nat) : State :=
  sendMsg s { op := 0x28, holder := n, line := line, part := if n < 64 then (quadPart s n).getD 0 else 0 }

section
variable {s s1 : State} {m : Msg} {h : BitVec 7} {line : BitVec 32} {op : BitVec 6} (hn : h.toNat < 72)
  (hm : takeMsg s (fun m => m.op = op && m.holder = h.toNat && m.line = line.toNat) = some (m, s1))
include hn hm

/-- An agent's read buffer takes the line. -/
theorem grantCmd_agent (hlo : 64 ≤ h.toNat) (hhi : h.toNat < 71) (st : LSt) (ue : Bool) : grantCmd op st ue h line s = .next
    (compAcked { s1 with agentBuf := s1.agentBuf ++ [(h.toNat, line.toNat, m.data)] } h.toNat line.toNat) := by
  simp only [grantCmd, holderOk_of_lt hn, hm, hlo, hhi]
  rfl

variable {tr : Track} (hq : h.toNat < 64 ∨ h.toNat = 71) (ht : track s1 h.toNat line.toNat = some tr)
include hq ht

/-- A requester in IS takes the line in S or E. -/
theorem grantCmd_shared {st : LSt} (hst : (st == .M) = false) (hi : tr.st = .IS) (ue : Bool) : grantCmd op st ue h line s = .next
    (compAcked (l2Grant s1 h.toNat line.toNat st m.data ue) h.toNat line.toNat) := by
  simp only [grantCmd, holderOk_of_lt hn, hm, not_agent hq, ht, hst, hi]
  rfl

/-- A requester in IM takes the line in M, and the threads that wait to own it go on. -/
theorem grantCmd_modified (hi : tr.st = .IM) (ue : Bool) : grantCmd op .M ue h line s = .next
    (wakeOwners (compAcked (l2Grant s1 h.toNat line.toNat .M m.data ue) h.toNat line.toNat) h.toNat line.toNat) := by
  simp only [grantCmd, holderOk_of_lt hn, hm, not_agent hq, ht, hi]
  rfl

end

/-- An L2 in SM keeps its data and goes to M. -/
theorem execGntUpg_upgrades {s s1 : State} {m : Msg} {h : BitVec 7} {line : BitVec 32} (hn : h.toNat < 72)
    (hm : takeMsg s (fun m => m.op = 0x23 && m.holder = h.toNat && m.line = line.toNat) = some (m, s1))
    {tr : Track} (ht : track s1 h.toNat line.toNat = some tr) (hi : tr.st = .SM) {x : LSt} {y : CLine}
    (hl : l2 s1 h.toNat line.toNat = some (x, y)) : execGntUpg h line s = .next
      (wakeOwners (sendMsg (setL2 (setTrack s1 h.toNat line.toNat none) h.toNat line.toNat (some (.M, y)))
        { op := 0x28, holder := h.toNat, line := line.toNat }) h.toNat line.toNat) := by
  simp only [execGntUpg, holderOk_of_lt hn, hm, ht, hl, hi]
  rfl

/-! ### Data of a read without a copy (R251) -/

/-- A sound word ends a load of 8 bytes in its register. -/
theorem onceDone_word {s : State} {t pa : Nat} {d : Line} (hi : injArmed s t 1 = false) (hs : isSound (lineWord d (wordInLine pa)) = true)
    (gd : Nat) (signed : Bool) (va iw : Word) (ue : Bool) :
    onceDone t gd pa 8 signed va iw d ue s = .done (wg s t (BitVec.ofNat 6 gd) (lineWord d (wordInLine pa))) := by
  obtain ⟨hp, hf⟩ := sound_not_bad hs
  simp [onceDone, loadFinish, hp, hf, residueOk_sound hi hs]

/-- Four sound words end a vector load in its register. -/
theorem onceDone_lanes {s : State} {t pa : Nat} {d : Line} (hi : injArmed s t 1 = false) (hs : ∀ x ∈ onceLanes d pa, isSound x = true)
    (gd : Nat) (signed : Bool) (va iw : Word) (ue : Bool) :
    onceDone t gd pa 32 signed va iw d ue s = .done (wvAll s t (BitVec.ofNat 5 gd) (onceLanes d pa)) := by
  have hp : (onceLanes d pa).any isPoisoned = false := List.any_eq_false.mpr fun x hx => by simp [sound_not_bad (hs x hx)]
  have hf : (onceLanes d pa).any isFailed = false := List.any_eq_false.mpr fun x hx => by simp [sound_not_bad (hs x hx)]
  cases hfind : (onceLanes d pa).find? isSound with
  | none => simp [onceDone, hp, hf, hfind]
  | some x => simp [onceDone, hp, hf, hfind, residueOk_sound hi (List.find?_some hfind)]

section
variable {s s1 : State} {m : Msg} {h : BitVec 7} {line : BitVec 32} {op : BitVec 6} (hn : h.toNat < 72)
  (hm : takeMsg s (fun m => m.op = op && m.holder = h.toNat && m.line = line.toNat) = some (m, s1))
include hn hm

/-- Data that a thread awaits completes its load. -/
theorem dataOnce_thread {t gd pa size : Nat} {signed : Bool} {va iw : Word} (ht : m.thread = some t)
    (hw : (thr s1 t).wait = some (.once gd pa size signed va iw)) (hp : pa / 64 = line.toNat) (ue : Bool) :
    dataOnce op ue h line s = .next (applyAct t 1 false (onceDone t gd pa size signed va iw m.data ue s1)) := by
  simp only [dataOnce, holderOk_of_lt hn, hm, ht, hw, hp]
  rfl

/-- Data of an agent's read changes nothing at a thread. -/
theorem dataOnce_agent (ht : m.thread = none) (ue : Bool) : dataOnce op ue h line s = .next s1 := by
  simp only [dataOnce, holderOk_of_lt hn, hm, ht]
  rfl

section
variable {t gd pa size : Nat} {signed : Bool} {va iw : Word} (ht : m.thread = some t)
  (hw : (thr s1 t).wait = some (.once gd pa size signed va iw)) (hp : pa / 64 = line.toNat) (hi : injArmed s1 t 1 = false) (ue : Bool)
include ht hw hp hi

/-- A sound word of the data completes a thread's load of 8 bytes. -/
theorem dataOnce_word (h8 : size = 8) (hs : isSound (lineWord m.data (wordInLine pa)) = true) :
    dataOnce op ue h line s = .next (finish (wg s1 t (BitVec.ofNat 6 gd) (lineWord m.data (wordInLine pa))) t 1 false) := by
  rw [dataOnce_thread hn hm ht hw hp, h8, onceDone_word hi hs, applyAct_done]

/-- Four sound words of the data complete a thread's vector load. -/
theorem dataOnce_lanes (h32 : size = 32) (hs : ∀ x ∈ onceLanes m.data pa, isSound x = true) :
    dataOnce op ue h line s = .next (finish (wvAll s1 t (BitVec.ofNat 5 gd) (onceLanes m.data pa)) t 1 false) := by
  rw [dataOnce_thread hn hm ht hw hp, h32, onceDone_lanes hi hs, applyAct_done]

end

end

/-! ### Answers at the home (R242, R243, R256) -/

section
variable {s s1 : State} {m : Msg} {line : BitVec 32} {t : Txn}

/-- COMP_ACK ends the transaction of its line. -/
theorem execCompAck_ends {h : BitVec 7} (hn : h.toNat < 72)
    (hm : takeMsg s (fun m => m.op = 0x28 && m.holder = h.toNat && m.line = line.toNat) = some (m, s1)) :
    execCompAck h line s = .next (homeNext (dropTxn s1 (homeOf s line.toNat) line.toNat) line.toNat) := by
  simp only [execCompAck, holderOk_of_lt hn, hm]
  rfl

/-- A transaction not ended within 1 ms is a breach. -/
theorem execTransactionTimeout_due (ht : txnOf s (homeOf s line.toNat) line.toNat = some t) (hd : t.since + 100000 ≤ s.epoch) :
    execTransactionTimeout line s = .next (protocolBreach s line.toNat t.req.op.toNat) := by
  simp only [execTransactionTimeout, ht, if_pos hd]

variable (ht : txnOf s1 (homeOf s line.toNat) line.toNat = some t)
include ht

/-- Data that the transaction awaits of its channel answers its request. -/
theorem memData_awaited {op : BitVec 6} (hm : takeMsg s (fun m => m.op = op && m.line = line.toNat) = some (m, s1)) (hp : t.phase = .mem)
    (ue : Bool) :
    memData op ue line s = .next (homeNext (homeAnswer s1 (homeOf s line.toNat) t m.data true false ue) line.toNat) := by
  simp only [memData, hm, ht, hp]
  rfl

/-- An accepted write goes on to answer the flush of the same holder, if one awaits it. -/
theorem execMemAck_busy (hm : takeMsg s (fun m => m.op = 0x31 && m.line = line.toNat) = some (m, s1)) : execMemAck line s = .next
    (if t.phase == .flush && m.holder = t.req.holder then
      homeNext (grant s1 (homeOf s line.toNat) t 0x29 Line.unused false) line.toNat else s1) := by
  simp only [execMemAck, hm, ht]

end

/-! ### Other answers at the requester (R182, R184, R248, R252, R54) -/

/-- A thread's prefetch of a refused line is counted, and its entry goes (R182, R195). -/
def sideRefused (line : Nat) (s : State) (t : Nat) : State :=
  if (thr s t).side.any (fun e => e.line == line && !e.filled) then
    sideUpd (pmcCount s t 0x25 1) t (fun z => { z with side := z.side.filter (fun e => !(e.line == line && !e.filled && (e.stride || e.spec))) })
  else s

/-- The thread's miss is noted; where `ra` it enters run-ahead, which is counted (R195). -/
def noted (s : State) (t : Nat) (ra : Bool) : State :=
  let x := updThr s t (fun y => { y with missNoted := true, runAhead := ra })
  if ra then pmcCount x t 0x21 1 else x

/-- What MISS_NOTE does to a thread: one that waits for the line is noted, and enters run-ahead where R184 allows. -/
def missNoted (line : Nat) (s : State) (t : Nat) : State :=
  match (thr s t).wait with
  | some (.fill i k) =>
    if k = line then
      noted s t (raLoad i && bit (getR s .CORE_CTL (t / 4)) 0 && bit (getR s .CORE_THCFG (t / 4) (t % 4)) 2 && !calCritical s t)
    else s
  | _ => s

/-- A counter event leaves every thread (R195). -/
@[simp] theorem thr_pmcCount (s : State) (t ev n u : Nat) : thr (pmcCount s t ev n) u = thr s u := by
  obtain ⟨r, hr⟩ := pmcCount_regs s t ev n
  rw [hr]
  rfl

/-- A note to one thread leaves every other thread. -/
theorem thr_noted_other (s : State) {t u : Nat} (ra : Bool) (h : u ≠ t) : thr (noted s t ra) u = thr s u := by
  cases ra <;> simp [noted, h]

/-- A thread that waits for the line is noted. -/
theorem missNoted_waiting {s : State} {t line : Nat} {i : Instr} (h : (thr s t).wait = some (.fill i line)) : missNoted line s t =
    noted s t (raLoad i && bit (getR s .CORE_CTL (t / 4)) 0 && bit (getR s .CORE_THCFG (t / 4) (t % 4)) 2 && !calCritical s t) := by
  simp only [missNoted, h, if_pos]

/-- A thread that does not wait for the line is left. -/
theorem missNoted_eq_self {s : State} {t line : Nat} (h : ¬ ∃ i, (thr s t).wait = some (.fill i line)) : missNoted line s t = s := by
  unfold missNoted
  split
  · next i k hw =>
    rw [if_neg]
    rintro rfl
    exact h ⟨i, hw⟩
  · rfl

/-- MISS_NOTE for one thread leaves every other. -/
theorem thr_missNoted_other (s : State) {t u : Nat} (line : Nat) (h : u ≠ t) : thr (missNoted line s t) u = thr s u := by
  unfold missNoted
  split
  · split
    · exact thr_noted_other s _ h
    · rfl
  · rfl

/-- Of a quad's threads one alone waits for the line: it alone is noted. -/
theorem foldS_missNoted_single {s : State} {q t line : Nat} (ht : t ∈ quadThreads q)
    (hother : ∀ u ∈ quadThreads q, u ≠ t → ¬ ∃ i, (thr s u).wait = some (.fill i line)) :
    foldS (missNoted line) s (quadThreads q) = missNoted line s t := by
  refine foldS_eq_single (quadThreads_nodup q) ht fun u hu hne => ⟨missNoted_eq_self (hother u hu hne), missNoted_eq_self ?_⟩
  rw [thr_missNoted_other s line hne]
  exact hother u hu hne

/-- A line's writeback buffer is freed once the write is complete (R244). -/
def writebackFreed (s : State) (n line : Nat) : State :=
  match track s n line with
  | some tr => if tr.st == .MI || tr.st == .EI || tr.st == .SI then setTrack s n line none else s
  | none => s

/-- The thread whose write is acknowledged goes on. -/
def writeAcked (s : State) (who : Option Nat) (line : Nat) : State :=
  match who with
  | some t =>
    match (thr s t).wait with
    | some (.wrAck a) => if a = line then finish s t 1 false else s
    | _ => s
  | none => s

/-- A thread that waits for the acknowledgement goes on. -/
theorem writeAcked_waiting {s : State} {t line : Nat} (h : (thr s t).wait = some (.wrAck line)) :
    writeAcked s (some t) line = finish s t 1 false := by
  simp only [writeAcked, h, if_pos]

/-- Loads that waited for the writeback ask for their line, and stores that waited for its end go on (R244). -/
def writeEnded (s : State) (n line : Nat) : State :=
  foldS (fun s t => wakeIf s t (fun w => match w with | .own _ a => a == line | _ => false))
    (foldS (fun s t => sideRequest s t line .load) s (fillWaiters s n line)) (quadThreads n)

section
variable {s s1 : State} {m : Msg} {h : BitVec 7} {line : BitVec 32} (hn : h.toNat < 72)
include hn

/-- MISS_NOTE passes over the threads of the quad. -/
theorem execMissNote_arrived (hm : takeMsg s (fun m => m.op = 0x27 && m.holder = h.toNat && m.line = line.toNat) = some (m, s1)) :
    execMissNote h line s = .next (foldS (missNoted line.toNat) s1 (quadThreads h.toNat)) := by
  simp only [execMissNote, holderOk_of_lt hn, hm]
  rfl

/-- A refusal is counted, what was prefetched of the line goes, and its waiting loads read again. -/
theorem execRefused_arrived (hm : takeMsg s (fun m => m.op = 0x25 && m.holder = h.toNat && m.line = line.toNat) = some (m, s1)) :
    execRefused h line s = .next
      (let x := setTrack (if h.toNat < 64 then updR s1 .QUAD_COH (fun w => satInc w 23 0) h.toNat else s1) h.toNat line.toNat none
       let y := foldS (sideRefused line.toNat) x (quadThreads h.toNat)
       if (fillWaiters y h.toNat line.toNat).isEmpty then y
       else foldS (fun z t => sideRequest z t line.toNat .load) y (fillWaiters y h.toNat line.toNat)) := by
  simp only [execRefused, holderOk_of_lt hn, hm]
  rfl

section
variable (hm : takeMsg s (fun m => m.op = 0x26 && m.holder = h.toNat && m.line = line.toNat) = some (m, s1))
include hm

/-- A thread's load that its home denies has the outcome of an address that nothing holds. -/
theorem execDenied_load {t gd pa size : Nat} {signed : Bool} {va iw : Word} (ht : m.thread = some t)
    (hw : (thr s1 t).wait = some (.once gd pa size signed va iw)) : execDenied h line s = .next (applyAct t 1 false
      (if size = 32 then .done (wvAll (threadUnmapped s1 t 1 pa) t (BitVec.ofNat 5 gd) (List.replicate 4 (poison 0)))
       else .done (wg (threadUnmapped s1 t 1 pa) t (BitVec.ofNat 6 gd) (poison 0)))) := by
  simp only [execDenied, holderOk_of_lt hn, hm, ht, hw]
  rfl

/-- A thread's store that its home denies completes, recorded. -/
theorem execDenied_store {t a : Nat} (ht : m.thread = some t) (hw : (thr s1 t).wait = some (.wrAck a)) :
    execDenied h line s = .next (finish (threadUnmapped s1 t 2 (64 * a)) t 1 false) := by
  simp only [execDenied, holderOk_of_lt hn, hm, ht, hw]
  rfl

/-- A quad's own request that its home denies is forgotten, and what waited for it goes on. -/
theorem execDenied_quad (ht : m.thread = none) : execDenied h line s = .next
    (let x := setTrack s1 h.toNat line.toNat none
     let y := foldS (fun y t => sideUpd y t (fun z => { z with side := z.side.filter (fun e => e.line != line.toNat) })) x (quadThreads h.toNat)
     wakeOwners (foldS (fun z t => wakeIf z t (fun _ => true)) y (fillWaiters x h.toNat line.toNat)) h.toNat line.toNat) := by
  simp only [execDenied, holderOk_of_lt hn, hm, ht]
  rfl

end

section
variable (hm : takeMsg s (fun m => m.op = 0x29 && m.holder = h.toNat && m.line = line.toNat) = some (m, s1))
include hm

/-- An acknowledged write frees its buffer, and what waited for it goes on. -/
theorem execWrAck_arrived : execWrAck h line s = .next
    (writeEnded (writeAcked (writebackFreed s1 h.toNat line.toNat) m.thread line.toNat) h.toNat line.toNat) := by
  simp only [execWrAck, holderOk_of_lt hn, hm]
  rfl

/-- It completes the instruction of the thread that waited for it. -/
theorem execWrAck_thread {t : Nat} (ht : m.thread = some t)
    (hw : (thr (writebackFreed s1 h.toNat line.toNat) t).wait = some (.wrAck line.toNat)) : execWrAck h line s = .next
      (writeEnded (finish (writebackFreed s1 h.toNat line.toNat) t 1 false) h.toNat line.toNat) := by
  rw [execWrAck_arrived hn hm, ht, writeAcked_waiting hw]

/-- A write of no thread leaves the threads' own waits. -/
theorem execWrAck_quad (ht : m.thread = none) : execWrAck h line s = .next
    (writeEnded (writebackFreed s1 h.toNat line.toNat) h.toNat line.toNat) := by
  rw [execWrAck_arrived hn hm, ht]
  rfl

end

end

/-- Settles O39: each message by the lemma that says what it does where it is awaited. -/
theorem grantsComplete : Obligations.GrantsComplete := by
  intro s s1 h line m tr n l hm hn ends got atHome ack kept waits
  refine ⟨fun hlo hhi => ?agent, fun hq ht => ⟨fun hi => ?shared, fun hi => ?modified, fun hi x y hl hg => ?upgraded⟩,
    fun t gd pa size sg va iw ht hw hp => ⟨fun hg => ?once, fun hg => ?onceUe, fun hi => ⟨fun h8 hs => ?word, fun h32 hs => ?lanes⟩⟩,
    fun ht => ?agentOnce, fun hg => execCompAck_ends hn hg, fun t ht => ⟨fun hp => ?memData, fun hp hh hg => ?flushed, fun hp hg => ?written⟩,
    fun t ht hd => execTransactionTimeout_due ht hd, fun hg => ?refused, fun hg => ⟨fun t ht => ⟨?deniedLoad, ?deniedStore⟩, ?deniedQuad⟩,
    fun hg => ⟨fun hno => ?unnoted, fun t i ht hw hother => ?noted⟩, fun hg => ⟨fun t ht hw => ?wrAckThread, fun ht => ?wrAckQuad⟩⟩
  case agent =>
    exact ⟨fun hg => grantCmd_agent hn hg hlo hhi .., fun hg => grantCmd_agent hn hg hlo hhi .., fun hg => grantCmd_agent hn hg hlo hhi ..,
      fun hg => grantCmd_agent hn hg hlo hhi .., fun hg => grantCmd_agent hn hg hlo hhi .., fun hg => grantCmd_agent hn hg hlo hhi ..⟩
  case shared =>
    exact ⟨fun hg => grantCmd_shared hn hg hq ht rfl hi _, fun hg => grantCmd_shared hn hg hq ht rfl hi _,
      fun hg => grantCmd_shared hn hg hq ht rfl hi _, fun hg => grantCmd_shared hn hg hq ht rfl hi _⟩
  case modified => exact ⟨fun hg => grantCmd_modified hn hg hq ht hi _, fun hg => grantCmd_modified hn hg hq ht hi _⟩
  case upgraded => exact execGntUpg_upgrades hn hg ht hi hl
  case once => exact dataOnce_thread hn hg ht hw hp _
  case onceUe => exact dataOnce_thread hn hg ht hw hp _
  case word => exact ⟨fun hg => dataOnce_word hn hg ht hw hp hi _ h8 hs, fun hg => dataOnce_word hn hg ht hw hp hi _ h8 hs⟩
  case lanes => exact ⟨fun hg => dataOnce_lanes hn hg ht hw hp hi _ h32 hs, fun hg => dataOnce_lanes hn hg ht hw hp hi _ h32 hs⟩
  case agentOnce => exact ⟨fun hg => dataOnce_agent hn hg ht _, fun hg => dataOnce_agent hn hg ht _⟩
  case memData => exact ⟨fun hg => memData_awaited ht hg hp _, fun hg => memData_awaited ht hg hp _⟩
  case flushed => exact (execMemAck_busy ht hg).trans (next_if_pos (by simp [hp, hh]))
  case written =>
    exact (execMemAck_busy ht hg).trans (next_if_neg (by simpa [← imp_iff_not_or] using hp))
  case refused =>
    simp only [← List.isEmpty_iff]
    exact execRefused_arrived hn hg
  case deniedLoad =>
    exact fun gd pa size sg va iw hw => ⟨fun h32 => (execDenied_load hn hg ht hw).trans (by rw [if_pos h32, applyAct_done]),
      fun h32 => (execDenied_load hn hg ht hw).trans (by rw [if_neg h32, applyAct_done])⟩
  case deniedStore => exact fun a hw => execDenied_store hn hg ht hw
  case deniedQuad => exact fun ht => execDenied_quad hn hg ht
  case unnoted =>
    exact (execMissNote_arrived hn hg).trans (congrArg _ (foldS_eq_self fun u hu => missNoted_eq_self (hno u hu)))
  case noted =>
    exact (execMissNote_arrived hn hg).trans (congrArg _ ((foldS_missNoted_single ht hother).trans (missNoted_waiting hw)))
  case wrAckThread => exact execWrAck_thread hn hg ht hw
  case wrAckQuad => exact execWrAck_quad hn hg ht

end Sys2Proof.Machine
end

section
/-! PROOFS. The requests of a host complete on a port that is up (R250, R251, R392–R402, R409, R410). -/

namespace Sys2Proof.Machine

/-- A check that passes leads on. -/
theorem next_check_passed {b : Bool} (h : b = true) {s t : State} :
    (.next (if !b then s else t) : Host.Outcome State Fault Refusal) = .next t := by rw [h]; rfl

/-- A check that fails ends in its refusal. -/
theorem next_check_failed {b : Bool} (h : b = false) {s t : State} :
    (.next (if !b then s else t) : Host.Outcome State Fault Refusal) = .next s := by rw [h]; rfl

/-- Forgetting what was sent leaves the port's link. -/
@[simp] theorem hostUp_txClear (s : State) (h : Nat) : hostUp (txClear s) h = hostUp s h := rfl

/-- The checks of a BAR access of 4 or 8 bytes at an aligned offset all pass (R396, R397). -/
theorem barChecks_pass {w : State} {n o : Nat} {z : BitVec 4} (hz : z = 4 ∨ z = 8) (hm : hostMemOk w n = true) (ho : o % z.toNat = 0) :
    (!hostMemOk w n || (decide (z.toNat ≠ 4) && decide (z.toNat ≠ 8)) || decide (o % z.toNat ≠ 0)) = false := by
  obtain rfl | rfl := hz <;> simpa [hm] using ho

section
variable {s : State} {h : BitVec 1} (hu : hostUp s h.toNat = true)
include hu

/-! ### Configuration, DOE and the ROM (R392–R394, R398) -/

/-- A configuration request waits for the port to be ready, and then reads or writes. -/
theorem execHostConfigRequest_up (write : Bool) (dw : BitVec 10) (be : BitVec 4) (v : BitVec 32) :
    execHostConfigRequest h write dw be v s = .next
      (let s0 := txClear s
       if !hostReady s0 h.toNat then tx s0 (.cpl h.toNat 2 false [])
       else if write then cfgWrite (tx s0 (.cpl h.toNat 0 false [])) h.toNat dw.toNat be v.toNat
       else tx s0 (.cpl h.toNat 0 false (leBytes 4 (cfgRead s0 h.toNat dw.toNat)))) :=
  next_if_neg (by simp [hu])

/-- DOE takes an object on a port that is ready. -/
theorem execDoeRequest_ready (hr : hostReady s h.toNat = true) (vendor : BitVec 16) (ty : BitVec 8) (obj : List (BitVec 8)) :
    execDoeRequest h vendor ty obj s = .next (doeTake s h.toNat vendor.toNat ty.toNat obj) := next_if_pos (by simp [hu, hr])

/-- DOE is aborted on a port that is ready. -/
theorem execDoeAbort_ready (hr : hostReady s h.toNat = true) : execDoeAbort h s = .next (doeAbort s h.toNat) :=
  next_if_pos (by simp [hu, hr])

/-- The ROM is read while its BAR and Memory Space are enabled. -/
theorem execHostRomRead_up (off : BitVec 20) (len : BitVec 13) : execHostRomRead h off len s = .next
    (let s0 := txClear s
     if !hostMemOk s0 h.toNat || !(cfgDw s0 h.toNat 12).testBit 0 then unsupported s0 h.toNat false 0 0
     else tx s0 (.cpl h.toNat 0 false ((List.range len.toNat).map (fun i => romAt s0 h.toNat (off.toNat + i))))) :=
  next_if_neg (by simp [hu])

/-! ### Device memory (R250, R251, R54, R57, R361) -/

/-- The checks of a host's memory write, from the link on (Table 16-9, Table 15-1). -/
theorem execHostMemoryWrite_up (a : Word) (bytes : List (BitVec 8)) (ep ecrc : Bool) (replays : BitVec 8) (hdr0 hdr1 : Word) :
    execHostMemoryWrite h a bytes ep ecrc replays hdr0 hdr1 s = .next
      (let w := lcrcErrors (linkWake (txClear s) h.toNat) h.toNat replays.toNat hdr0 hdr1
       if bytes.isEmpty then w
       else if !ecrc then hostError w h.toNat 3 hdr0 hdr1
       else if !hostMemOk w h.toNat then unsupported w h.toNat true hdr0 hdr1
       else
         let x := if ep then hostError w h.toNat 2 hdr0 hdr1 else w
         if hostWorld x a.toNat bytes.length then hostDenied x h.toNat a.toNat hdr0 hdr1
         else if hostUnmapped x a.toNat bytes.length then
           unsupported (recordUnmapped x (hostStop h.toNat) 0 0 5 a.toNat false) h.toNat true hdr0 hdr1
         else agentWriteBytes x a.toNat bytes ep (hostAgent h.toNat)) :=
  next_if_neg (by simp [hu])

/-- The checks of a host's memory read. -/
theorem execHostMemoryRead_up (a : Word) {len : BitVec 13} (hl : len ≠ 0) (ecrc : Bool) (hdr0 hdr1 : Word) :
    execHostMemoryRead h a len ecrc hdr0 hdr1 s = .next
      (let w := linkWake (txClear s) h.toNat
       if !ecrc then hostError w h.toNat 3 hdr0 hdr1
       else if !hostMemOk w h.toNat then unsupported w h.toNat false hdr0 hdr1
       else if hostWorld w a.toNat len.toNat then tx (hostDenied w h.toNat a.toNat hdr0 hdr1) (.cpl h.toNat 4 false [])
       else if hostUnmapped w a.toNat len.toNat then
         unsupported (recordUnmapped w (hostStop h.toNat) 0 0 5 a.toNat false) h.toNat false hdr0 hdr1
       else
         let (bytes, sound, x) := agentBytes w a.toNat len.toNat (hostAgent h.toNat)
         tx (if !sound then alm x 0x9012 4 10 h.toNat (lo32 a.toNat) (hi32 a.toNat) else x) (.cpl h.toNat 0 (!sound) bytes)) :=
  next_if_neg (by simpa [hu] using hl)

/-! ### The BARs (R396, R397, R401) -/

/-- A BAR0 access with Memory Space disabled is unsupported. -/
theorem execHostBar0Access_closed (hm : hostMemOk (linkWake (txClear s) h.toNat) h.toNat = false) (write : Bool) (off : BitVec 26)
    (z : BitVec 4) (val : Word) (ep : Bool) (hdr0 hdr1 : Word) : execHostBar0Access h write off z val ep hdr0 hdr1 s = .next
      (unsupported (linkWake (txClear s) h.toNat) h.toNat write hdr0 hdr1) :=
  (next_if_neg (by simp [hu])).trans (next_if_pos (by simp [hm]))

/-- A BAR2 access with Memory Space disabled is unsupported. -/
theorem execHostBar2Access_closed (hm : hostMemOk (linkWake (txClear s) h.toNat) h.toNat = false) (write : Bool) (off : BitVec 28)
    (z : BitVec 4) (val : Word) (pasid : Option (BitVec 20)) (ep : Bool) (hdr0 hdr1 : Word) :
    execHostBar2Access h write off z val pasid ep hdr0 hdr1 s = .next
      (unsupported (linkWake (txClear s) h.toNat) h.toNat write hdr0 hdr1) :=
  (next_if_neg (by simp [hu])).trans (next_if_pos (by simp [hm]))

section
variable {z : BitVec 4} (hz : z = 4 ∨ z = 8) (hm : hostMemOk (linkWake (txClear s) h.toNat) h.toNat = true) (write : Bool) (val : Word)
  (ep : Bool) (hdr0 hdr1 : Word)
include hz hm

section
variable {off : BitVec 26} (ho : off.toNat % z.toNat = 0)
include ho

/-- An access to a part of BAR0 that nothing takes: a write is dropped, and a read is 0. -/
theorem execHostBar0Access_none (ht : bar0Target (linkWake (txClear s) h.toNat) h.toNat off.toNat = .none) :
    execHostBar0Access h write off z val ep hdr0 hdr1 s = .next
      (let w := linkWake (txClear s) h.toNat
       if write then w else tx w (.cpl h.toNat 0 false (laneBytes off.toNat z.toNat 0))) := by
  simp only [execHostBar0Access, hostUp_txClear, hu, barChecks_pass hz hm ho, ht]
  rfl

/-- An access to the MSI-X table or PBA. -/
theorem execHostBar0Access_msix {m : Nat} (ht : bar0Target (linkWake (txClear s) h.toNat) h.toNat off.toNat = .msix m) :
    execHostBar0Access h write off z val ep hdr0 hdr1 s = .next
      (let w := linkWake (txClear s) h.toNat
       if write then barWrite w h.toNat m ep hdr0 hdr1
         (fun x => msixWrite x h.toNat (m / 8 * 8) (laneValue off.toNat z.toNat val) (laneMask off.toNat z.toNat))
       else tx w (.cpl h.toNat 0 false (laneBytes off.toNat z.toNat (msixWord w h.toNat (m / 8 * 8))))) := by
  simp only [execHostBar0Access, hostUp_txClear, hu, barChecks_pass hz hm ho, ht]
  rfl

section
variable {a : Nat} (ht : bar0Target (linkWake (txClear s) h.toNat) h.toNat off.toNat = .reg a)
  (hc : addrCls (linkWake (txClear s) h.toNat) a = .register)
include ht hc

/-- An access to a register of the module. -/
theorem execHostBar0Access_reg (hb : isBowlAddr a = false) : execHostBar0Access h write off z val ep hdr0 hdr1 s = .next
    (let w := linkWake (txClear s) h.toNat
     let r := readReg w (barWho w h) a (laneMask off.toNat z.toNat)
     if write then barWrite w h.toNat a ep hdr0 hdr1
       (fun x => writeReg x (barWho x h) a (laneValue off.toNat z.toNat val) (laneMask off.toNat z.toNat))
     else tx r.2 (.cpl h.toNat 0 false (laneBytes off.toNat z.toNat r.1))) := by
  simp only [execHostBar0Access, hostUp_txClear, hu, barChecks_pass hz hm ho, ht, hc, hb]
  rfl

/-- Bowline's registers are denied to a host (R8). -/
theorem execHostBar0Access_bowl (hb : isBowlAddr a = true) : execHostBar0Access h write off z val ep hdr0 hdr1 s = .next
    (let w := hostDenied (linkWake (txClear s) h.toNat) h.toNat a hdr0 hdr1
     if write then w else tx w (.cpl h.toNat 4 false [])) := by
  simp only [execHostBar0Access, hostUp_txClear, hu, barChecks_pass hz hm ho, ht, hc, hb]
  rfl

end

end

/-- A BAR2 access to the page of a slice, which accepts it or does not. -/
theorem execHostBar2Access_page {off : BitVec 28} (ho : off.toNat % 65536 % z.toNat = 0) (pasid : Option (BitVec 20)) :
    execHostBar2Access h write off z val pasid ep hdr0 hdr1 s = .next
      (let w := linkWake (txClear s) h.toNat
       let m := off.toNat / 65536
       let o := off.toNat % 65536
       if !barAccepted w h.toNat m pasid then
         let x := barRefused w h.toNat m
         if write then x else tx x (.cpl h.toNat 0 false (laneBytes o z.toNat 0))
       else if write then barWrite w h.toNat off.toNat ep hdr0 hdr1 (fun x => pageWrite x m h o (laneValue o z.toNat val) (laneMask o z.toNat))
       else tx w (.cpl h.toNat 0 false (laneBytes o z.toNat (pageRead w m h o)))) := by
  simp only [execHostBar2Access, hostUp_txClear, hu, barChecks_pass hz hm ho]
  rfl

end

end

/-! ### MSI-X (R402) -/

section
variable {s : State} {h : BitVec 1} {e : BitVec 13} (he : e.toNat < 4160) (hd : (msixEnt (txClear s) h.toNat e.toNat).due = true)
include he hd

/-- A message that something blocks is held: it is pending. -/
theorem execMsixSend_blocked (hb : msixBlocked (txClear s) h.toNat e.toNat = true) : execMsixSend h e s = .next
    (updR (setMsix (txClear s) h.toNat e.toNat { msixEnt (txClear s) h.toNat e.toNat with due := false, pending := true })
      .HOST_CNT (fun w => satInc w 31 0) h.toNat 7) := by
  simp only [execMsixSend, if_neg (Nat.not_le.mpr he), msixSend, hd, hb]
  rfl

/-- A message that nothing blocks is sent, and is no longer due. -/
theorem execMsixSend_sent (hb : msixBlocked (txClear s) h.toNat e.toNat = false) : ∃ x, execMsixSend h e s = .next x ∧
    x.hostTx = [.msg h.toNat (msixEnt (txClear s) h.toNat e.toNat).addr (msixEnt (txClear s) h.toNat e.toNat).data] ∧
    (msixEnt x h.toNat e.toNat).due = false := by
  refine ⟨msixSend (txClear s) h.toNat e.toNat, if_neg (Nat.not_le.mpr he), ?_⟩
  simp only [msixSend, hd, hb]
  refine ⟨rfl, ?_⟩
  simp [msixEnt, setMsix, SMap.get_set_same]

end

/-- Settles O33: each request by the checks that it passes, and what then serves or refuses it. -/
theorem hostAccessesComplete : Obligations.HostAccessesComplete := by
  intro s h hdr0 hdr1 val n s0 ends hu
  refine ⟨fun dw be v => ⟨fun hr => ?config, fun hr wr => ?retry⟩,
    fun hr ve ty obj => ⟨execDoeRequest_ready hu hr ve ty obj, execDoeAbort_ready hu hr⟩, fun hb obj => next_if_pos hb,
    fun posted => next_if_pos hu, fun off len => ⟨fun hm hrom => ?rom, fun hoff => ?romOff⟩,
    fun a bytes ep ecrc replays => ?write, fun a len ecrc hl => ?read,
    fun z ep hz => ⟨fun hm wr off pasid => ⟨execHostBar0Access_closed hu hm .., fun off' => execHostBar2Access_closed hu hm ..⟩,
      fun hm => ⟨fun off ho => ?bar0, fun off pasid ho => ?bar2⟩⟩,
    fun e he hd => ⟨execMsixSend_blocked he hd, execMsixSend_sent he hd⟩⟩
  case config =>
    have served (write : Bool) := (execHostConfigRequest_up hu write dw be v).trans (next_check_passed hr)
    exact ⟨served true, served false⟩
  case retry => exact (execHostConfigRequest_up hu wr dw be v).trans (next_check_failed hr)
  case rom => exact (execHostRomRead_up hu off len).trans (next_if_neg (by rw [hm, hrom]; nofun))
  case romOff => exact (execHostRomRead_up hu off len).trans (next_if_pos (by simpa using hoff))
  case write =>
    have hup := execHostMemoryWrite_up hu a bytes ep ecrc replays hdr0 hdr1
    refine ⟨fun hb => hup.trans (next_if_pos (by simp [hb])), fun hb => ?_⟩
    have hsome := hup.trans (next_if_neg (by simp [hb]))
    refine ⟨fun hx => hsome.trans (next_check_failed hx), fun hx => ?_⟩
    have hwhole := hsome.trans (next_check_passed hx)
    refine ⟨fun hm => hwhole.trans (next_check_failed hm), fun hm => ?_⟩
    have hopen := hwhole.trans (next_check_passed hm)
    refine ⟨fun hw => hopen.trans (next_if_pos hw), fun hw => ?_⟩
    have hnormal := hopen.trans (next_if_neg (Bool.eq_false_iff.mp hw))
    exact ⟨fun hd => hnormal.trans (next_if_pos hd), fun hd => hnormal.trans (next_if_neg (Bool.eq_false_iff.mp hd))⟩
  case read =>
    have hup := execHostMemoryRead_up hu a hl ecrc hdr0 hdr1
    refine ⟨fun hx => hup.trans (next_check_failed hx), fun hx => ?_⟩
    have hwhole := hup.trans (next_check_passed hx)
    refine ⟨fun hm => hwhole.trans (next_check_failed hm), fun hm => ?_⟩
    have hopen := hwhole.trans (next_check_passed hm)
    refine ⟨fun hw => hopen.trans (next_if_pos hw), fun hw => ?_⟩
    have hnormal := hopen.trans (next_if_neg (Bool.eq_false_iff.mp hw))
    refine ⟨fun hd => hnormal.trans (next_if_pos hd), fun bytes x hd => ?_⟩
    have hdram := hnormal.trans (next_if_neg (Bool.eq_false_iff.mp hd))
    exact ⟨fun hb => hdram.trans (by rw [hb]; rfl), fun hb => hdram.trans (by rw [hb]; rfl)⟩
  case bar0 =>
    exact ⟨fun ht => ⟨execHostBar0Access_none hu hz hm true val ep hdr0 hdr1 ho ht,
          execHostBar0Access_none hu hz hm false val ep hdr0 hdr1 ho ht⟩,
      fun m ht => ⟨execHostBar0Access_msix hu hz hm true val ep hdr0 hdr1 ho ht,
          execHostBar0Access_msix hu hz hm false val ep hdr0 hdr1 ho ht⟩,
      fun a ht hc => ⟨fun hb => ⟨execHostBar0Access_reg hu hz hm true val ep hdr0 hdr1 ho ht hc hb,
          execHostBar0Access_reg hu hz hm false val ep hdr0 hdr1 ho ht hc hb⟩,
        fun hb => ⟨execHostBar0Access_bowl hu hz hm true val ep hdr0 hdr1 ho ht hc hb,
          execHostBar0Access_bowl hu hz hm false val ep hdr0 hdr1 ho ht hc hb⟩⟩⟩
  case bar2 =>
    have page (write : Bool) := execHostBar2Access_page hu hz hm write val ep hdr0 hdr1 ho pasid
    exact ⟨fun hacc => ⟨(page true).trans (next_check_passed hacc), (page false).trans (next_check_passed hacc)⟩,
      fun hacc => ⟨(page true).trans (next_check_failed hacc), (page false).trans (next_check_failed hacc)⟩⟩

end Sys2Proof.Machine
end

section
/-! PROOFS. The word code corrects single errors and detects double errors (R262, R263): its 80 columns differ and have odd weight, so
the sum of two of them has even weight and is no column. -/

namespace Sys2Proof.Machine

/-! ### The weight of a syndrome -/

/-- The parity of the number of elements that satisfy exactly one of two predicates. -/
theorem length_filter_xor_mod_two {α : Type} (p q : α → Bool) (l : List α) :
    (l.filter (fun a => p a ^^ q a)).length % 2 = ((l.filter p).length + (l.filter q).length) % 2 := by
  induction l with
  | nil => rfl
  | cons a l ih => cases hp : p a <;> cases hq : q a <;> simp [hp, hq] <;> omega

/-- The weight of a sum has the parity of the weights' sum. -/
theorem ones8_xor_mod_two (m n : Nat) : ones8 (m ^^^ n) % 2 = (ones8 m + ones8 n) % 2 := by
  simp only [ones8, Nat.testBit_xor]
  exact length_filter_xor_mod_two _ _ _

/-! ### The columns (R262) -/

/-- The columns of the code: those of word bits 0 to 71, then those of the check bits. -/
def codeColumns : List Nat := wordColumns ++ (List.range 8).map (2 ^ ·)

theorem length_wordColumns : wordColumns.length = 72 := by decide +kernel

theorem length_codeColumns : codeColumns.length = 80 := by decide +kernel

theorem codeColumns_nodup : codeColumns.Nodup := by decide +kernel

/-- Every column is a byte of odd weight. -/
theorem codeColumns_odd : ∀ c ∈ codeColumns, c < 256 ∧ ones8 c % 2 = 1 := by decide +kernel

/-- No column of a word bit has weight 1. -/
theorem wordColumns_heavy : ∀ c ∈ wordColumns, ones8 c ≠ 1 := by decide +kernel

/-- The column of bit `i` as a syndrome. -/
def codeColumn (i : Nat) : Byte := BitVec.ofNat 8 (codeColumns.getD i 0)

theorem codeColumn_word {i : Nat} (hi : i < 72) : codeColumn i = BitVec.ofNat 8 (wordColumns.getD i 0) := by
  rw [codeColumn, codeColumns, List.getD_append _ _ _ _ (by rwa [length_wordColumns])]

theorem codeColumn_check {i : Nat} (hi : i < 8) : codeColumn (72 + i) = 1#8 <<< i := by
  rw [codeColumn, codeColumns, List.getD_append_right _ _ _ _ (by rw [length_wordColumns]; omega), length_wordColumns, Nat.add_sub_cancel_left]
  decide +revert

theorem toNat_codeColumn {i : Nat} (hi : i < codeColumns.length) : (codeColumn i).toNat = codeColumns[i] := by
  rw [codeColumn, List.getD_eq_getElem _ _ hi, BitVec.toNat_ofNat, Nat.mod_eq_of_lt (codeColumns_odd _ (List.getElem_mem hi)).1]

theorem ones8_codeColumn {i : Nat} (hi : i < 80) : ones8 (codeColumn i).toNat % 2 = 1 := by
  have hl : i < codeColumns.length := by rwa [length_codeColumns]
  rw [toNat_codeColumn hl]
  exact (codeColumns_odd _ (List.getElem_mem hl)).2

theorem codeColumn_injective {i j : Nat} (hi : i < 80) (hj : j < 80) (h : codeColumn i = codeColumn j) : i = j := by
  rw [← length_codeColumns] at hi hj
  have hc : codeColumns[i] = codeColumns[j] := by rw [← toNat_codeColumn hi, ← toNat_codeColumn hj, h]
  exact (List.Nodup.getElem_inj_iff codeColumns_nodup).mp hc

/-- A syndrome equal to the column of word bit `i` is found at `i`. -/
theorem findIdx?_wordColumn {i : Nat} (hi : i < 72) : wordColumns.findIdx? (fun c => c == (codeColumn i).toNat) = some i := by
  have hl : i < wordColumns.length := by rwa [length_wordColumns]
  have hcol {j : Nat} (hj : j < wordColumns.length) : (codeColumn j).toNat = wordColumns[j] := by
    rw [toNat_codeColumn (by rw [length_codeColumns]; rw [length_wordColumns] at hj; omega)]
    exact List.getElem_append_left hj
  rw [List.findIdx?_eq_some_iff_getElem]
  refine ⟨hl, by simp [hcol hl], fun j hji hjc => ?_⟩
  have hj : j < wordColumns.length := hji.trans hl
  rw [beq_iff_eq, ← hcol hj] at hjc
  rw [length_wordColumns] at hj
  exact hji.ne (codeColumn_injective (by omega) (by omega) (BitVec.eq_of_toNat_eq hjc))

/-! ### Decoding (Table 10-3) -/

/-- The column of word bit `i` flips that bit: of the value, or of the tally from bit 64 on. -/
theorem wordDecode_codeColumn (w : TWord) {i : Nat} (hi : i < 72) : wordDecode w (codeColumn i) =
    if i < 64 then .corrected ⟨w.val ^^^ maskBits i i, w.tal⟩ else .corrected ⟨w.val, w.tal ^^^ BitVec.ofNat 8 (2 ^ (i - 64))⟩ := by
  have hnonzero : codeColumn i ≠ 0 := fun h => absurd (ones8_codeColumn (i := i) (by omega)) (by rw [h]; decide)
  have hheavy : ones8 (codeColumn i).toNat ≠ 1 := by
    have hl : i < wordColumns.length := by rwa [length_wordColumns]
    have hlt : wordColumns[i] < 256 := (codeColumns_odd _ (List.mem_append_left _ (List.getElem_mem hl))).1
    rw [codeColumn_word hi, List.getD_eq_getElem _ _ hl, BitVec.toNat_ofNat, Nat.mod_eq_of_lt hlt]
    exact wordColumns_heavy _ (List.getElem_mem hl)
  rw [wordDecode, if_neg hnonzero, if_neg hheavy, findIdx?_wordColumn hi]

/-- A check bit's column leaves the word. -/
theorem wordDecode_checkColumn (w : TWord) {i : Nat} (hi : i < 8) : wordDecode w (1#8 <<< i) = .corrected w := by
  have hnonzero : 1#8 <<< i ≠ 0 := by decide +revert
  have hone : ones8 (1#8 <<< i).toNat = 1 := by decide +revert
  rw [wordDecode, if_neg hnonzero, if_pos hone]

/-- A nonzero syndrome of even weight is uncorrectable. -/
theorem wordDecode_even (w : TWord) {y : Byte} (h0 : y ≠ 0) (he : ones8 y.toNat % 2 = 0) : wordDecode w y = .uncorrectable := by
  have hone : ones8 y.toNat ≠ 1 := by omega
  have hnone : wordColumns.findIdx? (fun c => c == y.toNat) = none := by
    rw [List.findIdx?_eq_none_iff]
    intro c hc
    rw [beq_eq_false_iff_ne]
    rintro rfl
    have hodd := (codeColumns_odd _ (List.mem_append_left _ hc)).2
    omega
  rw [wordDecode, if_neg h0, if_neg hone, hnone]

/-- The mask of one bit. -/
theorem maskBits_self (i : Nat) : maskBits i i = 1#64 <<< i := by
  apply BitVec.eq_of_toNat_eq
  rw [maskBits, w64, Nat.add_sub_cancel_left, BitVec.toNat_ofNat, BitVec.toNat_shiftLeft, Nat.shiftLeft_eq]
  rfl

/-- Settles O53: a single error by its column's place, a double error by the even weight of the sum of two distinct columns. -/
theorem wordCodeCorrects : Obligations.WordCodeCorrects := by
  intro w
  refine ⟨rfl, fun i hi => ?value, fun i hi => ?tally, fun i hi => wordDecode_checkColumn w hi, fun i hi j hj hij => ?double⟩
  case value => rw [← codeColumn_word (by omega), wordDecode_codeColumn w (by omega), if_pos hi, maskBits_self]
  case tally =>
    have hbit : BitVec.ofNat 8 (2 ^ i) = 1#8 <<< i := by decide +revert
    rw [← codeColumn_word (by omega), wordDecode_codeColumn w (by omega), if_neg (by omega), Nat.add_sub_cancel_left, hbit]
  case double =>
    have hcol {k : Nat} (hk : k < 80) :
        (if k < 72 then BitVec.ofNat 8 (wordColumns.getD k 0) else 1#8 <<< (k - 72)) = codeColumn k := by
      split
      case isTrue h => exact (codeColumn_word h).symm
      case isFalse h => rw [← codeColumn_check (by omega), Nat.add_sub_cancel' (by omega)]
    have hdistinct : codeColumn i ^^^ codeColumn j ≠ 0 := fun h => hij (codeColumn_injective hi hj (BitVec.xor_eq_zero_iff.mp h))
    have heven : ones8 (codeColumn i ^^^ codeColumn j).toNat % 2 = 0 := by
      have hi1 := ones8_codeColumn hi
      have hj1 := ones8_codeColumn hj
      rw [BitVec.toNat_xor, ones8_xor_mod_two]
      omega
    simp only [hcol hi, hcol hj]
    exact wordDecode_even w hdistinct heven

end Sys2Proof.Machine
end

section
/-! PROOFS. A line written to DRAM reads back (R260, R262, R274): words written one after another are runs of keys written in the tables
of bytes, tallies and codes, and a chunk that a line is written to is initialised. -/

namespace Sys2Proof.Machine

/-! ### Runs of keys -/

/-- The table with the keys from `b` on written, `n` of them. -/
def SMap.setRange {α : Type} [DecidableEq α] (d : Nat → α) (b n : Nat) (f : Nat → α) (m : SMap α) : SMap α :=
  (List.range n).foldl (fun m i => SMap.set d m (b + i) (f i)) m

section
variable {α : Type} [DecidableEq α] (d : Nat → α) (b n : Nat) (f : Nat → α) (m : SMap α)

/-- A run of one more key. -/
theorem SMap.setRange_succ : SMap.setRange d b (n + 1) f m = SMap.set d (SMap.setRange d b n f m) (b + n) (f n) := by
  simp [SMap.setRange, List.range_succ]

/-- What a read gives after a run of keys was written. -/
theorem SMap.get_setRange (k : Nat) :
    SMap.get d (SMap.setRange d b n f m) k = if b ≤ k ∧ k < b + n then f (k - b) else SMap.get d m k := by
  induction n with
  | zero => rw [if_neg (by omega)]; rfl
  | succ n ih =>
    rw [SMap.setRange_succ]
    by_cases hk : k = b + n
    · subst hk
      rw [SMap.get_set_same, if_pos (by omega), Nat.add_sub_cancel_left]
    · rw [SMap.get_set_other _ _ _ _ _ hk, ih]
      congr 1
      exact propext (by omega)

/-- A run of keys is written in two parts. -/
theorem SMap.setRange_add (k : Nat) :
    SMap.setRange d b (n + k) f m = SMap.setRange d (b + n) k (fun i => f (n + i)) (SMap.setRange d b n f m) := by
  simp [SMap.setRange, List.range_add, List.foldl_map, Nat.add_assoc]

/-- Only the values of the run count. -/
theorem SMap.setRange_congr {f g : Nat → α} (h : ∀ i < n, f i = g i) : SMap.setRange d b n f m = SMap.setRange d b n g m := by
  induction n with
  | zero => rfl
  | succ n ih => rw [SMap.setRange_succ, SMap.setRange_succ, ih fun i hi => h i (by omega), h n (by omega)]

end

/-! ### A word and its bytes -/

/-- The little-endian bytes of a number give it back, modulo 256^n. -/
theorem leNat_bytes (n v : Nat) : leNat ((List.range n).map (fun i => BitVec.ofNat 8 (v / 2 ^ (8 * i)))) = v % 256 ^ n := by
  induction n generalizing v with
  | zero => simp [leNat, Nat.mod_one]
  | succ n ih =>
    have hshift (i : Nat) : v / 2 ^ (8 * (i + 1)) = v / 256 / 2 ^ (8 * i) := by
      rw [Nat.div_div_eq_div_mul, Nat.mul_succ, Nat.pow_add, Nat.mul_comm]
    simp only [List.range_succ_eq_map, List.map_cons, List.map_map, Function.comp_def, Nat.succ_eq_add_one, hshift, leNat, ih]
    rw [Nat.pow_succ', Nat.mod_mul]
    simp

/-- A word from its eight bytes. -/
theorem w64_leNat_byteOf (x : Word) : w64 (leNat ((List.range 8).map (byteOf x))) = x := by
  have h : leNat ((List.range 8).map (byteOf x)) = x.toNat := (leNat_bytes 8 x.toNat).trans (Nat.mod_eq_of_lt x.isLt)
  rw [h, w64, BitVec.ofNat_toNat, BitVec.setWidth_eq]

/-! ### Words written to DRAM -/

/-- The state with these tables of stored bytes, tallies and codes. -/
def withDram (s : State) (mem : List Host.Cell) (tally syn : SMap Byte) : State := { s with mem := mem, memTally := tally, memSyn := syn }

@[simp] theorem ptOfLine_withDram (s : State) (mem : List Host.Cell) (tally syn : SMap Byte) (l : Nat) :
    ptOfLine (withDram s mem tally syn) l = ptOfLine s l := rfl

@[simp] theorem isUnscrubbed_withDram (s : State) (mem : List Host.Cell) (tally syn : SMap Byte) (c : Nat) :
    isUnscrubbed (withDram s mem tally syn) c = isUnscrubbed s c := rfl

/-- The state with words `b` to `b + n - 1` of DRAM written, with valid codes. -/
def wordsWritten (s : State) (b n : Nat) (f : Nat → TWord) : State := withDram s
  (SMap.setRange (fun _ => 0) (8 * b) (8 * n) (fun k => byteOf (f (k / 8)).val (k % 8)) s.mem)
  (SMap.setRange (fun _ => 0) b n (fun i => (f i).tal) s.memTally)
  (SMap.setRange (fun _ => 0) b n (fun _ => 0) s.memSyn)

section
variable (s : State) (b n : Nat) (f : Nat → TWord)

@[simp] theorem ptOfLine_wordsWritten (l : Nat) : ptOfLine (wordsWritten s b n f) l = ptOfLine s l := ptOfLine_withDram ..

@[simp] theorem isUnscrubbed_wordsWritten (c : Nat) : isUnscrubbed (wordsWritten s b n f) c = isUnscrubbed s c := isUnscrubbed_withDram ..

/-- The stored byte at `a` after words were written. -/
theorem memByte_wordsWritten (a : Nat) : memByte (wordsWritten s b n f) a =
    if b ≤ a / 8 ∧ a / 8 < b + n then byteOf (f (a / 8 - b)).val (a % 8) else memByte s a := by
  have hrange : (8 * b ≤ a ∧ a < 8 * b + 8 * n) ↔ (b ≤ a / 8 ∧ a / 8 < b + n) := by omega
  have hword : (a - 8 * b) / 8 = a / 8 - b := by omega
  simp only [memByte, wordsWritten, withDram, SMap.get_setRange, hrange, hword]
  split
  case isTrue h => rw [show (a - 8 * b) % 8 = a % 8 by omega]
  case isFalse => rfl

/-- The stored word `w` of an initialised chunk after it was written. -/
theorem memWord_wordsWritten {w : Nat} (hb : b ≤ w) (hn : w < b + n) (hp : ptOfLine s (w / 8) = none)
    (hu : isUnscrubbed s (w / 32) = false) : memWord (wordsWritten s b n f) w = f (w - b) := by
  have hbytes : memBytes8 (wordsWritten s b n f) w = (f (w - b)).val := by
    rw [memBytes8, ← w64_leNat_byteOf (f (w - b)).val]
    congr 2
    refine List.map_congr_left fun i hi => ?_
    have hi8 : i < 8 := List.mem_range.mp hi
    have hword : (8 * w + i) / 8 = w := by omega
    have hbyte : (8 * w + i) % 8 = i := by omega
    rw [memByte_wordsWritten, hword, hbyte, if_pos ⟨hb, hn⟩]
  have htally : SMap.get (fun _ => 0) (wordsWritten s b n f).memTally w = (f (w - b)).tal := by
    rw [wordsWritten, withDram, SMap.get_setRange, if_pos ⟨hb, hn⟩]
  simp only [memWord, ptOfLine_wordsWritten, isUnscrubbed_wordsWritten, hp, hu, hbytes, htally, Bool.false_eq_true, if_false]

/-- The syndrome of a word just written is that of a valid code. -/
theorem memSyndrome_wordsWritten {w : Nat} (hb : b ≤ w) (hn : w < b + n) : memSyndrome (wordsWritten s b n f) w = 0 := by
  have hsyn : SMap.get (fun _ => 0) (wordsWritten s b n f).memSyn w = 0 := by
    rw [wordsWritten, withDram, SMap.get_setRange, if_pos ⟨hb, hn⟩]
  rw [memSyndrome, hsyn, ite_self]

/-- Bytes written one after another. -/
theorem foldl_setMemByte (a : Nat) (g : Nat → Byte) : (List.range n).foldl (fun s i => setMemByte s (a + i) (g i)) s =
    { s with mem := SMap.setRange (fun _ => 0) a n g s.mem } := by
  induction n with
  | zero => rfl
  | succ n ih => rw [List.range_succ, List.foldl_append, ih, SMap.setRange_succ]; rfl

/-- A word written outside the Point Store region. -/
theorem putWord_dram {w : Nat} (hp : ptOfLine s (w / 8) = none) (x : TWord) (syn : Byte) : putWord s w x syn = withDram s
    (SMap.setRange (fun _ => 0) (8 * w) 8 (byteOf x.val) s.mem) (SMap.set (fun _ => 0) s.memTally w x.tal)
    (SMap.set (fun _ => 0) s.memSyn w syn) := by
  have hp' : ptOfLine { s with memSyn := SMap.set (fun _ => 0) s.memSyn w syn } (w / 8) = none := hp
  simp only [putWord, hp', foldl_setMemByte]
  rfl

/-- One word more. -/
theorem wordsWritten_succ (hp : ptOfLine s ((b + n) / 8) = none) :
    putWord (wordsWritten s b n f) (b + n) (f n) 0 = wordsWritten s b (n + 1) f := by
  have hbytes : SMap.setRange (fun _ => 0) (8 * b) (8 * (n + 1)) (fun k => byteOf (f (k / 8)).val (k % 8)) s.mem =
      SMap.setRange (fun _ => 0) (8 * (b + n)) 8 (byteOf (f n).val) (wordsWritten s b n f).mem := by
    rw [Nat.mul_succ, SMap.setRange_add, Nat.mul_add]
    refine SMap.setRange_congr _ _ _ _ fun i hi => ?_
    rw [show (8 * n + i) / 8 = n by omega, show (8 * n + i) % 8 = i by omega]
  rw [putWord_dram (wordsWritten s b n f) (w := b + n) hp, ← hbytes]
  simp only [wordsWritten, SMap.setRange_succ]
  rfl

/-- Words written one after another, outside the Point Store region. -/
theorem foldl_putWord (hp : ∀ i < n, ptOfLine s ((b + i) / 8) = none) :
    (List.range n).foldl (fun s i => putWord s (b + i) (f i) 0) s = wordsWritten s b n f := by
  induction n with
  | zero => rfl
  | succ n ih =>
    rw [List.range_succ, List.foldl_append, ih fun i hi => hp i (by omega)]
    exact wordsWritten_succ s b n f (hp n (by omega))

end

/-! ### Initialisation of a chunk (R274) -/

/-- The state with chunk `c` marked initialised. -/
def markInitialised (s : State) (c : Nat) : State := { s with unscrubbed := dropChunk s.unscrubbed c }

@[simp] theorem ptOfLine_markInitialised (s : State) (c l : Nat) : ptOfLine (markInitialised s c) l = ptOfLine s l := rfl

@[simp] theorem memByte_markInitialised (s : State) (c a : Nat) : memByte (markInitialised s c) a = memByte s a := rfl

/-- A chunk marked initialised lies in no unscrubbed range. -/
@[simp] theorem isUnscrubbed_markInitialised (s : State) (c : Nat) : isUnscrubbed (markInitialised s c) c = false := by
  rw [isUnscrubbed, List.any_eq_false]
  intro r hr
  obtain ⟨q, -, hrq⟩ := List.mem_flatMap.mp hr
  split at hrq
  case isTrue =>
    rcases List.mem_append.mp hrq with hbelow | habove
    · obtain ⟨hlt, rfl⟩ : q.1 < c ∧ r = (q.1, c - q.1) := by simpa [List.mem_ite_nil_right] using hbelow
      simp only [Bool.and_eq_true, decide_eq_true_eq]
      omega
    · obtain ⟨-, rfl⟩ : c + 1 < q.1 + q.2 ∧ r = (c + 1, q.1 + q.2 - (c + 1)) := by simpa [List.mem_ite_nil_right] using habove
      simp only [Bool.and_eq_true, decide_eq_true_eq]
      omega
  case isFalse hout => rwa [List.mem_singleton.mp hrq]

/-- The state in which chunk `c` is initialised, as a line write into it begins. -/
def chunkReady (s : State) (c : Nat) : State := if isUnscrubbed s c then zeroChunk s c else s

section
variable {s : State} {c : Nat}

theorem chunkReady_initialised (h : isUnscrubbed s c = false) : chunkReady s c = s := if_neg (Bool.eq_false_iff.mp h)

variable (hp : ∀ l, l / 4 = c → ptOfLine s l = none)
include hp

/-- Zeroing a chunk outside the Point Store region. -/
theorem zeroChunk_dram : zeroChunk s c = markInitialised (wordsWritten s (32 * c) 32 (fun _ => TWord.zero)) c := by
  rw [zeroChunk, foldl_putWord s (32 * c) 32 (fun _ => TWord.zero) fun i hi => hp _ (by omega), markInitialised]

theorem isUnscrubbed_chunkReady : isUnscrubbed (chunkReady s c) c = false := by
  rw [chunkReady]
  split
  case isTrue => rw [zeroChunk_dram hp, isUnscrubbed_markInitialised]
  case isFalse h => exact Bool.eq_false_iff.mpr h

theorem ptOfLine_chunkReady (l : Nat) : ptOfLine (chunkReady s c) l = ptOfLine s l := by
  rw [chunkReady]
  split
  case isTrue => rw [zeroChunk_dram hp, ptOfLine_markInitialised, ptOfLine_wordsWritten]
  case isFalse => rfl

/-- Zeroing a chunk leaves the bytes outside it. -/
theorem memByte_chunkReady {a : Nat} (ha : a / 256 ≠ c) : memByte (chunkReady s c) a = memByte s a := by
  rw [chunkReady]
  split
  case isTrue => rw [zeroChunk_dram hp, memByte_markInitialised, memByte_wordsWritten, if_neg (by omega)]
  case isFalse => rfl

end

/-! ### A line written -/

section
variable {s : State} {line : Nat} (hp : ∀ l, l / 4 = line / 4 → ptOfLine s l = none) (d : Line)
include hp

/-- A line written outside the Point Store region: its eight words, once its chunk is initialised. -/
theorem putLine_dram : putLine s line d = wordsWritten (chunkReady s (line / 4)) (8 * line) 8 (lineWord d) :=
  foldl_putWord _ _ _ _ fun i hi => (ptOfLine_chunkReady hp _).trans (hp _ (by omega))

/-- A line write leaves the bytes outside the line, once its chunk is initialised. -/
theorem memByte_putLine {a : Nat} (ha : a / 64 ≠ line) : memByte (putLine s line d) a = memByte (chunkReady s (line / 4)) a := by
  rw [putLine_dram hp, memByte_wordsWritten, if_neg (by omega)]

end

/-- Settles O54: a line write is the writing of its eight words in its initialised chunk. -/
theorem lineWriteReadsBack : Obligations.LineWriteReadsBack := by
  intro s line d hp t
  refine ⟨fun i hi => ?word, fun a ha => ?chunk, fun hu a ha => ?line⟩
  case word =>
    have ht : t = wordsWritten (chunkReady s (line / 4)) (8 * line) 8 (lineWord d) := putLine_dram hp d
    have hdram : ptOfLine (chunkReady s (line / 4)) ((8 * line + i) / 8) = none := (ptOfLine_chunkReady hp _).trans (hp _ (by omega))
    have hready : isUnscrubbed (chunkReady s (line / 4)) ((8 * line + i) / 32) = false := by
      rw [show (8 * line + i) / 32 = line / 4 by omega]
      exact isUnscrubbed_chunkReady hp
    rw [ht]
    refine ⟨?_, memSyndrome_wordsWritten _ _ _ _ (by omega) (by omega)⟩
    rw [memWord_wordsWritten _ _ _ _ (by omega) (by omega) hdram hready, Nat.add_sub_cancel_left]
  case chunk => exact (memByte_putLine hp d (by omega)).trans (memByte_chunkReady hp ha)
  case line => exact (memByte_putLine hp d ha).trans (by rw [chunkReady_initialised hu])

end Sys2Proof.Machine
end

section
/-! PROOFS. The commands of a memory channel complete (R259, R267–R279). -/

namespace Sys2Proof.Machine

/-! ### Requests of the homes (R259) -/

/-- A request that has arrived is served, once a window that is over has ended. -/
theorem memCmd_arrived {s s1 : State} {op : BitVec 6} {line : BitVec 32} {y : Msg}
    (hm : takeMsg (windowSettle s (channelOf (64 * line.toNat))) (fun m => m.op = op && m.line = line.toNat) = some (y, s1)) :
    memCmd op line s = memRequest s1 y := by
  simp only [memCmd, hm]

/-! ### Page-code transfers (R267–R271) -/

/-- The job with one line of its page more. -/
def PcJob.took (j : PcJob) (x : PcMsg) : PcJob := { j with got := j.got ++ [(x.src, x.line, x.flags, x.data)] }

/-- The job with one written line less to wait for. -/
def PcJob.acked (j : PcJob) : PcJob := { j with acksLeft := j.acksLeft - 1 }

/-- The state in which master `m` holds `j'` in the place of the job `j`. -/
def jobReplaced (s : State) (m : Nat) (j j' : PcJob) : State :=
  updChan s m (fun c => { c with jobs := c.jobs.map (fun k => if k == j then j' else k) })

/-- Controller `c` reads its chunk of a page for the master that asked, and holds the page's writes where it asked that. -/
def chunkGathered (s : State) (c : Nat) (x : PcMsg) : State :=
  let y := updChan s c (fun k => { k with
    noteFilter := k.noteFilter.filter (fun e => e.1 != x.page)
    holdPages := if x.hold && !k.holdPages.contains x.page then k.holdPages ++ [x.page] else k.holdPages })
  foldS (fun z l =>
    let d := readDecode z (chunkLine c x.page l)
    sendPc d.2.2 { kind := .data, page := x.page, dst := x.src, src := c, line := l, data := d.1, flags := d.2.1.foldl (fun a b => a + 2 ^ b) 0 })
    y (List.range 4)

/-- Controller `c` lets go of a page: the reads of it are answered, and the writes held back proceed. -/
def pageReleased (s : State) (c : Nat) (x : PcMsg) : State :=
  let ofPage (l : List Msg) : List Msg := l.filter (fun m => m.line / 64 == x.page)
  let y := updChan s c (fun k => { k with
    holdPages := k.holdPages.filter (· != x.page)
    heldWrites := k.heldWrites.filter (fun m => m.line / 64 != x.page)
    repairReads := k.repairReads.filter (fun m => m.line / 64 != x.page) })
  foldS memWrite (foldS (fun z r => repairAnswer z c x.fail r) y (ofPage (chanOf s c).repairReads)) (ofPage (chanOf s c).heldWrites)

section
variable {s s1 : State} {src m : BitVec 4} {page : BitVec 26} {ln : BitVec 2} {x : PcMsg} {j : PcJob}

/-- A NOTE marks its page at the master. -/
theorem execPcNote_arrived
    (hx : takePc s (fun y => y.kind == .note && !y.ack && y.src = src.toNat && y.page = page.toNat) = some (x, s1)) :
    execPcNote src page s = .next (masterNote s1 page.toNat) := by
  simp only [execPcNote, hx]

/-- A REPAIR goes to the page's master. -/
theorem execPcRepairRequest_arrived (hx : takePc s (fun y => y.kind == .repair && y.src = src.toNat && y.page = page.toNat) = some (x, s1)) :
    execPcRepairRequest src page s = .next (repairRequest s1 x.dst x.page x.src) := by
  simp only [execPcRepairRequest, hx]

/-- A GATHER is answered with the chunk. -/
theorem execPcGather_arrived (hx : takePc s (fun y => y.kind == .gather && y.dst = m.toNat && y.page = page.toNat) = some (x, s1)) :
    execPcGather m page s = .next (chunkGathered s1 m.toNat x) := by
  simp only [execPcGather, hx, chunkGathered]

/-- A corrected line is written, its row noted to be read again, and acknowledged (R273). -/
theorem execPcWrite_arrived
    (hx : takePc s (fun y => y.kind == .write && !y.ack && y.dst = m.toNat && y.page = page.toNat && y.line = ln.toNat) = some (x, s1)) :
    execPcWrite m page ln s = .next (sendPc (rereadRow (putLine s1 (chunkLine x.dst x.page x.line) x.data) x.dst (chunkLine x.dst x.page x.line))
      { kind := .write, ack := true, page := x.page, dst := x.src, src := x.dst }) := by
  simp only [execPcWrite, hx]

/-- A RELEASE lets go of the page. -/
theorem execPcRelease_arrived (hx : takePc s (fun y => y.kind == .release && y.dst = m.toNat && y.page = page.toNat) = some (x, s1)) :
    execPcRelease m page s = .next (pageReleased s1 m.toNat x) := by
  simp only [execPcRelease, hx]
  rfl

/-- A line of a gathered page joins its job, and the sixty-fourth ends the gathering. -/
theorem execPcData_gathers
    (hx : takePc s (fun y => y.kind == .data && y.src = src.toNat && y.page = page.toNat && y.line = ln.toNat) = some (x, s1))
    (hj : (chanOf s1 x.dst).jobs.find? (fun j => j.page = x.page && j.got.length < 64) = some j) :
    execPcData src page ln s = .next (if (j.took x).got.length = 64 then
      gatherDone (jobReplaced s1 x.dst j (j.took x)) x.dst (j.took x) else jobReplaced s1 x.dst j (j.took x)) := by
  simp only [execPcData, hx, hj]
  rfl

/-- A written line is counted, and the last one releases the page. -/
theorem execPcAck_counts (hx : takePc s (fun y => y.ack && y.src = src.toNat && y.page = page.toNat) = some (x, s1))
    (hj : (chanOf s1 x.dst).jobs.find? (fun j => j.repair && j.page = x.page) = some j) :
    execPcAck src page s = .next (if j.acked.acksLeft = 0 then
      releaseAll (jobReplaced s1 x.dst j j.acked) x.dst j.acked false else jobReplaced s1 x.dst j j.acked) := by
  simp only [execPcAck, hx, hj]
  rfl

end

/-- A queued page that is due, is not being gathered and meets no window is gathered. -/
theorem execPageRebuildStart_due {s : State} {m : BitVec 4} {page : BitVec 26}
    (hq : ∃ e ∈ (chanOf s m.toNat).rebuildQ, e.1 = page.toNat ∧ e.2 ≤ s.epoch) (hw : inWindow s m.toNat = false)
    (hj : ∀ j ∈ (chanOf s m.toNat).jobs, j.page ≠ page.toNat) : execPageRebuildStart m page s = .next
      (sendGather (updChan s m.toNat (fun k => { k with
        rebuildQ := k.rebuildQ.filter (fun e => e.1 != page.toNat)
        jobs := k.jobs ++ [{ page := page.toNat, repair := false, requesters := [], got := [] }] })) m.toNat page.toNat false) := by
  have hdue : ((chanOf s m.toNat).rebuildQ.any fun e => e.1 == page.toNat && decide (e.2 ≤ s.epoch)) = true := by
    obtain ⟨e, he, hpage, hepoch⟩ := hq
    exact List.any_eq_true.mpr ⟨e, he, by simp [hpage, hepoch]⟩
  have hfree : ((chanOf s m.toNat).jobs.any fun j => decide (j.page = page.toNat)) = false :=
    List.any_eq_false.mpr fun j hjob => by simpa using hj j hjob
  exact next_if_pos (by simp only [hdue, hw, hfree]; rfl)

/-! ### Initialisation (R274) -/

/-- Outside a window, the first unscrubbed chunk of the channel is zeroed. -/
theorem execBackgroundZeroing_chunk {s : State} {m : BitVec 4} {k : Nat} (hw : inWindow s m.toNat = false)
    (hk : firstUnscrubbed s m.toNat = some k) : execBackgroundZeroing m s = .next (zeroChunk s k) := by
  simp only [execBackgroundZeroing, hw, Bool.false_eq_true, if_false, hk]

/-- Settles O40: the transfers by what a command does with one that has arrived, the other commands by their guards. -/
theorem memoryCommandsComplete : Obligations.MemoryCommandsComplete := by
  intro s s1 who m src page ln line val x c p ends settled
  refine ⟨fun y => ⟨fun hm => congrArg _ (memCmd_arrived hm), fun hm => congrArg _ (memCmd_arrived hm)⟩,
    fun hx => execPcNote_arrived hx, fun hx => execPcRepairRequest_arrived hx, fun hx => ?gather, fun j hx hj => ?data,
    fun hx => execPcWrite_arrived hx, fun j hx hj => ?ack, fun hx => execPcRelease_arrived hx,
    fun hq hw hj => execPageRebuildStart_due hq hw hj, rfl, fun bank row same => ?sparing, fun k hw hk => execBackgroundZeroing_chunk hw hk,
    fun hw => ?scrub, fun b => rfl, ?window, fun hc => next_if_pos hc, fun hd => ?pattern, fun hr ok => next_if_pos hr, fun hd => ?split⟩
  case gather =>
    intro y
    refine (execPcGather_arrived hx).trans ?_
    simp only [chunkGathered, y, c]
  case data =>
    intro j' y
    have hlen : (j.took x).got.length = j.got.length + 1 := by simp [PcJob.took]
    have hgot := execPcData_gathers hx hj
    exact ⟨fun hless => hgot.trans (next_if_neg (by omega)), fun hlast => hgot.trans (next_if_pos (by omega))⟩
  case ack =>
    intro j' y
    have hleft : j.acked.acksLeft = j.acksLeft - 1 := rfl
    have hcount := execPcAck_counts hx hj
    exact ⟨fun hmore => hcount.trans (next_if_neg (by omega)), fun hlast => hcount.trans (next_if_pos (by omega))⟩
  case sparing =>
    intro k hk y
    have hread : ¬ (!(chanOf s c).reread.contains k) = true := by rw [hk]; decide
    exact ⟨fun hd => (next_if_neg hread).trans (next_if_pos ((Bool.or_eq_true ..).mpr (hd.imp_right decide_eq_true))),
      fun hs hl => (next_if_neg hread).trans
        (next_if_neg (Bool.eq_false_iff.mp (Bool.or_eq_false_iff.mpr ⟨hs, decide_eq_false (Nat.not_le.mpr hl)⟩)))⟩
  case scrub =>
    intro w pos pg y z
    have hopen : ¬ inWindow s c = true := Bool.eq_false_iff.mp hw
    exact ⟨fun hl => (next_if_neg hopen).trans (next_if_pos hl), fun hl => (next_if_neg hopen).trans (next_if_neg (Nat.not_lt.mpr hl))⟩
  case window =>
    intro y ht hi hs
    exact next_if_pos (by simpa using ⟨⟨ht, hi⟩, hs⟩)
  case pattern =>
    have hans := next_regCmd hd
    exact ⟨fun hw => (hans _).trans (next_if_pos hw), fun hw => (hans _).trans (next_if_neg (Bool.eq_false_iff.mp hw))⟩
  case split =>
    have hans := next_regCmd hd
    exact ⟨fun hw => ⟨(hans _).trans (next_if_pos hw), (hans _).trans (next_if_pos hw)⟩,
      fun hw => ⟨(hans _).trans (next_if_neg (Bool.eq_false_iff.mp hw)), (hans _).trans (next_if_neg (Bool.eq_false_iff.mp hw))⟩⟩

end Sys2Proof.Machine
end

section
/-! PROOFS. One EPOCHCLK cycle of an idle module (R281, R282): the epoch advances by 1 + RATE × 2^−32 with RATE limited to ±429,497. -/

namespace Sys2Proof.Machine

/-! ### The cycle (R282) -/

/-- CLK_EPOCH with its fraction, in units of 2^−32 tick. -/
def epochFine (s : State) : Int := (s.epoch : Int) * 2 ^ 32 + s.epochFrac

/-- A count of 2^−32 ticks, parted into a 64-bit integer part and its fraction, is kept modulo 2^96. -/
theorem parted_count_emod {t : Int} (ht : 0 ≤ t) :
    (((t.toNat / 4294967296 % 2 ^ 64 : Nat) : Int) * 2 ^ 32 + (t.toNat % 4294967296 : Nat) - t) % 2 ^ 96 = 0 := by
  omega

/-- One cycle adds 1 + RATE × 2^−32 to the epoch, RATE limited. -/
theorem epochTick_counts (s : State) :
    (epochFine (epochTick s) - (epochFine s + 2 ^ 32 + clampRate (epochRate s))) % 2 ^ 96 = 0 := by
  have hlow : -429497 ≤ clampRate (epochRate s) := le_max_left _ _
  have hcount : 0 ≤ epochFine s + 2 ^ 32 + clampRate (epochRate s) := by
    unfold epochFine
    omega
  unfold epochTick
  exact parted_count_emod hcount

/-- A cycle leaves the memory channels. -/
theorem epochTick_chans (s : State) : (epochTick s).chans = s.chans :=
  foldS_keeps (fun z => z.chans = s.chans) (fun z p => updPrun z p (fun r => { r with acted := 0 })) (fun _ _ h => h) _ s rfl

/-! ### What else an idle cycle does (R279, log 48) -/

/-- Where no channel is in a calibration window, none ends. -/
theorem windowsSettle_of_noWindow {s : State} (hc : s.chans.any (fun e => e.2.inCal) = false) : windowsSettle s = s :=
  if_neg (Bool.eq_false_iff.mp hc)

/-- The passing of a day leaves the epoch. -/
@[simp] theorem epochFine_dayTick (s : State) : epochFine (dayTick s) = epochFine s := by
  simp only [epochFine, dayTick]

/-- With the rails on and no channel in a calibration window, the idle cycle's epoch is that of `epochTick`. -/
theorem epochFine_idleTick {s : State} (hr : s.boot.rails = true) (hc : s.chans.any (fun e => e.2.inCal) = false) :
    epochFine (idleTick s) = epochFine (epochTick s) := by
  have hw : windowsSettle (epochTick s) = epochTick s := windowsSettle_of_noWindow (by rw [epochTick_chans, hc])
  simp only [idleTick, hr, hw, Bool.not_true, Bool.false_eq_true, if_false]
  split
  · exact epochFine_dayTick _
  · rfl

/-- On an empty queue a step is the idle cycle. -/
theorem step_of_empty {s : State} (hp : s.pending = []) : step s = .next (idleTick s) := by
  simp only [step, hp]

/-! ### A rate beyond the limit -/

/-- An idle module whose CLK_EPOCH_RATE holds one unit more than R282's limit. -/
def rateBeyondLimit : State := setR { boot := { rails := true } } .CLK_EPOCH_RATE 429498 0

/-- The rate that the register holds. -/
theorem epochRate_rateBeyondLimit : epochRate rateBeyondLimit = 429498 := by
  rw [epochRate, rateBeyondLimit, getR_setR_same]
  decide

/-- Refutes O2: R282 limits RATE to ±429,497, so a cycle adds one unit less than the register asks for where it holds 429,498. -/
theorem not_idleStepCountsEpoch : ¬ Obligations.IdleStepCountsEpoch := by
  intro h
  obtain ⟨s', hstep, -, -, hasked⟩ := h rateBeyondLimit rfl rfl (by decide) (by rw [epochRate_rateBeyondLimit]; decide)
  obtain rfl : idleTick rateBeyondLimit = s' := Host.Outcome.next.inj ((step_of_empty rfl).symm.trans hstep)
  change (epochFine (idleTick rateBeyondLimit) - (epochFine rateBeyondLimit + 2 ^ 32 + epochRate rateBeyondLimit)) % 2 ^ 96 = 0 at hasked
  have hlimited := epochTick_counts rateBeyondLimit
  have hclamp : clampRate 429498 = 429497 := by decide
  rw [epochFine_idleTick rfl rfl, epochRate_rateBeyondLimit] at hasked
  rw [epochRate_rateBeyondLimit, hclamp] at hlimited
  omega

end Sys2Proof.Machine
end

section
/-! PROOFS. A host's access to secure memory leaves the machine's storage (R360, R361): the refusal counts, records and reports, and these
reach no byte of DRAM, no cache, no directory and no point. -/

namespace Sys2Proof.Machine

/-- What holds the machine's data (DRAM, the caches of cores and quads, the home slices with their directories, the Point Store), with
the rigging that says where memory is and what of it is secure. -/
def storage (s : State) :=
  (s.rig, s.mem, s.memTally, s.memSyn, s.cores, s.quads, s.slices, s.ps)

/-! ### The operations of a refusal leave the storage -/

@[simp] theorem storage_setR (s : State) (r : Reg) (v : Word) (u i j : Nat) : storage (setR s r v u i j) = storage s := rfl
@[simp] theorem storage_updR (s : State) (r : Reg) (f : Word → Word) (u i j : Nat) : storage (updR s r f u i j) = storage s := rfl
@[simp] theorem storage_updHost (s : State) (h : Nat) (f : HostSt → HostSt) : storage (updHost s h f) = storage s := rfl
@[simp] theorem storage_txClear (s : State) : storage (txClear s) = storage s := rfl
@[simp] theorem storage_linkWake (s : State) (h : Nat) : storage (linkWake s h) = storage s := rfl
@[simp] theorem storage_tx (s : State) (t : HostTlp) : storage (tx s t) = storage s := rfl

/-- A record reaches Almanac, its counters and FAULT_N alone. -/
@[simp] theorem storage_alm (s : State) (code sev cls src p0 p1 p2 : Nat) : storage (alm s code sev cls src p0 p1 p2) = storage s := by
  unfold alm
  split
  · rfl
  · obtain ⟨f, a, h | h⟩ := recordAcceptOp_cases s code sev cls src p0 p1 p2 false <;> rw [h] <;> rfl

/-- An interrupt source of a port reaches the port's MSI-X table and counters alone. -/
@[simp] theorem storage_msixAssert (s : State) (h e src : Nat) : storage (msixAssert s h e src) = storage s := by
  unfold msixAssert
  split
  · rfl
  · dsimp only
    split <;> rfl

/-- AER's registers stand in the port's configuration space. -/
@[simp] theorem storage_aerLog (s : State) (h kind : Nat) (hdr0 hdr1 : Word) : storage (aerLog s h kind hdr0 hdr1) = storage s := by
  unfold aerLog
  dsimp only
  split <;> rfl

@[simp] theorem storage_aerCorrectable (s : State) (h : Nat) : storage (aerCorrectable s h) = storage s := rfl

/-- The counters and registers that hold a port's first error outstanding, with its entry 0. -/
@[simp] theorem storage_hostError (s : State) (h kind : Nat) (hdr0 hdr1 : Word) : storage (hostError s h kind hdr0 hdr1) = storage s := by
  simp only [hostError, apply_ite storage, storage_alm, storage_updHost, storage_msixAssert, storage_setR, storage_aerCorrectable,
    storage_aerLog, storage_updR, ite_self]

/-- A refusal at the watermark records and reports. -/
@[simp] theorem storage_hostDenied (s : State) (h a : Nat) (hdr0 hdr1 : Word) : storage (hostDenied s h a hdr0 hdr1) = storage s := by
  simp only [hostDenied, unitWorldRefusal, storage_hostError, storage_alm]

/-! ### What is secure memory -/

/-- Where memory is, and what of it is secure, is the rigging's alone. -/
theorem hostWorld_congr {s x : State} (h : storage x = storage s) (a n : Nat) : hostWorld x a n = hostWorld s a n := by
  have hr : x.rig = s.rig := congrArg Prod.fst h
  unfold hostWorld addrCls secWm
  rw [hr]

/-- An access whose first byte is secure memory is refused at the watermark. -/
theorem hostWorld_secure {s : State} {a : Nat} (hc : addrCls s a = .dram) (hs : a < secWm s) (n : Nat) : hostWorld s a n = true := by
  simp [hostWorld, hc, hs]

/-! ### The accesses -/

/-- A TLP just sent is among those sent. -/
theorem mem_hostTx_tx (s : State) (t : HostTlp) : t ∈ (tx s t).hostTx := List.mem_append_right _ (List.mem_singleton_self t)

section
variable {s : State} {h : BitVec 1} (hu : hostUp s h.toNat = true) (hm : hostMemOk (linkWake (txClear s) h.toNat) h.toNat = true)
  {a : Word} (hc : addrCls s a.toNat = .dram) (hs : a.toNat < secWm s) (hdr0 hdr1 : Word)
include hu hm hc hs

/-- A host's write of secure memory is refused at the watermark, after the error of a poisoned TLP. -/
theorem execHostMemoryWrite_secure {bytes : List Byte} (hb : bytes ≠ []) (ep : Bool) :
    execHostMemoryWrite h a bytes ep true 0 hdr0 hdr1 s = .next
      (let w := linkWake (txClear s) h.toNat
       hostDenied (if ep then hostError w h.toNat 2 hdr0 hdr1 else w) h.toNat a.toNat hdr0 hdr1) := by
  have hwhole := (execHostMemoryWrite_up hu a bytes ep true 0 hdr0 hdr1).trans (next_if_neg (by simpa using hb))
  refine ((hwhole.trans (next_check_passed rfl)).trans (next_check_passed hm)).trans (next_if_pos ?_)
  refine (hostWorld_congr ?_ _ _).trans (hostWorld_secure hc hs _)
  cases ep
  · rfl
  · exact storage_hostError _ _ _ _ _

/-- A host's read of secure memory is refused at the watermark, and answered with Completer Abort. -/
theorem execHostMemoryRead_secure {len : BitVec 13} (hl : len ≠ 0) : execHostMemoryRead h a len true hdr0 hdr1 s = .next
    (tx (hostDenied (linkWake (txClear s) h.toNat) h.toNat a.toNat hdr0 hdr1) (.cpl h.toNat 4 false [])) := by
  have hopen := ((execHostMemoryRead_up hu a hl true hdr0 hdr1).trans (next_check_passed rfl)).trans (next_check_passed hm)
  exact hopen.trans (next_if_pos ((hostWorld_congr rfl _ _).trans (hostWorld_secure hc hs _)))

end

/-- Settles O57: either access ends in the refusal at the watermark, and that leaves the storage. -/
theorem hostKeptFromSecureMemory : Obligations.HostKeptFromSecureMemory := by
  intro s h a bytes len ep hdr0 hdr1 w hu hm hb hl kept hc hs
  have kept_of_storage {t : State} (ht : storage t = storage s) : kept t := by
    simp only [storage, Prod.mk.injEq] at ht
    exact ht.2
  refine ⟨⟨_, execHostMemoryWrite_secure hu hm hc hs hdr0 hdr1 hb ep, kept_of_storage ?_⟩,
    ⟨_, execHostMemoryRead_secure hu hm hc hs hdr0 hdr1 hl, kept_of_storage ?_, mem_hostTx_tx _ _⟩⟩
  · cases ep <;> simp
  · simp

end Sys2Proof.Machine
end

section
/-! PROOFS. Service calls of Bowline are taken, answered BUSY or refused (R370), and splice releases, waiting calls, installs and the limit
of a secure call come to their ends (R366, R374–R376, R385, R467). -/

namespace Sys2Proof.Machine

/-! ### Calls (R370) -/

section
variable {s : State} {who : Requester} (hd : regDead s ⟨.RIG_SVC_CMD, 0, 0, 0⟩ = false) (f : State → State)
include hd

/-- A requester without a bank of the service registers is refused. -/
theorem svcCall_unbanked (hb : hasBank who = false) : (.next (svcCall s who f) : Host.Outcome State Fault Refusal) =
    .next (refuseReg s ⟨.RIG_SVC_CMD, 0, 0, 0⟩ who) :=
  (next_regCmd hd _).trans (next_check_failed hb)

section
variable (hb : hasBank who = true)
include hb

/-- A call of a bank that is not BUSY is taken while Bowline's queue of 64 has room. -/
theorem svcCall_taken (hidle : bit (getB s .RIG_SVC_STS who) 1 = false) (hroom : s.svc.pend.length + s.svc.fw.length < 64) :
    (.next (svcCall s who f) : Host.Outcome State Fault Refusal) = .next (f s) :=
  (next_regCmd hd _).trans ((next_check_passed hb).trans (next_if_neg (by simp [hidle, hroom])))

/-- A call of a bank that is BUSY, or that finds the queue full, completes at once with BUSY. -/
theorem svcCall_busy (hbusy : bit (getB s .RIG_SVC_STS who) 1 = true ∨ 64 ≤ s.svc.pend.length + s.svc.fw.length) :
    (.next (svcCall s who f) : Host.Outcome State Fault Refusal) =
      .next (setB s .RIG_SVC_STS who (setBit (setField (getB s .RIG_SVC_STS who) 15 8 2) 0 true)) :=
  (next_regCmd hd _).trans ((next_check_passed hb).trans (next_if_pos (by simpa using hbusy)))

end

end

/-! ### The steps of a release (R374–R376) -/

section
variable {s : State} {b : BitVec 5} (hb : b.toNat < 31)
include hb

/-- A command that names a block of the module acts on that block. -/
theorem blkCommand_block (f : Nat → State) : blkCommand b f = .next (f b.toNat) := if_neg (by omega)

/-- A demanded block is revoked once its TIMEOUT has passed. -/
theorem execSpliceRevoke_due (ho : blkState s b.toNat = 1) (hdem : bit (getR s .RIG_SPLICE 0 b.toNat) 3 = true)
    (ht : (spliceOf s b.toNat).demandAt + fieldN (getR s .RIG_SPLICE 0 b.toNat) 63 48 * 100000 ≤ s.epoch) :
    execSpliceRevoke b s = .next (revokeBlock s b.toNat) :=
  (blkCommand_block hb _).trans (next_if_pos (by simp [ho, hdem, ht]))

/-- A draining block that has drained is reset; a draining Vigil block first stops its run. -/
theorem execSpliceDrainComplete_due (hst : blkState s b.toNat = 2)
    (hdr : blkDrained (if b.toNat = 28 then vigAbort s else s) b.toNat = true) :
    execSpliceDrainComplete b s = .next (resetBegin (if b.toNat = 28 then vigAbort s else s) b.toNat) :=
  (blkCommand_block hb _).trans ((next_if_neg (not_not.mpr hst)).trans (next_if_pos hdr))

/-- A block that has not drained 10 ms after its release began is reset with a record. -/
theorem execSpliceDrainTimeout_due (hst : blkState s b.toNat = 2) (ht : (spliceOf s b.toNat).relAt + 1000000 ≤ s.epoch) :
    execSpliceDrainTimeout b s =
      .next (resetBegin (alm (if b.toNat = 28 then vigAbort s else s) 0x8013 4 16 b.toNat) b.toNat) :=
  (blkCommand_block hb _).trans (next_if_pos (by simp [hst, ht]))

/-- A block whose reset is over is released. -/
theorem execSpliceResetComplete_due (hst : blkState s b.toNat = 3) : execSpliceResetComplete b s = .next (releaseEnd s b.toNat) :=
  (blkCommand_block hb _).trans (next_if_pos hst)

end

/-! ### The ends of calls (R366, R385, R386, R467) -/

section
variable {s : State} {p : SvcPend}

/-- A call without a press ends after 60 s. -/
theorem execPresenceTimeout_due (h : s.svc.pend.find? (fun p => !p.pressed && decide (p.since + 6000000000 ≤ s.epoch)) = some p) :
    execPresenceTimeout s = .next (pendEnd s p 8 none) := by
  simp only [execPresenceTimeout, h]

section
variable (h : s.svc.pend.find? (fun p => p.pressed) = some p)
include h

/-- A pressed revocation marks its slot REVOKED, and ends by whether that was programmed. -/
theorem execSlotProgrammingComplete_revoke (hr : p.revoke = true) (ok : Bool) : execSlotProgrammingComplete ok s =
    .next (pendEnd (setOwner s p.slot { ownerSlot s p.slot with st := 2 }) p (if ok then 0 else 0x0B) none) := by
  simp only [execSlotProgrammingComplete, h, hr, if_true]

section
variable (hr : p.revoke = false)
include hr

/-- A pressed commissioning finds no EMPTY slot. -/
theorem execSlotProgrammingComplete_full (he : emptySlot s = none) (ok : Bool) :
    execSlotProgrammingComplete ok s = .next (pendEnd s p 7 none) := by
  simp only [execSlotProgrammingComplete, h, hr, he, Bool.false_eq_true, if_false]

/-- A pressed commissioning programs the lowest EMPTY slot with its key; a slot that fails is lost. -/
theorem execSlotProgrammingComplete_commission {k : Nat} (he : emptySlot s = some k) (ok : Bool) : execSlotProgrammingComplete ok s = .next
    (if ok then
      pendEnd (setOwner s k
        { st := 1, digest := sha384 (beBytes 48 p.keyX ++ beBytes 48 p.keyY), keyX := p.keyX, keyY := p.keyY }) p 0 (some k)
     else pendEnd (setOwner s k { st := 2 }) p 0x0B none) := by
  simp only [execSlotProgrammingComplete, h, hr, he, Bool.false_eq_true, if_false]

end
end
end

/-- The oldest install ends: its bytes are in the other bank, which the next module reset makes active. -/
theorem execFwInstallComplete_due {s : State} {who : Requester} {l : List Byte} {r : List (Requester × List Byte)}
    (h : s.svc.fw = (who, l) :: r) : execFwInstallComplete s = .next
      (svcEnd { s with
        flash := { s.flash with
          updating := !r.isEmpty, bank := 1 - s.flash.bank, fw := SMap.set Config.fwFactory s.flash.fw (1 - s.flash.bank) l }
        svc := { s.svc with fw := r } } who 0) := by
  simp only [execFwInstallComplete, h]

/-- A secure call that has run for its limit ends as by a double trap in the secure world. -/
theorem execSecureCallLimit_due {s : State} {t : BitVec 10} {c : Nat} (h : (thr s t.toNat).callStart = some c)
    (hl : fieldN (getR s .BOWL_CALL_LIMIT 0) 19 0 ≠ 0) (ht : c + fieldN (getR s .BOWL_CALL_LIMIT 0) 19 0 * 100 ≤ s.epoch) :
    execSecureCallLimit t s = .next (trapNormal
      (endSecureCall (alm s 0x8011 4 1 t.toNat (thr s t.toNat).wEntry.toNat) t.toNat) t.toNat 0x07 false 0 .M) := by
  simp only [execSecureCallLimit, h]
  exact next_if_pos (by simp [hl, ht])

/-- Settles O44: each call by what every service call does, and each end by the lemma that says what it does where it is due. -/
theorem serviceCallsAndSplicesComplete : Obligations.ServiceCallsAndSplicesComplete := by
  refine ⟨fun s who hd => ?calls, fun s b t => ?ends⟩
  case calls =>
    have answered (f : State → State) :=
      And.intro (svcCall_unbanked (who := who) hd f) fun hb : hasBank who = true => And.intro (svcCall_taken hd f hb) (svcCall_busy hd f hb)
    exact ⟨answered _, answered _, answered _, answered _, answered _, answered _, answered _, answered _, fun ok b c => answered _,
      fun resp => answered _⟩
  case ends =>
    refine ⟨fun hb => ⟨execSpliceRevoke_due hb, execSpliceDrainComplete_due hb, execSpliceDrainTimeout_due hb,
        execSpliceResetComplete_due hb⟩,
      fun p => execPresenceTimeout_due,
      fun p h => ⟨execSlotProgrammingComplete_revoke h, fun hr => ⟨execSlotProgrammingComplete_full h hr, fun k he => ?_⟩⟩,
      fun who l r => execFwInstallComplete_due, fun c => execSecureCallLimit_due⟩
    have programmed := execSlotProgrammingComplete_commission h hr he
    exact ⟨programmed true, programmed false⟩

end Sys2Proof.Machine
end

section
/-! PROOFS. The queue of commands, and the records of Almanac (R37, R475, R479). -/

namespace Sys2Proof.Machine

/-! ### The queue -/

/-- A step takes the command at the front of the queue. -/
theorem step_of_front {s : State} {c : Instr} {r : List Instr} (hp : s.pending = c :: r) : step s = exec c { s with pending := r } := by
  simp only [step, hp]

/-- Settles O1: a step of a queue that is not empty. -/
theorem stepRunsFront : Obligations.StepRunsFront := fun _ _ _ => step_of_front

/-! ### Records -/

/-- The SEQ after one that is given counts up by one, passing over 0xFFFF_FFFF (R475). -/
theorem seqNext_eq_mod {n : Nat} (h : n < 0xFFFFFFFF) : seqNext n = (n + 1) % 0xFFFFFFFF := by
  unfold seqNext
  split <;> omega

section
variable (s : State) (code sev cls src p0 p1 p2 : Nat) (trip : Bool)

/-- A record, stored or dropped, takes the next SEQ (R475); a fatal one drives FAULT_N low, and any other leaves it (R37). -/
theorem recordAcceptOp_counts : (recordAcceptOp s code sev cls src p0 p1 p2 trip).alm.nextSeq = seqNext s.alm.nextSeq ∧
    (recordAcceptOp s code sev cls src p0 p1 p2 trip).faultN = if sev = 6 then false else s.faultN := by
  unfold recordAcceptOp
  by_cases h6 : sev = 6
  · simp only [if_pos h6]
    split <;> exact ⟨rfl, rfl⟩
  · simp only [if_neg h6]
    split <;> exact ⟨rfl, rfl⟩

/-- The record stands in the lowest slot that was free. -/
theorem recordAcceptOp_ring_free {k : Nat} (hk : firstFree s.alm.ring 0 65537 = some k) :
    ∃ r, SMap.get (fun _ => none) (recordAcceptOp s code sev cls src p0 p1 p2 trip).alm.ring k = some r ∧ r.seq = s.alm.nextSeq ∧
      r.code = code ∧ r.sev = sev ∧ r.epoch = BitVec.ofNat 64 s.epoch := by
  unfold recordAcceptOp
  by_cases h6 : sev = 6
  · simp only [if_pos h6, hk]
    exact ⟨_, SMap.get_set_same _ _ _ _, rfl, rfl, rfl, rfl⟩
  · simp only [if_neg h6, hk]
    exact ⟨_, SMap.get_set_same _ _ _ _, rfl, rfl, rfl, rfl⟩

end

/-- Settles O55: what a record does to the SEQ, to FAULT_N and to the ring. -/
theorem almanacRecords : Obligations.AlmanacRecords := by
  intro s code sev cls src p0 p1 p2 trip hseq
  obtain ⟨hgiven, hfault⟩ := recordAcceptOp_counts s code sev cls src p0 p1 p2 trip
  have hnext := hgiven.trans (seqNext_eq_mod hseq)
  exact ⟨hnext ▸ Nat.mod_lt _ (by decide), hnext, fun h6 => hfault.trans (if_pos h6), fun h6 => hfault.trans (if_neg h6),
    fun k => recordAcceptOp_ring_free s code sev cls src p0 p1 p2 trip⟩

end Sys2Proof.Machine
end

section
/-! PROOFS. The commands of a DMA channel complete (R410, R425–R428). -/

namespace Sys2Proof.Machine

/-! ### Bursts and descriptors -/

section
variable {s x : State} {n : Nat} {l : List TWord} (hst : (dmaOf s n).st = 1)
include hst

/-- A burst from DRAM moves the words it reads, where nothing of the channel is awaited. -/
theorem dmaWork_dram (hretry : (dmaOf s n).retryAt = none) (hload : (dmaOf s n).loaded = true) (hslot : (dmaOf s n).slot = true)
    (hhost : ∀ r ∈ s.hostNet, r.ch ≠ n) (hhaws : ∀ r ∈ s.hawsNet, r.thread ≠ 1024 + n) (hbad : (dmaOf s n).bad = 0)
    (hwrote : (dmaOf s n).wrote = false) (hsp : (dmaOf s n).srcSp = 0) (hto : devTo s n (dmaSrc (dmaOf s n)) = .dram)
    (hw : devWords s n (dmaSrc (dmaOf s n)) (burstLen (dmaOf s n)) = (l, false, x)) :
    dmaWork s n = dmaWrite x n (burstLen (dmaOf s n)) l := by
  have hbegun : ¬ ((dmaOf s n).retryAt.isSome || !(dmaOf s n).loaded || !(dmaOf s n).slot) = true := by simp [hretry, hload, hslot]
  have hquiet : ¬ (s.hostNet.any (fun r => r.ch = n) || s.hawsNet.any (fun r => r.thread = 1024 + n)) = true := by
    simpa using ⟨hhost, hhaws⟩
  simp only [dmaWork, if_neg (not_not.mpr hst), if_neg hbegun, if_neg hquiet, hbad, hwrote, hsp, hto, hw, ne_eq, not_true,
    Bool.false_eq_true, if_false, OfNat.zero_ne_ofNat]

/-- A channel between descriptors, which nothing ends and which awaits nothing, reads its next one from DRAM. -/
theorem descFetch_dram (hload : (dmaOf s n).loaded = false) (hcmd : (dmaOf s n).cmd = none) (hretry : (dmaOf s n).retryAt = none)
    (hhaws : ∀ r ∈ s.hawsNet, r.thread ≠ 1024 + n) (hend : endStatus (dmaOf s n) = none) (hbad : (dmaOf s n).bad = 0)
    (hto : devTo s n (dmaOf s n).ptr = .dram) {ue : Bool} (hw : devWords s n (dmaOf s n).ptr 32 = (l, ue, x)) :
    descFetch s n = if ue then dmaEnd x n 3 else descTake x n l := by
  have hfree : ¬ ((dmaOf s n).st ≠ 1 || (dmaOf s n).loaded || (dmaOf s n).cmd.isSome || (dmaOf s n).retryAt.isSome
      || s.hawsNet.any (fun r => r.thread = 1024 + n)) = true := by
    simpa [hst, hload, hcmd, hretry] using hhaws
  simp only [descFetch, if_neg hfree, hend, hbad, hto, hw, ne_eq, not_true, if_false]

end

/-- A retry is due 1 µs after the bus error (R428). -/
theorem execDmaRetry_due {s : State} {ch : BitVec 8} {e : Nat} (hretry : (dmaOf s ch.toNat).retryAt = some e)
    (hst : (dmaOf s ch.toNat).st = 1) (he : e + 100 ≤ s.epoch) : execDmaRetry ch s = .next
      (if (dmaOf s ch.toNat).loaded then dmaBegin (txClear s) ch.toNat
       else updDma s ch.toNat (fun c => { c with retryAt := none })) := by
  simp only [execDmaRetry, hretry]
  exact next_if_pos (by simp [hst, he])

/-! ### Answers to host reads -/

/-- A read of the channel that an answer ends. -/
def readEnded (s : State) (r : HostReq) : State := { s with hostNet := s.hostNet.erase r }

/-- The words of the channel's read so far, once a completion has brought `data`: poisoned where the packet was (R138). -/
def wordsCome (s : State) (n : Nat) (ep : Bool) (data : List (BitVec 64)) : List TWord :=
  (((dmaOf s n).got).getD []) ++ data.map (fun v => if ep then poison v else gen v)

/-- A completion whose ECRC fails is an error of the port. -/
theorem execHostCompletion_badEcrc (h : BitVec 1) (ch : BitVec 8) (st : BitVec 3) (ep : Bool) (data : List (BitVec 64))
    (hdr0 hdr1 : Word) (s : State) : execHostCompletion h ch st ep false data hdr0 hdr1 s = .next (hostError s h.toNat 3 hdr0 hdr1) :=
  rfl

section
variable {s : State} {h : BitVec 1} {ch : BitVec 8} {r : HostReq} (hr : s.hostNet.find? (fun r => r.ch = ch.toNat && r.port = h.toNat) = some r)
  (data : List (BitVec 64)) (ep : Bool) (hdr0 hdr1 : Word)
include hr

/-- A completion with an error status is a bus error of the channel. -/
theorem execHostCompletion_error {st : BitVec 3} (hst : st ≠ 0) : execHostCompletion h ch st ep true data hdr0 hdr1 s = .next
    (readPump (updDma (readEnded s r) ch.toNat (fun c => { c with bad := 2 })) h.toNat) := by
  simp only [execHostCompletion, hr, Bool.not_true, Bool.false_eq_true, if_false, if_pos hst, readEnded]

/-- A successful completion brings words; with the last of the read they are the channel's, unless it is held. -/
theorem execHostCompletion_data : execHostCompletion h ch 0 ep true data hdr0 hdr1 s = .next
    (let x := if ep then hostError s h.toNat 2 hdr0 hdr1 else s
     let words := wordsCome x ch.toNat ep data
     if words.length * 8 < r.len then readPump (updDma x ch.toNat (fun c => { c with got := some words })) h.toNat
     else readPump (updDma (readEnded x r) ch.toNat
       (fun c => { c with got := if c.hold = 0 then some (words.take (r.len / 8)) else none })) h.toNat) := by
  simp only [execHostCompletion, hr, Bool.not_true, Bool.false_eq_true, if_false, ne_eq, not_true]
  rfl

/-- A read that times out is a bus error of its channel (R410). -/
theorem execCompletionTimeout_read (hto : (cfgDw s h.toNat 30).testBit 4 = false) (q : BitVec 2) :
    execCompletionTimeout h false (ch.setWidth 12) q hdr0 hdr1 s = .next
      (readPump (updDma (hostError (readEnded s r) h.toNat 4 hdr0 hdr1) ch.toNat (fun c => { c with bad := 2 })) h.toNat) := by
  have hch : (ch.setWidth 12).toNat = ch.toNat := BitVec.toNat_setWidth_of_le (by decide)
  simp only [execCompletionTimeout, hto, hch, hr, Bool.false_eq_true, if_false, readEnded]

end

/-- A fetch of a queue pair that times out stops the queue pair (R421). -/
theorem execCompletionTimeout_fetch {s : State} {h : BitVec 1} {u : BitVec 12} {q : BitVec 2} (hto : (cfgDw s h.toNat 30).testBit 4 = false)
    (hb : sliceBound s u.toNat = true) (hp : slicePort s u.toNat = h.toNat) (hon : qpOn s u.toNat q.toNat = true) (hdr0 hdr1 : Word) :
    execCompletionTimeout h true u q hdr0 hdr1 s = .next
      (updQp (hostError s h.toNat 4 hdr0 hdr1) u.toNat q.toNat (fun x => { x with stopped := true })) := by
  simp only [execCompletionTimeout, hto, hb, hp, hon, Bool.false_eq_true, if_false, Bool.and_true, decide_true, if_true]

/-- Settles O42: each command by the lemma that says what it does where it is due. -/
theorem dmaCompletes : Obligations.DmaCompletes := by
  intro s who ch h hdr0 hdr1
  refine ⟨rfl,
    fun hst hretry hload hslot hhost hhaws hbad hwrote hsp hto l x =>
      dmaWork_dram (s := txClear s) hst hretry hload hslot hhost hhaws hbad hwrote hsp hto,
    fun hst hload hcmd hretry hhaws hend hbad hto l x => ⟨fun hw => ?_, fun hw => ?_⟩, rfl,
    fun e hretry hst he => ⟨fun hload => ?_, fun hload => ?_⟩,
    fun hd => ⟨next_regCmd hd _, next_regCmd hd _, next_regCmd hd _⟩, fun st ep data => rfl,
    fun r hr => ⟨fun st data ep hst => execHostCompletion_error hr data ep hdr0 hdr1 hst, fun data ep => ⟨fun hl => ?_, fun hl => ?_⟩,
      fun q hto => execCompletionTimeout_read hr hdr0 hdr1 hto q⟩,
    fun u q hto hb hp hon => execCompletionTimeout_fetch hto hb hp hon hdr0 hdr1⟩
  · exact congrArg Host.Outcome.next (descFetch_dram (s := txClear s) hst hload hcmd hretry hhaws hend hbad hto hw)
  · exact congrArg Host.Outcome.next (descFetch_dram (s := txClear s) hst hload hcmd hretry hhaws hend hbad hto hw)
  · exact (execDmaRetry_due hretry hst he).trans (next_if_pos hload)
  · exact (execDmaRetry_due hretry hst he).trans (next_if_neg (Bool.eq_false_iff.mp hload))
  · exact (execHostCompletion_data hr data ep hdr0 hdr1).trans (next_if_pos hl)
  · exact (execHostCompletion_data hr data ep hdr0 hdr1).trans (next_if_neg (Nat.not_lt.mpr hl))

end Sys2Proof.Machine
end

section
/-! PROOFS. The commands of a slice complete (R412–R423). -/

namespace Sys2Proof.Machine

/-! ### Quiesce and the page -/

/-- A slice that is quiescing is quiesced once nothing of it is in flight (R422). -/
theorem execSliceQuiesced_due {s : State} {n : BitVec 12} (hq : sliceQuiescing s n.toNat = true)
    (hs : bit (getR s .SLCE_STS 0 n.toNat) 0 = false) (hi : sliceInflight s n.toNat = 0) :
    execSliceQuiesced n s = .next (sliceQuiesced (txClear s) n.toNat) :=
  next_if_pos (by simp [hq, hs, hi])

/-- A write of a slice's page acts while the slice is bound and the page answers. -/
theorem next_pageWrite {s : State} {u : Nat} (hb : sliceBound s u = true) (hd : regDead s ⟨.SLCE_QP_CTL, u, 0, 0⟩ = false) {x : State} :
    (.next (if sliceBound s u && !regDead s ⟨.SLCE_QP_CTL, u, 0, 0⟩ then x else s) : Host.Outcome State Fault Refusal) = .next x :=
  next_if_pos (by simp [hb, hd])

/-! ### Fetches (R413, R416) -/

/-- The read of the entry at SQ_HEAD is sent, and the next turn is that of the slice after. -/
def fetchSent (s : State) (u k : Nat) : State :=
  let r := tx s (.read (slicePort s u) (some (slicePasid s u))
    (fieldN (getR s .SLCE_SQ_BASE u k) 63 6 * 64 + (qpOf s u k).head % sqSize s u k * 32) 32)
  { r with dmaTurns := { r.dmaTurns with fetch := SMap.set (fun _ => 0) r.dmaTurns.fetch (fieldN (getR r .SLCE_BIND 0 u) 34 32) (u + 1) } }

/-- The command that the four words of an entry spell (R417). -/
def sqEntry (d : List (BitVec 64)) (ep : Bool) : SqCmd :=
  let w (i : Nat) : Word := d.getD i 0
  { op := fieldN (w 0) 7 0, resv := fieldN (w 0) 15 8, cid := fieldN (w 0) 31 16, len := fieldN (w 0) 63 32
    w1 := w 1, w2 := w 2, w3 := w 3, bad := ep }

/-- In its slice's turn a fetchable queue pair fetches: an error stops it, and an entry that comes joins its commands. -/
theorem execSqFetch_turn {s : State} {n : BitVec 12} {q : BitVec 2} (hf : qpFetchable (txClear s) n.toNat q.toNat = true)
    (ht : fetchTurn (txClear s) n.toNat = true) (st : BitVec 3) (ep : Bool) {d : List (BitVec 64)} (hd : d.length = 4) (hdr0 hdr1 : Word) :
    execSqFetch n q st ep d hdr0 hdr1 s = .next
      (let x := fetchSent (txClear s) n.toNat q.toNat
       if st ≠ 0 then updQp x n.toNat q.toNat (fun p => { p with stopped := true })
       else qpBegin (updQp (if ep then hostError x (slicePort (txClear s) n.toNat) 2 hdr0 hdr1 else x) n.toNat q.toNat
         (fun p => { p with head := (p.head + 1) % 65536, queue := p.queue ++ [sqEntry d ep] })) n.toNat q.toNat) :=
  (if_neg (not_not.mpr hd)).trans (next_if_neg (by simp [hf, ht]))

/-! ### COPYs (R418) -/

/-- A channel that the COPY `c` of a queue pair takes. -/
def copyTaken (u k op : Nat) (c : SqCmd) (x : DmaChan) : DmaChan :=
  { x with
    st := 1, status := 0, desc := 0, loaded := true, src := if op = 1 then c.w1.toNat else c.w2.toNat
    dst := if op = 1 then c.w2.toNat else c.w1.toNat, len := c.len, residue := c.len, srcSp := if op = 1 then 1 else 0
    dstSp := if op = 1 then 0 else 1, slice := u, int := false, last := true, retries := 3, cmd := some (u, k, c), finished := false
    pend := false }

/-- The oldest begun COPY of a direction takes a free channel and begins its bursts. -/
theorem copyStart_free {s : State} {u k op ch : Nat} {c : SqCmd} (hch : freeChan s u = some ch)
    (hc : (qpOf s u k).begun.find? (fun c => c.op == op) = some c) : copyStart s u k op =
      dmaBegin (updDma (updQp s u k (fun p => { p with begun := p.begun.erase c })) ch (copyTaken u k op c)) ch := by
  simp only [copyStart, hc, hch]
  rfl

/-! ### Point commands (R414, R417) -/

section
variable {s s1 s2 : State} {n : BitVec 12} {q : BitVec 2} {c : SqCmd}

section
variable {l : List TWord} (hcmd : pointCmd (txClear s) n.toNat q.toNat 3 = some (c, s1))
  (hup : upstreamOk (txClear s) (slicePort (txClear s) n.toNat) = true)
  (hread : readPoints s1 (fieldN c.w2 23 0) c.len = (l, s2))
include hcmd hup hread

/-- Points read while the link is down cannot be posted: a bus error. -/
theorem execPsRead_down (hlink : hostUp s2 (slicePort s2 n.toNat) = false) :
    execPsRead n q s = .next (qpComplete s2 n.toNat q.toNat c 2 0) := by
  simp only [execPsRead, hup, hcmd, hread, hlink, Bool.not_true, Bool.not_false, Bool.false_eq_true, if_false, if_true]

/-- Points read are posted to the host; one that is not sound ends the command UNCORRECTABLE. -/
theorem execPsRead_posted {s3 : State} {ok : Bool} (hlink : hostUp s2 (slicePort s2 n.toNat) = true)
    (hpost : postBursts s2 (slicePort s2 n.toNat) (some (slicePasid s2 n.toNat)) c.w1.toNat l = (ok, s3)) :
    execPsRead n q s = .next (qpComplete s3 n.toNat q.toNat c (if ok then 0 else 3) 0) := by
  simp only [execPsRead, hup, hcmd, hread, hlink, hpost, Bool.not_true, Bool.false_eq_true, if_false]

end

/-- The engine of point `p` takes up a command of the DMA engine's agent. -/
def pointReached (s : State) (p : Nat) : State := ptCheck (engCount (ptSettle (ptReach s 81 p) p) (ptHome p) 0) p

/-- A point write completes with the new SEQ. -/
theorem execPsWrite_begun (hcmd : pointCmd (txClear s) n.toNat q.toNat 4 = some (c, s1)) (gf : Bool) : execPsWrite n q gf s = .next
    (let w := ptWrite (pointReached s1 (fieldN c.w2 23 0)) (fieldN c.w2 23 0) (gen c.w3) { writer := 0x1000 + n.toNat } gf
     qpComplete w.2 n.toNat q.toNat c 0 (w64 w.1)) := by
  simp only [execPsWrite, hcmd, pointReached]

/-- The word that the engine of point `p` finds in its VALUE. -/
def pointFound (s : State) (p : Nat) : TWord := lineWord (ptGet (pointReached s p) p) 0

section
variable (hcmd : pointCmd (txClear s) n.toNat q.toNat 5 = some (c, s1)) (gf : Bool)
include hcmd

/-- A compare that finds a bad word ends UNCORRECTABLE (R141). -/
theorem execPsCw_bad (hbad : badWord (pointFound s1 (fieldN c.w2 23 0)) = true) :
    execPsCw n q gf s = .next (qpComplete (pointReached s1 (fieldN c.w2 23 0)) n.toNat q.toNat c 3 0) := by
  simp only [execPsCw, hcmd]
  exact next_if_pos hbad

section
variable (hgood : badWord (pointFound s1 (fieldN c.w2 23 0)) = false)
include hgood

/-- A compare that finds a good word completes with it, and writes the point where it is the word sought. -/
theorem execPsCw_good : execPsCw n q gf s = .next
    (qpComplete
      (if (pointFound s1 (fieldN c.w2 23 0)).val = c.w3 then
        (ptWrite (pointReached s1 (fieldN c.w2 23 0)) (fieldN c.w2 23 0) (gen c.w1) { writer := 0x1000 + n.toNat } gf).2
       else pointReached s1 (fieldN c.w2 23 0))
      n.toNat q.toNat c 0 (pointFound s1 (fieldN c.w2 23 0)).val) := by
  simp only [execPsCw, hcmd]
  exact next_if_neg (Bool.eq_false_iff.mp hgood)

/-- A compare that finds another word leaves the point. -/
theorem execPsCw_differs (hne : (pointFound s1 (fieldN c.w2 23 0)).val ≠ c.w3) : execPsCw n q gf s = .next
    (qpComplete (pointReached s1 (fieldN c.w2 23 0)) n.toNat q.toNat c 0 (pointFound s1 (fieldN c.w2 23 0)).val) := by
  rw [execPsCw_good hcmd gf hgood, if_neg hne]

/-- A compare that finds the word sought writes the point. -/
theorem execPsCw_equal (heq : (pointFound s1 (fieldN c.w2 23 0)).val = c.w3) : execPsCw n q gf s = .next
    (qpComplete (ptWrite (pointReached s1 (fieldN c.w2 23 0)) (fieldN c.w2 23 0) (gen c.w1) { writer := 0x1000 + n.toNat } gf).2
      n.toNat q.toNat c 0 (pointFound s1 (fieldN c.w2 23 0)).val) := by
  rw [execPsCw_good hcmd gf hgood, if_pos heq]

end
end
end

/-- Settles O43: each command by the lemma that says what it does where it is due. -/
theorem sliceCommandsComplete : Obligations.SliceCommandsComplete := by
  intro s who n q val
  refine ⟨fun hd => ⟨next_regCmd hd _, next_regCmd hd _⟩, fun hd => next_regCmd hd _, fun hd => next_regCmd hd _,
    fun hd => next_regCmd hd _, fun hd => ⟨next_regCmd hd _, next_regCmd hd _⟩, execSliceQuiesced_due,
    fun hb hd => ⟨fun tail => next_pageWrite hb hd, fun head => next_pageWrite hb hd, next_pageWrite hb hd, next_pageWrite hb hd⟩,
    fun hf ht st ep d hdr0 hdr1 hd => ?_,
    fun c ch hch =>
      ⟨fun hc => congrArg Host.Outcome.next (copyStart_free hch hc), fun hc => congrArg Host.Outcome.next (copyStart_free hch hc)⟩,
    fun c s1 s2 l hcmd hup hread => ⟨execPsRead_down hcmd hup hread, fun s3 ok => execPsRead_posted hcmd hup hread⟩,
    fun c s1 gf hcmd => execPsWrite_begun hcmd gf,
    fun c s1 gf hcmd => ⟨execPsCw_bad hcmd gf, execPsCw_differs hcmd gf, execPsCw_equal hcmd gf⟩⟩
  have hfetch := execSqFetch_turn hf ht st ep hd hdr0 hdr1
  exact ⟨fun hst => hfetch.trans (next_if_pos hst), fun hst => hfetch.trans (next_if_neg (not_not.mpr hst))⟩

end Sys2Proof.Machine
end

section
/-! PROOFS. The events and packets of a Hawser port complete (R430–R436, R439, R440). -/

namespace Sys2Proof.Machine

/-! ### The link (R430–R432) -/

/-- A port that is DOWN and may train leaves for TRAINING (R431). -/
theorem hawsRetrain_trains {s : State} {n : Nat} (h0 : hawsState s n = 0) (hm : hawsMayTrain s n = true) :
    hawsRetrain s n = updHaws (hawsSet s n 1) n (fun h => { h with trainAt := s.epoch }) :=
  if_pos (by simp [h0, hm])

/-- A port that is not DOWN, or may not train, stays. -/
theorem hawsRetrain_stays {s : State} {n : Nat} (h : hawsState s n ≠ 0 ∨ hawsMayTrain s n = false) : hawsRetrain s n = s :=
  if_neg (by simpa [or_iff_not_imp_left] using h)

section
variable {s : State} {k : BitVec 2}

/-- A port's cable is drawn: a link goes down. -/
theorem execHcprsChange_drawn : execHcprsChange k true s = .next
    (let x := updHaws s k.toNat (fun h => { h with cable := false })
     if hawsState x k.toNat = 0 then x else hawsDown x k.toNat) := rfl

/-- A port that may train and has lock enters HELLO. -/
theorem execHawserTrained_locked (hm : hawsMayTrain s k.toNat = true) (h1 : hawsState s k.toNat ≤ 1) :
    execHawserTrained k s = .next (hawsSet s k.toNat 2) :=
  next_if_pos (by simp [hm, h1])

/-- A port without lock after 500 ms tries again. -/
theorem execHawserTrainingTimeout_due (h1 : hawsState s k.toNat = 1) (ht : (hawsOf s k.toNat).trainAt + 50000000 ≤ s.epoch) :
    execHawserTrainingTimeout k s = .next (hawsRetrain (hawsSet s k.toNat 0) k.toNat) :=
  next_if_pos (by simp [h1, ht])

/-- A link in HELLO or UP that is lost trains again where it may. -/
theorem execHawserLinkLoss_linked (h : hawsState s k.toNat = 2 ∨ hawsState s k.toNat = 3) :
    execHawserLinkLoss k s = .next (hawsRetrain (hawsDown s k.toNat) k.toNat) :=
  next_if_pos (by simpa using h)

/-! ### HELLO (R432) -/

/-- The peer's HELLO is read: its identity, its role, and the reason for HELD. -/
def helloRead (s : State) (n : Nat) (peerId : Word) (sigOk : Bool) (role : BitVec 2) (flags : BitVec 3) : State :=
  updR (setR s .HAWS_PEER_ID peerId n) .HAWS_STS (fun w =>
    setField (setField (setField w 16 14 (helloReason s n peerId sigOk role.toNat flags)) 13 12 role.toNat) 11 10 (hawsKnot s n).role) n

/-- The HELLO is accepted: the peer's windows come again, the tally and mirror settings are taken, and the link is UP. -/
def helloAccepted (s x : State) (n : Nat) (flags : BitVec 3) (wins : List PeerWin) : State :=
  let own := hawsKnot s n
  let y := foldS (fun z e => peerWinSet z n e) (foldS (fun z w => setR z .HAWS_PEER_WIN 0 n w) x (List.range 16)) wins
  hawsSet (updR y .HAWS_STS (fun w =>
    setBit (setBit (setBit w 19 (own.mirror && own.role ≠ 3 && flags.getLsbD 2)) 18 own.acceptTallies) 17 (flags.getLsbD 0)) n) n 3

/-- A HELLO with a reason against it holds the port; any other brings the link UP. -/
theorem execHawserHello_checked (h2 : hawsState s k.toNat = 2) (peerId : Word) (sigOk : Bool) (role : BitVec 2) (flags : BitVec 3)
    (wins : List PeerWin) : execHawserHello k peerId sigOk role flags wins s = .next
      (let why := helloReason s k.toNat peerId sigOk role.toNat flags
       let x := helloRead s k.toNat peerId sigOk role flags
       if why ≠ 0 then alm (hawsSet x k.toNat 4) 0xB011 3 13 k.toNat why else helloAccepted s x k.toNat flags wins) :=
  next_if_neg (not_not.mpr h2)

/-! ### What an inbound request meets (R434) -/

/-- A valid window whose own side is `loc` holds the address. -/
def windowHolds (s : State) (n w : Nat) (loc : Word) (a : Nat) : Prop :=
  bit (getR s .HAWS_WIN_ACT n w) 55 = true ∧ fieldN loc 51 21 * 0x200000 ≤ a ∧ a < fieldN loc 51 21 * 0x200000 + fieldN loc 15 0 * 0x200000

/-- The partition that owns port `n`, 0 where none does. -/
def inboundPart (s : State) (n : Nat) : Nat := if (blkOwner s (24 + n)).1 = 1 then (blkOwner s (24 + n)).2 else 0

/-- A request that passed its window is issued with the identity of the port's owner. -/
def inboundIssue (s : State) (n a : Nat) (wr : Bool) (m : Word) (d : List (BitVec 64)) (tl : List (BitVec 8)) (ps : BitVec 8) : State :=
  match ownerReach s (blkOwner s (24 + n)).1 (blkOwner s (24 + n)).2 a with
  | .unmapped => inboundRefuse (recordUnmapped s 81 1 (inboundPart s n) 7 a ((blkOwner s (24 + n)).1 = 3)) n 5
  | .range => inboundRefuse s n 5
  | .secure => inboundRefuse (unitWorldRefusal s 13 n 81 1 (inboundPart s n) a) n 5
  | .ok =>
    if wr then inboundAnswer (agentWrite s (a / 64) (linkReceived s n d tl ps) m 67) n 1 Line.zero
    else
      let r := agentLine s (a / 64) 67
      inboundAnswer r.2.2 n 0 (linkWords r.2.2 n r.1)

section
variable {n a : Nat} {wr : Bool} {m : Word} {d : List (BitVec 64)} {tl : List (BitVec 8)} {ps : BitVec 8}

/-- An address that is no DRAM is recorded as unmapped, and the request refused. -/
theorem inboundIssue_unmapped (hr : ownerReach s (blkOwner s (24 + n)).1 (blkOwner s (24 + n)).2 a = .unmapped) :
    inboundIssue s n a wr m d tl ps =
      inboundRefuse (recordUnmapped s 81 1 (inboundPart s n) 7 a ((blkOwner s (24 + n)).1 = 3)) n 5 := by
  simp only [inboundIssue, hr]

/-- DRAM out of the owner's reach is refused. -/
theorem inboundIssue_range (hr : ownerReach s (blkOwner s (24 + n)).1 (blkOwner s (24 + n)).2 a = .range) :
    inboundIssue s n a wr m d tl ps = inboundRefuse s n 5 := by
  simp only [inboundIssue, hr]

/-- Secure memory is refused with a record. -/
theorem inboundIssue_secure (hr : ownerReach s (blkOwner s (24 + n)).1 (blkOwner s (24 + n)).2 a = .secure) :
    inboundIssue s n a wr m d tl ps = inboundRefuse (unitWorldRefusal s 13 n 81 1 (inboundPart s n) a) n 5 := by
  simp only [inboundIssue, hr]

section
variable (hr : ownerReach s (blkOwner s (24 + n)).1 (blkOwner s (24 + n)).2 a = .ok)
include hr

/-- A write in reach is performed and acknowledged. -/
theorem inboundIssue_write (hw : wr = true) : inboundIssue s n a wr m d tl ps =
    inboundAnswer (agentWrite s (a / 64) (linkReceived s n d tl ps) m 67) n 1 Line.zero := by
  simp only [inboundIssue, hr, hw, if_true]

/-- A read in reach is answered with its line. -/
theorem inboundIssue_read (hw : wr = false) {l : Line} {b : Bool} {x : State} (hl : agentLine s (a / 64) 67 = (l, b, x)) :
    inboundIssue s n a wr m d tl ps = inboundAnswer x n 0 (linkWords x n l) := by
  simp only [inboundIssue, hr, hw, hl, Bool.false_eq_true, if_false]

end
end

/-! ### Packets of a link that is UP -/

section
variable (h3 : hawsState s k.toNat = 3)
include h3

/-- The packet that fails its seventh replay brings the link down; any other is replayed and counted (R430). -/
theorem execHawserReplay_up (again : Bool) : execHawserReplay k again s = .next
    (let f := if again then (hawsOf s k.toNat).replays + 1 else 0
     if 7 ≤ f then hawsRetrain (alm (hawsDown s k.toNat) 0xB010 4 13 k.toNat) k.toNat
     else updHaws (updR s .HAWS_CNT (fun w => satInc w 31 0) k.toNat 6) k.toNat (fun h => { h with replays := f })) :=
  next_if_neg (not_not.mpr h3)

/-- A peer's ANNOUNCE: its windows are taken, and the refused requests are sent again (R435, R436). -/
theorem execAnnounce_up (wins : List PeerWin) : execAnnounce k wins s = .next
    (let x := updHaws (foldS (fun x e => peerWinSet x k.toNat e) s wins) k.toNat (fun h => { h with annAck := true })
     annSettle (foldS hawsRetry x (x.hawsNet.filter (fun r => r.port = k.toNat && r.stale))) k.toNat) :=
  next_if_neg (not_not.mpr h3)

/-- An epoch-source port asks its peer for the time once per 1 ms. -/
theorem execHawserTimeRequest_due (hs : (hawsKnot s k.toNat).epochSource = true) (ht : (hawsOf s k.toNat).timeAt + 100000 ≤ s.epoch) :
    execHawserTimeRequest k s = .next (updHaws s k.toNat (fun h => { h with timeOut := true, timeAt := s.epoch })) :=
  next_if_pos (by simp [h3, hs, ht])

/-- The peer's TIME request is answered. -/
theorem execPeerTimeRequest_up (t1 t2 t3 : Word) :
    execPeerTimeRequest k t1 t2 t3 s = .next (updHaws s k.toNat (fun h => { h with timeTx := some (t1, t2, t3) })) :=
  next_if_pos h3

/-! ### Inbound requests (R434) -/

section
variable {win : BitVec 4} {g : BitVec 8} {addr : BitVec 52} {wr : Bool} {m : Word} {d : List (BitVec 64)} {tl : List (BitVec 8)}
  {ps : BitVec 8} {loc peer : Word} (hact : SMap.get (fun _ => (0, 0)) (hawsOf s k.toNat).active win.toNat = (loc, peer))

include hact

/-- A request with another generation than the window's is stale. -/
theorem execHawserInboundRequest_stale (hg : fieldN (getR s .HAWS_WIN_ACT k.toNat win.toNat) 63 56 ≠ g.toNat) :
    execHawserInboundRequest k win g addr wr m d tl ps s = .next (inboundRefuse s k.toNat 2) := by
  simp only [execHawserInboundRequest, h3, hact, if_pos hg, ne_eq, not_true, if_false]

section
variable (hg : fieldN (getR s .HAWS_WIN_ACT k.toNat win.toNat) 63 56 = g.toNat)
include hg

/-- A request that its window does not hold is refused. -/
theorem execHawserInboundRequest_outside (hout : ¬ windowHolds s k.toNat win.toNat loc addr.toNat) :
    execHawserInboundRequest k win g addr wr m d tl ps s = .next (inboundRefuse s k.toNat 3) := by
  simp only [execHawserInboundRequest, h3, hact, hg, ne_eq, not_true, if_false]
  refine next_if_pos ?_
  simp only [windowHolds, not_and_or, Bool.not_eq_true, Nat.not_le, Nat.not_lt] at hout
  simpa [or_assoc] using hout

section
variable (hin : windowHolds s k.toNat win.toNat loc addr.toNat)
include hin

/-- A request that its window holds is issued where the window lets the peer make it. -/
theorem execHawserInboundRequest_inside : execHawserInboundRequest k win g addr wr m d tl ps s = .next
    (if !(if wr then bit peer 62 else bit peer 61) then inboundRefuse s k.toNat 4
     else inboundIssue s k.toNat addr.toNat wr m d tl ps) := by
  obtain ⟨hopen, hlo, hhi⟩ := hin
  simp only [execHawserInboundRequest, h3, hact, hg, ne_eq, not_true, if_false]
  refine (next_if_neg ?_).trans rfl
  simp [hopen, hlo, hhi]

end
end
end

/-! ### Time and mirrored writes (R439, R440) -/

/-- The port's time register takes the error `e` and the delay `d` of an answer. -/
def timeTaken (s : State) (n : Nat) (e d : Int) : State :=
  updR (updHaws s n (fun h => { h with timeOut := false })) .HAWS_TIME
    (fun w => setField (setField w 63 48 (max 0 (min 65535 d)).toNat) 47 32 (satErr e)) n

/-- The time answer of a peer that was asked is a mark where the port is the epoch's source (R285, R439). -/
theorem execHawserTimeAnswer_asked (hout : (hawsOf s k.toNat).timeOut = true) (t1 t2 t3 t4 : Word) :
    execHawserTimeAnswer k t1 t2 t3 t4 s = .next
      (let a : Int := (t2 - t1).toInt
       let b : Int := (t4 - t3).toInt
       let e := (a - b) / 2 + (BitVec.ofNat 16 (fieldN (getR s .HAWS_TIME k.toNat) 15 0)).toInt
       let x := timeTaken s k.toNat e ((a + b) / 2)
       if fieldN (getR x .CLK_EPOCH_STS 0) 9 8 = 2 ∧ fieldN (getR x .CLK_EPOCH_STS 0) 11 10 = k.toNat then acceptMark x e 1000000 else x) := by
  refine (next_if_neg (by simp [h3, hout])).trans (congrArg Host.Outcome.next (if_congr ?_ rfl rfl))
  exact Bool.and_eq_true_iff.trans (and_congr decide_eq_true_iff decide_eq_true_iff)

section
variable (hmir : bit (getR s .HAWS_STS k.toNat) 19 = true) (p : BitVec 24) (v : Word) (tal : BitVec 8) (ep w2 : Word) (gf : Bool)
include hmir

/-- The oldest mirrored write leaves a primary. -/
theorem execMirroredWrite_primary {x : MirrorMsg} {r : List MirrorMsg} (h1 : (hawsKnot s k.toNat).role = 1)
    (hq : (hawsOf s k.toNat).mirrorQ = x :: r) : execMirroredWrite k p v tal ep w2 gf s = .next
      (updR (updHaws s k.toNat (fun h => { h with mirrorQ := r, mirrorTx := some { x with val := (linkWords s k.toNat [x.val]).headD x.val } }))
        .HAWS_CNT (fun w => satInc w 31 0) k.toNat 3) := by
  simp only [execMirroredWrite, h3, hmir, h1, hq, ne_eq, not_true, decide_false, Bool.not_true, Bool.or_false, Bool.false_eq_true,
    if_false, if_true]

/-- A mirrored write that arrives at a secondary is performed. -/
theorem execMirroredWrite_secondary (h2 : (hawsKnot s k.toNat).role = 2) : execMirroredWrite k p v tal ep w2 gf s = .next
    (ptMirror (updR s .HAWS_CNT (fun w => satInc w 31 0) k.toNat 4) p.toNat
      (if bit (getR s .HAWS_STS k.toNat) 18 then ⟨v, tal⟩ else if tal = poisonTally then poison v else gen v) ep w2 gf) :=
  (next_if_neg (by simp [h3, hmir])).trans ((next_if_neg (by simp [h2])).trans (next_if_pos h2))

end
end

/-! ### Answers and commits (R433, R435, R436) -/

section
variable {req : BitVec 11} {addr : BitVec 52} {r : HawsReq} (hr : hawsFind s k.toNat req.toNat addr.toNat = some r)
include hr

/-- An outstanding request ends with its answer. -/
theorem execHawserResponse_found (refused : Bool) (d : List (BitVec 64)) (tl : List (BitVec 8)) (ps : BitVec 8) :
    execHawserResponse k req addr refused d tl ps s = .next
      (annSettle (if refused then hawsFail s r else hawsDone s r (linkReceived s k.toNat d tl ps)) k.toNat) := by
  simp only [execHawserResponse, hr]

/-- An outstanding request that was stale is counted and looked up again. -/
theorem execStaleWindow_found : execStaleWindow k req addr s = .next
    (annSettle (hawsRetry (updR s .HAWS_CNT (fun w => satInc w 31 0) k.toNat 0) r) k.toNat) := by
  simp only [execStaleWindow, hr]

end

section
variable {e : Nat} (he : (hawsOf s k.toNat).annSent = some e)
include he

/-- The acknowledgement of an ANNOUNCE ends the commit. -/
theorem execAnnounceAck_sent : execAnnounceAck k s = .next (commitEnd s k.toNat 0) := next_if_pos (by simp [he])

/-- An ANNOUNCE without acknowledgement for 10 ms takes the link down. -/
theorem execAnnounceTimeout_due (ht : e + 1000000 ≤ s.epoch) :
    execAnnounceTimeout k s = .next (hawsRetrain (hawsDown s k.toNat) k.toNat) := by
  simp only [execAnnounceTimeout, he, if_pos ht]

end
end

/-- Settles O45: each event and packet by the lemma that says what it does where it is due. -/
theorem hawserCompletes : Obligations.HawserCompletes := by
  intro s who k req addr wins n ends s0 sx retrained
  have hretrain (x : State) : retrained x (hawsRetrain x n) := ⟨fun h0 hm => hawsRetrain_trains h0 hm, hawsRetrain_stays⟩
  refine ⟨⟨_, rfl, hretrain _⟩, fun h => execHcprsChange_drawn.trans (next_if_neg h), fun h => execHcprsChange_drawn.trans (next_if_pos h),
    execHawserTrained_locked, fun h1 ht => ⟨_, execHawserTrainingTimeout_due h1 ht, hretrain _⟩,
    fun h => ⟨_, execHawserLinkLoss_linked h, hretrain _⟩, fun h2 peerId sigOk role flags => ?hello,
    fun h3 => ⟨fun again => ?replay, fun win g wr m d tl ps loc peer hact => ?inbound, execAnnounce_up h3 wins,
      execHawserTimeRequest_due h3, execPeerTimeRequest_up h3, fun t1 t2 t3 t4 hout => ?time,
      fun hmir p v tal ep w2 gf => ⟨fun x r => execMirroredWrite_primary h3 hmir p v tal ep w2 gf,
        execMirroredWrite_secondary h3 hmir p v tal ep w2 gf⟩⟩,
    fun r hr d tl ps => ⟨execHawserResponse_found hr true d tl ps, execHawserResponse_found hr false d tl ps, execStaleWindow_found hr⟩,
    fun hd mask => ⟨fun hw => (next_regCmd hd _).trans (next_if_pos hw),
      fun hw => (next_regCmd hd _).trans (next_if_neg (Bool.eq_false_iff.mp hw))⟩,
    fun e he => ⟨execAnnounceAck_sent he, fun ht => ⟨_, execAnnounceTimeout_due he ht, hretrain _⟩⟩⟩
  case hello =>
    have hchecked := execHawserHello_checked h2 peerId sigOk role flags wins
    exact ⟨fun hwhy => hchecked.trans (next_if_pos hwhy), fun hwhy => hchecked.trans (next_if_neg (not_not.mpr hwhy))⟩
  case replay =>
    have hreplay := execHawserReplay_up h3 again
    exact ⟨fun hf => hreplay.trans (next_if_neg (Nat.not_le.mpr hf)), fun hf => ⟨_, hreplay.trans (next_if_pos hf), hretrain _⟩⟩
  case inbound =>
    refine ⟨execHawserInboundRequest_stale h3 hact, execHawserInboundRequest_outside h3 hact, fun hg hin hmay => ?_, fun hg hin hmay => ?_⟩
    · exact (execHawserInboundRequest_inside h3 hact hg hin).trans (next_check_failed hmay)
    · have hissue := (execHawserInboundRequest_inside h3 hact hg hin (m := m) (d := d) (tl := tl) (ps := ps)).trans (next_check_passed hmay)
      exact ⟨fun hr => hissue.trans (congrArg _ (inboundIssue_unmapped hr)), fun hr => hissue.trans (congrArg _ (inboundIssue_range hr)),
        fun hr => hissue.trans (congrArg _ (inboundIssue_secure hr)), fun hr hw => hissue.trans (congrArg _ (inboundIssue_write hr hw)),
        fun hr hw l b x hl => hissue.trans (congrArg _ (inboundIssue_read hr hw hl))⟩
  case time =>
    have hanswer := execHawserTimeAnswer_asked h3 hout t1 t2 t3 t4
    exact ⟨fun hsrc => hanswer.trans (next_if_neg hsrc), fun hsrc => hanswer.trans (next_if_pos hsrc)⟩

end Sys2Proof.Machine
end

section
/-! PROOFS. Vigil's and Almanac's commands complete (R469–R471, R479, R481, R485). -/

namespace Sys2Proof.Machine

/-! ### Vigil (R469–R472) -/

/-- A run begins: its targets' quads stand in test mode. -/
def vigBegun (s : State) (mode : Nat) : State :=
  let x := updR { s with vigil := some (s.epoch, mode, vigTargets s) } .VIG_STS (fun w => setField (setField w 42 40 0) 2 0 1) 0
  foldS (fun z q => foldS (fun z c => updR z .CORE_MODE (fun w => setBit w 1 true) c) z (coresOf q)) x
    ((vigTargets s).filter (fun t => decide (t < 64)))

section
variable {s : State} {who : Requester}

section
variable (hd : regDead s ⟨.VIG_CMD, 0, 0, 0⟩ = false) (hw : vigWriter s who = true) (hrel : blkState s 28 ≠ 2)
include hd hw hrel

/-- OP = ABORT by the owner or Bowline ends the run in progress. -/
theorem execVigilAbort_writer : execVigilAbort who s = .next (vigAbort s) := by
  refine (next_regCmd hd _).trans ?_
  simp only [vigReleasing, if_neg hrel, if_pos hw]

/-- OP = START by the owner or Bowline starts a run where every check of R469 passes. -/
theorem execVigilStart_passes {mode : BitVec 2} (hm : mode ≠ 0) (hidle : s.vigil = none) (hts : vigTargets s ≠ [])
    (hquiet : ∀ t ∈ vigTargets s, vigQuiesced s t = true) (hon : ∀ t ∈ vigTargets s, ∀ d ∈ vigDoms t, domState s d = 1) :
    execVigilStart who mode s = .next (vigBegun s mode.toNat) := by
  have hmode : mode.toNat ≠ 0 := fun h => hm (BitVec.eq_of_toNat_eq h)
  have hbusy : (vigTargets s).find? (fun t => !vigQuiesced s t) = none := List.find?_eq_none.mpr (by simpa using hquiet)
  have hoff : (vigTargets s).find? (fun t => (vigDoms t).any (fun d => domState s d != 1)) = none :=
    List.find?_eq_none.mpr (by simpa using hon)
  refine (next_regCmd hd _).trans ?_
  simp only [vigStart, vigReleasing, if_neg hrel, hw, hidle, hbusy, hoff]
  exact (next_check_passed rfl).trans ((next_if_neg Bool.false_ne_true).trans (next_if_neg (by simp [hmode, hts])))

end

/-- The targets whose signature is not the expected one. -/
def vigBad (mode : Nat) (res : List (Nat × Word)) : List (Nat × Word) := res.filter (fun e => e.2 != Config.vigilExp e.1 mode)

/-- A run's outcomes are stored, its failures recorded, and its end shown. -/
def vigShown (s : State) (since mode : Nat) (res : List (Nat × Word)) : State :=
  let stored := foldS (fun z (e : Nat × Word) => vigStore z e.1 mode e.2) s res
  let told := foldS (fun z (e : Nat × Word) => alm z 0xD014 4 19 e.1 mode (lo32 e.2.toNat) (hi32 e.2.toNat)) stored (vigBad mode res)
  updR told .VIG_STS (fun w =>
    setField (setBit (setField w 23 8 ((told.epoch - since) / 100000)) 3 (bit w 3 || !(vigBad mode res).isEmpty)) 2 0 2) 0

/-- What follows the run, and the fence of each target that failed. -/
def vigEnded (s : State) (since mode : Nat) (ts : List Nat) (sigs : List (BitVec 64)) : State :=
  foldS (fun z (e : Nat × Word) => vigFence z e.1) (vigAfter (vigShown s since mode (ts.zip sigs)) ts) (vigBad mode (ts.zip sigs))

/-- A run that has lasted its time ends; a slice or a controller that fails ends start-up too (R465). -/
theorem execVigilRunComplete_due {since mode : Nat} {ts : List Nat} {sigs : List (BitVec 64)} (hv : s.vigil = some (since, mode, ts))
    (ht : since + vigLongest ts mode * 100000 ≤ s.epoch) (hl : sigs.length = ts.length) : execVigilRunComplete sigs s = .next
      (if (vigBad mode (ts.zip sigs)).any (fun e => decide (64 ≤ e.1) && decide (e.1 < 144)) then vigStop (vigEnded s since mode ts sigs)
       else vigEnded s since mode ts sigs) := by
  simp only [execVigilRunComplete, hv]
  exact (if_neg (not_not.mpr hl)).trans (if_neg (Nat.not_lt.mpr ht))

end

/-! ### Almanac (R479, R481, R485) -/

/-- A record is accepted while the rails are on, one of severity trace only where the rigging traces (R478). -/
theorem execRecordAccept_taken {s : State} {sev : BitVec 3} (hr : s.boot.rails = true) (h6 : sev.toNat ≤ 6)
    (htrace : sev = 0 → s.rig.dev.trace = true) (code : BitVec 16) (cls : BitVec 8) (src : BitVec 16) (p0 p1 p2 : BitVec 32) :
    execRecordAccept code sev cls src p0 p1 p2 s = .next
      (recordAcceptOp s code.toNat sev.toNat cls.toNat src.toNat p0.toNat p1.toNat p2.toNat
        (code = 0xC013 || code = 0xC014 || code = 0x8015)) := by
  have h7 : sev ≠ 7 := by
    rintro rfl
    exact absurd h6 (by decide)
  exact (next_if_neg (by simpa [hr] using h7)).trans (next_if_neg (by simpa using htrace))

/-- The next record is taken to the mirror, its write fails, or its ring slot is found lost. -/
theorem execAlmanacMirrorRecord_next {s : State} {k : Nat} {r : AlmRec} (hr : s.boot.rails = true) (hs : s.alm.mStop = false)
    (hwait : s.alm.mWait = false) (hn : mirrorNext s = some (k, r)) (slotOk ok : Bool) : execAlmanacMirrorRecord slotOk ok s = .next
      (if !slotOk then slotLost s k else if ok then mirrorTaken (mirrorErase s) k r else mirrorRetire (mirrorErase s)) := by
  simp only [execAlmanacMirrorRecord, hn]
  exact next_if_neg (by simp [hr, hs, hwait])

/-- Settles O47: each command by the lemma that says what it does where its checks pass. -/
theorem vigilAndAlmanacComplete : Obligations.VigilAndAlmanacComplete := by
  intro s who
  refine ⟨fun hd hw hrel => ⟨execVigilAbort_writer hd hw hrel, fun mode => execVigilStart_passes hd hw hrel⟩,
    fun since mode ts sigs hv ht hl => ?run,
    fun code sev cls src p0 p1 p2 hr h6 htrace => execRecordAccept_taken hr h6 htrace code cls src p0 p1 p2,
    fun k r hr hs hwait hn => ⟨execAlmanacMirrorRecord_next hr hs hwait hn true true, execAlmanacMirrorRecord_next hr hs hwait hn true false,
      execAlmanacMirrorRecord_next hr hs hwait hn false⟩,
    fun hd seq => next_regCmd hd _⟩
  case run =>
    have hend := execVigilRunComplete_due hv ht hl
    refine ⟨fun hsound => hend.trans (next_if_neg ?_), fun hstop => hend.trans (next_if_pos ?_)⟩
    · simp only [List.any_eq_true, Bool.and_eq_true, decide_eq_true_eq, not_exists, not_and, Nat.not_lt]
      exact fun e he h64 => (hsound e he).resolve_left (Nat.not_lt.mpr h64)
    · simp only [List.any_eq_true, Bool.and_eq_true, decide_eq_true_eq]
      exact hstop

end Sys2Proof.Machine
end

section
/-! PROOFS. Every well-formed command answers a next state: the commands that check their operands check what `WellFormed` requires. -/

namespace Sys2Proof.Machine

/-- The command answers a next state. -/
def Answers (o : Host.Outcome State Fault Refusal) : Prop := ∃ t, o = .next t

/-- What answers a state answers. -/
theorem Answers.next (t : State) : Answers (.next t) := ⟨t, rfl⟩

/-- A command that passes its check of operands answers where what it then does answers. -/
theorem Answers.of_guard {c : Prop} [Decidable c] {f : Fault} {o : Host.Outcome State Fault Refusal} (hc : ¬ c) (ho : Answers o) :
    Answers (if c then .fault f else o) := by rwa [if_neg hc]

/-- A choice of two commands that answer. -/
theorem Answers.ite {c : Prop} [Decidable c] {a b : Host.Outcome State Fault Refusal} (ha : Answers a) (hb : Answers b) :
    Answers (if c then a else b) := by
  split
  · exact ha
  · exact hb

/-! ### Messages of the mesh and of coherence -/

/-- A stop of the mesh passes the check, one of no tile with direction 0 alone (R48). -/
theorem execFlitHcrcFail_answers {stop : BitVec 7} {dir : BitVec 2} (h : stop.toNat < 84) (hd : stop.toNat < 64 ∨ dir = 0)
    (replayed : BitVec 6) (failures : BitVec 3) (s : State) : Answers (execFlitHcrcFail stop dir replayed failures s) := by
  refine .of_guard ?_ (.ite (.next _) (.next _))
  simp only [ge_iff_le, Bool.or_eq_true, Bool.and_eq_true, decide_eq_true_eq, not_or, Nat.not_le, not_and, ne_eq, not_not]
  exact ⟨h, fun h64 => hd.resolve_left (Nat.not_lt.mpr h64)⟩

theorem execMalformedFlit_answers {stop : BitVec 7} (h : stop.toNat < 84) (dir : BitVec 2) (s : State) :
    Answers (execMalformedFlit stop dir s) := .of_guard (Nat.not_le.mpr h) (.next _)

section
variable {src dst : BitVec 7} (hsrc : src.toNat < 84) (hdst : dst.toNat < 84)
include hsrc hdst

/-- Two stops of the mesh pass the check of a credit's operands. -/
theorem not_stops_out : ¬ (decide (src.toNat ≥ 84) || decide (dst.toNat ≥ 84)) = true := by simp [hsrc, hdst]

theorem execCredit_answers (val : Word) (s : State) : Answers (execCredit src dst val s) := .of_guard (not_stops_out hsrc hdst) (.next _)

theorem execCreditReturnTimeout_answers (s : State) : Answers (execCreditReturnTimeout src dst s) :=
  .of_guard (not_stops_out hsrc hdst) (.next _)

end

section
variable {h : BitVec 7} (hh : isHolder h = true)
include hh

/-- A holder passes the check of a holder number. -/
theorem not_holder_out : ¬ (!holderOk h) = true := by
  rw [show holderOk h = true from hh]
  exact Bool.false_ne_true

variable (op : BitVec 6) (line : BitVec 32) (s : State)

theorem requestCmd_answers (spec own : Bool) : Answers (requestCmd op spec own h line s) := .of_guard (not_holder_out hh) (.next _)

theorem holderMsg_answers : Answers (holderMsg op h line s) := .of_guard (not_holder_out hh) (.next _)

theorem execRdOnce_answers : Answers (execRdOnce h line s) := .of_guard (not_holder_out hh) (.next _)

theorem execWrFull_answers (h64 : 64 ≤ h.toNat) {data : List (BitVec 64)} (hl : data.length = 8) (ep : Bool) :
    Answers (execWrFull h line data ep s) := by
  refine .of_guard ?_ (.next _)
  simp [show holderOk h = true from hh, h64, hl]

theorem execWrPartial_answers {data : List (BitVec 64)} (hl : data.length = 8) (mask : Word) (ep : Bool) :
    Answers (execWrPartial h line data mask ep s) := by
  refine .of_guard ?_ (.ite (.next _) (.next _))
  simp [show holderOk h = true from hh, hl]

/-- A snoop is answered where it is in flight. -/
theorem snoopCmd_answers (k : Snoop) : Answers (snoopCmd op k h line s) := by
  refine .of_guard (not_holder_out hh) ?_
  dsimp only
  split
  · exact .next _
  · exact .next _

/-- A snoop response that is in flight meets its transaction, or is a breach. -/
theorem snoopRsp_answers (keeps hasData dirty : Bool) : Answers (snoopRsp op keeps hasData dirty h line s) := by
  refine .of_guard (not_holder_out hh) ?_
  dsimp only
  split
  · exact .next _
  · split
    · exact .next _
    · exact .ite (.next _) (.next _)

theorem execCompAck_answers : Answers (execCompAck h line s) := by
  refine .of_guard (not_holder_out hh) ?_
  dsimp only
  split
  · exact .next _
  · exact .next _

/-- A grant that is in flight reaches an agent, or an L2 that waits for it, or is a breach. -/
theorem grantCmd_answers (st : LSt) (ue : Bool) : Answers (grantCmd op st ue h line s) := by
  refine .of_guard (not_holder_out hh) ?_
  dsimp only
  split
  · exact .next _
  · refine .ite (.next _) ?_
    split
    · exact .ite (.ite (.next _) (.next _)) (.ite (.next _) (.next _))
    · exact .next _

theorem execGntUpg_answers : Answers (execGntUpg h line s) := by
  refine .of_guard (not_holder_out hh) ?_
  dsimp only
  split
  · exact .next _
  · split
    · exact .ite (.next _) (.next _)
    · exact .next _

/-- A line read once that is in flight reaches the thread that waits for it, if one does. -/
theorem dataOnce_answers (ue : Bool) : Answers (dataOnce op ue h line s) := by
  refine .of_guard (not_holder_out hh) ?_
  dsimp only
  split
  · exact .next _
  · split
    · exact .next _
    · split
      · exact .next _
      · exact .next _

theorem execRefused_answers : Answers (execRefused h line s) := by
  refine .of_guard (not_holder_out hh) ?_
  dsimp only
  split
  · exact .next _
  · exact .next _

/-- A denial that is in flight ends what waits for it: a thread's load or store, or the misses of an L2. -/
theorem execDenied_answers : Answers (execDenied h line s) := by
  refine .of_guard (not_holder_out hh) ?_
  dsimp only
  split
  · exact .next _
  · split
    · split
      · exact .next _
      · exact .next _
      · exact .next _
    · exact .next _

theorem execMissNote_answers : Answers (execMissNote h line s) := by
  refine .of_guard (not_holder_out hh) ?_
  dsimp only
  split
  · exact .next _
  · exact .next _

theorem execWrAck_answers : Answers (execWrAck h line s) := by
  refine .of_guard (not_holder_out hh) ?_
  dsimp only
  split
  · exact .next _
  · exact .next _

end

/-- Read data that is in flight reaches the transaction that waits for it, if one does. -/
theorem memData_answers (op : BitVec 6) (ue : Bool) (line : BitVec 32) (s : State) : Answers (memData op ue line s) := by
  unfold memData
  dsimp only
  split
  · exact .next _
  · split
    · exact .ite (.next _) (.next _)
    · exact .next _

theorem execMemAck_answers (line : BitVec 32) (s : State) : Answers (execMemAck line s) := by
  unfold execMemAck
  dsimp only
  split
  · exact .next _
  · split
    · exact .next _
    · exact .next _

/-! ### Power domains and splice-able blocks -/

section
variable {d : BitVec 9} (hd : isDomain d = true)
include hd

/-- A domain of Table 19-2 passes the check of a domain number. -/
theorem not_domain_out : ¬ 420 ≤ d.toNat := Nat.not_le.mpr (of_decide_eq_true hd)

variable (s : State)

theorem powCommand_domain_answers (who : Requester) (exp : Option (BitVec 16)) (op div : Nat) : Answers (powCommand who exp d op div s) :=
  .of_guard (not_domain_out hd) (.next _)

theorem execDomainSwitchComplete_answers : Answers (execDomainSwitchComplete d s) := .of_guard (not_domain_out hd) (.next _)

theorem execSolsticeHold_answers : Answers (execSolsticeHold d s) := .of_guard (not_domain_out hd) (.next _)

theorem execSolsticeSkip_answers : Answers (execSolsticeSkip d s) := .of_guard (not_domain_out hd) (.next _)

theorem execPowerRequest_answers (gen : BitVec 32) (op div : BitVec 4) : Answers (execPowerRequest gen op d div s) :=
  .of_guard (not_domain_out hd) (.next _)

end

section
variable {b : BitVec 5} (hb : isBlock b = true)
include hb

/-- A command on a block of Table 15-5 answers. -/
theorem blkCommand_answers (f : Nat → State) : Answers (blkCommand b f) := ⟨_, blkCommand_block (of_decide_eq_true hb) f⟩

variable (s : State)

theorem execSpliceRevoke_answers : Answers (execSpliceRevoke b s) := blkCommand_answers hb _

theorem execSpliceDrainComplete_answers : Answers (execSpliceDrainComplete b s) := blkCommand_answers hb _

theorem execSpliceDrainTimeout_answers : Answers (execSpliceDrainTimeout b s) := blkCommand_answers hb _

theorem execSpliceResetComplete_answers : Answers (execSpliceResetComplete b s) := blkCommand_answers hb _

end

/-! ### Lists of words, and single checks -/

theorem execSensorSample_answers {temps : List (BitVec 8)} (hl : temps.length = 420) (inlet outlet vin iin pin : BitVec 16) (s : State) :
    Answers (execSensorSample temps inlet outlet vin iin pin s) := .of_guard (not_not.mpr hl) (.next _)

theorem execStartupVigil_answers {sigs : List (BitVec 64)} (hl : sigs.length = 152) (s : State) : Answers (execStartupVigil sigs s) :=
  .of_guard (not_not.mpr hl) (.next _)

theorem execSqFetch_answers (n : BitVec 12) (q : BitVec 2) (st : BitVec 3) (ep : Bool) {data : List (BitVec 64)} (hl : data.length = 4)
    (hdr0 hdr1 : Word) (s : State) : Answers (execSqFetch n q st ep data hdr0 hdr1 s) := .of_guard (not_not.mpr hl) (.next _)

theorem execTime1ppsEdge_answers {ns : BitVec 4} (h : ns.toNat < 10) (s : State) : Answers (execTime1ppsEdge ns s) :=
  .of_guard (Nat.not_le.mpr h) (.next _)

theorem execMsixSend_answers (h : BitVec 1) {e : BitVec 13} (he : e.toNat < 4160) (s : State) : Answers (execMsixSend h e s) :=
  .of_guard (Nat.not_le.mpr he) (.next _)

theorem execHostLinkUp_answers (h : BitVec 1) {width : BitVec 5} {speed : BitVec 3}
    (hw : (decide (width = 4) || decide (width = 8) || decide (width = 16)) = true) (h0 : speed ≠ 0) (h5 : speed.toNat ≤ 5) (s : State) :
    Answers (execHostLinkUp h width speed s) := by
  refine .of_guard ?_ (.next _)
  rw [hw]
  simpa [h5] using h0

/-- A run that has ended brings a signature for each of its targets. -/
theorem execVigilRunComplete_answers {sigs : List (BitVec 64)} {s : State}
    (hl : ∀ since mode ts, s.vigil = some (since, mode, ts) → sigs.length = ts.length) : Answers (execVigilRunComplete sigs s) := by
  unfold execVigilRunComplete
  split
  · exact .next _
  · next since mode ts hv => exact .of_guard (not_not.mpr (hl since mode ts hv)) (.ite (.next _) (.next _))

/-! ### Every command -/

/-- Settles O58: the commands that check their operands by the lemma of their check; every other one answers by its definition. -/
theorem wellFormedCommandsAnswer : Obligations.WellFormedCommandsAnswer := by
  intro s c hwf hvigil
  change Answers (exec c s)
  cases c
  case startupVigil sigs => exact execStartupVigil_answers (of_decide_eq_true hwf) s
  case flitHcrcFail stop dir replayed failures =>
    obtain ⟨hstop, hdir⟩ := Bool.and_eq_true_iff.mp hwf
    have hlink := (Bool.or_eq_true_iff.mp hdir).imp of_decide_eq_true of_decide_eq_true
    exact execFlitHcrcFail_answers (of_decide_eq_true hstop) hlink replayed failures s
  case malformedFlit stop dir => exact execMalformedFlit_answers (of_decide_eq_true hwf) dir s
  case credit src dst val =>
    obtain ⟨hsrc, hdst⟩ := Bool.and_eq_true_iff.mp hwf
    exact execCredit_answers (of_decide_eq_true hsrc) (of_decide_eq_true hdst) val s
  case creditReturnTimeout src dst =>
    obtain ⟨hsrc, hdst⟩ := Bool.and_eq_true_iff.mp hwf
    exact execCreditReturnTimeout_answers (of_decide_eq_true hsrc) (of_decide_eq_true hdst) s
  case rdShared h line spec => exact requestCmd_answers hwf _ line s _ _
  case rdOwn h line | upgrade h line => exact requestCmd_answers hwf _ line s _ _
  case rdOnce h line => exact execRdOnce_answers hwf line s
  case wrFull h line data ep =>
    obtain ⟨hagent, hl⟩ := Bool.and_eq_true_iff.mp hwf
    obtain ⟨hh, h64⟩ := Bool.and_eq_true_iff.mp hagent
    exact execWrFull_answers hh line s (of_decide_eq_true h64) (of_decide_eq_true hl) ep
  case wrPartial h line data mask ep =>
    obtain ⟨hh, hl⟩ := Bool.and_eq_true_iff.mp hwf
    exact execWrPartial_answers hh line s (of_decide_eq_true hl) mask ep
  case wrBack h line | evictClean h line | cleanLine h line | flushLine h line => exact holderMsg_answers hwf _ line s
  case snpShared h line | snpInv h line | snpRead h line | snpClean h line => exact snoopCmd_answers hwf _ line s _
  case gntS h line | gntE h line | gntM h line | gntSUe h line | gntEUe h line | gntMUe h line => exact grantCmd_answers hwf _ line s _ _
  case gntUpg h line => exact execGntUpg_answers hwf line s
  case dataOnce h line | dataOnceUe h line => exact dataOnce_answers hwf _ line s _
  case refused h line => exact execRefused_answers hwf line s
  case denied h line => exact execDenied_answers hwf line s
  case missNote h line => exact execMissNote_answers hwf line s
  case compAck h line => exact execCompAck_answers hwf line s
  case wrAck h line => exact execWrAck_answers hwf line s
  case snpRspI h line | snpRspS h line | snpRspDataI h line | snpRspDataKeep h line | snpRspEvictC h line | snpRspEvictD h line =>
    exact snoopRsp_answers hwf _ line s _ _ _
  case memData line | memDataUe line => exact memData_answers _ _ line s
  case memAck line => exact execMemAck_answers line s
  case time1ppsEdge ns => exact execTime1ppsEdge_answers (of_decide_eq_true hwf) s
  case spliceRevoke b => exact execSpliceRevoke_answers hwf s
  case spliceDrainComplete b => exact execSpliceDrainComplete_answers hwf s
  case spliceDrainTimeout b => exact execSpliceDrainTimeout_answers hwf s
  case spliceResetComplete b => exact execSpliceResetComplete_answers hwf s
  case msixSend h e => exact execMsixSend_answers h (of_decide_eq_true hwf) s
  case sqFetch n q st ep data hdr0 hdr1 => exact execSqFetch_answers n q st ep (of_decide_eq_true hwf) hdr0 hdr1 s
  case domainOn who exp dom | domainOff who exp dom | clkStop who exp dom | clkRun who exp dom | step who exp dom div =>
    exact powCommand_domain_answers hwf s who exp _ _
  case domainSwitchComplete dom => exact execDomainSwitchComplete_answers hwf s
  case sensorSample temps inlet outlet vin iin pin => exact execSensorSample_answers (of_decide_eq_true hwf) inlet outlet vin iin pin s
  case solsticeHold d => exact execSolsticeHold_answers hwf s
  case solsticeSkip d => exact execSolsticeSkip_answers hwf s
  case powerRequest gen op dom div => exact execPowerRequest_answers hwf s gen op div
  case vigilRunComplete sigs => exact execVigilRunComplete_answers (hvigil sigs rfl)
  case hostLinkUp h width speed =>
    obtain ⟨hlink, h5⟩ := Bool.and_eq_true_iff.mp hwf
    obtain ⟨hw, h0⟩ := Bool.and_eq_true_iff.mp hlink
    exact execHostLinkUp_answers h hw (of_decide_eq_true h0) (of_decide_eq_true h5) s
  all_goals exact .next _

end Sys2Proof.Machine
end

section
/-! PROOFS. The predicted tallies (Table 5-5), the writes of core registers (R164, R174, R178, R193, R194, R202, R206), and the commands of the
mesh (R226, R231, R232, R241, R243, R251). -/

namespace Sys2Proof.Machine

/-- Settles O3: each predicted tally by its own lemma. -/
theorem predictedTalliesExact : Obligations.PredictedTalliesExact := fun _ _ _ ha hb hd =>
  ⟨predAdd_sound ha hb, predSub_sound ha hb, fun n _ => predShl_sound ha n, predMadd_sound ha hb hd⟩

/-! ### Writes of core registers (R194) -/

section
variable {s : State} {who : Requester} {r : Reg} {core i : Nat} (hd : regDead s ⟨r, core, i, 0⟩ = false) (f : State → State)
include hd

/-- A core register that answers takes the write of a requester that may write it, and refuses every other. -/
theorem next_coreWrite :
    (coreWriter s who core = true → (.next (coreWrite s who core r i f) : Host.Outcome State Fault Refusal) = .next (f s)) ∧
    (coreWriter s who core = false →
      (.next (coreWrite s who core r i f) : Host.Outcome State Fault Refusal) = .next (refuseReg s ⟨r, core, i, 0⟩ who)) :=
  ⟨fun hw => (next_regCmd hd _).trans (next_if_pos hw), fun hw => (next_regCmd hd _).trans (next_if_neg (Bool.eq_false_iff.mp hw))⟩

end

/-- Settles O28: each command is the write of a core register, but for CORE_IPI, which any requester may write. -/
theorem coreWritesComplete : Obligations.CoreWritesComplete := by
  intro s who t c val
  exact ⟨fun hd => next_coreWrite hd _, fun hd => next_coreWrite hd _, fun hd => next_coreWrite hd _, fun hd => next_coreWrite hd _,
    fun hd => next_coreWrite hd _, fun hd => next_coreWrite hd _, fun hd => next_regCmd hd _⟩

/-! ### Links and credits (R226, R231, R232) -/

section
variable {stop : BitVec 7} {dir : BitVec 2} (hstop : stop.toNat < 84) (s : State)
include hstop

/-- Flits are replayed on the link that leaves a stop; the seventh failure of one fails the link (R231). -/
theorem execFlitHcrcFail_link (hdir : stop.toNat < 64 ∨ dir = 0) (hl : linkOk stop.toNat dir.toNat = true) (replayed : BitVec 6)
    (failures : BitVec 3) : execFlitHcrcFail stop dir replayed failures s = .next
      (if failures = 7 then
        linkFailed (updR s .MESH_LINK (fun w => satAdd w 63 32 replayed.toNat) 0 stop.toNat dir.toNat) stop.toNat dir.toNat
      else updR s .MESH_LINK (fun w => satAdd w 63 32 replayed.toNat) 0 stop.toNat dir.toNat) := by
  have hok : ¬ (decide (stop.toNat ≥ 84) || (decide (stop.toNat ≥ 64) && decide (dir ≠ 0))) = true := by
    simpa [hstop, imp_iff_not_or] using hdir
  simp only [execFlitHcrcFail, if_neg hok, hl, Bool.not_true, Bool.false_eq_true, if_false]

/-- A direction in which a stop has no link carries no flit (R48). -/
theorem execFlitHcrcFail_noLink (hdir : stop.toNat < 64 ∨ dir = 0) (hl : linkOk stop.toNat dir.toNat = false) (replayed : BitVec 6)
    (failures : BitVec 3) : execFlitHcrcFail stop dir replayed failures s = .next s := by
  have hok : ¬ (decide (stop.toNat ≥ 84) || (decide (stop.toNat ≥ 64) && decide (dir ≠ 0))) = true := by
    simpa [hstop, imp_iff_not_or] using hdir
  simp only [execFlitHcrcFail, if_neg hok, hl, Bool.not_false, if_true]

/-- A malformed flit fails the link that brings it (R232). -/
theorem execMalformedFlit_eq : execMalformedFlit stop dir s = .next
    (if linkOk stop.toNat dir.toNat then linkFailed s stop.toNat dir.toNat else s) := if_neg (Nat.not_le.mpr hstop)

end

section
variable {src dst : BitVec 7} (hsrc : src.toNat < 84) (hdst : dst.toNat < 84) (s : State)
include hsrc hdst

theorem execCredit_eq (v : Word) : execCredit src dst v s =
    .next (creditReturn s src.toNat dst.toNat (fieldN v 15 0) (fieldN v 31 16) (fieldN v 47 32) (fieldN v 63 48)) :=
  if_neg (not_stops_out hsrc hdst)

theorem execCreditReturnTimeout_eq : execCreditReturnTimeout src dst s = .next (creditReturnAll s src.toNat dst.toNat) :=
  if_neg (not_stops_out hsrc hdst)

end

/-! ### Requests of the holders (R241, R243, R251) -/

section
variable {h : BitVec 7} (hn : h.toNat < 72) (line : BitVec 32) (s : State)
include hn

/-- A holder's message in flight reaches its home. -/
theorem holderMsg_eq (op : BitVec 6) : holderMsg op h line s = .next (deliverReq s op h.toNat line.toNat) :=
  if_neg (not_holder_out (holderOk_of_lt hn))

/-- What a request does before its home takes it: one in flight is left, another is sent. -/
theorem requestCmd_eq (op : BitVec 6) (spec own : Bool) : requestCmd op spec own h line s = .next (deliverReq
    (if s.net.any (fun m => m.op = op && m.holder = h.toNat && m.line = line.toNat) then s
      else if h.toNat < 64 then (if spec then aheadRequest s h.toNat line.toNat else l2Request s h.toNat line.toNat own false)
      else if h.toNat = 71 then l2Request (agent7Member s line.toNat).2 71 line.toNat own spec (agent7Member s line.toNat).1
      else if op = 0x01 then sendMsg s { op := op, holder := h.toNat, line := line.toNat } else s) op h.toNat line.toNat) :=
  if_neg (not_holder_out (holderOk_of_lt hn))

/-- A non-cacheable read of a core, or one in flight, is delivered as it stands. -/
theorem execRdOnce_flying (hf : s.net.any (fun m => m.op = 0x04 && m.holder = h.toNat && m.line = line.toNat) = true ∨ h.toNat < 64) :
    execRdOnce h line s = .next (deliverReq s 4 h.toNat line.toNat) := by
  refine (if_neg (not_holder_out (holderOk_of_lt hn))).trans ?_
  exact congrArg (fun x => Host.Outcome.next (deliverReq x 4 h.toNat line.toNat)) (if_neg (by simpa [imp_iff_not_or, or_comm] using hf))

/-- An agent's read that is not in flight is sent first. -/
theorem execRdOnce_sent (hf : s.net.any (fun m => m.op = 0x04 && m.holder = h.toNat && m.line = line.toNat) = false) (h64 : 64 ≤ h.toNat) :
    execRdOnce h line s = .next
      (deliverReq (sendMsg s { op := 0x04, holder := h.toNat, line := line.toNat }) 4 h.toNat line.toNat) := by
  refine (if_neg (not_holder_out (holderOk_of_lt hn))).trans ?_
  exact congrArg (fun x => Host.Outcome.next (deliverReq x 4 h.toNat line.toNat)) (if_pos (by rw [hf]; simpa using h64))

section
variable {d : List (BitVec 64)} (hd : d.length = 8) (m : Word) (ep : Bool)
include hd

/-- A core's non-cacheable store is in flight already. -/
theorem execWrPartial_core (hc : h.toNat < 64) : execWrPartial h line d m ep s = .next (deliverReq s 6 h.toNat line.toNat) :=
  (if_neg (by simp [holderOk_of_lt hn, hd])).trans (if_pos hc)

/-- An agent's masked write is sent. -/
theorem execWrPartial_agent (h64 : 64 ≤ h.toNat) : execWrPartial h line d m ep s = .next (deliverReq
    (sendMsg s { op := 6, holder := h.toNat, line := line.toNat, data := ingressLine d ep, mask := m }) 6 h.toNat line.toNat) :=
  (if_neg (by simp [holderOk_of_lt hn, hd])).trans (if_neg (Nat.not_lt.mpr h64))

/-- An agent's write of a whole line is sent. -/
theorem execWrFull_agent (h64 : 64 ≤ h.toNat) : execWrFull h line d ep s = .next (deliverReq
    (sendMsg s { op := 5, holder := h.toNat, line := line.toNat, data := ingressLine d ep }) 5 h.toNat line.toNat) :=
  if_neg (by simp [holderOk_of_lt hn, hd, h64])

end

end

/-- A message that has arrived is taken by its home. -/
theorem deliverReq_arrived {s s1 : State} {op : BitVec 6} {h line : Nat} {m : Msg}
    (ht : takeMsg s (fun m => m.op = op && m.holder = h && m.line = line) = some (m, s1)) : deliverReq s op h line = homeArrive s1 m := by
  simp only [deliverReq, ht]

/-- Settles O37: the links by whether there is one, the requests by whether they are in flight and who sends them. -/
theorem meshRequestsComplete : Obligations.MeshRequestsComplete := by
  intro s src dst h dir line
  refine ⟨fun hsrc hdir hl replayed failures => ⟨fun hf => ?replays, fun hf => ?fails⟩, fun hsrc hl => ?malformed,
    fun hsrc hdir hl replayed failures => ⟨execFlitHcrcFail_noLink hsrc s hdir hl replayed failures, ?noLink⟩,
    fun hsrc hdst => ⟨execCredit_eq hsrc hdst s, execCreditReturnTimeout_eq hsrc hdst s⟩, fun hn => ?requests,
    fun op m s1 => deliverReq_arrived⟩
  case replays => exact (execFlitHcrcFail_link hsrc s hdir hl replayed failures).trans (next_if_neg hf)
  case fails => exact (execFlitHcrcFail_link hsrc s hdir hl replayed failures).trans (next_if_pos hf)
  case malformed => exact (execMalformedFlit_eq hsrc s).trans (next_if_pos hl)
  case noLink => exact (execMalformedFlit_eq hsrc s).trans (next_if_neg (Bool.eq_false_iff.mp hl))
  case requests =>
    exact ⟨fun spec => requestCmd_eq hn line s 1 spec false, requestCmd_eq hn line s 2 false true, requestCmd_eq hn line s 3 false true,
      execRdOnce_flying hn line s, execRdOnce_sent hn line s, holderMsg_eq hn line s 7, holderMsg_eq hn line s 8, holderMsg_eq hn line s 9,
      holderMsg_eq hn line s 10, fun d m ep hd => ⟨execWrPartial_core hn line s hd m ep,
        fun h64 => ⟨execWrFull_agent hn line s hd ep h64, execWrPartial_agent hn line s hd m ep h64⟩⟩⟩

end Sys2Proof.Machine
end

section
/-! PROOFS. Every step keeps the stored bytes, tallies and codes canonical (O60): one lemma per state operation, in the model's order. -/

-- The lemmas form one long chain: elaborated one after another they need one thread's memory.
set_option Elab.async false

namespace Sys2Proof.Machine

/-! Each lemma follows its function's own branches: `.ite` for an `if`, `split` for a `match`, the callee's lemma for a call, `.update` for
a record update, `.foldS` for a loop. The rules are applied up to reducible unfolding (`with_reducible`), so that a rule is matched with the
function that the text names and never with the body of one it calls. -/

/-! ### A state that only other fields change, and the results that carry a state -/

/-- A state with the bytes, tallies and codes of a canonical one is canonical. -/
protected theorem CanonicalMemory.frame {s t : State} (hs : CanonicalMemory s) (hmem : t.mem = s.mem := by rfl)
    (htally : t.memTally = s.memTally := by rfl) (hsyn : t.memSyn = s.memSyn := by rfl) : CanonicalMemory t := by
  obtain ⟨h1, h2, h3⟩ := hs
  exact ⟨by rw [hmem]; exact h1, by rw [htally]; exact h2, by rw [hsyn]; exact h3⟩

/-- The rule of a record update `{ s with … }` that leaves the bytes, tallies and codes: every other field is free. -/
protected theorem CanonicalMemory.update {s : State} {pending free regs banked unscrubbed stale pageCode testRows rig partRun threads cores
    quads slices net regNet psNet tightNet pcNet credits meshSeq chans irq alm faultN epoch epochFrac mgmtIrq bowlIrq agentBuf haws hawsNet
    time stoppers ports ps splice svc hosts hostNet hostTx dma dmaTurns tenants pow mgmt flash boot stage rewire vigil vigilTested : _}
    (hs : CanonicalMemory s) :
    CanonicalMemory ⟨pending, free, regs, banked, s.mem, s.memTally, s.memSyn, unscrubbed, stale, pageCode, testRows, rig, partRun, threads,
      cores, quads, slices, net, regNet, psNet, tightNet, pcNet, credits, meshSeq, chans, irq, alm, faultN, epoch, epochFrac, mgmtIrq,
      bowlIrq, agentBuf, haws, hawsNet, time, stoppers, ports, ps, splice, svc, hosts, hostNet, hostTx, dma, dmaTurns, tenants, pow, mgmt,
      flash, boot, stage, rewire, vigil, vigilTested⟩ :=
  hs

/-- The invariant of the outcome of a command: the next state, where there is one, is canonical. -/
def NextCanonical : Host.Outcome State Fault Refusal → Prop
  | .next s => CanonicalMemory s
  | _ => True

/-- The invariant of the answer of an instruction's body: the state it carries is canonical. -/
def ActCanonical : Act → Prop
  | .done s | .trap s _ _ | .xfer s _ _ | .jump s | .wait s _ | .park s _ _ => CanonicalMemory s

/-- The invariant of the answer of the checks before a memory access. -/
def PreCanonical : Pre → Prop
  | .stop a => ActCanonical a
  | .go _ _ _ s => CanonicalMemory s

/-- The invariant of the answer of a read of words. -/
def GotCanonical : Got → Prop
  | .stop a => ActCanonical a
  | .words _ s => CanonicalMemory s

section
variable {c : Prop} {inst : Decidable c} {α β γ : Type}

protected theorem CanonicalMemory.ite {a b : State} (ha : CanonicalMemory a) (hb : CanonicalMemory b) :
    CanonicalMemory (if c then a else b) := by
  split <;> assumption

protected theorem CanonicalMemory.ite_snd {a b : α × State} (ha : CanonicalMemory a.2) (hb : CanonicalMemory b.2) :
    CanonicalMemory (if c then a else b).2 := by
  split <;> assumption

protected theorem CanonicalMemory.ite_snd_snd {a b : α × β × State} (ha : CanonicalMemory a.2.2) (hb : CanonicalMemory b.2.2) :
    CanonicalMemory (if c then a else b).2.2 := by
  split <;> assumption

protected theorem CanonicalMemory.ite_snd_snd_snd {a b : α × β × γ × State} (ha : CanonicalMemory a.2.2.2)
    (hb : CanonicalMemory b.2.2.2) : CanonicalMemory (if c then a else b).2.2.2 := by
  split <;> assumption

protected theorem NextCanonical.ite {a b : Host.Outcome State Fault Refusal} (ha : NextCanonical a) (hb : NextCanonical b) :
    NextCanonical (if c then a else b) := by
  split <;> assumption

protected theorem ActCanonical.ite {a b : Act} (ha : ActCanonical a) (hb : ActCanonical b) : ActCanonical (if c then a else b) := by
  split <;> assumption

protected theorem PreCanonical.ite {a b : Pre} (ha : PreCanonical a) (hb : PreCanonical b) : PreCanonical (if c then a else b) := by
  split <;> assumption

protected theorem GotCanonical.ite {a b : Got} (ha : GotCanonical a) (hb : GotCanonical b) : GotCanonical (if c then a else b) := by
  split <;> assumption

end

section
variable {s : State} {α β γ : Type}

protected theorem NextCanonical.next (hs : CanonicalMemory s) : NextCanonical (.next s) := hs
protected theorem NextCanonical.fault {f : Fault} : NextCanonical (.fault f) := trivial

protected theorem ActCanonical.done (hs : CanonicalMemory s) : ActCanonical (.done s) := hs
protected theorem ActCanonical.trap {n : Nat} {w : Word} (hs : CanonicalMemory s) : ActCanonical (.trap s n w) := hs
protected theorem ActCanonical.xfer {n : Option Word} {w : Bool} (hs : CanonicalMemory s) : ActCanonical (.xfer s n w) := hs
protected theorem ActCanonical.jump (hs : CanonicalMemory s) : ActCanonical (.jump s) := hs
protected theorem ActCanonical.wait {w : Wait} (hs : CanonicalMemory s) : ActCanonical (.wait s w) := hs
protected theorem ActCanonical.park {r : RunSt} {w : Option Wait} (hs : CanonicalMemory s) : ActCanonical (.park s r w) := hs

protected theorem PreCanonical.stop {a : Act} (ha : ActCanonical a) : PreCanonical (.stop a) := ha
protected theorem PreCanonical.go {pa : Nat} {d : Dest} {bad : Bool} (hs : CanonicalMemory s) : PreCanonical (.go pa d bad s) := hs
protected theorem GotCanonical.stop {a : Act} (ha : ActCanonical a) : GotCanonical (.stop a) := ha
protected theorem GotCanonical.words {l : List TWord} (hs : CanonicalMemory s) : GotCanonical (.words l s) := hs

protected theorem ActCanonical.of_done {a : Act} (ha : ActCanonical a) (h : a = .done s) : CanonicalMemory s := by
  rw [h] at ha; exact ha

protected theorem PreCanonical.of_stop {p : Pre} {a : Act} (hp : PreCanonical p) (h : p = .stop a) : ActCanonical a := by
  rw [h] at hp; exact hp

protected theorem PreCanonical.of_go {p : Pre} {pa : Nat} {d : Dest} {bad : Bool} (hp : PreCanonical p) (h : p = .go pa d bad s) :
    CanonicalMemory s := by
  rw [h] at hp; exact hp

protected theorem GotCanonical.of_stop {p : Got} {a : Act} (hp : GotCanonical p) (h : p = .stop a) : ActCanonical a := by
  rw [h] at hp; exact hp

protected theorem GotCanonical.of_words {p : Got} {l : List TWord} (hp : GotCanonical p) (h : p = .words l s) : CanonicalMemory s := by
  rw [h] at hp; exact hp

protected theorem CanonicalMemory.snd_of_eq {p : α × State} {a : α} (hs : CanonicalMemory p.2) (h : p = (a, s)) : CanonicalMemory s := by
  rw [h] at hs; exact hs

protected theorem CanonicalMemory.snd_snd_of_eq {p : α × β × State} {a : α} {b : β} (hs : CanonicalMemory p.2.2) (h : p = (a, b, s)) :
    CanonicalMemory s := by
  rw [h] at hs; exact hs

protected theorem CanonicalMemory.snd_snd_snd_of_eq {p : α × β × γ × State} {a : α} {b : β} {c : γ} (hs : CanonicalMemory p.2.2.2)
    (h : p = (a, b, c, s)) : CanonicalMemory s := by
  rw [h] at hs; exact hs

protected theorem CanonicalMemory.foldl {f : State → α → State} {l : List α} (hs : CanonicalMemory s)
    (hf : ∀ s a, CanonicalMemory s → CanonicalMemory (f s a)) : CanonicalMemory (l.foldl f s) :=
  foldl_keeps _ f hf l s hs

protected theorem CanonicalMemory.foldS {f : State → α → State} {l : List α} (hs : CanonicalMemory s)
    (hf : ∀ s a, CanonicalMemory s → CanonicalMemory (f s a)) : CanonicalMemory (foldS f s l) :=
  foldl_keeps _ f hf l s hs

protected theorem CanonicalMemory.foldl_snd {f : β × State → α → β × State} {l : List α} {p : β × State} (hs : CanonicalMemory p.2)
    (hf : ∀ p a, CanonicalMemory p.2 → CanonicalMemory (f p a).2) : CanonicalMemory (l.foldl f p).2 :=
  List.foldlRecOn (motive := fun p => CanonicalMemory p.2) l f hs fun p hp a _ => hf p a hp

protected theorem CanonicalMemory.foldl_snd_snd {f : β × γ × State → α → β × γ × State} {l : List α} {p : β × γ × State}
    (hs : CanonicalMemory p.2.2) (hf : ∀ p a, CanonicalMemory p.2.2 → CanonicalMemory (f p a).2.2) : CanonicalMemory (l.foldl f p).2.2 :=
  List.foldlRecOn (motive := fun p => CanonicalMemory p.2.2) l f hs fun p hp a _ => hf p a hp

protected theorem CanonicalMemory.setMemByte {a : Nat} {b : Byte} (hs : CanonicalMemory s) : CanonicalMemory (setMemByte s a b) := by
  obtain ⟨hmem, htally, hsyn⟩ := hs
  exact ⟨SMap.wf_set _ _ _ _ hmem, htally, hsyn⟩

end

/-! ### Named operations over the state: free values, threads and units, registers, partitions, Almanac and interrupt sources. -/

section
variable {s : State} {t c q n m p k l o h b u i code sev cls src p0 p1 p2 : Nat} {v dest : Word} {trip on : Bool} {who : Requester}

protected theorem CanonicalMemory.freeB (hs : CanonicalMemory s) : CanonicalMemory (freeB s).2 := hs.frame
protected theorem CanonicalMemory.freeW (hs : CanonicalMemory s) : CanonicalMemory (freeW s).2 := hs.frame
protected theorem CanonicalMemory.setThr {x : Thread} (hs : CanonicalMemory s) : CanonicalMemory (setThr s t x) := hs.frame
protected theorem CanonicalMemory.updThr {f : Thread → Thread} (hs : CanonicalMemory s) : CanonicalMemory (updThr s t f) := hs.frame
protected theorem CanonicalMemory.updCore {f : Core → Core} (hs : CanonicalMemory s) : CanonicalMemory (updCore s c f) := hs.frame
protected theorem CanonicalMemory.updQuad {f : QuadSt → QuadSt} (hs : CanonicalMemory s) : CanonicalMemory (updQuad s q f) := hs.frame
protected theorem CanonicalMemory.updSlice {f : SliceSt → SliceSt} (hs : CanonicalMemory s) : CanonicalMemory (updSlice s n f) := hs.frame
protected theorem CanonicalMemory.updChan {f : ChanSt → ChanSt} (hs : CanonicalMemory s) : CanonicalMemory (updChan s m f) := hs.frame
protected theorem CanonicalMemory.updPrun {f : PartRun → PartRun} (hs : CanonicalMemory s) : CanonicalMemory (updPrun s p f) := hs.frame
protected theorem CanonicalMemory.updHaws {f : HawsPort → HawsPort} (hs : CanonicalMemory s) : CanonicalMemory (updHaws s k f) := hs.frame
protected theorem CanonicalMemory.updPort {f : FieldPort → FieldPort} (hs : CanonicalMemory s) : CanonicalMemory (updPort s l f) := hs.frame
protected theorem CanonicalMemory.updStop {f : Stopper → Stopper} (hs : CanonicalMemory s) : CanonicalMemory (updStop s o f) := hs.frame
protected theorem CanonicalMemory.updHost {f : HostSt → HostSt} (hs : CanonicalMemory s) : CanonicalMemory (updHost s h f) := hs.frame
protected theorem CanonicalMemory.updDma {f : DmaChan → DmaChan} (hs : CanonicalMemory s) : CanonicalMemory (updDma s n f) := hs.frame

protected theorem CanonicalMemory.updTenant {f : TenantSt → TenantSt} (hs : CanonicalMemory s) : CanonicalMemory (updTenant s n f) :=
  hs.frame

protected theorem CanonicalMemory.updSplice {f : SpliceSt → SpliceSt} (hs : CanonicalMemory s) : CanonicalMemory (updSplice s b f) :=
  hs.frame

protected theorem CanonicalMemory.setR {r : Reg} {j : Nat} (hs : CanonicalMemory s) : CanonicalMemory (setR s r v u i j) := hs.frame

protected theorem CanonicalMemory.updR {r : Reg} {f : Word → Word} {j : Nat} (hs : CanonicalMemory s) :
    CanonicalMemory (updR s r f u i j) := hs.frame

protected theorem CanonicalMemory.setB {r : Reg} (hs : CanonicalMemory s) : CanonicalMemory (setB s r who v i) := hs.frame

protected theorem CanonicalMemory.recordAcceptOp (hs : CanonicalMemory s) :
    CanonicalMemory (recordAcceptOp s code sev cls src p0 p1 p2 trip) := by
  unfold recordAcceptOp
  dsimp only
  split
  · with_reducible exact .update (.ite hs.update hs)
  · with_reducible exact .update (.updR (.ite hs.update hs))

protected theorem CanonicalMemory.alm (hs : CanonicalMemory s) : CanonicalMemory (alm s code sev cls src p0 p1 p2) :=
  .ite hs hs.recordAcceptOp

protected theorem CanonicalMemory.irqAssert {p : Option Nat} {v : Nat} (hs : CanonicalMemory s) : CanonicalMemory (irqAssert s src p t v) :=
  .ite hs (.ite (.ite hs hs.update.updThr) hs.alm)

protected theorem CanonicalMemory.irqClear (hs : CanonicalMemory s) : CanonicalMemory (irqClear s src) := hs.frame

protected theorem CanonicalMemory.irqByDest {p : Option Nat} (hs : CanonicalMemory s) : CanonicalMemory (irqByDest s src dest p on) :=
  .ite hs.irqClear.irqAssert hs.irqClear

end

/-! ### Operand forms of OA64: the instruction word of each format (Table 4-7), immediates (R97), and reading and writing registers
(R93). -/

section
variable {s : State} {t i : Nat}

protected theorem CanonicalMemory.wg {r : BitVec 6} {v : TWord} (hs : CanonicalMemory s) : CanonicalMemory (wg s t r v) := .ite hs hs.updThr
protected theorem CanonicalMemory.wv {r : BitVec 5} {v : TWord} (hs : CanonicalMemory s) : CanonicalMemory (wv s t r i v) := hs.frame

protected theorem CanonicalMemory.wvAll {r : BitVec 5} {l : List TWord} (hs : CanonicalMemory s) : CanonicalMemory (wvAll s t r l) :=
  hs.foldS fun _ _ hx => hx.wv

end

/-! ### The FLAGS register (Table 4-2): rounding mode, accrued floating-point flags, divide-by-zero trap. -/

section
variable {s : State} {t : Nat} {fl : Word}

protected theorem CanonicalMemory.accrue (hs : CanonicalMemory s) : CanonicalMemory (accrue s t fl) := hs.frame

end

/-! ### Packets of the mesh: the flit header (Table 8-1), route selection (R221), end-to-end credits (R224–R226), order (R227), and the
counters of a stop (R233). -/

section
variable {s : State} {stop k n src dst dunit op flits g q l : Nat} {spec : Bool} {α : Type} {get : α → Pkt} {put : α → Pkt → α}

protected theorem CanonicalMemory.flitCount (hs : CanonicalMemory s) : CanonicalMemory (flitCount s stop k n) :=
  hs.foldS fun _ _ hx => hx.updR

protected theorem CanonicalMemory.meshCount (hs : CanonicalMemory s) : CanonicalMemory (meshCount s src dst n) :=
  .ite hs.flitCount.flitCount.updR hs.flitCount.flitCount

protected theorem CanonicalMemory.setCredit {c : Credit} (hs : CanonicalMemory s) : CanonicalMemory (setCredit s src dst c) := hs.frame

protected theorem CanonicalMemory.creditSpend {k : CreditSet} (hs : CanonicalMemory s) : CanonicalMemory (creditSpend s src dst n k) :=
  hs.frame

protected theorem CanonicalMemory.injectPkt {p : Pkt} {k : CreditSet} (hs : CanonicalMemory s) : CanonicalMemory (injectPkt s p k).2 :=
  hs.flitCount.creditSpend.update

protected theorem CanonicalMemory.mkPkt {u : MeshUnit} (hs : CanonicalMemory s) :
    CanonicalMemory (mkPkt s u dst dunit op spec flits).2 := by
  unfold mkPkt
  with_reducible refine .ite_snd hs.injectPkt (.ite_snd hs ?_)
  split
  · with_reducible exact hs.injectPkt
  · exact hs

protected theorem CanonicalMemory.ejectPkt {p : Pkt} (hs : CanonicalMemory s) : CanonicalMemory (ejectPkt s p) :=
  .ite hs.flitCount.updR hs.flitCount

protected theorem CanonicalMemory.retryList {l : List α} (hs : CanonicalMemory s) : CanonicalMemory (retryList get put src dst l s).2 := by
  unfold retryList
  with_reducible refine .foldl_snd hs fun _ _ hx => .ite_snd hx ?_
  split
  · with_reducible exact hx.injectPkt
  · exact hx

protected theorem CanonicalMemory.retryPkts (hs : CanonicalMemory s) : CanonicalMemory (retryPkts s src dst) :=
  .ite hs hs.retryList.update.retryList.update.retryList.update.retryList.update.retryList.update

protected theorem CanonicalMemory.creditReturn (hs : CanonicalMemory s) : CanonicalMemory (creditReturn s src dst g q l n) :=
  .ite hs hs.meshCount.setCredit.retryPkts

protected theorem CanonicalMemory.creditReturnAll (hs : CanonicalMemory s) : CanonicalMemory (creditReturnAll s src dst) := hs.creditReturn

protected theorem CanonicalMemory.creditDone {p : Pkt} (hs : CanonicalMemory s) : CanonicalMemory (creditDone s p) :=
  .ite hs (.ite hs.setCredit.creditReturnAll hs.setCredit)

protected theorem CanonicalMemory.dropPkts {l : List Pkt} (hs : CanonicalMemory s) : CanonicalMemory (dropPkts s l) :=
  hs.foldS fun _ _ hx => hx.creditDone

end

/-! ### The DRAM behind the memory channels: bytes, tallies, stored codes, initialisation, page states, and the repair of a page (ch.
10). -/

section
variable {s : State} {p c line m addr page kind due : Nat} {d : Line} {syn : Byte} {chk : List Word} {words : List TWord} {bad : List Nat}

protected theorem CanonicalMemory.setPointLine (hs : CanonicalMemory s) : CanonicalMemory (setPointLine s p d) := hs.frame

protected theorem CanonicalMemory.putWord {w : Nat} {x : TWord} (hs : CanonicalMemory s) : CanonicalMemory (putWord s w x syn) := by
  obtain ⟨hmem, htally, hsyn⟩ := hs
  have hcode : CanonicalMemory { s with memSyn := SMap.set (fun _ => 0) s.memSyn w syn } := ⟨hmem, htally, SMap.wf_set _ _ _ _ hsyn⟩
  unfold putWord
  dsimp only
  split
  · exact hcode.frame
  · obtain ⟨hmem, htally, hsyn⟩ := hcode.foldl (l := List.range 8) fun _ i hx => hx.setMemByte (a := 8 * w + i) (b := byteOf x.val i)
    exact ⟨hmem, SMap.wf_set _ _ _ _ htally, hsyn⟩

protected theorem CanonicalMemory.zeroChunk (hs : CanonicalMemory s) : CanonicalMemory (zeroChunk s c) :=
  .update (hs.foldl fun _ _ hx => hx.putWord)

protected theorem CanonicalMemory.putLine (hs : CanonicalMemory s) : CanonicalMemory (putLine s line d) :=
  .foldl (.ite hs.zeroChunk hs) fun _ _ hx => hx.putWord

protected theorem CanonicalMemory.chanBucket (hs : CanonicalMemory s) : CanonicalMemory (chanBucket s m addr) :=
  .ite hs.updChan.updR.alm.update hs.updChan

protected theorem CanonicalMemory.chanCE (hs : CanonicalMemory s) : CanonicalMemory (chanCE s m addr) := hs.updR.chanBucket

protected theorem CanonicalMemory.readDecode (hs : CanonicalMemory s) : CanonicalMemory (readDecode s line).2.2 := by
  unfold readDecode
  dsimp only
  with_reducible refine .foldl_snd_snd hs fun _ _ hx => ?_
  split
  · exact hx
  · with_reducible exact hx.chanCE
  · exact hx

protected theorem CanonicalMemory.markStale {b : Bool} (hs : CanonicalMemory s) : CanonicalMemory (markStale s page b) := hs.frame
protected theorem CanonicalMemory.putCheck (hs : CanonicalMemory s) : CanonicalMemory (putCheck s page chk) := hs.frame

protected theorem CanonicalMemory.rebuildPage (hs : CanonicalMemory s) : CanonicalMemory (rebuildPage s page words) :=
  hs.putCheck.markStale.updR

protected theorem CanonicalMemory.noteUncorrectable (hs : CanonicalMemory s) : CanonicalMemory (noteUncorrectable s m addr kind) :=
  .ite hs hs.setR

protected theorem CanonicalMemory.queuePage (hs : CanonicalMemory s) : CanonicalMemory (queuePage s m page due) := hs.frame

protected theorem CanonicalMemory.masterNote (hs : CanonicalMemory s) : CanonicalMemory (masterNote s page) :=
  .ite hs.markStale.updChan (.ite hs.markStale.updChan.queuePage hs.markStale.updChan.updR)

protected theorem CanonicalMemory.sendPc {m : PcMsg} (hs : CanonicalMemory s) : CanonicalMemory (sendPc s m) := hs.mkPkt.update

protected theorem CanonicalMemory.ctlWrite (hs : CanonicalMemory s) : CanonicalMemory (ctlWrite s line d) := by
  unfold ctlWrite
  with_reducible exact .ite hs.putLine.updChan hs.putLine.updChan.updChan.sendPc

protected theorem CanonicalMemory.rereadRow (hs : CanonicalMemory s) : CanonicalMemory (rereadRow s m line) := hs.frame

protected theorem CanonicalMemory.repairNow (hs : CanonicalMemory s) : CanonicalMemory (repairNow s line bad d).2.2 := by
  unfold repairNow
  dsimp only
  with_reducible refine .ite_snd_snd hs.noteUncorrectable.updR.alm.ctlWrite ?_
  split
  · with_reducible exact .chanBucket (.alm (.rereadRow (.updR (hs.noteUncorrectable.foldl fun _ _ hx => .ite hx hx.putLine))))
  · with_reducible exact hs.noteUncorrectable.updR.alm.ctlWrite

protected theorem CanonicalMemory.memReadLine (hs : CanonicalMemory s) : CanonicalMemory (memReadLine s line).2.2 := by
  unfold memReadLine
  with_reducible exact .ite_snd_snd hs.readDecode hs.readDecode.repairNow

end

/-! ### Resets of the whole module (R459-R461): a module reset, and the loss of power. -/

section
variable {old s : State} {kind : Nat}

protected theorem CanonicalMemory.keepPins {r : State} (hs1 : CanonicalMemory r) : CanonicalMemory (keepPins old r) :=
  .foldS (hs1.foldS fun _ _ hx => hx.updHost.updR) fun _ _ hx => hx.updHaws

protected theorem CanonicalMemory.moduleReset : CanonicalMemory (moduleReset s kind) := by
  unfold moduleReset
  exact .keepPins (.foldS ⟨rfl, rfl, rfl⟩ fun _ _ hx => hx.updChan)

protected theorem CanonicalMemory.powerOff : CanonicalMemory (powerOff s) := by
  unfold powerOff
  exact .keepPins (.foldS ⟨rfl, rfl, rfl⟩ fun _ _ hx => hx.updChan)

end

/-! ### The caches of a quad: L0 and side buffer of each thread, L1D and L1I of each core, and the L2, with their replacement and the
removals that keep them inclusive (ch. 7, R244). -/

section
variable {s s' : State} {c line q t level set wi : Nat} {stride isL2 wb own spec : Bool} {d : Line}

protected theorem CanonicalMemory.setL1d {x : Option CLine} (hs : CanonicalMemory s) : CanonicalMemory (setL1d s c line x) := hs.frame
protected theorem CanonicalMemory.setL1i {x : Option CLine} (hs : CanonicalMemory s) : CanonicalMemory (setL1i s c line x) := hs.frame
protected theorem CanonicalMemory.setL2 {x : Option (LSt × CLine)} (hs : CanonicalMemory s) : CanonicalMemory (setL2 s q line x) := hs.frame
protected theorem CanonicalMemory.setTrack {x : Option Track} (hs : CanonicalMemory s) : CanonicalMemory (setTrack s q line x) := hs.frame
protected theorem CanonicalMemory.l0Fill (hs : CanonicalMemory s) : CanonicalMemory (l0Fill s t line d stride) := .ite hs hs.updThr
protected theorem CanonicalMemory.injFire (hs : CanonicalMemory s) : CanonicalMemory (injFire s t) := hs.frame

protected theorem CanonicalMemory.quadCE (hs : CanonicalMemory s) : CanonicalMemory (quadCE s q isL2) :=
  .ite hs.updQuad.updR.alm.irqByDest hs.updQuad

protected theorem CanonicalMemory.quadUE (hs : CanonicalMemory s) : CanonicalMemory (quadUE s c line level) :=
  .ite (.ite hs.alm.updR hs.alm.updR) (.setR (.ite hs.alm.updR hs.alm.updR))

protected theorem CanonicalMemory.countCE (hs : CanonicalMemory s) : CanonicalMemory (countCE s c isL2) := .quadCE (.ite hs.updR hs.updR)

protected theorem CanonicalMemory.tagCheck {k : CLine} (hs : CanonicalMemory s) (h : tagCheck s c k = some s') : CanonicalMemory s' := by
  unfold tagCheck at h
  split at h
  · exact Option.some.inj h ▸ hs
  · split at h
    · exact Option.some.inj h ▸ hs.updR
    · nomatch h

protected theorem CanonicalMemory.tagFatal {k : CLine} : CanonicalMemory (tagFatal s c level set k) := CanonicalMemory.moduleReset

protected theorem CanonicalMemory.cleanCopy (hs : CanonicalMemory s) : CanonicalMemory (cleanCopy s line).2 := by
  unfold cleanCopy
  split
  · exact hs
  · with_reducible exact hs.memReadLine

protected theorem CanonicalMemory.l2Resolve (hs : CanonicalMemory s) : CanonicalMemory (l2Resolve s q line) := by
  unfold l2Resolve
  split
  · exact hs
  · with_reducible refine .ite hs ?_
    split
    · with_reducible exact CanonicalMemory.tagFatal
    · have h1 := hs.tagCheck ‹_›
      with_reducible
        exact .ite
          (.setL2 (h1.foldS fun _ _ hx => hx.countCE))
          (.ite
            (.setL2 (.foldS (h1.foldS fun _ _ hx => hx.countCE) fun _ _ hx => hx.quadUE))
            (.setL2 (.cleanCopy (.countCE (h1.foldS fun _ _ hx => hx.countCE)))))

protected theorem CanonicalMemory.l1dErrors (hs : CanonicalMemory s) : CanonicalMemory (l1dErrors s c line wi).2 := by
  unfold l1dErrors
  split
  · exact hs
  · split
    · with_reducible exact CanonicalMemory.tagFatal
    · split
      · have h1 := hs.tagCheck ‹_›
        with_reducible exact .ite h1 h1.setL1d
      · with_reducible exact (hs.tagCheck ‹_›).setL1d
      · with_reducible exact (hs.tagCheck ‹_›).setL1d.countCE
      · have h2 := hs.tagCheck ‹_›
        with_reducible exact .ite_snd h2.setL1d.l2Resolve.setL1d.countCE h2.setL1d.quadUE

protected theorem CanonicalMemory.coreDrop0 (hs : CanonicalMemory s) : CanonicalMemory (coreDrop0 s c line) :=
  hs.foldS fun _ _ hx => hx.updThr

protected theorem CanonicalMemory.resvDrop (hs : CanonicalMemory s) : CanonicalMemory (resvDrop s c line) :=
  hs.foldS fun _ _ hx => hx.updThr

protected theorem CanonicalMemory.l1dMerge (hs : CanonicalMemory s) : CanonicalMemory (l1dMerge s c line) := by
  unfold l1dMerge
  dsimp only
  split
  · split
    · with_reducible
        exact .ite
          (.setL2 (.setL1d (.ite (hs.foldS fun _ _ hx => .ite hx hx.l1dErrors) hs)))
          (.ite
            (.ite (hs.foldS fun _ _ hx => .ite hx hx.l1dErrors) hs)
            (.setL2 (.setL1d (.ite (hs.foldS fun _ _ hx => .ite hx hx.l1dErrors) hs))))
    · with_reducible exact .ite (hs.foldS fun _ _ hx => .ite hx hx.l1dErrors) hs
  · exact hs

protected theorem CanonicalMemory.l1dRemove (hs : CanonicalMemory s) : CanonicalMemory (l1dRemove s c line wb) := by
  unfold l1dRemove
  dsimp only
  split
  · with_reducible exact .resvDrop (.coreDrop0 (.setL1d (.ite hs.l1dMerge hs)))
  · with_reducible exact .coreDrop0 (.ite hs.l1dMerge hs)

protected theorem CanonicalMemory.l1dTouch {w : Nat} (hs : CanonicalMemory s) : CanonicalMemory (l1dTouch s c set w) := hs.frame

protected theorem CanonicalMemory.l1dInstall {x : CLine} (hs : CanonicalMemory s) : CanonicalMemory (l1dInstall s c line x) := by
  unfold l1dInstall
  dsimp only
  split
  · with_reducible exact hs.setL1d.l1dTouch
  · split
    · with_reducible exact hs.setL1d.l1dTouch
    · with_reducible refine .l1dTouch (.setL1d ?_)
      split
      · with_reducible exact hs.l1dRemove
      · exact hs

protected theorem CanonicalMemory.quadMerge (hs : CanonicalMemory s) : CanonicalMemory (quadMerge s q line) :=
  hs.foldS fun _ _ hx => hx.l1dMerge

protected theorem CanonicalMemory.quadPurge (hs : CanonicalMemory s) : CanonicalMemory (quadPurge s q line) :=
  hs.foldS fun _ _ hx => hx.l1dRemove.setL1i

protected theorem CanonicalMemory.coreDowngrade (hs : CanonicalMemory s) : CanonicalMemory (coreDowngrade s c line) := by
  unfold coreDowngrade
  dsimp only
  split
  · with_reducible exact .ite hs.l1dMerge.setL1d hs.l1dMerge
  · with_reducible exact hs.l1dMerge

protected theorem CanonicalMemory.quadDowngrade (hs : CanonicalMemory s) : CanonicalMemory (quadDowngrade s q line) :=
  hs.foldS fun _ _ hx => hx.coreDowngrade

protected theorem CanonicalMemory.shareLine (hs : CanonicalMemory s) : CanonicalMemory (shareLine s c line) :=
  hs.foldS fun _ _ hx => .ite hx hx.coreDowngrade

protected theorem CanonicalMemory.quadData (hs : CanonicalMemory s) : CanonicalMemory (quadData s q line).2 := by
  unfold quadData
  dsimp only
  split
  · split
    · with_reducible exact hs.l2Resolve
    · with_reducible exact hs.l2Resolve
  · with_reducible exact hs.l2Resolve

protected theorem CanonicalMemory.sendMsg {m : Msg} (hs : CanonicalMemory s) : CanonicalMemory (sendMsg s m) := hs.mkPkt.update

protected theorem CanonicalMemory.l2EvictNow (hs : CanonicalMemory s) : CanonicalMemory (l2EvictNow s q line) := by
  unfold l2EvictNow
  dsimp only
  with_reducible refine .ite hs ?_
  split
  · with_reducible exact .ite hs.quadMerge.l2Resolve.quadPurge.setL2 hs.quadMerge.l2Resolve.quadPurge.setL2.setTrack.sendMsg
  · with_reducible exact hs.quadMerge.l2Resolve

protected theorem CanonicalMemory.l2Evict (hs : CanonicalMemory s) : CanonicalMemory (l2Evict s q line) := .ite hs hs.l2EvictNow

protected theorem CanonicalMemory.sideGone (hs : CanonicalMemory s) : CanonicalMemory (sideGone s q line) := by
  unfold sideGone
  split
  · with_reducible exact .ite hs hs.l2Evict
  · exact hs

protected theorem CanonicalMemory.sideUpd {f : Thread → Thread} (hs : CanonicalMemory s) : CanonicalMemory (sideUpd s t f) :=
  hs.updThr.foldS fun _ _ hx => hx.sideGone

protected theorem CanonicalMemory.sideClear (hs : CanonicalMemory s) : CanonicalMemory (sideClear s t) := hs.sideUpd

protected theorem CanonicalMemory.l2Array (hs : CanonicalMemory s) : CanonicalMemory (l2Array s q line) := by
  unfold l2Array
  dsimp only
  split
  · with_reducible refine .setL2 (.ite hs ?_)
    split
    · with_reducible refine .ite (hs.foldS fun _ _ hx => ?_) hs
      split
      · with_reducible exact hx.setL2
      · exact hx
    · with_reducible refine .l2Evict (.freeW (.ite (hs.foldS fun _ _ hx => ?_) hs))
      split
      · with_reducible exact hx.setL2
      · exact hx
  · exact hs

protected theorem CanonicalMemory.l1iTouch {w : Nat} (hs : CanonicalMemory s) : CanonicalMemory (l1iTouch s c set w) := hs.frame

protected theorem CanonicalMemory.l1iInstall (hs : CanonicalMemory s) : CanonicalMemory (l1iInstall s c line d) := by
  unfold l1iInstall
  with_reducible refine .l1iTouch (.setL1i ?_)
  split
  · with_reducible exact hs.quadDowngrade.setL1i
  · with_reducible exact hs.quadDowngrade

protected theorem CanonicalMemory.l1dCopy (hs : CanonicalMemory s) : CanonicalMemory (l1dCopy s c line d) := by
  unfold l1dCopy
  split
  · with_reducible exact hs.setL2.shareLine.l1dInstall
  · exact hs

protected theorem CanonicalMemory.promote (hs : CanonicalMemory s) : CanonicalMemory (promote s t line) := by
  unfold promote
  split
  · with_reducible refine .ite hs.updThr (.l0Fill ?_)
    split
    · with_reducible exact hs.updThr.shareLine.l2Array.l1dTouch
    · with_reducible exact hs.updThr.shareLine.l2Array.l1dCopy
  · exact hs

protected theorem CanonicalMemory.takeWrite (hs : CanonicalMemory s) : CanonicalMemory (takeWrite s c line) := by
  unfold takeWrite
  extract_lets q s1 s2 s3
  have h2 : CanonicalMemory s2 := hs.quadMerge.l2Resolve.foldS fun _ _ hx => .ite hx hx.l1dRemove
  have h3 : CanonicalMemory s3 := h2.foldS fun _ _ hx => hx.setL1i
  split
  · dsimp only
    split
    · exact h3.setL2.l2Array.setL1d
    · exact h3.setL2.l2Array.setL2.l1dInstall
  · exact h3

protected theorem CanonicalMemory.l2Request {who : Nat × Bool} (hs : CanonicalMemory s) :
    CanonicalMemory (l2Request s q line own spec who) := by
  unfold l2Request
  split
  · exact hs
  · with_reducible refine .ite hs (.ite ?_ ?_)
    · split
      · with_reducible exact hs.setTrack.sendMsg
      · exact hs
      · with_reducible exact hs.setTrack.sendMsg
    · split
      · exact hs
      · with_reducible exact hs.setTrack.sendMsg

protected theorem CanonicalMemory.sideRequest {who : SideWho} (hs : CanonicalMemory s) : CanonicalMemory (sideRequest s t line who) := by
  unfold sideRequest
  with_reducible refine .ite hs.l2Request ?_
  split
  · with_reducible exact hs.sideUpd.l2Request
  · exact hs

protected theorem CanonicalMemory.quadEvictAll (hs : CanonicalMemory s) : CanonicalMemory (quadEvictAll s q) :=
  hs.foldS fun _ _ hx => hx.l2EvictNow

end

/-! ### The homes: home selection, LLC slices, directory and home transactions (ch. 9), and the coherent view of memory that composite
accesses use. -/

section
variable {s s' : State} {n line slice op h fuel q a : Nat} {dirty ue fromMem keep ep : Bool} {d new : Line} {x4 : List Nat} {mask : Word}
  {thread : Option Nat} {ws : List (Nat × Nat × TWord)}

protected theorem CanonicalMemory.setLlc {x : Option CLine} (hs : CanonicalMemory s) : CanonicalMemory (setLlc s n line x) := hs.frame

protected theorem CanonicalMemory.sliceCE (hs : CanonicalMemory s) : CanonicalMemory (sliceCE s n) :=
  .ite hs.updR.updSlice.updR.alm.irqByDest hs.updR.updSlice

protected theorem CanonicalMemory.sliceUE (hs : CanonicalMemory s) : CanonicalMemory (sliceUE s n line) := .ite hs.alm.updR hs.alm.updR.setR

protected theorem CanonicalMemory.llcRead {x : CLine} (hs : CanonicalMemory s) : CanonicalMemory (llcRead s n line x).2.2 :=
  .ite_snd_snd hs (.ite_snd_snd CanonicalMemory.moduleReset (.ite_snd_snd
    (.setLlc (.foldS (.ite hs.updR hs) fun _ _ hx => hx.sliceCE))
    (.ite_snd_snd
      (.memReadLine (.sliceCE (.setLlc (.foldS (.ite hs.updR hs) fun _ _ hx => hx.sliceCE))))
      (.foldS (.setLlc (.foldS (.ite hs.updR hs) fun _ _ hx => hx.sliceCE)) fun _ _ hx => hx.sliceUE))))

protected theorem CanonicalMemory.llcHit {x : CLine} (hs : CanonicalMemory s) : CanonicalMemory (llcHit s n line x).2.2 := by
  unfold llcHit
  dsimp only
  split
  · with_reducible exact hs.llcRead.setLlc
  · with_reducible exact hs.llcRead

protected theorem CanonicalMemory.llcAlloc (hs : CanonicalMemory s) : CanonicalMemory (llcAlloc s n line d dirty) := by
  unfold llcAlloc
  split
  · exact hs.setLlc
  with_reducible refine .setLlc (.ite hs ?_)
  extract_lets top cand
  split; next w s hw =>
  have hs := hs.freeW.snd_of_eq hw
  extract_lets v s2
  have h2 : CanonicalMemory s2 := hs.foldS fun s e hx => by
    split
    · exact hx.setLlc
    · exact hx
  split
  · split; next d2 ue s hd =>
    have hs : CanonicalMemory s := .snd_snd_of_eq (by exact .ite_snd_snd h2.llcRead h2) hd
    exact .setLlc (.ite hs.sendMsg hs)
  · exact h2

protected theorem CanonicalMemory.setDirEnt {x : Option DirEnt} (hs : CanonicalMemory s) : CanonicalMemory (setDirEnt s n line x) :=
  hs.frame

protected theorem CanonicalMemory.dirSetHolders {x : Bool} {h : BitVec 72} (hs : CanonicalMemory s) :
    CanonicalMemory (dirSetHolders s n line x h) := by
  unfold dirSetHolders
  with_reducible refine .ite hs.setDirEnt ?_
  split
  · with_reducible exact hs.setDirEnt
  · with_reducible exact hs.setDirEnt

protected theorem CanonicalMemory.cohCount (hs : CanonicalMemory s) : CanonicalMemory (cohCount s slice n) := hs.frame
protected theorem CanonicalMemory.protocolBreach : CanonicalMemory (protocolBreach s line op) := CanonicalMemory.moduleReset

protected theorem CanonicalMemory.dirRemove (hs : CanonicalMemory s) : CanonicalMemory (dirRemove s n line h) := by
  unfold dirRemove
  split
  · with_reducible exact hs.dirSetHolders
  · exact hs

protected theorem CanonicalMemory.takeMsg {f : Msg → Bool} {m : Msg} (hs : CanonicalMemory s) (h : takeMsg s f = some (m, s')) :
    CanonicalMemory s' := by
  unfold takeMsg at h
  split at h
  · obtain ⟨-, rfl⟩ := Prod.mk.inj (Option.some.inj h)
    exact hs.update.ejectPkt
  · nomatch h

protected theorem CanonicalMemory.putTxn {t : Txn} (hs : CanonicalMemory s) : CanonicalMemory (putTxn s n t) := hs.frame

protected theorem CanonicalMemory.dropTxn (hs : CanonicalMemory s) : CanonicalMemory (dropTxn s n line) := by
  unfold dropTxn
  dsimp only
  split
  · with_reducible exact hs.updSlice.creditDone
  · with_reducible exact hs.updSlice

protected theorem CanonicalMemory.snoop {t : Txn} {op : BitVec 6} (hs : CanonicalMemory s) : CanonicalMemory (snoop s n t op x4) :=
  .putTxn (hs.foldS fun _ _ hx => hx.sendMsg.cohCount)

protected theorem CanonicalMemory.grant {t : Txn} {op : BitVec 6} (hs : CanonicalMemory s) : CanonicalMemory (grant s n t op d ue) :=
  .ite hs.sendMsg.dropTxn hs.sendMsg.putTxn

protected theorem CanonicalMemory.mergeLine (hs : CanonicalMemory s) : CanonicalMemory (mergeLine s n line d new mask thread).2 := by
  unfold mergeLine
  with_reducible refine .foldl_snd hs fun _ _ hx => .ite_snd hx (.ite_snd hx (.ite (.alm ?_) ?_))
  · split
    · with_reducible exact .ite hx.injFire hx
    · exact hx
  · split
    · with_reducible exact .ite hx.injFire hx
    · exact hx

protected theorem CanonicalMemory.homeAnswer {t : Txn} (hs : CanonicalMemory s) :
    CanonicalMemory (homeAnswer s n t d fromMem dirty ue) := by
  unfold homeAnswer
  extract_lets line h others s1
  have h1 : CanonicalMemory s1 := .ite hs.llcAlloc hs
  clear_value s1
  dsimp only
  split
  · with_reducible refine .ite ?_ h1.dirSetHolders.grant
    split
    · exact .ite h1.dirSetHolders.grant h1.setLlc.dirSetHolders.grant
    · exact h1.dirSetHolders.grant
  · exact h1.setLlc.dirSetHolders.grant
  · exact h1.setLlc.dirSetHolders.grant
  · exact h1.grant
  · with_reducible exact .grant (.dirSetHolders (.ite h1.mergeLine.sendMsg h1.mergeLine.llcAlloc))
  · exact h1.grant

protected theorem CanonicalMemory.homeData {t : Txn} (hs : CanonicalMemory s) : CanonicalMemory (homeData s n t) := by
  unfold homeData
  dsimp only
  split
  · with_reducible exact hs.homeAnswer
  · split
    · with_reducible exact hs.llcHit.homeAnswer
    · with_reducible exact .sendMsg (.putTxn (.ite hs.sendMsg hs))

protected theorem CanonicalMemory.keepDirty {t : Txn} (hs : CanonicalMemory s) : CanonicalMemory (keepDirty s n t) := by
  unfold keepDirty
  split
  · with_reducible exact .ite hs.llcAlloc hs
  · exact hs

protected theorem CanonicalMemory.homeAfterSnoop {t : Txn} (hs : CanonicalMemory s) : CanonicalMemory (homeAfterSnoop s n t) := by
  unfold homeAfterSnoop
  dsimp only
  split
  · with_reducible exact .ite hs.dirSetHolders.grant hs.homeData
  · with_reducible exact hs.llcAlloc.dirSetHolders.grant
  · split
    · with_reducible exact .ite hs.keepDirty.llcRead.setLlc.putTxn.sendMsg hs.keepDirty.grant
    · with_reducible exact hs.keepDirty.grant
  · with_reducible exact .ite hs.keepDirty.setDirEnt.dropTxn hs.homeData

protected theorem CanonicalMemory.homeEvict {t : Txn} (hs : CanonicalMemory s) : CanonicalMemory (homeEvict s n t) :=
  .ite hs.cohCount.grant (.grant (.dirSetHolders (.ite hs.llcAlloc (.ite hs.llcAlloc hs))))

protected theorem CanonicalMemory.homeAct {m : Msg} (hs : CanonicalMemory s) : CanonicalMemory (homeAct s n m) := by
  unfold homeAct
  split
  · with_reducible exact .ite hs.putTxn.homeAfterSnoop hs.putTxn.snoop
  · with_reducible exact .ite hs.putTxn.homeAfterSnoop hs.putTxn.snoop
  · with_reducible exact .ite hs.putTxn.homeAfterSnoop hs.putTxn.snoop
  · with_reducible exact .ite hs.putTxn.homeAfterSnoop hs.putTxn.snoop
  · with_reducible exact .ite hs.putTxn.homeAfterSnoop hs.putTxn.snoop
  · with_reducible exact .ite hs.putTxn.homeAfterSnoop hs.putTxn.snoop
  · with_reducible exact hs.putTxn.homeEvict
  · with_reducible exact hs.putTxn.homeEvict
  · with_reducible exact .grant (.ite hs.putTxn.llcAlloc hs.putTxn)
  · with_reducible exact .ite hs.putTxn.homeAfterSnoop hs.putTxn.snoop

protected theorem CanonicalMemory.homeStart {m : Msg} (hs : CanonicalMemory s) : CanonicalMemory (homeStart s n m) := by
  unfold homeStart
  dsimp only
  split
  · with_reducible exact .ite hs.cohCount.snoop (.ite hs.cohCount.setDirEnt.cohCount.homeAct hs.cohCount.homeAct)
  · with_reducible exact hs.cohCount.homeAct

protected theorem CanonicalMemory.rebuildDone {t : Txn} (hs : CanonicalMemory s) : CanonicalMemory (rebuildDone s n t) :=
  hs.keepDirty.setDirEnt.updR.alm.homeAct

protected theorem CanonicalMemory.refuseSpec {m : Msg} (hs : CanonicalMemory s) : CanonicalMemory (refuseSpec s n m) :=
  hs.cohCount.sendMsg.creditDone

protected theorem CanonicalMemory.backInvStart {v : Nat} (hs : CanonicalMemory s) : CanonicalMemory (backInvStart s n v) :=
  hs.cohCount.snoop

protected theorem CanonicalMemory.homePump (hs : CanonicalMemory s) : CanonicalMemory (homePump s n fuel) := by
  induction fuel generalizing s with
  | zero => exact hs
  | succ fuel ih =>
    unfold homePump
    dsimp only
    with_reducible refine .ite hs ?_
    split
    · with_reducible exact ih (.ite hs.updSlice.refuseSpec hs.updSlice.homeStart)
    · split
      · with_reducible exact ih hs.backInvStart
      · exact hs

protected theorem CanonicalMemory.homeRun (hs : CanonicalMemory s) : CanonicalMemory (homeRun s n) := hs.homePump
protected theorem CanonicalMemory.homeNext (hs : CanonicalMemory s) : CanonicalMemory (homeNext s line) := hs.homeRun

protected theorem CanonicalMemory.denyMsg {m : Msg} (hs : CanonicalMemory s) : CanonicalMemory (denyMsg s n m) :=
  .creditDone (.sendMsg (.updSlice (.ite hs.alm hs)))

protected theorem CanonicalMemory.homeArrive {m : Msg} (hs : CanonicalMemory s) : CanonicalMemory (homeArrive s m) :=
  .ite CanonicalMemory.protocolBreach (.ite hs.denyMsg (.ite hs.refuseSpec hs.updSlice.homeRun))

protected theorem CanonicalMemory.l2Snoop {k : Snoop} (hs : CanonicalMemory s) : CanonicalMemory (l2Snoop s q line k).2.2 := by
  unfold l2Snoop
  with_reducible refine .ite_snd_snd hs ?_
  extract_lets s1 cleared
  have h1 : CanonicalMemory s1 := hs.quadMerge.l2Resolve
  have hcleared : CanonicalMemory (cleared s1) := h1.quadPurge.setL2
  clear_value s1
  split
  · with_reducible refine .ite_snd_snd h1 (.ite_snd_snd h1 (.ite_snd_snd ?_ h1))
    split
    · exact h1.quadPurge.setL2.setTrack
    · exact h1
  · split
    · with_reducible refine .ite_snd_snd ?_ (.ite_snd_snd ?_ ?_)
      · split
        · exact h1.quadDowngrade.setL2
        · exact hcleared
        · exact h1
        · exact h1.quadDowngrade.setL2
      · split
        · exact h1.quadDowngrade.setL2
        · exact hcleared
        · exact h1
      · split
        · exact hcleared
        · exact h1
    · exact h1

protected theorem CanonicalMemory.agentDrop (hs : CanonicalMemory s) : CanonicalMemory (agentDrop s h line) := hs.frame

protected theorem CanonicalMemory.agentSnoop {k : Snoop} (hs : CanonicalMemory s) : CanonicalMemory (agentSnoop s h line k).2.2 := by
  unfold agentSnoop
  with_reducible refine .ite_snd_snd ?_ hs
  split
  · with_reducible exact hs.agentDrop.sendMsg
  · exact hs

protected theorem CanonicalMemory.holderSnoop {k : Snoop} (hs : CanonicalMemory s) : CanonicalMemory (holderSnoop s h line k).2.2 :=
  .ite_snd_snd hs.l2Snoop hs.agentSnoop

protected theorem CanonicalMemory.ownedData (hs : CanonicalMemory s) : CanonicalMemory (ownedData s line).2 := by
  unfold ownedData
  split
  · with_reducible exact hs.quadData
  · exact hs

protected theorem CanonicalMemory.basePeek (hs : CanonicalMemory s) : CanonicalMemory (basePeek s line).2.2 := by
  unfold basePeek
  dsimp only
  split
  · with_reducible exact hs.ownedData.snd_of_eq ‹_›
  · split
    · with_reducible exact (hs.ownedData.snd_of_eq ‹_›).llcRead
    · split
      · with_reducible exact hs.ownedData.snd_of_eq ‹_›
      · with_reducible exact (hs.ownedData.snd_of_eq ‹_›).memReadLine

protected theorem CanonicalMemory.cohPeek (hs : CanonicalMemory s) : CanonicalMemory (cohPeek s line).2.2 := by
  unfold cohPeek
  dsimp only
  split
  · with_reducible exact hs.basePeek
  · with_reducible exact hs.basePeek

protected theorem CanonicalMemory.cohWord {w : Nat} (hs : CanonicalMemory s) : CanonicalMemory (cohWord s w).2.2 := by
  unfold cohWord
  with_reducible exact hs.cohPeek

protected theorem CanonicalMemory.snoopNow {k : Snoop} (hs : CanonicalMemory s) : CanonicalMemory (snoopNow s n line k keep h).2 :=
  .ite hs.meshCount.cohCount.holderSnoop.meshCount hs.meshCount.cohCount.holderSnoop.meshCount.dirRemove

protected theorem CanonicalMemory.agentLine (hs : CanonicalMemory s) : CanonicalMemory (agentLine s line h).2.2 := by
  unfold agentLine
  dsimp only
  split
  · with_reducible exact hs.agentDrop
  · with_reducible
      refine .ite_snd_snd hs.meshCount.meshCount.cohPeek (.cohPeek (.dirSetHolders (hs.meshCount.meshCount.cohCount.foldl fun _ _ hx =>
        ?_)))
    split
    · with_reducible exact hx.snoopNow.llcAlloc
    · with_reducible exact hx.snoopNow

protected theorem CanonicalMemory.agentWrite (hs : CanonicalMemory s) : CanonicalMemory (agentWrite s line d mask h) := by
  unfold agentWrite
  extract_lets n full m s1 s2 r s3 
  have h1 : CanonicalMemory s1 := hs.meshCount
  have h3 : CanonicalMemory s3 := .foldl_snd h1.cohCount.meshCount fun _ _ hx => hx.snoopNow
  clear_value s3
  dsimp only
  with_reducible refine .ite h1.updSlice (.ite h3.llcAlloc ?_)
  split
  · with_reducible exact h3.mergeLine.llcAlloc
  · with_reducible exact h3.llcHit.mergeLine.llcAlloc
  · with_reducible exact .ite h3.basePeek.mergeLine.sendMsg h3.basePeek.mergeLine.ctlWrite

protected theorem CanonicalMemory.agentWords {w : Nat} (hs : CanonicalMemory s) : CanonicalMemory (agentWords s w n h).2 :=
  .foldl_snd hs fun _ _ hx => hx.agentLine

protected theorem CanonicalMemory.agentPut (hs : CanonicalMemory s) : CanonicalMemory (agentPut s ws h) :=
  hs.foldS fun _ _ hx => hx.agentWrite

protected theorem CanonicalMemory.agentWriteWords {w : Nat} {l : List TWord} (hs : CanonicalMemory s) :
    CanonicalMemory (agentWriteWords s w l h) := hs.agentPut

protected theorem CanonicalMemory.agentWriteBytes {l : List Byte} (hs : CanonicalMemory s) : CanonicalMemory (agentWriteBytes s a l ep h) :=
  hs.agentPut

protected theorem CanonicalMemory.agentBytes (hs : CanonicalMemory s) : CanonicalMemory (agentBytes s a n h).2.2 := hs.agentWords

end

/-! ### Branch prediction, loop buffer and performance counters of a core (R172–R180, R195). -/

section
variable {s : State} {t ev n uops : Nat} {pc target : Word} {taken loopBreaker : Bool} {f : State → State}

protected theorem CanonicalMemory.pmcCount (hs : CanonicalMemory s) : CanonicalMemory (pmcCount s t ev n) :=
  .ite hs (hs.foldS fun _ _ hx => .ite hx.updR hx)

protected theorem CanonicalMemory.rekey (hs : CanonicalMemory s) : CanonicalMemory (rekey s t) := by
  unfold rekey
  dsimp only
  split
  · with_reducible exact hs.updCore
  · with_reducible exact hs.freeW.updCore

protected theorem CanonicalMemory.flushOrdinary (hs : CanonicalMemory s) : CanonicalMemory (flushOrdinary s t) := hs.updCore.pmcCount

protected theorem CanonicalMemory.predFlush (hs : CanonicalMemory s) (hf : ∀ s, CanonicalMemory s → CanonicalMemory (f s)) :
    CanonicalMemory (predFlush s t f) :=
  .ite (.rekey (.updThr (hf _ (.ite hs hs.flushOrdinary)))) (.ite
    (.flushOrdinary (.updThr (hf _ (.ite hs hs.flushOrdinary))))
    (.updThr (hf _ (.ite hs hs.flushOrdinary))))

protected theorem CanonicalMemory.loopEnd (hs : CanonicalMemory s) : CanonicalMemory (loopEnd s t) := hs.frame

protected theorem CanonicalMemory.worldChange (hs : CanonicalMemory s) (hf : ∀ s, CanonicalMemory s → CanonicalMemory (f s)) :
    CanonicalMemory (worldChange s t f) := .sideClear (.loopEnd (hs.predFlush fun _ hx => hf _ hx))

protected theorem CanonicalMemory.ensureKey (hs : CanonicalMemory s) : CanonicalMemory (ensureKey s t) := .ite hs.rekey hs
protected theorem CanonicalMemory.dirUpdate (hs : CanonicalMemory s) : CanonicalMemory (dirUpdate s t pc taken) := hs.frame
protected theorem CanonicalMemory.btbWrite (hs : CanonicalMemory s) : CanonicalMemory (btbWrite s t pc target) := hs.frame
protected theorem CanonicalMemory.mispredict (hs : CanonicalMemory s) : CanonicalMemory (mispredict s t) := hs.freeW.pmcCount.pmcCount

protected theorem CanonicalMemory.xferCommit {kind : XferKind} (hs : CanonicalMemory s) :
    CanonicalMemory (xferCommit s t pc kind target taken) := by
  unfold xferCommit
  extract_lets s1 x backward predicted s2 s3 s4 s5 s6 s7
  have h3 : CanonicalMemory s3 := .ite hs.ensureKey.pmcCount hs.ensureKey.pmcCount.mispredict
  have h4 : CanonicalMemory s4 := .ite h3.dirUpdate h3
  have h5 : CanonicalMemory s5 := .ite h4.btbWrite h4
  have h6 : CanonicalMemory s6 := by
    dsimp only [s6]
    split
    · exact h5.updThr
    · exact h5.updThr
    · exact h5.updThr
    · exact h5
  have h7 : CanonicalMemory s7 := .ite h6.updThr h6
  exact .ite (.ite h3.loopEnd h3) (.ite h7.updThr h7.updThr)

protected theorem CanonicalMemory.commitCount (hs : CanonicalMemory s) : CanonicalMemory (commitCount s t uops loopBreaker) :=
  .updThr (hs.pmcCount.pmcCount.foldS fun _ _ hx => hx.pmcCount)

end

/-! ### Taking a trap and returning from one (R131–R135), interrupts (R95, R133, R490), and the fault of a partition (R85). -/

section
variable {s : State} {status knot area off p t cause code : Nat} {epc tval : Word} {intr : Bool} {lvl : Level}

protected theorem CanonicalMemory.rigDone (hs : CanonicalMemory s) : CanonicalMemory (rigDone s status knot area off) := hs.frame

protected theorem CanonicalMemory.cmdDone (hs : CanonicalMemory s) : CanonicalMemory (cmdDone s status) :=
  .updR (.ite hs.rigDone hs.rigDone)

protected theorem CanonicalMemory.haltThreads (hs : CanonicalMemory s) : CanonicalMemory (haltThreads s p) :=
  hs.foldS fun _ _ hx => hx.updThr

protected theorem CanonicalMemory.faultPartition (hs : CanonicalMemory s) : CanonicalMemory (faultPartition s p) :=
  .ite hs.updPrun.haltThreads hs.updPrun.haltThreads.cmdDone

protected theorem CanonicalMemory.faultByTrap (hs : CanonicalMemory s) : CanonicalMemory (faultByTrap s t cause epc) := by
  unfold faultByTrap
  split
  · with_reducible exact hs.alm.faultPartition
  · with_reducible exact hs.updThr

protected theorem CanonicalMemory.leaveSecure {keep : List Nat} (hs : CanonicalMemory s) : CanonicalMemory (leaveSecure s t keep) :=
  hs.worldChange fun _ hx => hx.updThr

protected theorem CanonicalMemory.endSecureCall (hs : CanonicalMemory s) : CanonicalMemory (endSecureCall s t) := hs.leaveSecure

protected theorem CanonicalMemory.tallyRecord (hs : CanonicalMemory s) : CanonicalMemory (tallyRecord s t code) :=
  .ite hs.updR.alm (.ite hs.updR.alm (.ite hs.updR hs))

protected theorem CanonicalMemory.enterBank {b : BankId} (hs : CanonicalMemory s) : CanonicalMemory (enterBank s t b code intr tval) :=
  .ite (.loopEnd (hs.predFlush fun _ hx => hx.setThr)) hs.setThr.loopEnd

protected theorem CanonicalMemory.trapNormal (hs : CanonicalMemory s) : CanonicalMemory (trapNormal s t code intr tval lvl) :=
  .ite hs.faultByTrap (.ite hs.faultByTrap hs.enterBank)

protected theorem CanonicalMemory.trapEnter (hs : CanonicalMemory s) : CanonicalMemory (trapEnter s t code intr tval lvl) :=
  .ite
    (.ite
      (.trapNormal (.endSecureCall (.ite hs hs.tallyRecord)))
      (.ite (.faultByTrap (.ite hs hs.tallyRecord)) (.enterBank (.ite hs hs.tallyRecord))))
    (.trapNormal (.ite hs hs.tallyRecord))

protected theorem CanonicalMemory.trapReturn {b : BankId} (hs : CanonicalMemory s) : CanonicalMemory (trapReturn s t b) :=
  .ite (.loopEnd (hs.predFlush fun _ hx => hx.setThr)) hs.setThr.loopEnd

protected theorem CanonicalMemory.wfiWake (hs : CanonicalMemory s) : CanonicalMemory (wfiWake s t) := .ite hs.updThr.commitCount hs
protected theorem CanonicalMemory.wfiCheck (hs : CanonicalMemory s) : CanonicalMemory (wfiCheck s t) := .ite hs.wfiWake hs
protected theorem CanonicalMemory.runAheadEnd (hs : CanonicalMemory s) : CanonicalMemory (runAheadEnd s t) := hs.frame

end

/-! ### A thread's accesses: translation (R105–R111), the checks of physical addresses (R54–R57, R361, R362, R491), fetch (R55, R140), and
the lookup of words in store buffer, L0, side buffer and L1D (R186, R203, R204). -/

section
variable {s : State} {t lv root stop unit part kind addr cls src q line wi c pa : Nat} {va pc : Word} {sec : Bool} {evs : List Nat}

protected theorem CanonicalMemory.walk {k : AccKind} (hs : CanonicalMemory s) : CanonicalMemory (walk s t k va lv root).2.2 := by
  induction lv generalizing s root with
  | zero => exact hs
  | succ lv ih =>
    have hw := hs.cohWord (w := (root * 4096 + 8 * fieldN va (12 + 9 * lv + 8) (12 + 9 * lv)) / 8)
    unfold walk
    dsimp only
    with_reducible exact .ite_snd_snd hs (.ite_snd_snd hw (.ite_snd_snd hw (.ite_snd_snd (.ite_snd_snd hw (ih hw)) hw)))

protected theorem CanonicalMemory.xlate {k : AccKind} (hs : CanonicalMemory s) : CanonicalMemory (xlate s t k va).2 := by
  unfold xlate
  dsimp only
  with_reducible refine .ite_snd hs (.ite_snd hs ?_)
  split
  · with_reducible exact .ite_snd hs.walk hs.walk.freeB
  · split
    · split
      · with_reducible exact hs.walk.updThr
      · with_reducible exact hs.walk
    · with_reducible exact hs.walk

protected theorem CanonicalMemory.recordUnmapped (hs : CanonicalMemory s) :
    CanonicalMemory (recordUnmapped s stop unit part kind addr sec) := .alm (.ite hs.updR hs.updR.updR.setR)

protected theorem CanonicalMemory.unitWorldRefusal (hs : CanonicalMemory s) :
    CanonicalMemory (unitWorldRefusal s cls src stop unit part addr) := hs.alm

protected theorem CanonicalMemory.threadUnmapped (hs : CanonicalMemory s) : CanonicalMemory (threadUnmapped s t kind addr) :=
  hs.recordUnmapped

protected theorem CanonicalMemory.threadWorldRefusal (hs : CanonicalMemory s) : CanonicalMemory (threadWorldRefusal s t addr) := hs.alm

protected theorem CanonicalMemory.ueTake (hs : CanonicalMemory s) : CanonicalMemory (ueTake s q line wi).2 := by
  unfold ueTake
  split
  · with_reducible exact .ite_snd hs.setL2 hs
  · exact hs

protected theorem CanonicalMemory.l1iMiss (hs : CanonicalMemory s) : CanonicalMemory (l1iMiss s c pa).2.2 := by
  unfold l1iMiss
  dsimp only
  split
  · have h1 := hs.quadData.snd_of_eq ‹_›
    with_reducible refine .ite h1.ueTake.l1iInstall ?_
    split
    · with_reducible exact (h1.ueTake.l1iInstall.quadData.snd_of_eq ‹_›).l1iInstall
    · with_reducible exact h1.ueTake.l1iInstall.quadData.snd_of_eq ‹_›
  · with_reducible exact (hs.quadData.snd_of_eq ‹_›).cohWord

protected theorem CanonicalMemory.l1iRead (hs : CanonicalMemory s) : CanonicalMemory (l1iRead s c pa).2.2 := by
  unfold l1iRead
  split
  · with_reducible exact .ite_snd_snd hs.l1iTouch hs.setL1i.updR.quadCE.l1iMiss
  · with_reducible exact hs.l1iMiss

protected theorem CanonicalMemory.fetchCheck (hs : CanonicalMemory s) : CanonicalMemory (fetchCheck s t).2 := by
  unfold fetchCheck
  dsimp only
  split
  · with_reducible exact hs.xlate.snd_of_eq ‹_›
  · split
    · have h1 := hs.xlate.snd_of_eq ‹_›
      with_reducible exact .ite_snd h1 (.ite_snd h1.threadWorldRefusal (.ite_snd h1.threadUnmapped (.ite_snd h1.l1iRead h1.l1iRead)))
    · with_reducible exact (hs.xlate.snd_of_eq ‹_›).threadUnmapped

protected theorem CanonicalMemory.owe (hs : CanonicalMemory s) : CanonicalMemory (owe s t evs) := hs.frame
protected theorem CanonicalMemory.l0Parity (hs : CanonicalMemory s) : CanonicalMemory (l0Parity s c) := hs.updR.quadCE

protected theorem CanonicalMemory.lookupL1d (hs : CanonicalMemory s) : CanonicalMemory (lookupL1d s t line wi).2 := by
  unfold lookupL1d
  dsimp only
  split
  · with_reducible exact hs.l1dErrors.snd_of_eq ‹_›
  · split
    · with_reducible exact (hs.l1dErrors.snd_of_eq ‹_›).l1dTouch.owe
    · with_reducible exact (hs.l1dErrors.snd_of_eq ‹_›).owe

protected theorem CanonicalMemory.lookupSide {e : SideEntry} (hs : CanonicalMemory s) : CanonicalMemory (lookupSide s t line wi e).2 := by
  unfold lookupSide
  with_reducible refine .ite_snd hs (.ite_snd hs.sideUpd.l0Parity.lookupL1d ?_)
  split
  · with_reducible exact hs.ueTake.snd_of_eq ‹_›
  · with_reducible exact (hs.ueTake.snd_of_eq ‹_›).promote.owe

protected theorem CanonicalMemory.lookup (hs : CanonicalMemory s) : CanonicalMemory (lookup s t line wi).2 := by
  unfold lookup
  dsimp only
  split
  · with_reducible exact .ite_snd hs.lookupL1d (.ite_snd hs.updThr.l0Parity.lookupL1d hs.updThr)
  · split
    · with_reducible exact hs.lookupSide
    · with_reducible exact hs.lookupL1d

protected theorem CanonicalMemory.strideTrain (hs : CanonicalMemory s) : CanonicalMemory (strideTrain s t pc pa) := by
  unfold strideTrain
  dsimp only
  split
  · with_reducible exact hs.updThr
  · with_reducible exact .ite (hs.updThr.foldS fun _ _ hx => .ite hx.sideRequest hx) hs.updThr

end

/-! ### Where registers stand in register space (R59, Table 2-6), who a requester is (R216), and the refusal notice of a block (R484). -/

section
variable {s : State} {t pa code addr : Nat} {write : Bool} {word : TWord} {r : RegRef} {f : State → State} {who : Requester}

protected theorem CanonicalMemory.sendReg (hs : CanonicalMemory s) : CanonicalMemory (sendReg s t pa write word) := hs.mkPkt.update

protected theorem CanonicalMemory.regCmd (hs : CanonicalMemory s) (hf : ∀ s, CanonicalMemory s → CanonicalMemory (f s)) :
    CanonicalMemory (regCmd s r f) := .ite hs (hf _ hs)

protected theorem CanonicalMemory.refusalNotice (hs : CanonicalMemory s) : CanonicalMemory (refusalNotice s code addr who) := hs.alm

protected theorem CanonicalMemory.refuseReg (hs : CanonicalMemory s) : CanonicalMemory (refuseReg s r who) := by
  unfold refuseReg
  dsimp only
  split
  · with_reducible exact hs.refusalNotice
  · exact hs

end

/-! ### Almanac (ch. 21): records, the flash mirror, and the two windows. -/

section
variable {s : State} {k seq : Nat} {slotOk ok : Bool} {who : Requester}

protected theorem CanonicalMemory.mirrorErase (hs : CanonicalMemory s) : CanonicalMemory (mirrorErase s) := .ite hs.update.alm hs
protected theorem CanonicalMemory.mirrorTaken {r : AlmRec} (hs : CanonicalMemory s) : CanonicalMemory (mirrorTaken s k r) := hs.frame

protected theorem CanonicalMemory.mirrorRetire (hs : CanonicalMemory s) : CanonicalMemory (mirrorRetire s) :=
  .ite hs.update.alm hs.update.alm.update.alm

protected theorem CanonicalMemory.slotLost (hs : CanonicalMemory s) : CanonicalMemory (slotLost s k) := hs.update.alm

protected theorem CanonicalMemory.execAlmanacMirrorRecord (hs : CanonicalMemory s) :
    NextCanonical (execAlmanacMirrorRecord slotOk ok s) := by
  unfold execAlmanacMirrorRecord
  with_reducible refine .next (.ite hs ?_)
  split
  · exact hs
  · with_reducible exact .ite hs.slotLost (.ite hs.mirrorErase.mirrorTaken hs.mirrorErase.mirrorRetire)

protected theorem CanonicalMemory.almSeek (hs : CanonicalMemory s) : CanonicalMemory (almSeek s who seq) := by
  unfold almSeek
  with_reducible refine .ite hs.refuseReg ?_
  split
  · with_reducible exact hs.setB
  · with_reducible exact hs.setB

end

/-! ### Running one instruction of a thread: fetch, the delay-slot rule, its body, retirement (R100–R104, R144, R162, R164). -/

section
variable {s : State} {t uops : Nat} {breaks noSlot : Bool} {pred : Byte} {w : IWord} {body : State → Act}

protected theorem CanonicalMemory.residueOk {r : Word} (hs : CanonicalMemory s) : CanonicalMemory (residueOk s t r pred).2 :=
  .ite_snd hs.injFire hs

protected theorem CanonicalMemory.shadowOk (hs : CanonicalMemory s) : CanonicalMemory (shadowOk s t).2 := .ite_snd hs.injFire hs
protected theorem CanonicalMemory.retire (hs : CanonicalMemory s) : CanonicalMemory (retire s t) := hs.frame
protected theorem CanonicalMemory.abandon (hs : CanonicalMemory s) : CanonicalMemory (abandon s t) := .updThr (.ite hs.pmcCount hs)

protected theorem CanonicalMemory.takeDeadline (hs : CanonicalMemory s) : CanonicalMemory (takeDeadline s t) := by
  unfold takeDeadline
  split
  · with_reducible exact .ite hs.wfiWake.abandon.updThr.trapEnter hs
  · exact hs

protected theorem CanonicalMemory.takeInterrupt (hs : CanonicalMemory s) : CanonicalMemory (takeInterrupt s t) := by
  unfold takeInterrupt
  with_reducible refine .ite hs.wfiCheck.takeDeadline (.ite ?_ hs.wfiCheck)
  split
  · with_reducible exact hs.wfiCheck.freeW.abandon.trapEnter
  · with_reducible exact hs.wfiCheck

protected theorem CanonicalMemory.instrFetch (hs : CanonicalMemory s) : CanonicalMemory (instrFetch s t).2 := .ite_snd hs hs.fetchCheck

protected theorem CanonicalMemory.applyAct {a : Act} (ha : ActCanonical a) : CanonicalMemory (applyAct t uops breaks a) := by
  cases a with
  | done s => exact CanonicalMemory.commitCount (CanonicalMemory.retire ha)
  | trap s c v => exact CanonicalMemory.trapEnter (CanonicalMemory.updThr ha)
  | xfer s target annul =>
    have hs : CanonicalMemory (commitCount s t uops breaks) := CanonicalMemory.commitCount ha
    cases target with
    | some g => exact hs.updThr
    | none => exact .ite hs.updThr hs.updThr
  | jump s => exact CanonicalMemory.updThr ha
  | wait s w => exact CanonicalMemory.updThr ha
  | park s r w => exact CanonicalMemory.updThr ha

protected theorem CanonicalMemory.jumpCount (hs : CanonicalMemory s) : CanonicalMemory (jumpCount s t) := hs.pmcCount.commitCount

protected theorem CanonicalMemory.runInstr (hs : CanonicalMemory s) (hf : ∀ s, CanonicalMemory s → ActCanonical (body s)) :
    CanonicalMemory (runInstr s t w noSlot uops breaks body) := by
  unfold runInstr
  with_reducible refine .ite hs.wfiCheck ?_
  split
  · with_reducible exact .applyAct (hf _ hs.wfiCheck.updThr)
  · with_reducible exact hs.wfiCheck
  · with_reducible refine .ite hs.wfiCheck.takeInterrupt ?_
    split
    · with_reducible exact (hs.wfiCheck.instrFetch.snd_of_eq ‹_›).trapEnter
    · have h1 := hs.wfiCheck.instrFetch.snd_of_eq ‹_›
      with_reducible exact .ite h1.trapEnter (.applyAct (hf _ h1))

end

/-! ### Loads and stores of the memory group and of vectors (R97, R112–R115, R142, R152, R153, R158, R186, R200, R203, R251, R433). -/

section
variable {s s' : State} {t size pa n k line wi unmappedKind op : Nat} {only64 atomic write signed ll failed acq rel : Bool} {gd ga gs :
  BitVec 6} {va mask : Word} {w : IWord} {srcs : List (Nat × TWord)} {checked : List TWord} {fin : State → Nat → State} {imm : BitVec 14}
  {vd : BitVec 5}

protected theorem CanonicalMemory.memPre {k : AccKind} (hs : CanonicalMemory s) :
    PreCanonical (memPre s t w k srcs checked va size only64 atomic) := by
  unfold memPre
  split
  · with_reducible exact .stop (.trap hs)
  · with_reducible refine .ite (.stop (.trap hs)) ?_
    split
    · with_reducible exact .stop (.trap (hs.xlate.snd_of_eq ‹_›))
    · have h1 := hs.xlate.snd_of_eq ‹_›
      with_reducible exact .ite (.stop (.trap h1)) (.ite (.stop (.trap h1.threadWorldRefusal)) (.go h1))

protected theorem CanonicalMemory.failedAccess {d : Dest} (hs : CanonicalMemory s) : ActCanonical (failedAccess s w d pa n va) := by
  unfold failedAccess
  with_reducible exact .ite (.trap hs.cohPeek) (.trap hs)

protected theorem CanonicalMemory.hawsSend {data : Line} (hs : CanonicalMemory s) (h : hawsSend s k t write pa data mask = some s') :
    CanonicalMemory s' := by
  unfold hawsSend at h
  split at h
  · nomatch h
  · obtain ⟨e, -, rfl⟩ := Option.map_eq_some_iff.mp h
    exact hs.frame

protected theorem CanonicalMemory.ownLine (hs : CanonicalMemory s) : CanonicalMemory (ownLine s t line).2 := by
  unfold ownLine
  with_reducible refine .ite_snd hs ?_
  split
  · with_reducible exact hs.takeWrite
  · with_reducible exact hs.takeWrite
  · with_reducible exact hs.l2Request

protected theorem CanonicalMemory.storeWord {word : Nat} {x : TWord} (hs : CanonicalMemory s) : CanonicalMemory (storeWord s t word x) := by
  unfold storeWord
  extract_lets c line e
  split
  next k _ =>
    extract_lets d s1 s2 s3 s4
    have h4 : CanonicalMemory s4 := .updThr (hs.setL1d.l1dTouch.foldS fun _ _ hx => .ite hx hx.updThr)
    with_reducible refine .ite ?_ h4
    split
    · exact h4.updThr
    · exact .ite h4.l0Fill.pmcCount h4.l0Fill
  · exact hs

protected theorem CanonicalMemory.loadFinish {x : TWord} (hs : CanonicalMemory s) :
    ActCanonical (loadFinish s t w gd x pa size signed ll failed) :=
  .ite (.trap hs) (.ite (.trap hs) (.ite (.done hs.wg) (.ite
    (.ite (.done hs.residueOk.wg) (.trap hs.residueOk))
    (.ite (.done hs.shadowOk.wg) (.trap hs.shadowOk)))))

protected theorem CanonicalMemory.lookupWords (hs : CanonicalMemory s) : CanonicalMemory (lookupWords s t line wi n).2 := by
  induction n generalizing s wi with
  | zero => exact hs.lookup
  | succ n ih =>
    unfold lookupWords
    split
    · with_reducible exact .ite_snd (hs.lookup.snd_of_eq ‹_›) (ih (hs.lookup.snd_of_eq ‹_›))
    · with_reducible exact hs.lookup

protected theorem CanonicalMemory.orderReplay (hs : CanonicalMemory s) : CanonicalMemory (orderReplay s t) :=
  .ite hs hs.freeB.updCore.pmcCount

protected theorem CanonicalMemory.cacheLoad {i : Instr} (hs : CanonicalMemory s) : GotCanonical (cacheLoad s t i va pa size) := by
  unfold cacheLoad
  extract_lets x line n fromCache partly
  have hcache : GotCanonical (fromCache s) := by
    dsimp only [fromCache]
    split
    · exact .words (hs.lookupWords.snd_of_eq ‹_›)
    · exact .stop (.trap (hs.lookupWords.snd_of_eq ‹_›))
    · exact .stop (.wait (hs.lookupWords.snd_of_eq ‹_›).sideRequest)
  have hpartly : GotCanonical (partly s) := .stop (.wait (.owe (.ite hs hs.orderReplay)))
  with_reducible refine .ite (.ite hcache ?_) ?_
  · split
    · exact .words hs.orderReplay
    · exact hpartly
  · split
    · exact .words hs.orderReplay
    · exact hpartly
    · exact hcache

protected theorem CanonicalMemory.loadBody {i : Instr} {kind : AccKind} {off : Word} (hs : CanonicalMemory s)
    (hf : ∀ s a1, CanonicalMemory s → CanonicalMemory (fin s a1)) :
    ActCanonical (loadBody i w kind size signed acq atomic unmappedKind t gd ga off fin s) := by
  unfold loadBody
  with_reducible refine .ite (.wait hs) ?_
  split
  · with_reducible exact hs.memPre.of_stop ‹_›
  · have h1 := hs.memPre.of_go ‹_›
    with_reducible refine .ite h1.failedAccess ?_
    split
    · with_reducible exact .done (.wg (.threadUnmapped (.ite h1.updThr h1)))
    · with_reducible exact .trap h1
    · with_reducible exact .wait h1.sendReg
    · split
      · with_reducible exact .wait (h1.hawsSend ‹_›)
      · with_reducible exact .done h1.threadUnmapped.wg
    · with_reducible exact .ite (.wait h1) (.wait h1.sendMsg)
    · with_reducible refine .ite (.wait h1) ?_
      split
      · with_reducible exact h1.cacheLoad.of_stop ‹_›
      · split
        · with_reducible exact .done (hf _ _ ((h1.cacheLoad.of_words ‹_›).loadFinish.of_done ‹_›).strideTrain)
        · with_reducible exact (h1.cacheLoad.of_words ‹_›).loadFinish

protected theorem CanonicalMemory.loadOp {i : Instr} {t : BitVec 10} (hs : CanonicalMemory s) :
    NextCanonical (loadOp i op size signed acq t gd ga imm s) := .next (hs.runInstr fun _ hx => hx.loadBody fun _ _ hy => hy)

protected theorem CanonicalMemory.execLd {t : BitVec 10} (hs : CanonicalMemory s) : NextCanonical (execLd t gd ga imm s) := hs.loadOp
protected theorem CanonicalMemory.execLw {t : BitVec 10} (hs : CanonicalMemory s) : NextCanonical (execLw t gd ga imm s) := hs.loadOp
protected theorem CanonicalMemory.execLwu {t : BitVec 10} (hs : CanonicalMemory s) : NextCanonical (execLwu t gd ga imm s) := hs.loadOp
protected theorem CanonicalMemory.execLh {t : BitVec 10} (hs : CanonicalMemory s) : NextCanonical (execLh t gd ga imm s) := hs.loadOp
protected theorem CanonicalMemory.execLhu {t : BitVec 10} (hs : CanonicalMemory s) : NextCanonical (execLhu t gd ga imm s) := hs.loadOp
protected theorem CanonicalMemory.execLb {t : BitVec 10} (hs : CanonicalMemory s) : NextCanonical (execLb t gd ga imm s) := hs.loadOp
protected theorem CanonicalMemory.execLbu {t : BitVec 10} (hs : CanonicalMemory s) : NextCanonical (execLbu t gd ga imm s) := hs.loadOp
protected theorem CanonicalMemory.execLda {t : BitVec 10} (hs : CanonicalMemory s) : NextCanonical (execLda t gd ga imm s) := hs.loadOp

protected theorem CanonicalMemory.storeOut {i : Instr} {d : Dest} {l : List TWord} (hs : CanonicalMemory s) :
    ActCanonical (storeOut s t i rel pa size d l) := by
  unfold storeOut
  with_reducible refine .ite (.wait hs) ?_
  split
  · with_reducible exact .wait hs.sendReg
  · split
    · with_reducible exact .wait (hs.hawsSend ‹_›)
    · with_reducible exact .done hs.threadUnmapped
  · with_reducible exact .wait hs.sendMsg
  · with_reducible exact .done hs.threadUnmapped

protected theorem CanonicalMemory.storeOp {i : Instr} {t : BitVec 10} (hs : CanonicalMemory s) :
    NextCanonical (storeOp i op size rel t gs ga imm s) := by
  unfold storeOp
  dsimp only
  with_reducible refine .next (hs.runInstr fun _ hx => ?_)
  split
  · with_reducible exact hx.memPre.of_stop ‹_›
  · have h1 := hx.memPre.of_go ‹_›
    with_reducible
      exact .ite
        (.trap (.ite_snd h1 (.ite_snd h1.residueOk h1)))
        (.ite
          (.ite (.done (.updThr (.ite_snd h1 (.ite_snd h1.residueOk h1)))) (.wait (.ite_snd h1 (.ite_snd h1.residueOk h1))))
          (CanonicalMemory.storeOut (.ite_snd h1 (.ite_snd h1.residueOk h1))))

protected theorem CanonicalMemory.execSd {t : BitVec 10} (hs : CanonicalMemory s) : NextCanonical (execSd t gs ga imm s) := hs.storeOp
protected theorem CanonicalMemory.execSw {t : BitVec 10} (hs : CanonicalMemory s) : NextCanonical (execSw t gs ga imm s) := hs.storeOp
protected theorem CanonicalMemory.execSh {t : BitVec 10} (hs : CanonicalMemory s) : NextCanonical (execSh t gs ga imm s) := hs.storeOp
protected theorem CanonicalMemory.execSb {t : BitVec 10} (hs : CanonicalMemory s) : NextCanonical (execSb t gs ga imm s) := hs.storeOp
protected theorem CanonicalMemory.execSdr {t : BitVec 10} (hs : CanonicalMemory s) : NextCanonical (execSdr t gs ga imm s) := hs.storeOp

protected theorem CanonicalMemory.execVld {t : BitVec 10} (hs : CanonicalMemory s) : NextCanonical (execVld t vd ga imm s) := by
  unfold execVld
  with_reducible refine .next (hs.runInstr fun s hs => ?_)
  extract_lets
  split
  · exact hs.memPre.of_stop ‹_›
  next pa d bad s hgo =>
    have hs := hs.memPre.of_go hgo
    extract_lets unmapped
    have hunmapped : ActCanonical (unmapped s) := .done hs.threadUnmapped.wvAll
    with_reducible refine .ite hs.failedAccess ?_
    split
    · split
      · exact .wait (hs.hawsSend ‹_›)
      · exact hunmapped
    · exact .ite (.wait hs) (.wait hs.sendMsg)
    · split
      · exact hs.cacheLoad.of_stop ‹_›
      next l s hwords =>
        have hs := hs.cacheLoad.of_words hwords
        with_reducible refine .ite (.trap hs) ?_
        split; next ok s hok =>
        have hs : CanonicalMemory s := .snd_of_eq (by
          split
          · exact hs.residueOk
          · exact hs) hok
        exact .ite (.done hs.wvAll.strideTrain) (.trap hs)
    · exact hunmapped

protected theorem CanonicalMemory.execVst {t : BitVec 10} (hs : CanonicalMemory s) : NextCanonical (execVst t vd ga imm s) := by
  unfold execVst
  with_reducible refine .next (hs.runInstr fun s hs => ?_)
  extract_lets
  split
  · exact hs.memPre.of_stop ‹_›
  next pa d bad s hgo =>
    have hs := hs.memPre.of_go hgo
    split; next ok s hok =>
    have hs : CanonicalMemory s := .snd_of_eq (by
      refine .ite_snd hs ?_
      split
      · exact hs.residueOk
      · exact hs) hok
    exact .ite (.trap hs) (.ite (.ite (.done hs.updThr) (.wait hs)) hs.storeOut)

protected theorem CanonicalMemory.drainOne (hs : CanonicalMemory s) : CanonicalMemory (drainOne s t) := by
  unfold drainOne
  split
  · exact hs
  next e rest _ =>
    extract_lets line
    split
    · exact hs.ownLine.snd_of_eq ‹_›
    next s hown =>
      have hs := hs.ownLine.snd_of_eq hown
      extract_lets s1 s2 old inj s3
      have h2 : CanonicalMemory s2 := .ite hs.updThr hs.updThr.l1dErrors
      have h3 : CanonicalMemory s3 := .ite h2.injFire h2
      with_reducible refine .ite h2.storeWord ?_
      split; next x bad _ =>
      exact .storeWord (.ite h3.alm.updR h3)

end

/-! ### LL, SC and the atomic operations (R116, R117, R142, R156, R160). -/

section
variable {s : State} {gd ga gb : BitVec 6} {aq rl wide : Bool} {code : Nat} {f32 : Word → Word → Word}

protected theorem CanonicalMemory.execLl {t : BitVec 10} (hs : CanonicalMemory s) : NextCanonical (execLl t gd ga gb aq rl wide s) :=
  .next (hs.runInstr fun _ hx => .ite (.wait hx) (hx.loadBody fun _ _ hy => hy.updThr))

protected theorem CanonicalMemory.execSc {t : BitVec 10} (hs : CanonicalMemory s) : NextCanonical (execSc t gd ga gb aq rl wide s) := by
  unfold execSc
  with_reducible refine .next (hs.runInstr fun s hs => ?_)
  extract_lets
  split
  · exact hs.memPre.of_stop ‹_›
  next pa d bad s hgo =>
    have hs := hs.memPre.of_go hgo
    extract_lets failed
    have hfailed {s : State} (hs : CanonicalMemory s) : ActCanonical (failed s) := .ite (.trap hs) (.done hs.updThr.wg)
    with_reducible refine .ite (.ite (.trap hs) (hfailed hs.threadUnmapped)) (.ite (.wait hs) (.ite (hfailed hs) ?_))
    split
    · exact .wait (hs.ownLine.snd_of_eq ‹_›)
    next s hown =>
      have hs := hs.ownLine.snd_of_eq hown
      split; next ue s hue =>
      have hs : CanonicalMemory s := .snd_of_eq (by exact .ite_snd hs.l1dErrors hs) hue
      with_reducible refine .ite (.trap hs) (.ite (.trap hs) (.ite (.trap hs) ?_))
      extract_lets
      split; next ok s hok =>
      have hs : CanonicalMemory s := .snd_of_eq (by exact .ite_snd hs.shadowOk (.ite_snd hs hs.residueOk)) hok
      exact .ite (.trap hs) (.done hs.storeWord.updThr.wg)

protected theorem CanonicalMemory.atomicOp {i : Instr} {k : AtomKind} {t : BitVec 10} (hs : CanonicalMemory s) :
    NextCanonical (atomicOp i code k f32 t gd ga gb aq rl wide s) := by
  unfold atomicOp
  with_reducible refine .next (hs.runInstr fun s hs => ?_)
  extract_lets
  split
  · exact hs.memPre.of_stop ‹_›
  next pa d bad s hgo =>
    have hs := hs.memPre.of_go hgo
    with_reducible refine .ite (.ite (.trap hs) (.done hs.threadUnmapped.wg)) (.ite (.wait hs) ?_)
    split
    · exact .wait (hs.ownLine.snd_of_eq ‹_›)
    next s hown =>
      have hs := hs.ownLine.snd_of_eq hown
      extract_lets
      split; next ue s hue =>
      have hs := hs.l1dErrors.snd_of_eq hue
      with_reducible refine .ite (.trap hs) (.ite (.trap hs) (.ite (.trap hs) (.ite ?_ ?_)))
      · split; next ok s hok =>
        have hs := hs.shadowOk.snd_of_eq hok
        exact .ite (.trap hs) (.done hs.storeWord.wg)
      · split
        · split; next ok new cause s hop =>
          have hs : CanonicalMemory s := .snd_snd_snd_of_eq (by exact .ite_snd_snd_snd hs hs.residueOk) hop
          exact .ite (.trap hs) (.done hs.storeWord.wg)
        · dsimp only
          with_reducible exact .ite (.trap hs.residueOk) (.done hs.residueOk.storeWord.wg)
        · dsimp only
          with_reducible exact .ite (.trap hs.shadowOk) (.done hs.shadowOk.storeWord.wg)

protected theorem CanonicalMemory.execAtomSwap {t : BitVec 10} {w : Bool} (hs : CanonicalMemory s) :
    NextCanonical (execAtomSwap t gd ga gb aq rl w s) := hs.atomicOp

protected theorem CanonicalMemory.execAtomAdd {t : BitVec 10} {w : Bool} (hs : CanonicalMemory s) :
    NextCanonical (execAtomAdd t gd ga gb aq rl w s) := hs.atomicOp

protected theorem CanonicalMemory.execAtomAnd {t : BitVec 10} {w : Bool} (hs : CanonicalMemory s) :
    NextCanonical (execAtomAnd t gd ga gb aq rl w s) := hs.atomicOp

protected theorem CanonicalMemory.execAtomOr {t : BitVec 10} {w : Bool} (hs : CanonicalMemory s) :
    NextCanonical (execAtomOr t gd ga gb aq rl w s) := hs.atomicOp

protected theorem CanonicalMemory.execAtomXor {t : BitVec 10} {w : Bool} (hs : CanonicalMemory s) :
    NextCanonical (execAtomXor t gd ga gb aq rl w s) := hs.atomicOp

protected theorem CanonicalMemory.execAtomMax {t : BitVec 10} {w : Bool} (hs : CanonicalMemory s) :
    NextCanonical (execAtomMax t gd ga gb aq rl w s) := hs.atomicOp

protected theorem CanonicalMemory.execAtomMin {t : BitVec 10} {w : Bool} (hs : CanonicalMemory s) :
    NextCanonical (execAtomMin t gd ga gb aq rl w s) := hs.atomicOp

protected theorem CanonicalMemory.execAtomMaxu {t : BitVec 10} {w : Bool} (hs : CanonicalMemory s) :
    NextCanonical (execAtomMaxu t gd ga gb aq rl w s) := hs.atomicOp

protected theorem CanonicalMemory.execAtomMinu {t : BitVec 10} {w : Bool} (hs : CanonicalMemory s) :
    NextCanonical (execAtomMinu t gd ga gb aq rl w s) := hs.atomicOp

end

/-! ### CACHEOP (R122, R211). -/

section
variable {s s' : State} {c line t pa code need q : Nat} {w : IWord} {ga : BitVec 6} {imm : BitVec 14} {drain : Bool} {f : State → State}
  {core : Option Nat}

protected theorem CanonicalMemory.opClean1 (hs : CanonicalMemory s) : CanonicalMemory (opClean1 s c line) := hs.l1dMerge
protected theorem CanonicalMemory.opCleanInv1 (hs : CanonicalMemory s) : CanonicalMemory (opCleanInv1 s c line) := hs.l1dRemove

protected theorem CanonicalMemory.cacheAddr_inl (hs : CanonicalMemory s) (h : cacheAddr s t w ga imm = .inl (pa, s')) :
    CanonicalMemory s' := by
  unfold cacheAddr at h
  dsimp only at h
  split at h
  · nomatch h
  · split at h
    · nomatch h
    · split at h
      · split at h
        · nomatch h
        · obtain ⟨-, rfl⟩ := Prod.mk.inj (Sum.inl.inj h)
          exact hs.xlate.snd_of_eq ‹_›
      · nomatch h
      · nomatch h

protected theorem CanonicalMemory.cacheAddr_inr {a : Act} (hs : CanonicalMemory s) (h : cacheAddr s t w ga imm = .inr a) :
    ActCanonical a := by
  unfold cacheAddr at h
  dsimp only at h
  split at h
  · exact Sum.inr.inj h ▸ .trap hs
  · split at h
    · exact Sum.inr.inj h ▸ .trap (hs.xlate.snd_of_eq ‹_›)
    · have hx := hs.xlate.snd_of_eq ‹_›
      split at h
      · split at h
        · exact Sum.inr.inj h ▸ .trap hx
        · nomatch h
      · exact Sum.inr.inj h ▸ .trap hx.threadWorldRefusal
      · exact Sum.inr.inj h ▸ .trap hx

protected theorem CanonicalMemory.cacheOp {i : Instr} {f : State → Nat → State} {t : BitVec 10} (hs : CanonicalMemory s)
    (hf : ∀ s a1, CanonicalMemory s → CanonicalMemory (f s a1)) :
    NextCanonical (cacheOp i code need f t ga imm s) := by
  unfold cacheOp
  with_reducible refine .next (hs.runInstr fun _ hx => .ite (.trap hx) ?_)
  split
  · with_reducible exact hx.cacheAddr_inr ‹_›
  · have h1 := hx.cacheAddr_inl ‹_›
    with_reducible exact .ite (.wait h1) (.done (hf _ _ h1))

protected theorem CanonicalMemory.cacheOpAll {i : Instr} {t : BitVec 10} (hs : CanonicalMemory s)
    (hf : ∀ s, CanonicalMemory s → CanonicalMemory (f s)) :
    NextCanonical (cacheOpAll i code need drain f t ga imm s) :=
  .next (hs.runInstr fun _ hx => .ite (.trap hx) (.ite (.wait hx) (.done (hf _ hx))))

protected theorem CanonicalMemory.execL1dClean {t : BitVec 10} (hs : CanonicalMemory s) : NextCanonical (execL1dClean t ga imm s) :=
  hs.cacheOp fun _ _ hx => hx.opClean1

protected theorem CanonicalMemory.execL1dCleanInvalidate {t : BitVec 10} (hs : CanonicalMemory s) :
    NextCanonical (execL1dCleanInvalidate t ga imm s) := hs.cacheOp fun _ _ hx => hx.opCleanInv1

protected theorem CanonicalMemory.execL1dInvalidate {t : BitVec 10} (hs : CanonicalMemory s) :
    NextCanonical (execL1dInvalidate t ga imm s) := hs.cacheOp fun _ _ hx => hx.l1dRemove

protected theorem CanonicalMemory.execL2Clean {t : BitVec 10} (hs : CanonicalMemory s) : NextCanonical (execL2Clean t ga imm s) := by
  unfold execL2Clean
  dsimp only
  with_reducible refine .next (hs.runInstr fun _ hx => .ite (.trap hx) ?_)
  split
  · with_reducible exact hx.cacheAddr_inr ‹_›
  · have h1 := hx.cacheAddr_inl ‹_›
    with_reducible refine .ite (.wait h1) ?_
    split
    · with_reducible exact .wait h1.quadDowngrade.setL2.sendMsg
    · with_reducible exact .done h1.quadDowngrade

protected theorem CanonicalMemory.execL2CleanInvalidate {t : BitVec 10} (hs : CanonicalMemory s) :
    NextCanonical (execL2CleanInvalidate t ga imm s) := by
  unfold execL2CleanInvalidate
  with_reducible refine .next (hs.runInstr fun _ hx => .ite (.trap hx) ?_)
  split
  · with_reducible exact hx.cacheAddr_inr ‹_›
  · have h1 := hx.cacheAddr_inl ‹_›
    with_reducible refine .ite (.wait h1) (.ite (.wait h1) ?_)
    split
    · with_reducible exact .ite (.wait h1.l2Evict.update) (.done h1.l2Evict.update)
    · with_reducible exact .done h1.quadPurge

protected theorem CanonicalMemory.execLlcClean {t : BitVec 10} (hs : CanonicalMemory s) : NextCanonical (execLlcClean t ga imm s) := by
  unfold execLlcClean
  with_reducible refine .next (hs.runInstr fun _ hx => .ite (.trap hx) ?_)
  split
  · with_reducible exact hx.cacheAddr_inr ‹_›
  · have h1 := hx.cacheAddr_inl ‹_›
    with_reducible exact .ite (.wait h1) (.wait h1.sendMsg)

protected theorem CanonicalMemory.execL1iInvalidate {t : BitVec 10} (hs : CanonicalMemory s) :
    NextCanonical (execL1iInvalidate t ga imm s) := hs.cacheOp fun _ _ hx => hx.setL1i

protected theorem CanonicalMemory.execL1dCleanInvalidateAll {t : BitVec 10} (hs : CanonicalMemory s) :
    NextCanonical (execL1dCleanInvalidateAll t ga imm s) := hs.cacheOpAll fun _ hx => hx.foldS fun _ _ hy => hy.opCleanInv1

protected theorem CanonicalMemory.prefetch {f : State → Nat → State} {t : BitVec 10} (hs : CanonicalMemory s)
    (hf : ∀ s a1, CanonicalMemory s → CanonicalMemory (f s a1)) :
    NextCanonical (prefetch code f t ga imm s) := by
  unfold prefetch
  with_reducible refine .next (hs.runInstr fun _ hx => .ite (.done hx) ?_)
  split
  · with_reducible exact .done (hx.xlate.snd_of_eq ‹_›)
  · have h1 := hx.xlate.snd_of_eq ‹_›
    with_reducible exact .ite (.done (hf _ _ h1)) (.done h1)

protected theorem CanonicalMemory.prefRequest (hs : CanonicalMemory s) : CanonicalMemory (prefRequest s q line core) := hs.updQuad.l2Request

protected theorem CanonicalMemory.execPrefetchL1d {t : BitVec 10} (hs : CanonicalMemory s) :
    NextCanonical (execPrefetchL1d t ga imm s) := by
  unfold execPrefetchL1d
  dsimp only
  with_reducible refine hs.prefetch fun _ _ hx => ?_
  split
  · exact hx
  · split
    · with_reducible exact (hx.quadData.snd_of_eq ‹_›).l2Array.l1dCopy
    · with_reducible exact hx.quadData.snd_of_eq ‹_›
  · with_reducible exact hx.prefRequest

protected theorem CanonicalMemory.execPrefetchL2 {t : BitVec 10} (hs : CanonicalMemory s) : NextCanonical (execPrefetchL2 t ga imm s) := by
  unfold execPrefetchL2
  with_reducible refine hs.prefetch fun _ _ hx => ?_
  split
  · with_reducible exact .ite hx hx.l2Array
  · with_reducible exact hx.prefRequest

end

/-! ### Fences and synchronisation (R111, R114, R118) and the control transfers with delay slots (R97, R100–R102). -/

section
variable {s : State} {gd ga gb : BitVec 6} {imm : BitVec 14} {op : Nat} {disp : BitVec 13}

protected theorem CanonicalMemory.execFence {t : BitVec 10} (hs : CanonicalMemory s) : NextCanonical (execFence t gd ga imm s) :=
  .next (hs.runInstr fun _ hx => .ite (.trap hx) (.ite (.wait hx) (.done hx)))

protected theorem CanonicalMemory.execSyncI {t : BitVec 10} (hs : CanonicalMemory s) : NextCanonical (execSyncI t gd ga gb s) :=
  .next (hs.runInstr fun _ hx => .ite (.wait hx) (.done hx.loopEnd.sideClear))

protected theorem CanonicalMemory.execXlsync {t : BitVec 10} (hs : CanonicalMemory s) : NextCanonical (execXlsync t gd ga gb s) := by
  unfold execXlsync
  with_reducible refine .next (hs.runInstr fun _ hx => .ite (.trap hx) ?_)
  split
  · with_reducible exact .trap hx
  · with_reducible exact .ite (.trap hx) (.ite (.wait hx) (.done hx.loopEnd.updThr))

protected theorem CanonicalMemory.branch {f : Word → Word → Bool} {t : BitVec 10} {a : Bool} (hs : CanonicalMemory s) :
    NextCanonical (branch op f t ga gb a disp s) := by
  unfold branch
  dsimp only
  with_reducible refine .next (hs.runInstr fun _ hx => ?_)
  split
  · with_reducible exact .trap hx
  · with_reducible exact .ite (.trap hx) (.ite (.trap hx.shadowOk) (.xfer hx.shadowOk.xferCommit))

end

/-! ### Integer register and immediate operations, multiply and divide (R98, R129, R142, R146–R149). -/

section
variable {s : State} {t fn op sel : Nat} {gd ga gb : BitVec 6} {w : IWord} {srcs : List (Nat × TWord)} {pred : Byte} {imm : BitVec 14} {z :
  Word → Word → Word}

protected theorem CanonicalMemory.residueOp {r : Word} (hs : CanonicalMemory s) : ActCanonical (residueOp t gd w srcs r pred s) := by
  unfold residueOp
  split
  · with_reducible exact .trap hs
  · with_reducible exact .ite (.trap hs) (.ite (.done hs.residueOk.wg) (.trap hs.residueOk))

protected theorem CanonicalMemory.shadowOp {r : Word} (hs : CanonicalMemory s) : ActCanonical (shadowOp t gd w srcs r s) := by
  unfold shadowOp
  split
  · with_reducible exact .trap hs
  · with_reducible exact .ite (.trap hs) (.ite (.done hs.shadowOk.wg) (.trap hs.shadowOk))

protected theorem CanonicalMemory.aluShadow {f : Word → Word → Word} {t : BitVec 10} (hs : CanonicalMemory s) :
    NextCanonical (aluShadow fn f t gd ga gb s) := .next (hs.runInstr fun _ hx => hx.shadowOp)

protected theorem CanonicalMemory.aluUnary {f : Word → Word} {t : BitVec 10} (hs : CanonicalMemory s) :
    NextCanonical (aluUnary fn f t gd ga gb s) := .next (hs.runInstr fun _ hx => .ite (.trap hx) hx.shadowOp)

protected theorem CanonicalMemory.immShadow {f : Word → Word → Word} {t : BitVec 10} (hs : CanonicalMemory s) :
    NextCanonical (immShadow op f t gd ga imm s) := .next (hs.runInstr fun _ hx => hx.shadowOp)

protected theorem CanonicalMemory.shiftImm {t : BitVec 10} {imm : BitVec 12} {body : IWord → Nat → State → Act} (hs : CanonicalMemory s)
    (hf : ∀ a0 a1 s, CanonicalMemory s → ActCanonical (body a0 a1 s)) :
    NextCanonical (shiftImm sel t gd ga imm body s) := .next (hs.runInstr fun _ hx => .ite (.trap hx) (hf _ _ _ hx))

protected theorem CanonicalMemory.mulHi {f : Word → Word → Word} {t : BitVec 10} (hs : CanonicalMemory s) :
    NextCanonical (mulHi fn f t gd ga gb s) := .next (hs.runInstr fun _ hx => hx.shadowOp)

protected theorem CanonicalMemory.divide {f : Word → Word → Word} {t : BitVec 10} (hs : CanonicalMemory s) :
    NextCanonical (divide fn f z t gd ga gb s) := by
  unfold divide
  dsimp only
  with_reducible refine .next (hs.runInstr fun _ hx => ?_)
  split
  · with_reducible exact .trap hx
  · with_reducible exact .ite (.trap hx) hx.shadowOp

end

/-! ### The Point Store instructions at the core (R119, R120, R143, R354): checks, rights, the request to the engine, and the response. -/

section
variable {s : State} {ga gd : BitVec 6} {illegal mode1 : Bool} {w : IWord} {t : Nat} {srcs : List (Nat × TWord)} {all : List TWord} {stored
  : Option TWord}

protected theorem CanonicalMemory.pointOp {k : PsKind} {m : PsMsg} (hs : CanonicalMemory s) :
    ActCanonical (pointOp w t k ga gd illegal srcs all m stored s) := by
  unfold pointOp
  with_reducible refine .ite (.trap hs) ?_
  split
  · with_reducible exact .trap hs
  · with_reducible refine .ite (.trap hs) (.ite (.ite (.trap hs) (.trap hs)) (.ite (.trap ?_) (.wait (.update (.mkPkt ?_)))))
    · split
      · with_reducible exact .ite_snd hs hs.residueOk
      · exact hs
    · split
      · with_reducible exact .ite_snd hs hs.residueOk
      · exact hs

protected theorem CanonicalMemory.psDeliver {gd : Nat} {m : PsMsg} {r : PsResult} (hs : CanonicalMemory s) :
    ActCanonical (psDeliver t gd mode1 m r s) := by
  unfold psDeliver
  dsimp only
  split
  · with_reducible exact .trap hs
  · with_reducible exact .trap hs
  · with_reducible refine .ite (.trap hs) (.ite (.trap (.ite_snd hs.residueOk hs)) ?_)
    split
    · with_reducible exact .done (.wg (.wg (.ite_snd hs.residueOk hs)))
    · with_reducible exact .done (.wg (.ite_snd hs.residueOk hs))

protected theorem CanonicalMemory.execPsRsp {t : BitVec 10} (hs : CanonicalMemory s) : NextCanonical (execPsRsp t s) := by
  unfold execPsRsp
  dsimp only
  with_reducible refine .next ?_
  split
  · exact hs
  · split
    · with_reducible exact .applyAct hs.update.ejectPkt.psDeliver
    · with_reducible exact hs.update.ejectPkt

end

/-! ### Control registers, world calls, system instructions, interrupts and the events of a thread (R94, R95, R123–R128, R131–R135,
R190–R195). -/

section
variable {s : State} {t n sel : Nat} {gd ga gb : BitVec 6} {v target : Word} {upd : Option (Word → Word → Word)} {cr : BitVec 12} {imm :
  BitVec 14}

protected theorem CanonicalMemory.crWrite (hs : CanonicalMemory s) : CanonicalMemory (crWrite s t n v) := hs.frame

protected theorem CanonicalMemory.crOp {t : BitVec 10} (hs : CanonicalMemory s) : NextCanonical (crOp sel upd t gd ga cr s) := by
  unfold crOp
  dsimp only
  with_reducible refine .next (hs.runInstr fun _ hx => ?_)
  split
  · with_reducible exact .trap hx
  · with_reducible refine .ite (.trap hx) (.ite (.trap hx) (.ite (.trap hx) (.ite (.trap hx) (.done (.wg ?_)))))
    split
    · with_reducible exact hx.crWrite
    · exact hx

protected theorem CanonicalMemory.enterSecure (hs : CanonicalMemory s) : CanonicalMemory (enterSecure s t n target) :=
  hs.worldChange fun _ hx => hx.updThr

protected theorem CanonicalMemory.execWcall {t : BitVec 10} (hs : CanonicalMemory s) : NextCanonical (execWcall t ga imm s) := by
  unfold execWcall
  with_reducible refine .next (hs.runInstr fun _ hx => .ite (.trap hx) ?_)
  split
  · with_reducible exact .jump hx.jumpCount.enterSecure
  · with_reducible exact .trap hx

protected theorem CanonicalMemory.execWaitslot {t : BitVec 10} {fn : BitVec 8} (hs : CanonicalMemory s) :
    NextCanonical (execWaitslot t gd ga gb fn s) := by
  unfold execWaitslot
  with_reducible refine .next (hs.runInstr fun _ hx => .ite (.trap hx) (.ite (.trap hx) ?_))
  split
  · with_reducible exact .done hx.updThr.wg
  · with_reducible exact .park hx.updThr

protected theorem CanonicalMemory.execGuardTighten {t : BitVec 10} {fn : BitVec 8} (hs : CanonicalMemory s) :
    NextCanonical (execGuardTighten t gd ga gb fn s) := by
  unfold execGuardTighten
  with_reducible refine .next (hs.runInstr fun _ hx => .ite (.trap hx) ?_)
  split
  · with_reducible exact .trap hx
  · with_reducible exact .ite (.trap hx) (.ite (.ite (.trap hx) (.trap hx)) (.wait hx.mkPkt.update))

end

/-! ### Events of a thread and of a core: interrupts and deadline traps (R95, R132, R133, R190, R297), store drain and line fills (R205,
R207, R209), and the CORE_ registers with an effect (R164, R174, R178, R188, R193, R202, R206, R213, R276, R492). -/

section
variable {s : State} {t q line c i : Nat} {who : Requester} {f : State → State} {v : Word}

protected theorem CanonicalMemory.stateOr {o : Host.Outcome State Fault Refusal} (hs : CanonicalMemory s) (ho : NextCanonical o) :
    CanonicalMemory (stateOr s o) := by
  cases o with
  | next s' => exact ho
  | fault f => exact hs
  | refused r => exact hs

protected theorem CanonicalMemory.rerun {i : Instr} (hs : CanonicalMemory s) : CanonicalMemory (rerun s t i) := by
  unfold rerun
  with_reducible refine hs.updThr.stateOr ?_
  split
  · with_reducible exact hs.updThr.execLd
  · with_reducible exact hs.updThr.execLw
  · with_reducible exact hs.updThr.execLwu
  · with_reducible exact hs.updThr.execLh
  · with_reducible exact hs.updThr.execLhu
  · with_reducible exact hs.updThr.execLb
  · with_reducible exact hs.updThr.execLbu
  · with_reducible exact hs.updThr.execLda
  · with_reducible exact hs.updThr.execSd
  · with_reducible exact hs.updThr.execSw
  · with_reducible exact hs.updThr.execSh
  · with_reducible exact hs.updThr.execSb
  · with_reducible exact hs.updThr.execSdr
  · with_reducible exact hs.updThr.execVld
  · with_reducible exact hs.updThr.execVst
  · with_reducible exact hs.updThr.execLl
  · with_reducible exact hs.updThr.execSc
  · with_reducible exact hs.updThr.execAtomSwap
  · with_reducible exact hs.updThr.execAtomAdd
  · with_reducible exact hs.updThr.execAtomAnd
  · with_reducible exact hs.updThr.execAtomOr
  · with_reducible exact hs.updThr.execAtomXor
  · with_reducible exact hs.updThr.execAtomMax
  · with_reducible exact hs.updThr.execAtomMin
  · with_reducible exact hs.updThr.execAtomMaxu
  · with_reducible exact hs.updThr.execAtomMinu
  · with_reducible exact hs.updThr.execFence
  · with_reducible exact hs.updThr.execSyncI
  · with_reducible exact hs.updThr.execXlsync
  · with_reducible exact hs.updThr.execL1dClean
  · with_reducible exact hs.updThr.execL1dCleanInvalidate
  · with_reducible exact hs.updThr.execL1dInvalidate
  · with_reducible exact hs.updThr.execL2Clean
  · with_reducible exact hs.updThr.execL2CleanInvalidate
  · with_reducible exact hs.updThr.execLlcClean
  · with_reducible exact hs.updThr.execL1iInvalidate
  · with_reducible exact hs.updThr.execL1dCleanInvalidateAll
  · with_reducible exact .next hs.updThr

protected theorem CanonicalMemory.wakeIf {f : Wait → Bool} (hs : CanonicalMemory s) : CanonicalMemory (wakeIf s t f) := by
  unfold wakeIf
  split
  · with_reducible refine .ite hs ?_
    split
    · with_reducible exact hs.rerun
    · with_reducible exact hs.rerun
    · with_reducible exact hs.rerun
    · exact hs
  · exact hs

protected theorem CanonicalMemory.wakeOwners (hs : CanonicalMemory s) : CanonicalMemory (wakeOwners s q line) :=
  hs.foldS fun _ _ hx => hx.wakeIf

protected theorem CanonicalMemory.fillEntry {e : SideEntry} (hs : CanonicalMemory s) : CanonicalMemory (fillEntry s t e) := by
  unfold fillEntry
  split
  · with_reducible exact (hs.quadData.snd_of_eq ‹_›).shareLine.pmcCount.sideUpd.sideGone
  · have h1 := hs.quadData.snd_of_eq ‹_›
    with_reducible exact .ite h1 h1.l2Request

protected theorem CanonicalMemory.coreWrite {r : Reg} (hs : CanonicalMemory s) (hf : ∀ s, CanonicalMemory s → CanonicalMemory (f s)) :
    CanonicalMemory (coreWrite s who c r i f) := hs.regCmd fun _ hx => .ite (hf _ hx) hx.refuseReg

protected theorem CanonicalMemory.ctxidWrite (hs : CanonicalMemory s) : CanonicalMemory (ctxidWrite s t v) :=
  .sideClear (.loopEnd (hs.predFlush fun _ hx => hx.setR))

protected theorem CanonicalMemory.ipiWrite (hs : CanonicalMemory s) : CanonicalMemory (ipiWrite s who v) := by
  unfold ipiWrite
  split
  · with_reducible exact .ite hs.updR.runAheadEnd hs.alm
  · with_reducible exact hs.alm

protected theorem CanonicalMemory.thstartWrite (hs : CanonicalMemory s) : CanonicalMemory (thstartWrite s t v) := .ite hs.updThr hs

protected theorem CanonicalMemory.bootWrite (hs : CanonicalMemory s) : CanonicalMemory (bootWrite s c v) :=
  hs.updR.foldS fun _ _ hx => hx.updThr

protected theorem CanonicalMemory.coreCtlWrite (hs : CanonicalMemory s) : CanonicalMemory (coreCtlWrite s c v) :=
  .ite hs.updR (hs.updR.foldS fun _ _ hx => hx.loopEnd)

protected theorem CanonicalMemory.l0ctlWrite (hs : CanonicalMemory s) : CanonicalMemory (l0ctlWrite s t v) :=
  .ite (.ite hs.setR.alm hs.setR) (.updThr (.ite hs.setR.alm hs.setR))

protected theorem CanonicalMemory.tallyInjWrite (hs : CanonicalMemory s) : CanonicalMemory (tallyInjWrite s c v) := hs.frame

protected theorem CanonicalMemory.execBucketLeak {b : Bucket} (hs : CanonicalMemory s) : NextCanonical (execBucketLeak b s) := by
  unfold execBucketLeak
  with_reducible refine .next ?_
  split
  · with_reducible exact .ite hs.updQuad hs
  · with_reducible exact .ite hs.updQuad hs
  · with_reducible exact .ite hs.updSlice hs
  · with_reducible exact .ite hs.updChan hs

end

/-! ### The epoch, its alignment, and calendar slots (ch. 11). -/

section
variable {s : State} {p i t c due th interval : Nat} {ns : BitVec 4} {who : Requester} {v : Word}

protected theorem CanonicalMemory.epochTick (hs : CanonicalMemory s) : CanonicalMemory (epochTick s) :=
  .update (hs.foldS fun _ _ hx => hx.updPrun)

protected theorem CanonicalMemory.slotActed (hs : CanonicalMemory s) : CanonicalMemory (slotActed s p i t) := hs.frame
protected theorem CanonicalMemory.ungate (hs : CanonicalMemory s) : CanonicalMemory (ungate s c) := hs.frame

protected theorem CanonicalMemory.releaseThread (hs : CanonicalMemory s) : CanonicalMemory (releaseThread s p i t due) := by
  unfold releaseThread
  dsimp only
  split
  · with_reducible exact .updThr (.applyAct (.done hs.ungate.wg))
  · with_reducible exact .ite hs.ungate.updThr.updR.alm hs.ungate.updThr

protected theorem CanonicalMemory.execSlotRelease {p : BitVec 4} {i : BitVec 12} (hs : CanonicalMemory s) :
    NextCanonical (execSlotRelease p i s) := by
  unfold execSlotRelease
  with_reducible refine .next ?_
  split
  · exact hs
  · with_reducible exact hs.slotActed.releaseThread

protected theorem CanonicalMemory.deadlineMiss (hs : CanonicalMemory s) : CanonicalMemory (deadlineMiss s p i th t) :=
  hs.ungate.updThr.updR.alm.wfiCheck

protected theorem CanonicalMemory.execSlotDeadline {p : BitVec 4} {i : BitVec 12} (hs : CanonicalMemory s) :
    NextCanonical (execSlotDeadline p i s) := by
  unfold execSlotDeadline
  with_reducible refine .next ?_
  split
  · exact hs
  · with_reducible exact .ite hs.slotActed hs.slotActed.deadlineMiss

protected theorem CanonicalMemory.execCalendarStartRunning {p : BitVec 4} (hs : CanonicalMemory s) :
    NextCanonical (execCalendarStartRunning p s) := by
  unfold execCalendarStartRunning
  with_reducible refine .next ?_
  split
  · exact hs
  · with_reducible exact .ite hs.updPrun hs

protected theorem CanonicalMemory.evalSource (hs : CanonicalMemory s) : CanonicalMemory (evalSource s) := .setR (.ite hs.update hs)

protected theorem CanonicalMemory.epochStep {d : ℤ} (hs : CanonicalMemory s) : CanonicalMemory (epochStep s d) := by
  unfold epochStep
  with_reducible refine .alm (.updR (.foldS (.foldS (hs.update.foldS fun _ _ hx => ?_) fun _ _ hx => hx.updPrun) fun _ _ hx => hx.updPort))
  split
  · with_reducible exact hx.updPrun
  · exact hx

protected theorem CanonicalMemory.markState {e : ℤ} (hs : CanonicalMemory s) : CanonicalMemory (markState s e) :=
  .ite hs.update.updR.alm hs.update.updR

protected theorem CanonicalMemory.acceptMark {e : ℤ} (hs : CanonicalMemory s) : CanonicalMemory (acceptMark s e interval) :=
  .ite hs.updR.updR.markState.epochStep (.setR (.ite hs.updR.updR.markState.alm hs.updR.updR.markState))

protected theorem CanonicalMemory.execTodMessage {line : List (BitVec 8)} (hs : CanonicalMemory s) :
    NextCanonical (execTodMessage line s) := by
  unfold execTodMessage
  with_reducible refine .next ?_
  split
  · with_reducible exact hs.update
  · exact hs

protected theorem CanonicalMemory.execTime1ppsEdge (hs : CanonicalMemory s) : NextCanonical (execTime1ppsEdge ns s) := by
  unfold execTime1ppsEdge
  with_reducible refine .ite .fault (.next (.ite hs.update ?_))
  split
  · with_reducible exact .ite hs.update.setR.acceptMark hs.update
  · with_reducible exact hs.update

protected theorem CanonicalMemory.epochCtlWrite (hs : CanonicalMemory s) : CanonicalMemory (epochCtlWrite s who v) :=
  .ite hs.updR.evalSource hs.refuseReg

end

/-! ### The Point Store engines and the notification unit (ch. 14): entries, operations, repairs, notification and the commands of
PST_CMD. -/

section
variable {s : State} {h n p g k t b tail op : Nat} {qChanged genFail fmt : Bool} {epoch word2 v : Word} {d : Line} {port : BitVec 9} {who :
  Requester}

protected theorem CanonicalMemory.engCount (hs : CanonicalMemory s) : CanonicalMemory (engCount s h n) := hs.frame

protected theorem CanonicalMemory.ptLoad (hs : CanonicalMemory s) : CanonicalMemory (ptLoad s p) := by
  unfold ptLoad
  with_reducible exact .ite hs hs.memReadLine.llcAlloc.engCount

protected theorem CanonicalMemory.ptPut (hs : CanonicalMemory s) : CanonicalMemory (ptPut s p d) := by
  unfold ptPut
  split
  · with_reducible exact hs.setLlc
  · with_reducible exact hs.llcAlloc

protected theorem CanonicalMemory.ptRepairNote {word : Nat} (hs : CanonicalMemory s) : CanonicalMemory (ptRepairNote s p word) :=
  hs.alm.engCount.updR

protected theorem CanonicalMemory.groupLost (hs : CanonicalMemory s) : CanonicalMemory (groupLost s g) := hs.frame
protected theorem CanonicalMemory.repair67 (hs : CanonicalMemory s) : CanonicalMemory (repair67 s p d).2 := .ite hs.groupLost hs

protected theorem CanonicalMemory.ptRead (hs : CanonicalMemory s) : CanonicalMemory (ptRead s p) := by
  unfold ptRead
  split
  · with_reducible exact hs.llcHit
  · exact hs

protected theorem CanonicalMemory.ptCheck (hs : CanonicalMemory s) : CanonicalMemory (ptCheck s p) := by
  unfold ptCheck
  extract_lets s1 d0 w d
  have h1 : CanonicalMemory s1 := hs.ptRead
  split; next d2 s2 e2 =>
  have h2 : CanonicalMemory s2 := .snd_of_eq (by exact .ite_snd (h1.foldS fun _ _ hx => .ite hx.ptRepairNote hx) h1) e2
  split; next d3 s3 e3 =>
  have h3 : CanonicalMemory s3 := .snd_of_eq (by exact .ite_snd h2.ptRepairNote h2) e3
  split; next d4 s4 e4 =>
  have h4 : CanonicalMemory s4 := .snd_of_eq (by exact .ite_snd h3.ptRepairNote h3) e4
  split; next d5 s5 e5 =>
  have h5 : CanonicalMemory s5 := .snd_of_eq (by exact .ite_snd h4.ptRepairNote h4) e5
  split; next d6 s6 e6 =>
  have h6 : CanonicalMemory s6 := .snd_of_eq (by exact .ite_snd (h5.repair67.foldS fun _ _ hx => .ite hx.ptRepairNote hx) h5) e6
  exact .ite h6 h6.ptPut

protected theorem CanonicalMemory.ptNote (hs : CanonicalMemory s) : CanonicalMemory (ptNote s p d) := hs.frame

protected theorem CanonicalMemory.ptNotify (hs : CanonicalMemory s) : CanonicalMemory (ptNotify s p d qChanged) :=
  .ite hs.ptPut.ptNote hs.ptPut

protected theorem CanonicalMemory.mirrorLost (hs : CanonicalMemory s) : CanonicalMemory (mirrorLost s k n) :=
  .ite hs (.ite hs.updR.updR hs.updR.updR.updHaws.alm)

protected theorem CanonicalMemory.mirrorSend (hs : CanonicalMemory s) : CanonicalMemory (mirrorSend s p d) :=
  hs.foldS fun _ _ hx => .ite hx.mirrorLost (.ite hx (.ite hx.mirrorLost hx.updHaws))

protected theorem CanonicalMemory.ptWrite {v : TWord} {st : Stamp} (hs : CanonicalMemory s) :
    CanonicalMemory (ptWrite s p v st genFail).2 := .ptNotify (.ite (.ite hs.alm hs) (.mirrorSend (.ite hs.alm hs)))

protected theorem CanonicalMemory.ptThreadOp {m : PsMsg} (hs : CanonicalMemory s) : CanonicalMemory (ptThreadOp s m genFail).2 := by
  unfold ptThreadOp
  split
  · with_reducible exact hs.engCount.ptCheck
  · with_reducible exact hs.engCount.ptCheck.ptWrite
  · with_reducible exact .ite_snd hs.engCount.ptCheck.shadowOk (.ite_snd hs.engCount.ptCheck.shadowOk hs.engCount.ptCheck.shadowOk.ptWrite)
  · with_reducible
      exact .ite_snd hs.engCount.ptCheck (.ite_snd
        (.ite hs.engCount.ptCheck hs.engCount.ptCheck.ptPut)
        (.ite_snd hs.engCount.ptCheck hs.engCount.ptCheck.ptPut.ptNote))

protected theorem CanonicalMemory.psAnswer {m : PsMsg} {r : PsResult} (hs : CanonicalMemory s) : CanonicalMemory (psAnswer s m r) := by
  unfold psAnswer
  with_reducible exact hs.ejectPkt.creditDone.mkPkt.update

protected theorem CanonicalMemory.ptRunThread (hs : CanonicalMemory s) : CanonicalMemory (ptRunThread s t) := by
  unfold ptRunThread
  split
  · with_reducible exact hs.ptThreadOp.psAnswer
  · exact hs

protected theorem CanonicalMemory.ptSettle (hs : CanonicalMemory s) : CanonicalMemory (ptSettle s p) :=
  .ite (hs.ptLoad.update.foldS fun _ _ hx => hx.ptRunThread) hs.ptLoad

protected theorem CanonicalMemory.ptArrive {k : PsKind} (hs : CanonicalMemory s) : CanonicalMemory (ptArrive s t k genFail) := by
  unfold ptArrive
  split
  · exact hs
  · with_reducible exact .ite hs (.ite hs.update (.ite hs.ptThreadOp.psAnswer (.ite hs hs.update)))

protected theorem CanonicalMemory.ptReach (hs : CanonicalMemory s) : CanonicalMemory (ptReach s b p) := hs.meshCount.meshCount

protected theorem CanonicalMemory.ptUnitRead (hs : CanonicalMemory s) : CanonicalMemory (ptUnitRead s b p).2.2 := by
  unfold ptUnitRead
  with_reducible exact hs.ptReach.ptSettle.engCount.ptCheck

protected theorem CanonicalMemory.ptUnitWrite {v : TWord} {st : Stamp} (hs : CanonicalMemory s) :
    CanonicalMemory (ptUnitWrite s b p v st genFail) := hs.ptReach.ptSettle.engCount.ptCheck.ptWrite

protected theorem CanonicalMemory.execExchangeRead {p : BitVec 24} (hs : CanonicalMemory s) :
    NextCanonical (execExchangeRead port p s) := by
  unfold execExchangeRead
  with_reducible exact .next (.ite hs hs.ptUnitRead.updPort)

protected theorem CanonicalMemory.ptMirror {v : TWord} (hs : CanonicalMemory s) : CanonicalMemory (ptMirror s p v epoch word2 genFail) :=
  .ite hs.updR hs.ptUnitWrite

protected theorem CanonicalMemory.nqIrq (hs : CanonicalMemory s) : CanonicalMemory (nqIrq s g) := hs.irqByDest

protected theorem CanonicalMemory.noteDrop (hs : CanonicalMemory s) : CanonicalMemory (noteDrop s g) :=
  .ite hs.groupLost hs.groupLost.update.alm

protected theorem CanonicalMemory.noteWrite {n : Note} (hs : CanonicalMemory s) : CanonicalMemory (noteWrite s n) :=
  .ite hs.noteDrop (.ite
    (.nqIrq (.groupLost (.alm (.updR (.ite hs.recordUnmapped (.ite hs.unitWorldRefusal hs))))))
    hs.agentWriteWords.update.updR.updR.nqIrq)

protected theorem CanonicalMemory.execNotificationRecord (hs : CanonicalMemory s) : NextCanonical (execNotificationRecord s) := by
  unfold execNotificationRecord
  with_reducible refine .next ?_
  split
  · exact hs
  · with_reducible exact hs.update.noteWrite

protected theorem CanonicalMemory.nqTail (hs : CanonicalMemory s) : CanonicalMemory (nqTail s who g tail) :=
  .ite hs (.ite hs.refuseReg (.ite hs.alm hs.updR))

protected theorem CanonicalMemory.pstRefused (hs : CanonicalMemory s) : CanonicalMemory (pstRefused s who p op) := hs.setB.alm

protected theorem CanonicalMemory.setDeadband (hs : CanonicalMemory s) : CanonicalMemory (setDeadband s who p fmt) :=
  .ite hs.pstRefused hs.ptSettle.engCount.ptCheck.ptPut.setB

protected theorem CanonicalMemory.peekPoint (hs : CanonicalMemory s) : CanonicalMemory (peekPoint s who p) :=
  .ite hs.pstRefused (.ptCheck (.setB (hs.ptSettle.engCount.foldS fun _ _ hx => hx.setB)))

protected theorem CanonicalMemory.pstCmd (hs : CanonicalMemory s) : CanonicalMemory (pstCmd s who v) := by
  unfold pstCmd
  with_reducible refine .ite hs.refuseReg ?_
  split
  · with_reducible exact hs.setDeadband
  · with_reducible exact hs.peekPoint
  · exact hs

end

/-! ### Stopper guards on outputs (ch. 13): the step, the records, and the narrowing of limits. -/

section
variable {s : State} {o kind hi lo seq : Nat} {v limit last : Word} {isMax genFail : Bool} {word : TWord}

protected theorem CanonicalMemory.stopEvt (hs : CanonicalMemory s) : CanonicalMemory (stopEvt s o kind) := hs.frame
protected theorem CanonicalMemory.stopCount (hs : CanonicalMemory s) : CanonicalMemory (stopCount s o hi lo) := hs.frame

protected theorem CanonicalMemory.clampNote (hs : CanonicalMemory s) : CanonicalMemory (clampNote s o v limit isMax) :=
  .ite hs.stopCount.updStop.alm hs.stopCount

protected theorem CanonicalMemory.stopLost (hs : CanonicalMemory s) : CanonicalMemory (stopLost s o last) :=
  hs.freeW.freeW.updStop.stopCount.alm.stopEvt

protected theorem CanonicalMemory.stopStep (hs : CanonicalMemory s) : CanonicalMemory (stopStep s o word seq genFail).2 := by
  unfold stopStep
  extract_lets x0 x1 hold s1 moved
  have h1 : CanonicalMemory s1 := .ite hs.stopCount.alm.stopEvt hs
  split; next x2 fresh hfresh =>
  extract_lets x3 s2 s3 clampW s4
  have h3 : CanonicalMemory s3 := .ite h1.updStop.stopCount h1.updStop
  have h4 : CanonicalMemory s4 := .ite h3.clampNote (.ite h3.clampNote h3)
  exact .ite_snd h1.stopCount.alm.stopEvt h4

protected theorem CanonicalMemory.tightenNow {m : TightenMsg} (hs : CanonicalMemory s) : CanonicalMemory (tightenNow s m) := by
  unfold tightenNow
  dsimp only
  split
  · with_reducible exact .ite (.applyAct (.trap hs.update.ejectPkt.creditDone)) (.applyAct (.done hs.update.ejectPkt.creditDone.updStop.wg))
  · with_reducible exact hs.update.ejectPkt.creditDone

protected theorem CanonicalMemory.execTightenRequest {o : BitVec 15} (hs : CanonicalMemory s) : NextCanonical (execTightenRequest o s) := by
  unfold execTightenRequest
  with_reducible refine .next ?_
  split
  · with_reducible exact hs.tightenNow
  · exact hs

end

/-! ### Field bays (ch. 12): the Lanyard exchange, PLCA, and raw-frame mode. -/

section
variable {s : State} {l b kind n cycle p k start quality a addr ring status len tail : Nat} {fcsOk write tx : Bool} {gens lost : List Nat}
  {sfd v : Word} {port : BitVec 9} {frame : List Byte} {who : Requester} {f : State → State}

protected theorem CanonicalMemory.portIrq (hs : CanonicalMemory s) : CanonicalMemory (portIrq s l) := hs.irqByDest
protected theorem CanonicalMemory.portCause (hs : CanonicalMemory s) : CanonicalMemory (portCause s l b) := hs.updR.portIrq
protected theorem CanonicalMemory.bayErr (hs : CanonicalMemory s) : CanonicalMemory (bayErr s l kind) := hs.frame
protected theorem CanonicalMemory.portCount (hs : CanonicalMemory s) : CanonicalMemory (portCount s l n) := .ite hs.updR.updPort.alm hs.updR
protected theorem CanonicalMemory.callLate (hs : CanonicalMemory s) : CanonicalMemory (callLate s l cycle) := hs.updR.alm.bayErr

protected theorem CanonicalMemory.ctxMissed (hs : CanonicalMemory s) : CanonicalMemory (ctxMissed s l n) :=
  hs.foldS fun _ _ hx => .ite hx.updR hx

protected theorem CanonicalMemory.nodeMissed (hs : CanonicalMemory s) : CanonicalMemory (nodeMissed s l n) :=
  .ite hs.updR.updR.alm.portCause hs.updR

protected theorem CanonicalMemory.lanyardEnd (hs : CanonicalMemory s) : CanonicalMemory (lanyardEnd s l) :=
  .ite hs (.foldS (.ite hs.callLate hs) fun _ _ hx => .ite hx (.ite hx.ctxMissed hx.ctxMissed.nodeMissed))

protected theorem CanonicalMemory.callWord {w : Nat} {src : CallSrc} (hs : CanonicalMemory s) :
    CanonicalMemory (callWord s l gens lost n w src).2.2 := by
  unfold callWord
  split
  · with_reducible
      exact .ite_snd_snd
        (.bayErr (.alm (.updR (.stopStep (.ptUnitRead (.ite hs.stopLost hs))))))
        (.updPort (.stopStep (.ptUnitRead (.ite hs.stopLost hs))))
  · with_reducible exact .ite_snd_snd (.bayErr (.alm (.stopStep (.ite hs.stopLost hs)))) (.updPort (.stopStep (.ite hs.stopLost hs)))
  · exact hs

protected theorem CanonicalMemory.callPrepare (hs : CanonicalMemory s) : CanonicalMemory (callPrepare s l gens lost) := by
  unfold callPrepare
  with_reducible
    exact .ite
      (.callLate (.updPort (.foldl_snd_snd hs fun _ _ hx => .foldl_snd_snd hx fun _ _ hy => hy.callWord)))
      (.updPort (.foldl_snd_snd hs fun _ _ hx => .foldl_snd_snd hx fun _ _ hy => hy.callWord))

protected theorem CanonicalMemory.lanyardBegin {r : PortRec} (hs : CanonicalMemory s) :
    CanonicalMemory (lanyardBegin s l p r k start gens lost) := by
  unfold lanyardBegin
  with_reducible exact hs.lanyardEnd.updPort.updR.callPrepare

protected theorem CanonicalMemory.execLanyardCycleStart {gens lost : List (BitVec 15)} (hs : CanonicalMemory s) :
    NextCanonical (execLanyardCycleStart port gens lost s) := by
  unfold execLanyardCycleStart
  with_reducible refine .next ?_
  split
  · with_reducible refine .ite hs ?_
    split
    · with_reducible exact .ite hs.slotActed.lanyardBegin hs
    · with_reducible exact hs.lanyardBegin
  · exact hs

protected theorem CanonicalMemory.execSlotExchange {p : BitVec 4} {i : BitVec 12} (hs : CanonicalMemory s) :
    NextCanonical (execSlotExchange p i s) := by
  unfold execSlotExchange
  dsimp only
  with_reducible refine .next ?_
  split
  · split
    · with_reducible exact .ite hs.slotActed.lanyardBegin hs.slotActed
    · with_reducible exact hs.slotActed
  · exact hs

protected theorem CanonicalMemory.execCallTransmit (hs : CanonicalMemory s) : NextCanonical (execCallTransmit port s) := by
  unfold execCallTransmit
  with_reducible refine .next ?_
  split
  · with_reducible exact .ite hs (hs.updPort.updR.foldS fun _ _ hx => .ite hx.updR hx)
  · exact hs

protected theorem CanonicalMemory.nodeAnswered (hs : CanonicalMemory s) : CanonicalMemory (nodeAnswered s l n) := .ite hs.updR.alm hs.updR

protected theorem CanonicalMemory.replyWrite {words : Nat} {body : List Byte} (hs : CanonicalMemory s) :
    CanonicalMemory (replyWrite s l n words quality body sfd) := by
  unfold replyWrite
  with_reducible
    refine .ite
      (.portCount (.foldS (hs.foldS fun _ _ hx => ?_) fun _ _ hx => hx.updR))
      (.foldS (hs.foldS fun _ _ hx => ?_) fun _ _ hx => hx.updR)
  · split
    · with_reducible exact .ite hx.ptUnitWrite hx
    · exact hx
  · split
    · with_reducible exact .ite hx.ptUnitWrite hx
    · exact hx

protected theorem CanonicalMemory.lanyardReceive {r : PortRec} (hs : CanonicalMemory s) :
    CanonicalMemory (lanyardReceive s l r fcsOk frame sfd) :=
  .ite hs.portCount (.ite hs.portCount (.ite hs.portCount (.ite
    hs.portCount
    (.ite hs.portCount (.ite hs.portCount hs.updR.updPort.nodeAnswered.replyWrite)))))

protected theorem CanonicalMemory.execReplyFrame {frame : List (BitVec 8)} (hs : CanonicalMemory s) :
    NextCanonical (execReplyFrame port fcsOk frame sfd s) := by
  unfold execReplyFrame
  with_reducible refine .next ?_
  split
  · with_reducible exact .ite hs hs.lanyardReceive
  · exact hs

protected theorem CanonicalMemory.busRefuse (hs : CanonicalMemory s) : CanonicalMemory (busRefuse s l p a n write) := by
  unfold busRefuse
  split
  · exact hs
  · with_reducible exact .ite hs.recordUnmapped (.ite hs.unitWorldRefusal hs)

protected theorem CanonicalMemory.rawHalt (hs : CanonicalMemory s) : CanonicalMemory (rawHalt s l addr ring) := hs.updR.alm.portCause.bayErr

protected theorem CanonicalMemory.rawDeliver (hs : CanonicalMemory s) : CanonicalMemory (rawDeliver s l p frame sfd) :=
  .ite hs.busRefuse.rawHalt (.ite hs.agentWords.rawHalt (.ite
    hs.agentWords.busRefuse.rawHalt
    hs.agentWords.agentWriteBytes.agentWriteWords.updR.updR.portCause))

protected theorem CanonicalMemory.execRawRxFrame {frame : List (BitVec 8)} (hs : CanonicalMemory s) :
    NextCanonical (execRawRxFrame port fcsOk frame sfd s) := by
  unfold execRawRxFrame
  with_reducible refine .next ?_
  split
  · with_reducible exact .ite hs (.ite hs.portCount (.ite hs.portCount (.ite hs.portCount (.ite hs.portCount hs.rawDeliver))))
  · exact hs

protected theorem CanonicalMemory.rawTxDone {d : Nat} {ep : Word} (hs : CanonicalMemory s) :
    CanonicalMemory (rawTxDone s l d status len ep) := hs.agentWriteWords.updR.portCause

protected theorem CanonicalMemory.rawSend (hs : CanonicalMemory s) : CanonicalMemory (rawSend s l p) :=
  .ite hs.busRefuse.rawHalt (.ite
    hs.agentWords.agentWriteWords.rawHalt
    (.ite hs.agentWords.rawTxDone (.ite
      hs.agentWords.busRefuse.agentWriteWords.rawHalt
      (.ite hs.agentWords.agentBytes.alm.rawTxDone.bayErr hs.agentWords.agentBytes.updPort.updR.rawTxDone))))

protected theorem CanonicalMemory.execRawTxFrame (hs : CanonicalMemory s) : NextCanonical (execRawTxFrame port s) := by
  unfold execRawTxFrame
  with_reducible refine .next ?_
  split
  · with_reducible exact .ite hs hs.rawSend
  · exact hs

protected theorem CanonicalMemory.portWrite {r : Reg} (hs : CanonicalMemory s) (hf : ∀ s, CanonicalMemory s → CanonicalMemory (f s)) :
    CanonicalMemory (portWrite s who r l f) := hs.regCmd fun _ hx => .ite (hf _ hx) hx.refuseReg

protected theorem CanonicalMemory.rawTail (hs : CanonicalMemory s) : CanonicalMemory (rawTail s l tx tail) := .ite hs.alm hs.updR
protected theorem CanonicalMemory.rawCtl (hs : CanonicalMemory s) : CanonicalMemory (rawCtl s l v) := hs.frame
protected theorem CanonicalMemory.portLoses (hs : CanonicalMemory s) : CanonicalMemory (portLoses s l n k) := .ite hs hs.portCount.updR

end

/-! ### Messages of the mesh and of the coherence protocol as commands: requests, snoops, responses, credits and link errors (ch. 8, 9). A
message named by a command is delivered where it is in flight (R239, Table 9-2). -/

section
variable {s : State} {stop dir h line q t pa size : Nat} {spec own keeps hasData dirty ue signed : Bool} {va iw : Word} {d : Line}

protected theorem CanonicalMemory.linkFailed : CanonicalMemory (linkFailed s stop dir) := CanonicalMemory.moduleReset

protected theorem CanonicalMemory.deliverReq {op : BitVec 6} (hs : CanonicalMemory s) : CanonicalMemory (deliverReq s op h line) := by
  unfold deliverReq
  split
  · with_reducible exact (hs.takeMsg ‹_›).homeArrive
  · exact hs

protected theorem CanonicalMemory.agent7Member (hs : CanonicalMemory s) : CanonicalMemory (agent7Member s line).2 := .ite_snd hs hs.freeB

protected theorem CanonicalMemory.aheadRequest (hs : CanonicalMemory s) : CanonicalMemory (aheadRequest s q line) := by
  unfold aheadRequest
  dsimp only
  split
  · exact hs
  · with_reducible exact .sideRequest (.ite hs.freeW.freeW.pmcCount hs.freeW)

protected theorem CanonicalMemory.requestCmd {op : BitVec 6} {h : BitVec 7} {line : BitVec 32} (hs : CanonicalMemory s) :
    NextCanonical (requestCmd op spec own h line s) :=
  .ite .fault (.next (.deliverReq (.ite hs (.ite
    (.ite hs.aheadRequest hs.l2Request)
    (.ite hs.agent7Member.l2Request (.ite hs.sendMsg hs))))))

protected theorem CanonicalMemory.holderMsg {op : BitVec 6} {h : BitVec 7} {line : BitVec 32} (hs : CanonicalMemory s) :
    NextCanonical (holderMsg op h line s) := .ite .fault (.next hs.deliverReq)

protected theorem CanonicalMemory.snoopCmd {op : BitVec 6} {k : Snoop} {h : BitVec 7} {line : BitVec 32} (hs : CanonicalMemory s) :
    NextCanonical (snoopCmd op k h line s) := by
  unfold snoopCmd
  dsimp only
  with_reducible refine .ite .fault ?_
  split
  · with_reducible exact .next hs
  · with_reducible exact .next (hs.takeMsg ‹_›).holderSnoop.sendMsg.creditDone

protected theorem CanonicalMemory.snoopRsp {op : BitVec 6} {h : BitVec 7} {line : BitVec 32} (hs : CanonicalMemory s) :
    NextCanonical (snoopRsp op keeps hasData dirty h line s) := by
  unfold snoopRsp
  with_reducible refine .ite .fault ?_
  extract_lets hn l n mine
  split
  · exact .next (.ite hs .protocolBreach)
  next m s hm =>
    have hs := hs.takeMsg hm
    split
    · exact .next .protocolBreach
    next t _ =>
      with_reducible refine .ite (.next .protocolBreach) ?_
      extract_lets s1 t s2
      have h2 : CanonicalMemory s2 := .putTxn (.ite hs hs.dirRemove)
      exact .next (.ite h2 (.homeNext (.ite h2.rebuildDone h2.homeAfterSnoop)))

protected theorem CanonicalMemory.memData {op : BitVec 6} {line : BitVec 32} (hs : CanonicalMemory s) :
    NextCanonical (memData op ue line s) := by
  unfold memData
  dsimp only
  split
  · with_reducible exact .next hs
  · split
    · have h1 := hs.takeMsg ‹_›
      with_reducible exact .ite (.next h1.homeAnswer.homeNext) (.next h1)
    · with_reducible exact .next (hs.takeMsg ‹_›)

protected theorem CanonicalMemory.execMemAck {line : BitVec 32} (hs : CanonicalMemory s) : NextCanonical (execMemAck line s) := by
  unfold execMemAck
  dsimp only
  split
  · with_reducible exact .next hs
  · split
    · have h1 := hs.takeMsg ‹_›
      with_reducible exact .next (.ite h1.grant.homeNext h1)
    · with_reducible exact .next (hs.takeMsg ‹_›)

protected theorem CanonicalMemory.execCompAck {h : BitVec 7} {line : BitVec 32} (hs : CanonicalMemory s) :
    NextCanonical (execCompAck h line s) := by
  unfold execCompAck
  dsimp only
  with_reducible refine .ite .fault ?_
  split
  · with_reducible exact .next (.ite hs CanonicalMemory.protocolBreach)
  · with_reducible exact .next (hs.takeMsg ‹_›).dropTxn.homeNext

protected theorem CanonicalMemory.execTransactionTimeout {line : BitVec 32} (hs : CanonicalMemory s) :
    NextCanonical (execTransactionTimeout line s) := by
  unfold execTransactionTimeout
  with_reducible refine .next ?_
  split
  · with_reducible exact .ite CanonicalMemory.protocolBreach hs
  · exact hs

protected theorem CanonicalMemory.installPref (hs : CanonicalMemory s) : CanonicalMemory (installPref s q line) := by
  unfold installPref
  dsimp only
  with_reducible refine hs.updQuad.foldS fun _ _ hx => ?_
  split
  · have h1 := hx.l2Array.quadData.snd_of_eq ‹_›
    with_reducible exact .ite h1.l1dCopy h1
  · with_reducible exact hx.l2Array.quadData.snd_of_eq ‹_›

protected theorem CanonicalMemory.l2Grant {st : LSt} (hs : CanonicalMemory s) : CanonicalMemory (l2Grant s q line st d ue) :=
  .sideGone (.installPref (.ite hs.setTrack.setL2.l2Array hs.setTrack.setL2))

protected theorem CanonicalMemory.grantCmd {op : BitVec 6} {st : LSt} {h : BitVec 7} {line : BitVec 32} (hs : CanonicalMemory s) :
    NextCanonical (grantCmd op st ue h line s) := by
  unfold grantCmd
  dsimp only
  with_reducible refine .ite .fault ?_
  split
  · with_reducible exact .next (.ite hs CanonicalMemory.protocolBreach)
  · have h1 := hs.takeMsg ‹_›
    with_reducible refine .ite (.next h1.update.sendMsg) ?_
    split
    · with_reducible
        exact .ite
          (.ite (.next h1.l2Grant.sendMsg.wakeOwners) (.next CanonicalMemory.protocolBreach))
          (.ite (.next h1.l2Grant.sendMsg) (.next CanonicalMemory.protocolBreach))
    · with_reducible exact .next CanonicalMemory.protocolBreach

protected theorem CanonicalMemory.execGntUpg {h : BitVec 7} {line : BitVec 32} (hs : CanonicalMemory s) :
    NextCanonical (execGntUpg h line s) := by
  unfold execGntUpg
  dsimp only
  with_reducible refine .ite .fault ?_
  split
  · with_reducible exact .next (.ite hs CanonicalMemory.protocolBreach)
  · split
    · with_reducible exact .ite (.next (hs.takeMsg ‹_›).setTrack.setL2.sendMsg.wakeOwners) (.next CanonicalMemory.protocolBreach)
    · with_reducible exact .next CanonicalMemory.protocolBreach

protected theorem CanonicalMemory.onceDone {gd : Nat} (hs : CanonicalMemory s) :
    ActCanonical (onceDone t gd pa size signed va iw d ue s) := by
  unfold onceDone
  with_reducible refine .ite (.ite (.trap hs) (.ite (.trap hs) (.ite (.done (.wvAll ?_)) (.trap ?_)))) (.ite (.trap hs) hs.loadFinish)
  · split
    · with_reducible exact hs.residueOk
    · exact hs
  · split
    · with_reducible exact hs.residueOk
    · exact hs

protected theorem CanonicalMemory.dataOnce {op : BitVec 6} {h : BitVec 7} {line : BitVec 32} (hs : CanonicalMemory s) :
    NextCanonical (dataOnce op ue h line s) := by
  unfold dataOnce
  dsimp only
  with_reducible refine .ite .fault ?_
  split
  · with_reducible exact .next hs
  · split
    · with_reducible exact .next (hs.takeMsg ‹_›)
    · split
      · have h1 := hs.takeMsg ‹_›
        with_reducible exact .next (.ite (.applyAct h1.onceDone) h1)
      · with_reducible exact .next (hs.takeMsg ‹_›)

protected theorem CanonicalMemory.execRefused {h : BitVec 7} {line : BitVec 32} (hs : CanonicalMemory s) :
    NextCanonical (execRefused h line s) := by
  unfold execRefused
  dsimp only
  with_reducible refine .ite .fault ?_
  split
  · with_reducible exact .next hs
  · have h1 := hs.takeMsg ‹_›
    with_reducible
      exact .next (.ite
        (.foldS (.setTrack (.ite h1.updR h1)) fun _ _ hx => .ite hx.pmcCount.sideUpd hx)
        (.foldS (.foldS (.setTrack (.ite h1.updR h1)) fun _ _ hx => .ite hx.pmcCount.sideUpd hx) fun _ _ hx => hx.sideRequest))

protected theorem CanonicalMemory.execDenied {h : BitVec 7} {line : BitVec 32} (hs : CanonicalMemory s) :
    NextCanonical (execDenied h line s) := by
  unfold execDenied
  dsimp only
  with_reducible refine .ite .fault ?_
  split
  · with_reducible exact .next hs
  · split
    · split
      · have h1 := hs.takeMsg ‹_›
        with_reducible exact .next (.applyAct (.ite (.done h1.threadUnmapped.wvAll) (.done h1.threadUnmapped.wg)))
      · with_reducible exact .next (.applyAct (.done (hs.takeMsg ‹_›).threadUnmapped))
      · with_reducible exact .next (hs.takeMsg ‹_›)
    · with_reducible exact .next (.wakeOwners (.foldS ((hs.takeMsg ‹_›).setTrack.foldS fun _ _ hx => hx.sideUpd) fun _ _ hx => hx.wakeIf))

protected theorem CanonicalMemory.execMissNote {h : BitVec 7} {line : BitVec 32} (hs : CanonicalMemory s) :
    NextCanonical (execMissNote h line s) := by
  unfold execMissNote
  dsimp only
  with_reducible refine .ite .fault ?_
  split
  · with_reducible exact .next hs
  · with_reducible refine .next ((hs.takeMsg ‹_›).foldS fun _ _ hx => ?_)
    split
    · with_reducible exact .ite (.ite hx.updThr.pmcCount hx.updThr) hx
    · exact hx

protected theorem CanonicalMemory.execWrAck {h : BitVec 7} {line : BitVec 32} (hs : CanonicalMemory s) :
    NextCanonical (execWrAck h line s) := by
  unfold execWrAck
  with_reducible refine .ite .fault ?_
  extract_lets n l
  split
  · exact .next hs
  next m s hm =>
    have hs := hs.takeMsg hm
    extract_lets s1 s2 s3
    have h1 : CanonicalMemory s1 := by
      dsimp only [s1]
      split
      · exact .ite hs.setTrack hs
      · exact hs
    have h2 : CanonicalMemory s2 := by
      dsimp only [s2]
      split
      · split
        · exact .ite (.applyAct (.done h1)) h1
        · exact h1
      · exact h1
    exact .next ((h2.foldS fun _ _ hx => hx.sideRequest).foldS fun _ _ hx => hx.wakeIf)

protected theorem CanonicalMemory.regLoadDone {gd : Nat} {x : TWord} (hs : CanonicalMemory s) : ActCanonical (regLoadDone s t gd iw x) :=
  .ite (.done hs.residueOk.wg) (.trap hs.residueOk)

protected theorem CanonicalMemory.execRegData {t : BitVec 10} (hs : CanonicalMemory s) : NextCanonical (execRegData t s) := by
  unfold execRegData
  dsimp only
  with_reducible refine .next ?_
  split
  · exact hs
  · split
    · with_reducible exact .applyAct hs.update.ejectPkt.regLoadDone
    · with_reducible exact hs.update.ejectPkt

protected theorem CanonicalMemory.execRegAck {t : BitVec 10} (hs : CanonicalMemory s) : NextCanonical (execRegAck t s) := by
  unfold execRegAck
  dsimp only
  with_reducible refine .next ?_
  split
  · exact hs
  · split
    · with_reducible exact .applyAct (.done hs.update.ejectPkt)
    · with_reducible exact hs.update.ejectPkt

end

/-! ### The Hawser peer ports (ch. 18): the link, windows, the tally across the link, time and mirrored writes. -/

section
variable {s : State} {peerId mask val epoch word2 : Word} {sigOk write refused genFail : Bool} {k st outcome : Nat} {psn tal : BitVec 8} {d
  : Line} {role : BitVec 2} {flags : BitVec 3} {wins : List PeerWin} {win : BitVec 4} {data : List (BitVec 64)} {tals : List (BitVec 8)}
  {req : BitVec 11}

protected theorem CanonicalMemory.annSettle (hs : CanonicalMemory s) : CanonicalMemory (annSettle s k) := .ite hs hs.updHaws
protected theorem CanonicalMemory.hawsDrop {r : HawsReq} (hs : CanonicalMemory s) : CanonicalMemory (hawsDrop s r) := hs.frame

protected theorem CanonicalMemory.hawsFail {r : HawsReq} (hs : CanonicalMemory s) : CanonicalMemory (hawsFail s r) := by
  unfold hawsFail
  dsimp only
  with_reducible refine .ite hs.hawsDrop.recordUnmapped.updDma ?_
  split
  · with_reducible
      exact .ite hs.hawsDrop (.ite
        (.applyAct (.done hs.hawsDrop.threadUnmapped))
        (.ite (.applyAct (.done hs.hawsDrop.threadUnmapped.wvAll)) (.applyAct (.done hs.hawsDrop.threadUnmapped.wg))))
  · with_reducible exact hs.hawsDrop

protected theorem CanonicalMemory.hawsDone {r : HawsReq} (hs : CanonicalMemory s) : CanonicalMemory (hawsDone s r d) := by
  unfold hawsDone
  dsimp only
  with_reducible refine .ite hs.hawsDrop.updDma ?_
  split
  · with_reducible exact .ite hs.hawsDrop (.ite (.applyAct (.done hs.hawsDrop)) (.applyAct hs.hawsDrop.onceDone))
  · with_reducible exact hs.hawsDrop

protected theorem CanonicalMemory.hawsRetry {r : HawsReq} (hs : CanonicalMemory s) : CanonicalMemory (hawsRetry s r) := by
  unfold hawsRetry
  with_reducible refine .ite hs.hawsFail ?_
  split
  · with_reducible exact hs.hawsFail
  · with_reducible exact hs.update

protected theorem CanonicalMemory.hawsSet (hs : CanonicalMemory s) : CanonicalMemory (hawsSet s k st) := hs.updR.evalSource
protected theorem CanonicalMemory.commitEnd (hs : CanonicalMemory s) : CanonicalMemory (commitEnd s k outcome) := hs.frame

protected theorem CanonicalMemory.hawsDown (hs : CanonicalMemory s) : CanonicalMemory (hawsDown s k) := by
  unfold hawsDown
  with_reducible
    exact .updHaws (.ite
      (.commitEnd (.mirrorLost (.foldS (.updR (.hawsSet (.ite hs.updR hs))) fun _ _ hx => hx.hawsFail)))
      (.mirrorLost (.foldS (.updR (.hawsSet (.ite hs.updR hs))) fun _ _ hx => hx.hawsFail)))

protected theorem CanonicalMemory.hawsRetrain (hs : CanonicalMemory s) : CanonicalMemory (hawsRetrain s k) := .ite hs.hawsSet.updHaws hs
protected theorem CanonicalMemory.peerWinSet {e : PeerWin} (hs : CanonicalMemory s) : CanonicalMemory (peerWinSet s k e) := hs.setR.updHaws

protected theorem CanonicalMemory.execHawserHello {k : BitVec 2} (hs : CanonicalMemory s) :
    NextCanonical (execHawserHello k peerId sigOk role flags wins s) :=
  .next (.ite hs (.ite hs.setR.updR.hawsSet.alm (.hawsSet (.updR (.foldS
    (hs.setR.updR.foldS fun _ _ hx => hx.setR)
    fun _ _ hx => hx.peerWinSet)))))

protected theorem CanonicalMemory.inboundAnswer (hs : CanonicalMemory s) : CanonicalMemory (inboundAnswer s k st d) := hs.frame
protected theorem CanonicalMemory.inboundRefuse (hs : CanonicalMemory s) : CanonicalMemory (inboundRefuse s k st) := hs.frame

protected theorem CanonicalMemory.execHawserInboundRequest {k : BitVec 2} {g : BitVec 8} {addr : BitVec 52} (hs : CanonicalMemory s) :
    NextCanonical (execHawserInboundRequest k win g addr write mask data tals psn s) := by
  unfold execHawserInboundRequest
  dsimp only
  with_reducible refine .next (.ite hs (.ite hs.inboundRefuse (.ite hs.inboundRefuse (.ite hs.inboundRefuse ?_))))
  split
  · with_reducible exact hs.recordUnmapped.inboundRefuse
  · with_reducible exact hs.inboundRefuse
  · with_reducible exact hs.unitWorldRefusal.inboundRefuse
  · with_reducible exact .ite hs.agentWrite.inboundAnswer hs.agentLine.inboundAnswer

protected theorem CanonicalMemory.execHawserResponse {k : BitVec 2} {addr : BitVec 52} (hs : CanonicalMemory s) :
    NextCanonical (execHawserResponse k req addr refused data tals psn s) := by
  unfold execHawserResponse
  with_reducible refine .next ?_
  split
  · exact hs
  · with_reducible exact .annSettle (.ite hs.hawsFail hs.hawsDone)

protected theorem CanonicalMemory.execStaleWindow {k : BitVec 2} {addr : BitVec 52} (hs : CanonicalMemory s) :
    NextCanonical (execStaleWindow k req addr s) := by
  unfold execStaleWindow
  with_reducible refine .next ?_
  split
  · exact hs
  · with_reducible exact hs.updR.hawsRetry.annSettle

protected theorem CanonicalMemory.windowTake {w : Nat} (hs : CanonicalMemory s) : CanonicalMemory (windowTake s k w) :=
  .ite hs hs.updHaws.updR

protected theorem CanonicalMemory.windowCommit {mask : Nat} (hs : CanonicalMemory s) : CanonicalMemory (windowCommit s k mask) :=
  .ite hs.updR (.ite (.updHaws (.updR (hs.foldS fun _ _ hx => hx.windowTake))) (.commitEnd (hs.foldS fun _ _ hx => hx.windowTake)))

protected theorem CanonicalMemory.execAnnounce {k : BitVec 2} (hs : CanonicalMemory s) : NextCanonical (execAnnounce k wins s) :=
  .next (.ite hs (.annSettle (.foldS (.updHaws (hs.foldS fun _ _ hx => hx.peerWinSet)) fun _ _ hx => hx.hawsRetry)))

protected theorem CanonicalMemory.execAnnounceTimeout {k : BitVec 2} (hs : CanonicalMemory s) :
    NextCanonical (execAnnounceTimeout k s) := by
  unfold execAnnounceTimeout
  with_reducible refine .next ?_
  split
  · with_reducible exact .ite hs.hawsDown.hawsRetrain hs
  · exact hs

protected theorem CanonicalMemory.hawsSpliceReset (hs : CanonicalMemory s) : CanonicalMemory (hawsSpliceReset s k) := by
  unfold hawsSpliceReset
  with_reducible
    exact .updHaws (.foldS
      (.foldS (.setR (.setR (.setR (.ite hs hs.hawsDown)))) fun _ _ hx => hx.setR)
      fun _ _ hx => hx.setR.setR.setR.updR)

protected theorem CanonicalMemory.execMirroredWrite {k : BitVec 2} {p : BitVec 24} (hs : CanonicalMemory s) :
    NextCanonical (execMirroredWrite k p val tal epoch word2 genFail s) := by
  unfold execMirroredWrite
  with_reducible refine .next (.ite hs (.ite ?_ (.ite hs.updR.ptMirror hs)))
  split
  · exact hs
  · with_reducible exact hs.updHaws.updR

end

/-! ### What a host port sends: TLPs, MSI-X messages, error records (ch. 16), and the completion queues of tenant slices (R416, R419). -/

section
variable {s : State} {h addr fuel e src kind n q b status : Nat} {hdr0 hdr1 result : Word} {pasid : Option Nat} {on : Bool}

protected theorem CanonicalMemory.txClear (hs : CanonicalMemory s) : CanonicalMemory (txClear s) := hs.frame
protected theorem CanonicalMemory.linkWake (hs : CanonicalMemory s) : CanonicalMemory (linkWake s h) := hs.frame
protected theorem CanonicalMemory.tx {t : HostTlp} (hs : CanonicalMemory s) : CanonicalMemory (tx s t) := hs.frame

protected theorem CanonicalMemory.postWords {l : List Word} (hs : CanonicalMemory s) :
    CanonicalMemory (postWords s h pasid addr l fuel) := by
  induction fuel generalizing s addr l with
  | zero => exact hs
  | succ fuel ih =>
    unfold postWords
    split
    · exact hs
    · exact hs
    · obtain rfl := Nat.succ.inj ‹_›
      exact ih hs.tx

protected theorem CanonicalMemory.setMsix {x : MsixEnt} (hs : CanonicalMemory s) : CanonicalMemory (setMsix s h e x) := hs.frame

protected theorem CanonicalMemory.msixAssert (hs : CanonicalMemory s) : CanonicalMemory (msixAssert s h e src) :=
  .ite hs (.ite hs.updHost.setMsix.updR hs.updHost.setMsix)

protected theorem CanonicalMemory.msixDeassert (hs : CanonicalMemory s) : CanonicalMemory (msixDeassert s h e src) :=
  .ite hs.updHost hs.updHost.setMsix

protected theorem CanonicalMemory.msixUnblock (hs : CanonicalMemory s) : CanonicalMemory (msixUnblock s h) :=
  hs.foldS fun _ _ hx => .ite hx.setMsix hx

protected theorem CanonicalMemory.msixSend (hs : CanonicalMemory s) : CanonicalMemory (msixSend s h e) :=
  .ite hs (.ite hs.setMsix.updR hs.tx.setMsix.updHost)

protected theorem CanonicalMemory.aerCorrectable (hs : CanonicalMemory s) : CanonicalMemory (aerCorrectable s h) := hs.frame

protected theorem CanonicalMemory.aerLog (hs : CanonicalMemory s) : CanonicalMemory (aerLog s h kind hdr0 hdr1) :=
  .ite hs.updHost hs.updHost.updHost

protected theorem CanonicalMemory.hostError (hs : CanonicalMemory s) : CanonicalMemory (hostError s h kind hdr0 hdr1) :=
  .ite
    (.ite (.ite hs.updR.aerCorrectable hs.updR.aerLog) (.msixAssert (.setR (.setR (.setR (.ite hs.updR.aerCorrectable hs.updR.aerLog))))))
    (.alm (.updHost (.ite
      (.ite hs.updR.aerCorrectable hs.updR.aerLog)
      (.msixAssert (.setR (.setR (.setR (.ite hs.updR.aerCorrectable hs.updR.aerLog))))))))

protected theorem CanonicalMemory.updQp {f : QpSt → QpSt} (hs : CanonicalMemory s) : CanonicalMemory (updQp s n q f) := hs.frame
protected theorem CanonicalMemory.sliceMsix (hs : CanonicalMemory s) : CanonicalMemory (sliceMsix s n) := .ite hs hs.msixDeassert

protected theorem CanonicalMemory.cqWrite {e : CqEnt} (hs : CanonicalMemory s) : CanonicalMemory (cqWrite s n q e) :=
  .ite hs.tx.tx.updQp.msixAssert hs.tx.tx.updQp

protected theorem CanonicalMemory.cqPump (hs : CanonicalMemory s) : CanonicalMemory (cqPump s n q fuel) := by
  induction fuel generalizing s with
  | zero => exact hs
  | succ fuel ih =>
    unfold cqPump
    split
    · exact hs
    · with_reducible exact .ite hs (.ite hs.updQp (ih hs.updQp.cqWrite))

protected theorem CanonicalMemory.mgrEvent (hs : CanonicalMemory s) : CanonicalMemory (mgrEvent s h b) := hs.updR.msixAssert

protected theorem CanonicalMemory.qpComplete {c : SqCmd} (hs : CanonicalMemory s) : CanonicalMemory (qpComplete s n q c status result) :=
  .cqPump (.updQp (.ite hs.mgrEvent hs))

protected theorem CanonicalMemory.qpPost (hs : CanonicalMemory s) : CanonicalMemory (qpPost s n q kind result) :=
  .ite hs.updQp.cqPump hs.updR

protected theorem CanonicalMemory.mgmtSet (hs : CanonicalMemory s) : CanonicalMemory (mgmtSet s src on) := hs.frame
protected theorem CanonicalMemory.bowlSet (hs : CanonicalMemory s) : CanonicalMemory (bowlSet s src on) := hs.frame

end

/-! ### The device manifest (R399, R400). -/

section
variable {s : State} {h : Nat}

protected theorem CanonicalMemory.manifestRebuild (hs : CanonicalMemory s) : CanonicalMemory (manifestRebuild s h) := hs.updHost.msixAssert

end

/-! ### The DMA engine (R424–R429): channels, descriptors, bursts and their ends. -/

section
variable {s : State} {ch b status a k n h fuel ag : Nat} {ep ecrcOk sq : Bool} {hdr0 hdr1 v : Word} {data : List (BitVec 64)} {who :
  Requester}

protected theorem CanonicalMemory.dmaIrq (hs : CanonicalMemory s) : CanonicalMemory (dmaIrq s ch) := by
  unfold dmaIrq
  split
  · with_reducible exact hs.irqByDest
  · with_reducible exact hs.mgmtSet
  · with_reducible exact hs.bowlSet
  · exact hs

protected theorem CanonicalMemory.dmaFlag (hs : CanonicalMemory s) : CanonicalMemory (dmaFlag s ch b) := hs.updR.dmaIrq

protected theorem CanonicalMemory.dmaStart (hs : CanonicalMemory s) : CanonicalMemory (dmaStart s ch) :=
  .ite hs.updDma (.ite hs.updDma hs.alm)

protected theorem CanonicalMemory.dmaChain (hs : CanonicalMemory s) : CanonicalMemory (dmaChain s ch) :=
  hs.foldS fun _ _ hx => .ite hx (.ite hx.alm (.ite hx.dmaStart hx))

protected theorem CanonicalMemory.dmaEnd (hs : CanonicalMemory s) : CanonicalMemory (dmaEnd s ch status) := by
  unfold dmaEnd
  extract_lets c st s1 s2 s3 s4 s5
  have h3 : CanonicalMemory s3 := .ite hs.updDma.dmaFlag hs.updDma.dmaFlag.alm
  have h4 : CanonicalMemory s4 := by
    dsimp only [s4]
    split
    · exact .ite h3 h3.updDma.qpComplete
    · exact h3
  exact .ite h4 (.ite h4.dmaChain.updDma.dmaStart h4.dmaChain)

protected theorem CanonicalMemory.devRecord {d : DevTo} (hs : CanonicalMemory s) : CanonicalMemory (devRecord s ch a d) := by
  unfold devRecord
  split
  · with_reducible exact .ite hs.unitWorldRefusal hs
  · with_reducible exact hs.recordUnmapped
  · exact hs

protected theorem CanonicalMemory.hawsReads (hs : CanonicalMemory s) : CanonicalMemory (hawsReads s ch k a n) := by
  unfold hawsReads
  with_reducible refine hs.foldS fun _ _ hx => ?_
  split
  · with_reducible exact (hx.hawsSend ‹_›).updDma
  · with_reducible exact hx.recordUnmapped.updDma

protected theorem CanonicalMemory.readPump (hs : CanonicalMemory s) : CanonicalMemory (readPump s h fuel) := by
  induction fuel generalizing s with
  | zero => exact hs
  | succ fuel ih =>
    unfold readPump
    dsimp only
    split
    · exact hs
    · with_reducible exact .ite hs (ih hs.update.tx)

protected theorem CanonicalMemory.dmaBurst (hs : CanonicalMemory s) : CanonicalMemory (dmaBurst s ch) := by
  unfold dmaBurst
  dsimp only
  split
  · with_reducible exact hs.dmaEnd
  · with_reducible
      refine .ite hs.dmaEnd (.ite hs.dmaEnd (.ite hs.dmaEnd (.ite
        hs.updDma.dmaEnd
        (.ite (.ite hs.updDma.update.readPump hs.updDma.updDma) ?_))))
    split
    · with_reducible exact hs.updDma.hawsReads
    · with_reducible exact hs.updDma

protected theorem CanonicalMemory.dmaGrant (hs : CanonicalMemory s) : CanonicalMemory (dmaGrant s ag fuel) := by
  induction fuel generalizing s with
  | zero => exact hs
  | succ fuel ih =>
    unfold dmaGrant
    dsimp only
    with_reducible refine .ite hs ?_
    split
    · exact hs
    · with_reducible exact ih hs.update.updDma.dmaBurst

protected theorem CanonicalMemory.dmaBegin (hs : CanonicalMemory s) : CanonicalMemory (dmaBegin s ch) := hs.updDma.dmaGrant
protected theorem CanonicalMemory.dmaRelease (hs : CanonicalMemory s) : CanonicalMemory (dmaRelease s ch) := hs.updDma.dmaGrant

protected theorem CanonicalMemory.dmaBusError (hs : CanonicalMemory s) : CanonicalMemory (dmaBusError s ch) := by
  unfold dmaBusError
  with_reducible refine .ite hs.dmaEnd ?_
  split
  · with_reducible exact hs.dmaEnd
  · with_reducible exact hs.updDma

protected theorem CanonicalMemory.dmaAfter (hs : CanonicalMemory s) : CanonicalMemory (dmaAfter s ch n) := by
  unfold dmaAfter
  dsimp only
  with_reducible refine .ite hs.updDma.dmaBegin ?_
  split
  · with_reducible exact .dmaEnd (.ite hs.updDma.dmaFlag hs.updDma)
  · with_reducible exact .ite (.dmaEnd (.ite hs.updDma.dmaFlag hs.updDma)) (.updDma (.ite hs.updDma.dmaFlag hs.updDma))

protected theorem CanonicalMemory.devWords (hs : CanonicalMemory s) : CanonicalMemory (devWords s ch a n).2.2 := hs.agentWords

protected theorem CanonicalMemory.devWrite {l : List TWord} (hs : CanonicalMemory s) : CanonicalMemory (devWrite s ch a l) :=
  hs.agentWriteWords

protected theorem CanonicalMemory.hawsWrites {l : List TWord} (hs : CanonicalMemory s) : CanonicalMemory (hawsWrites s ch k a l) := by
  unfold hawsWrites
  dsimp only
  with_reducible refine hs.foldS fun _ _ hx => ?_
  split
  · with_reducible exact (hx.hawsSend ‹_›).updDma
  · with_reducible exact hx.recordUnmapped.updDma

protected theorem CanonicalMemory.dmaWrite {l : List TWord} (hs : CanonicalMemory s) : CanonicalMemory (dmaWrite s ch n l) := by
  unfold dmaWrite
  with_reducible refine .ite (.ite hs.dmaEnd (.ite hs.dmaBusError hs.postWords.dmaAfter)) ?_
  split
  · with_reducible exact hs.devWrite.dmaAfter
  · with_reducible exact hs.updDma.hawsWrites
  · with_reducible exact hs.devRecord.dmaEnd
  · with_reducible exact hs.devRecord.dmaBusError

protected theorem CanonicalMemory.dmaWork (hs : CanonicalMemory s) : CanonicalMemory (dmaWork s ch) := by
  unfold dmaWork
  with_reducible refine .ite hs (.ite ?_ (.ite hs (.ite hs.dmaEnd (.ite hs.dmaBusError (.ite hs.dmaAfter (.ite ?_ ?_))))))
  · split
    · with_reducible exact .ite hs hs.dmaEnd
    · exact hs
  · split
    · with_reducible exact hs.dmaWrite
    · split
      · with_reducible exact hs.dmaEnd
      · with_reducible exact hs.dmaBusError
  · split
    · with_reducible exact .ite hs.devWords.dmaEnd hs.devWords.dmaWrite
    · with_reducible exact hs.dmaWrite
    · with_reducible exact hs.devRecord.dmaEnd
    · with_reducible exact hs.devRecord.dmaBusError

protected theorem CanonicalMemory.dmaBoundary (hs : CanonicalMemory s) : CanonicalMemory (dmaBoundary s ch) :=
  .ite hs.dmaWork.dmaGrant (.ite hs.dmaWork.dmaRelease hs.dmaWork)

protected theorem CanonicalMemory.execDmaRetry {ch : BitVec 8} (hs : CanonicalMemory s) : NextCanonical (execDmaRetry ch s) := by
  unfold execDmaRetry
  with_reducible refine .next ?_
  split
  · with_reducible exact .ite (.ite hs.txClear.dmaBegin hs.updDma) hs
  · exact hs

protected theorem CanonicalMemory.descTake {l : List TWord} (hs : CanonicalMemory s) : CanonicalMemory (descTake s ch l) :=
  .ite hs.dmaEnd hs.updDma.dmaBegin

protected theorem CanonicalMemory.descFetch (hs : CanonicalMemory s) : CanonicalMemory (descFetch s ch) := by
  unfold descFetch
  with_reducible refine .ite hs ?_
  split
  · with_reducible exact hs.dmaEnd
  · with_reducible refine .ite hs.dmaBusError ?_
    split
    · with_reducible exact .ite hs.devWords.dmaEnd hs.devWords.descTake
    · with_reducible exact .ite hs.descTake hs.hawsReads
    · with_reducible exact hs.devRecord.dmaEnd
    · with_reducible exact hs.devRecord.dmaBusError

protected theorem CanonicalMemory.execHostCompletion {h : BitVec 1} {ch : BitVec 8} {status : BitVec 3} (hs : CanonicalMemory s) :
    NextCanonical (execHostCompletion h ch status ep ecrcOk data hdr0 hdr1 s) := by
  unfold execHostCompletion
  with_reducible refine .next (.ite hs.hostError ?_)
  split
  · exact hs
  · with_reducible
      exact .ite hs.update.updDma.readPump (.ite
        (.readPump (.updDma (.ite hs.hostError hs)))
        (.readPump (.updDma (.update (.ite hs.hostError hs)))))

protected theorem CanonicalMemory.execCompletionTimeout {h : BitVec 1} {n : BitVec 12} {q : BitVec 2} (hs : CanonicalMemory s) :
    NextCanonical (execCompletionTimeout h sq n q hdr0 hdr1 s) := by
  unfold execCompletionTimeout
  with_reducible refine .next (.ite hs (.ite (.ite hs.hostError.updQp hs) ?_))
  split
  · exact hs
  · with_reducible exact hs.update.hostError.updDma.readPump

protected theorem CanonicalMemory.dmaGo (hs : CanonicalMemory s) : CanonicalMemory (dmaGo s ch) := .ite hs.alm (.ite hs.dmaStart hs)

protected theorem CanonicalMemory.dmaResume (hs : CanonicalMemory s) : CanonicalMemory (dmaResume s ch) :=
  .ite hs (.ite hs.alm (.ite hs (.ite hs.updDma.dmaBegin hs.updDma)))

protected theorem CanonicalMemory.dmaAbort (hs : CanonicalMemory s) : CanonicalMemory (dmaAbort s ch) :=
  .ite hs.updDma (.ite hs.updDma hs.dmaEnd)

protected theorem CanonicalMemory.chCtl (hs : CanonicalMemory s) : CanonicalMemory (chCtl s who ch v) :=
  .ite hs.refuseReg (.ite
    (.dmaGo (.ite (.dmaResume (.ite hs.dmaAbort hs)) (.ite hs.dmaAbort hs)))
    (.ite (.dmaResume (.ite hs.dmaAbort hs)) (.ite hs.dmaAbort hs)))

protected theorem CanonicalMemory.execSlotStart {p : BitVec 4} {i : BitVec 12} (hs : CanonicalMemory s) :
    NextCanonical (execSlotStart p i s) := by
  unfold execSlotStart
  with_reducible refine .next ?_
  split
  · exact hs
  · with_reducible exact .ite hs.slotActed.dmaStart (.ite hs.slotActed.alm hs.slotActed.alm)

end

/-! ### Scalar and vector arithmetic on binary64 and vector integers (R99, R142, R157, R158). -/

section
variable {s : State} {rounds reserved unary negP negC : Bool} {gd ga gb gc : BitVec 6} {vd vb vc : BitVec 5} {t fn : Nat} {w : IWord} {srcs
  : List (Nat × TWord)}

protected theorem CanonicalMemory.fpCheck {a : Act} (hs : CanonicalMemory s) (h : fpCheck s t w rounds reserved srcs = some a) :
    ActCanonical a := by
  unfold fpCheck at h
  split at h
  · exact Option.some.inj h ▸ .trap hs
  · split at h
    · exact Option.some.inj h ▸ .trap hs
    · split at h
      · exact Option.some.inj h ▸ .trap hs
      · nomatch h

protected theorem CanonicalMemory.fpOp {f : Nat → Word → Word → Word × Word} {t : BitVec 10} (hs : CanonicalMemory s) :
    NextCanonical (fpOp fn rounds unary f t gd ga gb s) := by
  unfold fpOp
  dsimp only
  with_reducible refine .next (hs.runInstr fun _ hx => ?_)
  split
  · with_reducible exact hx.fpCheck ‹_›
  · with_reducible exact .ite (.trap hx.shadowOk) (.done hx.shadowOk.accrue.wg)

protected theorem CanonicalMemory.fmaOp {t : BitVec 10} (hs : CanonicalMemory s) : NextCanonical (fmaOp fn negP negC t gd ga gb gc s) := by
  unfold fmaOp
  dsimp only
  with_reducible refine .next (hs.runInstr fun _ hx => ?_)
  split
  · with_reducible exact hx.fpCheck ‹_›
  · with_reducible exact .ite (.trap hx.shadowOk) (.done hx.shadowOk.accrue.wg)

protected theorem CanonicalMemory.vecCheck {srcs : List (Nat × List TWord)} {a : Act} (hs : CanonicalMemory s)
    (h : vecCheck s t w rounds reserved srcs = some a) :
    ActCanonical a := by
  unfold vecCheck at h
  split at h
  · exact Option.some.inj h ▸ .trap hs
  · split at h
    · exact Option.some.inj h ▸ .trap hs
    · split at h
      · exact Option.some.inj h ▸ .trap hs
      · nomatch h

protected theorem CanonicalMemory.vecResidue {f : Word → Word → Word} {pred : TWord → TWord → Byte} {t : BitVec 10} {va : BitVec 5}
    (hs : CanonicalMemory s) :
    NextCanonical (vecResidue fn f pred t vd va vb vc s) := by
  unfold vecResidue
  dsimp only
  with_reducible refine .next (hs.runInstr fun _ hx => ?_)
  split
  · with_reducible exact hx.vecCheck ‹_›
  · with_reducible refine .ite (.done (.wvAll ?_)) (.trap ?_)
    · split
      · with_reducible exact hx.residueOk
      · exact hx
    · split
      · with_reducible exact hx.residueOk
      · exact hx

protected theorem CanonicalMemory.vecShadow {f : Nat → Word → Word → Word × Word} {t : BitVec 10} {va : BitVec 5} (hs : CanonicalMemory s) :
    NextCanonical (vecShadow fn rounds f t vd va vb vc s) := by
  unfold vecShadow
  dsimp only
  with_reducible refine .next (hs.runInstr fun _ hx => ?_)
  split
  · with_reducible exact hx.vecCheck ‹_›
  · with_reducible exact .ite (.trap hx.shadowOk) (.done hx.shadowOk.accrue.wvAll)

protected theorem CanonicalMemory.vfmaOp {t : BitVec 10} {va : BitVec 5} (hs : CanonicalMemory s) :
    NextCanonical (vfmaOp fn negP negC t vd va vb vc s) := by
  unfold vfmaOp
  dsimp only
  with_reducible refine .next (hs.runInstr fun _ hx => ?_)
  split
  · with_reducible exact hx.vecCheck ‹_›
  · with_reducible exact .ite (.trap hx.shadowOk) (.done hx.shadowOk.accrue.wvAll)

protected theorem CanonicalMemory.vgMove {x : TWord} {write : State → State} (hs : CanonicalMemory s)
    (hf : ∀ s, CanonicalMemory s → CanonicalMemory (write s)) :
    ActCanonical (vgMove w reserved t x write s) :=
  .ite (.trap hs) (.ite (.trap hs) (.ite (.done (hf _ (.ite_snd hs hs.residueOk))) (.trap (.ite_snd hs hs.residueOk))))

protected theorem CanonicalMemory.execTallyGen {t : BitVec 10} (hs : CanonicalMemory s) : NextCanonical (execTallyGen t gd ga gb s) :=
  .next (hs.runInstr fun _ hx => .ite (.trap hx) (.ite (.trap hx) (.ite (.done hx.shadowOk.wg) (.trap hx.shadowOk))))

end

/-! ### Tenant slices (ch. 17): binding, grants, windows, queue pairs, commands, quiesce and reset; and the release of splice-able blocks
(R374, R376), which an unbind begins. -/

section
variable {s s' : State} {h g b nextKind nextNo n code q fuel op p addr tail head : Nat} {v hdr0 hdr1 : Word} {ep genFail : Bool} {who :
  Requester} {data : List (BitVec 64)} {pasid : Option Nat}

protected theorem CanonicalMemory.evictAgent (hs : CanonicalMemory s) : CanonicalMemory (evictAgent s h) :=
  hs.foldS fun _ _ hx => hx.agentDrop.sendMsg

protected theorem CanonicalMemory.groupReset (hs : CanonicalMemory s) : CanonicalMemory (groupReset s g) :=
  .update (hs.foldS fun _ _ hx => hx.irqClear.mgmtSet.bowlSet.setR.setR.setR.updDma)

protected theorem CanonicalMemory.vigilReset (hs : CanonicalMemory s) : CanonicalMemory (vigilReset s) :=
  hs.update.setR.setR.setR.setR.setR.setR.setR.foldS fun _ _ hx => hx.setR.setR

protected theorem CanonicalMemory.svcBankReset (hs : CanonicalMemory s) : CanonicalMemory (svcBankReset s who) :=
  .update (hs.setB.foldS fun _ _ hx => hx.setB)

protected theorem CanonicalMemory.managerReset (hs : CanonicalMemory s) : CanonicalMemory (managerReset s h) :=
  hs.setR.setR.msixDeassert.msixDeassert.msixDeassert.svcBankReset

protected theorem CanonicalMemory.blockReset (hs : CanonicalMemory s) : CanonicalMemory (blockReset s b) := by
  unfold blockReset
  with_reducible refine .ite (.setR ?_) (.ite (.groupReset ?_) (.ite (.hawsSpliceReset ?_) (.ite (.vigilReset ?_) (.managerReset ?_))))
  · split
    · with_reducible exact hs.evictAgent
    · exact hs
  · split
    · with_reducible exact hs.evictAgent
    · exact hs
  · split
    · with_reducible exact hs.evictAgent
    · exact hs
  · split
    · with_reducible exact hs.evictAgent
    · exact hs
  · split
    · with_reducible exact hs.evictAgent
    · exact hs

protected theorem CanonicalMemory.ownerChanged (hs : CanonicalMemory s) : CanonicalMemory (ownerChanged s b) :=
  .ite hs.manifestRebuild (.ite hs.hawsRetrain hs)

protected theorem CanonicalMemory.releaseEnd (hs : CanonicalMemory s) : CanonicalMemory (releaseEnd s b) := hs.updR.updSplice.ownerChanged

protected theorem CanonicalMemory.drainStart (hs : CanonicalMemory s) : CanonicalMemory (drainStart s b) :=
  .ite (hs.foldS fun _ _ hx => .ite hx.dmaAbort hx) hs

protected theorem CanonicalMemory.releaseBegin (hs : CanonicalMemory s) : CanonicalMemory (releaseBegin s b nextKind nextNo) :=
  .ite hs.mgmtSet.bowlSet.updSplice.updR.blockReset.releaseEnd hs.mgmtSet.bowlSet.updSplice.updR.drainStart

protected theorem CanonicalMemory.revokeBlock (hs : CanonicalMemory s) : CanonicalMemory (revokeBlock s b) := hs.alm.releaseBegin
protected theorem CanonicalMemory.sliceRefuse (hs : CanonicalMemory s) : CanonicalMemory (sliceRefuse s n code) := hs.frame

protected theorem CanonicalMemory.pageReset (hs : CanonicalMemory s) : CanonicalMemory (pageReset s n) := by
  unfold pageReset
  with_reducible exact .updTenant (hs.msixDeassert.foldS fun _ _ hx => hx.setR.setR.setR.setR.setR)

protected theorem CanonicalMemory.sliceUnbind (hs : CanonicalMemory s) : CanonicalMemory (sliceUnbind s n) :=
  hs.pageReset.setR.setR.setR.updR.foldS fun _ _ hx => .ite hx.revokeBlock hx

protected theorem CanonicalMemory.bindWrite (hs : CanonicalMemory s) : CanonicalMemory (bindWrite s who n v) :=
  .ite hs.refuseReg (.ite (.ite hs.sliceRefuse hs.setR.updR) (.ite
    hs.setR.sliceRefuse
    (.ite hs.refuseReg (.ite hs.sliceRefuse hs.sliceUnbind))))

protected theorem CanonicalMemory.grantWrite (hs : CanonicalMemory s) : CanonicalMemory (grantWrite s who n v) := by
  unfold grantWrite
  with_reducible refine .ite hs.refuseReg ?_
  split
  · with_reducible exact hs.sliceRefuse
  · with_reducible exact .ite hs.sliceRefuse hs.setR.sliceRefuse

protected theorem CanonicalMemory.winWrite (hs : CanonicalMemory s) : CanonicalMemory (winWrite s who n v) := by
  unfold winWrite
  split
  · with_reducible exact hs.refuseReg
  · with_reducible exact .ite hs.refuseReg (.ite hs.setR hs.alm)

protected theorem CanonicalMemory.postWrite (hs : CanonicalMemory s) : CanonicalMemory (postWrite s who n v) := by
  unfold postWrite
  split
  · with_reducible exact hs.refuseReg
  · with_reducible exact .ite hs.refuseReg hs.qpPost

protected theorem CanonicalMemory.qpBegin (hs : CanonicalMemory s) : CanonicalMemory (qpBegin s n q fuel) := by
  induction fuel generalizing s with
  | zero => exact hs
  | succ fuel ih =>
    unfold qpBegin
    dsimp only
    split
    · exact hs
    · with_reducible refine .ite hs ?_
      split
      · with_reducible exact ih hs.updQp.updQp
      · with_reducible exact ih hs.updQp.qpComplete

protected theorem CanonicalMemory.execSqFetch {n : BitVec 12} {q : BitVec 2} {status : BitVec 3} (hs : CanonicalMemory s) :
    NextCanonical (execSqFetch n q status ep data hdr0 hdr1 s) :=
  .ite .fault (.next (.ite hs.txClear (.ite
    hs.txClear.tx.update.updQp
    (.qpBegin (.updQp (.ite hs.txClear.tx.update.hostError hs.txClear.tx.update))))))

protected theorem CanonicalMemory.copyStart (hs : CanonicalMemory s) : CanonicalMemory (copyStart s n q op) := by
  unfold copyStart
  split
  · with_reducible exact hs.updQp.updDma.dmaBegin
  · exact hs

protected theorem CanonicalMemory.pointCmd {c : SqCmd} (hs : CanonicalMemory s) (h : pointCmd s n q op = some (c, s')) :
    CanonicalMemory s' := by
  unfold pointCmd at h
  split at h
  · split at h
    · obtain ⟨-, rfl⟩ := Prod.mk.inj (Option.some.inj h)
      exact hs.updQp
    · nomatch h
  · nomatch h

protected theorem CanonicalMemory.readPoints (hs : CanonicalMemory s) : CanonicalMemory (readPoints s p n).2 := by
  induction n with
  | zero => exact hs
  | succ n ih =>
    unfold readPoints
    dsimp only
    with_reducible exact ih.ptUnitRead

protected theorem CanonicalMemory.postBursts {l : List TWord} (hs : CanonicalMemory s) :
    CanonicalMemory (postBursts s h pasid addr l fuel).2 := by
  induction fuel generalizing s addr l with
  | zero => exact hs
  | succ fuel ih =>
    unfold postBursts
    split
    · exact hs
    · exact hs
    · obtain rfl := Nat.succ.inj ‹_›
      dsimp only
      with_reducible exact .ite_snd hs (ih hs.postWords)

protected theorem CanonicalMemory.execPsRead {n : BitVec 12} {q : BitVec 2} (hs : CanonicalMemory s) :
    NextCanonical (execPsRead n q s) := by
  unfold execPsRead
  with_reducible refine .next (.ite hs.txClear ?_)
  split
  · with_reducible exact hs.txClear
  · have h1 := hs.txClear.pointCmd ‹_›
    with_reducible exact .ite h1.readPoints.qpComplete h1.readPoints.postBursts.qpComplete

protected theorem CanonicalMemory.execPsWrite {n : BitVec 12} {q : BitVec 2} (hs : CanonicalMemory s) :
    NextCanonical (execPsWrite n q genFail s) := by
  unfold execPsWrite
  with_reducible refine .next ?_
  split
  · with_reducible exact hs.txClear
  · with_reducible exact (hs.txClear.pointCmd ‹_›).ptReach.ptSettle.engCount.ptCheck.ptWrite.qpComplete

protected theorem CanonicalMemory.execPsCw {n : BitVec 12} {q : BitVec 2} (hs : CanonicalMemory s) :
    NextCanonical (execPsCw n q genFail s) := by
  unfold execPsCw
  with_reducible refine .next ?_
  split
  · with_reducible exact hs.txClear
  · have h1 := hs.txClear.pointCmd ‹_›
    with_reducible
      exact .ite
        h1.ptReach.ptSettle.engCount.ptCheck.qpComplete
        (.qpComplete (.ite h1.ptReach.ptSettle.engCount.ptCheck.ptWrite h1.ptReach.ptSettle.engCount.ptCheck))

protected theorem CanonicalMemory.sqTail (hs : CanonicalMemory s) : CanonicalMemory (sqTail s n q tail) :=
  .ite (.ite hs hs.updTenant.alm) (.ite hs.alm hs.setR)

protected theorem CanonicalMemory.cqHead (hs : CanonicalMemory s) : CanonicalMemory (cqHead s n q head) := .ite hs hs.setR.sliceMsix.qpBegin

protected theorem CanonicalMemory.qpResume (hs : CanonicalMemory s) : CanonicalMemory (qpResume s n q) :=
  .qpBegin (hs.updQp.cqPump.foldS fun _ _ hx => .ite hx.dmaResume hx)

protected theorem CanonicalMemory.qpAbort (hs : CanonicalMemory s) : CanonicalMemory (qpAbort s n q) :=
  .foldS (hs.updQp.foldS fun _ _ hx => hx.qpComplete) fun _ _ hx => hx.dmaAbort

protected theorem CanonicalMemory.qpCtl (hs : CanonicalMemory s) : CanonicalMemory (qpCtl s n q v) :=
  .ite (.qpResume (.ite hs.qpAbort hs)) (.ite hs.qpAbort hs)

protected theorem CanonicalMemory.sliceQuiesce (hs : CanonicalMemory s) : CanonicalMemory (sliceQuiesce s n) := by
  unfold sliceQuiesce
  with_reducible refine .foldS (hs.updTenant.foldS fun _ _ hx => hx.updQp.foldS fun _ _ hy => hy.qpComplete) fun _ _ hx => ?_
  split
  · with_reducible exact .ite hx (.ite hx.dmaEnd hx.updDma)
  · exact hx

protected theorem CanonicalMemory.sliceQuiesced (hs : CanonicalMemory s) : CanonicalMemory (sliceQuiesced s n) :=
  .ite
    (.mgrEvent (.updR (.updTenant (hs.foldS fun _ _ hx => hx.cqPump.updQp))))
    (.updR (.updTenant (hs.foldS fun _ _ hx => hx.cqPump.updQp)))

protected theorem CanonicalMemory.sliceCut (hs : CanonicalMemory s) : CanonicalMemory (sliceCut s n) :=
  .sliceUnbind (.sliceQuiesced (hs.sliceQuiesce.update.foldS fun _ _ hx => hx.dmaEnd))

protected theorem CanonicalMemory.sliceCtl (hs : CanonicalMemory s) : CanonicalMemory (sliceCtl s who n v) :=
  .ite hs.refuseReg (.ite
    (.sliceQuiesce (.updR (.ite (.ite hs.pageReset.sliceRefuse hs.sliceRefuse) hs)))
    (.ite
      (.updR (.updR (.ite (.ite hs.pageReset.sliceRefuse hs.sliceRefuse) hs)))
      (.updR (.ite (.ite hs.pageReset.sliceRefuse hs.sliceRefuse) hs))))

end

/-! ### The host ports (ch. 16): configuration space, resets, link power, the expansion ROM, DOE, and inbound requests to device memory. -/

section
variable {s : State} {h status vendor ty kind i a k : Nat} {on posted ep ecrcOk : Bool} {hdr0 hdr1 : Word} {obj : List Byte} {be : BitVec 4}
  {bytes : List (BitVec 8)} {replays : BitVec 8}

protected theorem CanonicalMemory.linkDown (hs : CanonicalMemory s) : CanonicalMemory (linkDown s h) := .ite hs.updR.msixAssert hs

protected theorem CanonicalMemory.holdPort (hs : CanonicalMemory s) : CanonicalMemory (holdPort s h status) :=
  hs.update.foldS fun _ _ hx => .ite hx.updDma hx

protected theorem CanonicalMemory.upstreamBack (hs : CanonicalMemory s) : CanonicalMemory (upstreamBack s h) :=
  .ite (hs.msixUnblock.foldS fun _ _ hx => hx.foldS fun _ _ hy => hy.cqPump) hs

protected theorem CanonicalMemory.setBme (hs : CanonicalMemory s) : CanonicalMemory (setBme s h on) :=
  .ite hs.updR.updHost.holdPort (.ite hs.updR.updHost.upstreamBack hs.updR.updHost)

protected theorem CanonicalMemory.setDstate {d : Nat} (hs : CanonicalMemory s) : CanonicalMemory (setDstate s h d) :=
  .ite hs.updR.holdPort (.ite hs.updR.upstreamBack hs.updR)

protected theorem CanonicalMemory.doeAbort (hs : CanonicalMemory s) : CanonicalMemory (doeAbort s h) := hs.frame

protected theorem CanonicalMemory.doeTake (hs : CanonicalMemory s) : CanonicalMemory (doeTake s h vendor ty obj) :=
  .ite hs (.ite hs.updHost (.ite hs.updHost hs.updHost))

protected theorem CanonicalMemory.portReset (hs : CanonicalMemory s) : CanonicalMemory (portReset s h kind) :=
  .foldS
    (.foldS (.update (.doeAbort (.updR (.updHost (.ite hs hs.linkDown))))) fun _ _ hx => .ite hx.updDma hx)
    fun _ _ hx => .ite hx hx.sliceQuiesce

protected theorem CanonicalMemory.portItems (hs : CanonicalMemory s) : CanonicalMemory (portItems s h) :=
  .svcBankReset (.msixDeassert (.setR (.setR (.updHost (.updR (hs.foldS fun _ _ hx => hx.sliceQuiesced.sliceUnbind))))))

protected theorem CanonicalMemory.doeGo (hs : CanonicalMemory s) : CanonicalMemory (doeGo s h) := .ite hs hs.doeTake

protected theorem CanonicalMemory.cfgWrite {v : Nat} (hs : CanonicalMemory s) : CanonicalMemory (cfgWrite s h i be v) := by
  unfold cfgWrite
  split
  · with_reducible exact .ite hs.updHost.updR hs.updHost.updR.setBme
  · with_reducible exact .ite hs.setDstate hs
  · with_reducible exact .ite hs.updHost.portReset hs.updHost
  · with_reducible exact hs.updHost.msixUnblock
  · with_reducible exact hs.updHost
  · with_reducible exact hs.updHost
  · with_reducible exact .ite hs.doeAbort (.ite hs.doeGo hs)
  · with_reducible exact .ite hs hs.updHost
  · with_reducible exact hs.updHost
  · with_reducible exact hs.updHost

protected theorem CanonicalMemory.unsupported (hs : CanonicalMemory s) : CanonicalMemory (unsupported s h posted hdr0 hdr1) :=
  .ite hs.hostError hs.hostError.tx

protected theorem CanonicalMemory.hostDenied (hs : CanonicalMemory s) : CanonicalMemory (hostDenied s h a hdr0 hdr1) :=
  hs.unitWorldRefusal.hostError

protected theorem CanonicalMemory.lcrcErrors (hs : CanonicalMemory s) : CanonicalMemory (lcrcErrors s h k hdr0 hdr1) :=
  hs.foldS fun _ _ hx => hx.hostError

protected theorem CanonicalMemory.execHostMemoryWrite {h : BitVec 1} {addr : Word} (hs : CanonicalMemory s) :
    NextCanonical (execHostMemoryWrite h addr bytes ep ecrcOk replays hdr0 hdr1 s) := by
  unfold execHostMemoryWrite
  extract_lets n a s1 s2 s3
  have h2 : CanonicalMemory s2 := hs.txClear.linkWake.lcrcErrors
  have h3 : CanonicalMemory s3 := .ite h2.hostError h2
  exact .next (.ite hs.txClear (.ite h2 (.ite h2.hostError (.ite h2.unsupported
    (.ite h3.hostDenied (.ite h3.recordUnmapped.unsupported h3.agentWriteBytes))))))

protected theorem CanonicalMemory.execHostMemoryRead {h : BitVec 1} {addr : Word} {len : BitVec 13} (hs : CanonicalMemory s) :
    NextCanonical (execHostMemoryRead h addr len ecrcOk hdr0 hdr1 s) :=
  .next (.ite hs.txClear (.ite hs.txClear.linkWake.hostError (.ite
    hs.txClear.linkWake.unsupported
    (.ite hs.txClear.linkWake.hostDenied.tx (.ite
      hs.txClear.linkWake.recordUnmapped.unsupported
      (.tx (.ite hs.txClear.linkWake.agentBytes.alm hs.txClear.linkWake.agentBytes)))))))

end

/-! ### Commands of the memory controllers: reads and writes of lines, page-code transfers, initialisation, scrub, calibration windows and
the checker tests (R259–R280). -/

section
variable {s s' : State} {m line page ch k c len : Nat} {ue hold fail ok : Bool} {d : Line} {j : PcJob} {ln : BitVec 2} {v : Word} {who :
  Requester}

protected theorem CanonicalMemory.takePc {f : PcMsg → Bool} {m : PcMsg} (hs : CanonicalMemory s) (h : takePc s f = some (m, s')) :
    CanonicalMemory s' := by
  unfold takePc at h
  split at h
  · obtain ⟨-, rfl⟩ := Prod.mk.inj (Option.some.inj h)
    exact hs.update.ejectPkt.creditDone
  · nomatch h

protected theorem CanonicalMemory.memAnswer {m : Msg} (hs : CanonicalMemory s) : CanonicalMemory (memAnswer s m d ue) :=
  hs.sendMsg.creditDone

protected theorem CanonicalMemory.pairKeep (hs : CanonicalMemory s) : CanonicalMemory (pairKeep s m line) := by
  unfold pairKeep
  dsimp only
  split
  · with_reducible exact (hs.readDecode.snd_snd_of_eq ‹_›).updChan
  · with_reducible exact hs.readDecode.snd_snd_of_eq ‹_›

protected theorem CanonicalMemory.memRead {m : Msg} (hs : CanonicalMemory s) : CanonicalMemory (memRead s m) := by
  unfold memRead
  dsimp only
  split
  · with_reducible exact hs.memAnswer
  · with_reducible exact hs.memAnswer
  · split
    · with_reducible exact hs.pairKeep.readDecode.memAnswer
    · with_reducible exact hs.pairKeep.readDecode.updChan.sendPc

protected theorem CanonicalMemory.memWrite {m : Msg} (hs : CanonicalMemory s) : CanonicalMemory (memWrite s m) :=
  .ite hs.updChan hs.ctlWrite.sendMsg.creditDone

protected theorem CanonicalMemory.memAct {m : Msg} (hs : CanonicalMemory s) : CanonicalMemory (memAct s m) := .ite hs.memRead hs.memWrite

protected theorem CanonicalMemory.memRequest {m : Msg} (hs : CanonicalMemory s) : CanonicalMemory (memRequest s m) :=
  .ite hs.updChan hs.memAct

protected theorem CanonicalMemory.execPcNote {src : BitVec 4} {page : BitVec 26} (hs : CanonicalMemory s) :
    NextCanonical (execPcNote src page s) := by
  unfold execPcNote
  with_reducible refine .next ?_
  split
  · with_reducible exact (hs.takePc ‹_›).masterNote
  · exact hs

protected theorem CanonicalMemory.sendGather (hs : CanonicalMemory s) : CanonicalMemory (sendGather s m page hold) :=
  hs.foldS fun _ _ hx => hx.sendPc

protected theorem CanonicalMemory.startRepair {req : Nat} (hs : CanonicalMemory s) : CanonicalMemory (startRepair s m page req) :=
  .ite hs.updChan hs.updChan.sendGather

protected theorem CanonicalMemory.repairRequest {req : Nat} (hs : CanonicalMemory s) : CanonicalMemory (repairRequest s m page req) := by
  unfold repairRequest
  dsimp only
  split
  · with_reducible exact hs.updChan
  · with_reducible exact .ite hs.sendPc hs.startRepair

protected theorem CanonicalMemory.execPcRepairRequest {src : BitVec 4} {page : BitVec 26} (hs : CanonicalMemory s) :
    NextCanonical (execPcRepairRequest src page s) := by
  unfold execPcRepairRequest
  with_reducible refine .next ?_
  split
  · with_reducible exact (hs.takePc ‹_›).repairRequest
  · exact hs

protected theorem CanonicalMemory.execPcGather {ch : BitVec 4} {page : BitVec 26} (hs : CanonicalMemory s) :
    NextCanonical (execPcGather ch page s) := by
  unfold execPcGather
  with_reducible refine .next ?_
  split
  · with_reducible exact (hs.takePc ‹_›).updChan.foldS fun _ _ hx => hx.readDecode.sendPc
  · exact hs

protected theorem CanonicalMemory.endJob (hs : CanonicalMemory s) : CanonicalMemory (endJob s m j) := by
  unfold endJob
  dsimp only
  split
  · with_reducible exact hs.updChan.updChan.repairRequest
  · with_reducible exact hs.updChan

protected theorem CanonicalMemory.releaseAll (hs : CanonicalMemory s) : CanonicalMemory (releaseAll s m j fail) :=
  .endJob (hs.foldS fun _ _ hx => hx.sendPc)

protected theorem CanonicalMemory.rebuildEnd (hs : CanonicalMemory s) : CanonicalMemory (rebuildEnd s m j) :=
  .updChan (.ite hs.updChan.rebuildPage.markStale hs.updChan.rebuildPage)

protected theorem CanonicalMemory.gatherDone (hs : CanonicalMemory s) : CanonicalMemory (gatherDone s m j) := by
  unfold gatherDone
  with_reducible refine .ite ?_ hs.rebuildEnd.endJob
  split
  · with_reducible exact hs.releaseAll
  · split
    · with_reducible exact hs.releaseAll
    · with_reducible exact hs.updChan.foldS fun _ _ hx => hx.sendPc

protected theorem CanonicalMemory.execPcData {src : BitVec 4} {page : BitVec 26} (hs : CanonicalMemory s) :
    NextCanonical (execPcData src page ln s) := by
  unfold execPcData
  with_reducible refine .next ?_
  split
  · split
    · have h1 := hs.takePc ‹_›
      with_reducible exact .ite h1.updChan.gatherDone h1.updChan
    · with_reducible exact hs.takePc ‹_›
  · exact hs

protected theorem CanonicalMemory.execPcWrite {ch : BitVec 4} {page : BitVec 26} (hs : CanonicalMemory s) :
    NextCanonical (execPcWrite ch page ln s) := by
  unfold execPcWrite
  with_reducible refine .next ?_
  split
  · with_reducible exact (hs.takePc ‹_›).putLine.rereadRow.sendPc
  · exact hs

protected theorem CanonicalMemory.execPcAck {src : BitVec 4} {page : BitVec 26} (hs : CanonicalMemory s) :
    NextCanonical (execPcAck src page s) := by
  unfold execPcAck
  with_reducible refine .next ?_
  split
  · split
    · have h1 := hs.takePc ‹_›
      with_reducible exact .ite h1.updChan.releaseAll h1.updChan
    · with_reducible exact hs.takePc ‹_›
  · exact hs

protected theorem CanonicalMemory.repairAnswer {m : Msg} (hs : CanonicalMemory s) : CanonicalMemory (repairAnswer s ch fail m) := by
  unfold repairAnswer
  with_reducible
    exact .ite hs.readDecode.noteUncorrectable.updR.alm.ctlWrite.memAnswer hs.readDecode.noteUncorrectable.updR.alm.chanBucket.memAnswer

protected theorem CanonicalMemory.execPcRelease {ch : BitVec 4} {page : BitVec 26} (hs : CanonicalMemory s) :
    NextCanonical (execPcRelease ch page s) := by
  unfold execPcRelease
  with_reducible refine .next ?_
  split
  · with_reducible exact .foldS ((hs.takePc ‹_›).updChan.foldS fun _ _ hx => hx.repairAnswer) fun _ _ hx => hx.memWrite
  · exact hs

protected theorem CanonicalMemory.degrade (hs : CanonicalMemory s) : CanonicalMemory (degrade s m) := .ite hs hs.updChan.alm

protected theorem CanonicalMemory.execBackgroundZeroing {m : BitVec 4} (hs : CanonicalMemory s) :
    NextCanonical (execBackgroundZeroing m s) := by
  unfold execBackgroundZeroing
  with_reducible refine .next ?_
  split
  · with_reducible exact hs.zeroChunk
  · exact hs

protected theorem CanonicalMemory.scrubLine (hs : CanonicalMemory s) : CanonicalMemory (scrubLine s line) := by
  unfold scrubLine
  with_reducible exact .ite hs (.ite hs.readDecode.putLine hs.readDecode.repairNow)

protected theorem CanonicalMemory.scrubCheck (hs : CanonicalMemory s) : CanonicalMemory (scrubCheck s m page k) := by
  unfold scrubCheck
  dsimp only
  with_reducible refine .ite (hs.foldS fun _ _ hx => hx.update.chanCE) ?_
  split
  · with_reducible exact .chanBucket (.alm (.updR (.putCheck (.noteUncorrectable (hs.foldS fun _ _ hx => hx.update.chanCE)))))
  · with_reducible exact .markStale (.alm (.updR (.noteUncorrectable (hs.foldS fun _ _ hx => hx.update.chanCE))))

protected theorem CanonicalMemory.execPatrolScrub {m : BitVec 4} (hs : CanonicalMemory s) : NextCanonical (execPatrolScrub m s) := by
  unfold execPatrolScrub
  with_reducible refine .next (.ite hs (.ite (.setR (.ite (.queuePage ?_) ?_)) (.setR (.ite (.queuePage ?_) ?_))))
  · split
    · with_reducible exact hs.scrubLine
    · with_reducible exact hs.scrubCheck
  · split
    · with_reducible exact hs.scrubLine
    · with_reducible exact hs.scrubCheck
  · split
    · with_reducible exact hs.scrubLine
    · with_reducible exact hs.scrubCheck
  · split
    · with_reducible exact hs.scrubLine
    · with_reducible exact hs.scrubCheck

protected theorem CanonicalMemory.mchDiagWrite (hs : CanonicalMemory s) : CanonicalMemory (mchDiagWrite s m v) :=
  .ite hs.updR.updChan hs.updR

protected theorem CanonicalMemory.patternEnd (hs : CanonicalMemory s) : CanonicalMemory (patternEnd s c ok) :=
  .ite (.updR (hs.updChan.foldS fun _ _ hx => hx.freeW.freeW.update)) (.alm (.updR (hs.updChan.foldS fun _ _ hx => hx.freeW.freeW.update)))

protected theorem CanonicalMemory.splitWrite (hs : CanonicalMemory s) : CanonicalMemory (splitWrite s who m v) := by
  unfold splitWrite
  dsimp only
  with_reducible refine .ite hs.setR (.ite hs.setR.updChan ?_)
  split
  · with_reducible exact hs.setR.updR
  · with_reducible refine .ite hs.setR.setR.setR.updR.updR ?_
    split
    · with_reducible exact .updR (.updChan (.putWord (.ite hs.setR.zeroChunk hs.setR)))
    · with_reducible exact hs.setR.update.updR

protected theorem CanonicalMemory.windowEnd (hs : CanonicalMemory s) : CanonicalMemory (windowEnd s c len) :=
  .foldS (hs.updR.updChan.foldS fun _ _ hx => hx.memAct) fun _ _ hx => hx.splitWrite

protected theorem CanonicalMemory.windowSettle (hs : CanonicalMemory s) : CanonicalMemory (windowSettle s c) := .ite hs.windowEnd hs

protected theorem CanonicalMemory.windowsSettle (hs : CanonicalMemory s) : CanonicalMemory (windowsSettle s) :=
  .ite (hs.foldS fun _ _ hx => hx.windowSettle) hs

protected theorem CanonicalMemory.memCmd {op : BitVec 6} {line : BitVec 32} (hs : CanonicalMemory s) :
    CanonicalMemory (memCmd op line s) := by
  unfold memCmd
  dsimp only
  split
  · with_reducible exact (hs.windowSettle.takeMsg ‹_›).memRequest
  · with_reducible exact hs.windowSettle

end

/-! ### Resets below the module (R459–R461): a quad, a bay, a partition, and the units of a power domain. -/

section
variable {s : State} {q o b p h k : Nat} {places : List RegPlace} {us : List Nat}

protected theorem CanonicalMemory.dropRegs (hs : CanonicalMemory s) : CanonicalMemory (dropRegs s places us) := hs.frame

protected theorem CanonicalMemory.threadsReset {f : Nat → Bool} (hs : CanonicalMemory s) : CanonicalMemory (threadsReset s f) :=
  hs.update.dropPkts

protected theorem CanonicalMemory.quadReset (hs : CanonicalMemory s) : CanonicalMemory (quadReset s q) :=
  .updQuad (.irqClear (.update (.dropRegs (.dropRegs (hs.quadEvictAll.threadsReset.foldS fun _ _ hx => hx.updThr)))))

protected theorem CanonicalMemory.setStopper {x : Stopper} (hs : CanonicalMemory s) : CanonicalMemory (stoppersStart.setStopper s o x) :=
  hs.frame

protected theorem CanonicalMemory.stoppersStart {f : Nat → Bool} (hs : CanonicalMemory s) : CanonicalMemory (stoppersStart s f) :=
  hs.foldS fun _ _ hx => hx.foldS fun _ _ hy => .ite hy.setStopper hy

protected theorem CanonicalMemory.bayReset (hs : CanonicalMemory s) : CanonicalMemory (bayReset s b) := by
  unfold bayReset
  with_reducible
    exact .stoppersStart (.update (.foldS
      (.dropRegs (.update (hs.foldS fun _ _ hx => hx.irqClear)))
      fun _ _ hx => hx.foldS fun _ _ hy => .ite hy.updPort hy))

protected theorem CanonicalMemory.partRegsReset (hs : CanonicalMemory s) : CanonicalMemory (partRegsReset s p) :=
  .irqClear (.setR (.setR (.foldS
    (hs.foldS fun _ _ hx => hx.setR.setR.setR.setR.setR.setR.irqClear)
    fun _ _ hx => hx.setR.setR.setR.irqClear)))

protected theorem CanonicalMemory.partBanksReset (hs : CanonicalMemory s) : CanonicalMemory (partBanksReset s p) := hs.frame

protected theorem CanonicalMemory.partReset (hs : CanonicalMemory s) : CanonicalMemory (partReset s p) :=
  .updPrun (.foldS (.partBanksReset (.partRegsReset (hs.foldS fun _ _ hx => .ite hx hx.dmaEnd))) fun _ _ hx => hx.quadReset)

protected theorem CanonicalMemory.hostDomReset (hs : CanonicalMemory s) : CanonicalMemory (hostDomReset s h) := hs.frame
protected theorem CanonicalMemory.hawsDomReset (hs : CanonicalMemory s) : CanonicalMemory (hawsDomReset s k) := hs.frame

protected theorem CanonicalMemory.dmaDomReset (hs : CanonicalMemory s) : CanonicalMemory (dmaDomReset s) :=
  .update (.dropRegs (.foldS (hs.foldS fun _ _ hx => hx.groupReset) fun _ _ hx => .ite hx.sliceUnbind hx))

protected theorem CanonicalMemory.domReset {d : Nat} (hs : CanonicalMemory s) : CanonicalMemory (domReset s d) :=
  .ite hs.update.threadsReset.dropRegs (.ite
    hs.dropRegs.updQuad.irqClear
    (.ite hs (.ite hs.bayReset (.ite hs.hostDomReset (.ite hs.hawsDomReset (.ite hs.dmaDomReset (.ite hs.vigilReset hs)))))))

protected theorem CanonicalMemory.domWriteback {d : Nat} (hs : CanonicalMemory s) : CanonicalMemory (domWriteback s d) :=
  .ite (hs.foldS fun _ _ hx => hx.l1dRemove) (.ite hs.quadEvictAll hs)

end

/-! ### Vigil, the built-in self-test (R465, R468–R472). -/

section
variable {s s' : State} {code mode t : Nat} {who : Requester} {ts : List Nat} {sig : Word} {sigs : List (BitVec 64)}

protected theorem CanonicalMemory.vigRefused {target : Nat} (hs : CanonicalMemory s) : CanonicalMemory (vigRefused s code target) :=
  hs.frame

protected theorem CanonicalMemory.vigReleasing (hs : CanonicalMemory s) (h : vigReleasing s = some s') : CanonicalMemory s' := by
  unfold vigReleasing at h
  split at h
  · exact Option.some.inj h ▸ hs.alm
  · nomatch h

protected theorem CanonicalMemory.vigStart (hs : CanonicalMemory s) : CanonicalMemory (vigStart s who mode) := by
  unfold vigStart
  split
  · with_reducible exact hs.vigReleasing ‹_›
  · with_reducible refine .ite (.ite hs.refuseReg.vigRefused hs.refuseReg) (.ite hs.vigRefused (.ite hs.vigRefused ?_))
    split
    · with_reducible exact hs.vigRefused
    · with_reducible exact hs.vigRefused
    · with_reducible exact hs.update.updR.foldS fun _ _ hx => hx.foldS fun _ _ hy => hy.updR

protected theorem CanonicalMemory.vigAfter (hs : CanonicalMemory s) : CanonicalMemory (vigAfter s ts) :=
  .stoppersStart (hs.update.foldS fun _ _ hx => hx.quadReset)

protected theorem CanonicalMemory.vigAbort (hs : CanonicalMemory s) : CanonicalMemory (vigAbort s) := by
  unfold vigAbort
  split
  · exact hs
  · with_reducible exact hs.updR.vigAfter

protected theorem CanonicalMemory.execVigilAbort (hs : CanonicalMemory s) : NextCanonical (execVigilAbort who s) := by
  unfold execVigilAbort
  with_reducible refine .next (hs.regCmd fun _ hx => ?_)
  split
  · with_reducible exact hx.vigReleasing ‹_›
  · with_reducible exact .ite hx.vigAbort hx.refuseReg

protected theorem CanonicalMemory.vigFence (hs : CanonicalMemory s) : CanonicalMemory (vigFence s t) :=
  .ite (.updR (hs.foldS fun _ _ hx => hx.updR)) (.ite (.updR (hs.foldS fun _ _ hx => hx.updR)) hs)

protected theorem CanonicalMemory.vigStore (hs : CanonicalMemory s) : CanonicalMemory (vigStore s t mode sig) :=
  .ite hs.setR.setR.updR (.ite hs.setR.setR.updR hs.setR.setR.updR)

protected theorem CanonicalMemory.vigStop (hs : CanonicalMemory s) : CanonicalMemory (vigStop s) := hs.alm.update

protected theorem CanonicalMemory.execVigilRunComplete (hs : CanonicalMemory s) : NextCanonical (execVigilRunComplete sigs s) := by
  unfold execVigilRunComplete
  split
  · with_reducible exact .next hs
  · with_reducible
      exact .ite .fault (.ite (.next hs) (.next (.ite
        (.vigStop (.foldS (.vigAfter (.updR (.foldS (hs.foldS fun _ _ hx => hx.vigStore) fun _ _ hx => hx.alm))) fun _ _ hx => hx.vigFence))
        (.foldS (.vigAfter (.updR (.foldS (hs.foldS fun _ _ hx => hx.vigStore) fun _ _ hx => hx.alm))) fun _ _ hx => hx.vigFence))))

end

/-! ### Power domains and clocks (R442–R451): requests, gating, sensors, throttling and trips. -/

section
variable {s : State} {st status fuel op div kind before after q : Nat} {inlet outlet vin iin pin : BitVec 16} {who : Requester} {exp :
  Option Nat} {mgmt : Bool} {dom : BitVec 9} {temps : List (BitVec 8)}

protected theorem CanonicalMemory.setDom {d : Nat} (hs : CanonicalMemory s) : CanonicalMemory (setDom s d st) := hs.frame
protected theorem CanonicalMemory.takeSnapshot (hs : CanonicalMemory s) : CanonicalMemory (takeSnapshot s) := hs.frame
protected theorem CanonicalMemory.snapshotNow (hs : CanonicalMemory s) : CanonicalMemory (snapshotNow s) := hs.frame
protected theorem CanonicalMemory.mgmtReply {l : List Byte} (hs : CanonicalMemory s) : CanonicalMemory (mgmtReply s l) := hs.frame

protected theorem CanonicalMemory.powDone {r : PowReq} (hs : CanonicalMemory s) : CanonicalMemory (powDone s r status) :=
  .ite hs.setB.updR.mgmtReply.takeSnapshot hs.setB.updR

protected theorem CanonicalMemory.powTake (hs : CanonicalMemory s) : CanonicalMemory (powTake s fuel) := by
  induction fuel generalizing s with
  | zero => exact hs
  | succ fuel ih =>
    unfold powTake
    split
    · exact hs
    · dsimp only
      with_reducible exact .ite hs (.ite (ih (.powDone (.update (.ite hs.alm hs)))) (.ite hs.update hs.update.setDom))

protected theorem CanonicalMemory.powRequest {d : Nat} (hs : CanonicalMemory s) : CanonicalMemory (powRequest s who exp d op div mgmt) :=
  .ite hs.refuseReg (.ite hs (.ite (.ite hs.setB.updR.mgmtReply.takeSnapshot hs.setB.updR) hs.setB.update.powTake))

protected theorem CanonicalMemory.offReleases {d : Nat} (hs : CanonicalMemory s) : CanonicalMemory (offReleases s d) :=
  hs.foldS fun _ _ hx => .ite hx.blockReset.releaseEnd hx

protected theorem CanonicalMemory.onPorts {d : Nat} (hs : CanonicalMemory s) : CanonicalMemory (onPorts s d) := .ite hs.hawsRetrain hs

protected theorem CanonicalMemory.powEffect {r : PowReq} (hs : CanonicalMemory s) : CanonicalMemory (powEffect s r) := by
  unfold powEffect
  with_reducible refine .updR ?_
  split
  · with_reducible exact .ite hs.domReset.setDom.onPorts hs.setDom
  · with_reducible exact hs.domWriteback.updCore.setDom.offReleases
  · with_reducible exact hs.setDom
  · with_reducible exact hs.setDom
  · with_reducible exact hs.updR

protected theorem CanonicalMemory.powComplete (hs : CanonicalMemory s) : CanonicalMemory (powComplete s) := by
  unfold powComplete
  split
  · exact hs
  · with_reducible exact .ite hs.update.powEffect.powDone.powTake hs

protected theorem CanonicalMemory.powCommand {exp : Option (BitVec 16)} {d : BitVec 9} (hs : CanonicalMemory s) :
    NextCanonical (powCommand who exp d op div s) := .ite .fault (.next (hs.regCmd fun _ hx => hx.powRequest))

protected theorem CanonicalMemory.execDomainSwitchComplete (hs : CanonicalMemory s) : NextCanonical (execDomainSwitchComplete dom s) := by
  unfold execDomainSwitchComplete
  with_reducible refine .ite .fault (.next ?_)
  split
  · with_reducible exact .ite hs (.ite hs.powComplete hs.domWriteback)
  · exact hs

protected theorem CanonicalMemory.tripBegin (hs : CanonicalMemory s) : CanonicalMemory (tripBegin s kind) :=
  .ite hs (.update (.foldS
    (.foldS
      (.vigAbort (.bowlSet (.foldS (.ite hs.update.recordAcceptOp hs.update.recordAcceptOp) fun _ _ hx => .powDone (.ite hx.setDom hx))))
      fun _ _ hx => .ite hx.updSplice.blockReset.releaseEnd hx)
    fun _ _ hx => hx.drainStart))

protected theorem CanonicalMemory.execTripDomainsOff (hs : CanonicalMemory s) : NextCanonical (execTripDomainsOff s) :=
  .next (.ite hs (.update (.foldS
    (.update (.foldS
      (.foldS (hs.recordAcceptOp.foldS fun _ _ hx => .ite hx hx.hawsDown) fun _ _ hx => hx.linkDown)
      fun _ _ hx => hx.setDom))
    fun _ _ hx => hx.updPrun)))

protected theorem CanonicalMemory.thermEvent (hs : CanonicalMemory s) : CanonicalMemory (thermEvent s before after) := .ite hs hs.update

protected theorem CanonicalMemory.execSensorSample (hs : CanonicalMemory s) :
    NextCanonical (execSensorSample temps inlet outlet vin iin pin s) := by
  unfold execSensorSample
  with_reducible refine .ite .fault (.next (.ite hs ?_))
  split; next dom hot hhot =>
  extract_lets p over' outTrip junction outC inC capC warnOk thrOk warnC thrC warn throttle state before cause s1 s2 s3 s4 pow s5 noted mgmt
      s6 s7 s8
  have h5 : CanonicalMemory s5 := .update (.updR (.updR (.updR (hs.foldS fun _ _ hx => hx.updR))))
  have h6 : CanonicalMemory s6 := .ite h5.alm.update h5
  have h7 : CanonicalMemory s7 := .ite h6.alm h6
  have h8 : CanonicalMemory s8 := h7.thermEvent
  exact .ite h8.tripBegin h8

protected theorem CanonicalMemory.setThrDiv {v : Nat} (hs : CanonicalMemory s) : CanonicalMemory (setThrDiv s q v) := hs.frame

protected theorem CanonicalMemory.execThrottleStep (hs : CanonicalMemory s) : NextCanonical (execThrottleStep s) := by
  unfold execThrottleStep
  with_reducible refine .next (.ite hs (.ite ?_ ?_))
  · split
    · with_reducible exact hs.update.setThrDiv
    · with_reducible exact .ite hs.update.alm.update hs.update
  · split
    · with_reducible exact hs.update.setThrDiv
    · exact hs

end

/-! ### Solstice, the ageing margin re-plan (R452–R455), and the management endpoint (R456, R457). -/

section
variable {s : State} {todo rest : List Nat} {inst cmd : Byte} {who : Requester} {v : Word} {need : Nat} {gen : BitVec 32} {dom : BitVec 9}
  {bytes : List (BitVec 8)}

protected theorem CanonicalMemory.setMargin {d : Nat} {m : Margin} (hs : CanonicalMemory s) : CanonicalMemory (setMargin s d m) := hs.frame
protected theorem CanonicalMemory.dayTick (hs : CanonicalMemory s) : CanonicalMemory (dayTick s) := hs.frame
protected theorem CanonicalMemory.solStart (hs : CanonicalMemory s) : CanonicalMemory (solStart s) := .ite hs hs.update
protected theorem CanonicalMemory.solNext (hs : CanonicalMemory s) : CanonicalMemory (solNext s todo) := .ite hs.update.update hs.update

protected theorem CanonicalMemory.solCmd (hs : CanonicalMemory s) : CanonicalMemory (solCmd s who v) :=
  .ite hs.refuseReg (.ite hs.solStart hs)

protected theorem CanonicalMemory.execSolsticeHold {d : BitVec 9} (hs : CanonicalMemory s) : NextCanonical (execSolsticeHold d s) := by
  unfold execSolsticeHold
  with_reducible refine .ite .fault (.next (.ite hs ?_))
  split
  · with_reducible exact hs.solNext
  · with_reducible exact .ite hs.update hs

protected theorem CanonicalMemory.solCommit {d : Nat} (hs : CanonicalMemory s) : CanonicalMemory (solCommit s d need rest) := by
  unfold solCommit
  with_reducible refine .ite hs.setMargin.solNext ?_
  split
  · with_reducible exact hs.setMargin.update.alm.solNext
  · with_reducible exact hs.setMargin.alm.solNext

protected theorem CanonicalMemory.execSolsticeMeasure {need : BitVec 8} (hs : CanonicalMemory s) :
    NextCanonical (execSolsticeMeasure need s) := by
  unfold execSolsticeMeasure
  with_reducible refine .next ?_
  split
  · with_reducible exact hs.solCommit
  · exact hs

protected theorem CanonicalMemory.execSolsticeSkip {d : BitVec 9} (hs : CanonicalMemory s) : NextCanonical (execSolsticeSkip d s) := by
  unfold execSolsticeSkip
  with_reducible refine .ite .fault (.next ?_)
  split
  · with_reducible exact .ite hs.updR.alm.solNext hs
  · exact hs

protected theorem CanonicalMemory.execGetView (hs : CanonicalMemory s) : NextCanonical (execGetView gen s) := by
  unfold execGetView
  with_reducible refine .next (.ite hs ?_)
  split
  · with_reducible exact hs.mgmtReply.takeSnapshot
  · exact hs

protected theorem CanonicalMemory.execPowerRequest {op div : BitVec 4} (hs : CanonicalMemory s) :
    NextCanonical (execPowerRequest gen op dom div s) := by
  unfold execPowerRequest
  with_reducible refine .ite .fault (.next (.ite hs ?_))
  split
  · with_reducible exact hs.powRequest
  · with_reducible exact hs.mgmtReply

protected theorem CanonicalMemory.execSolsticeStart (hs : CanonicalMemory s) : NextCanonical (execSolsticeStart gen s) := by
  unfold execSolsticeStart
  with_reducible refine .next (.ite hs ?_)
  split
  · with_reducible exact .ite hs.solStart.mgmtReply.takeSnapshot hs.mgmtReply
  · with_reducible exact hs.mgmtReply

protected theorem CanonicalMemory.mctpControl {data : List Byte} (hs : CanonicalMemory s) : CanonicalMemory (mctpControl s inst cmd data) :=
  .ite (.ite hs.update.mgmtReply hs.mgmtReply) (.ite hs.mgmtReply (.ite (.ite hs.mgmtReply hs.mgmtReply) (.ite hs.mgmtReply hs.mgmtReply)))

protected theorem CanonicalMemory.pldmMessage {ty : Byte} {data : List Byte} (hs : CanonicalMemory s) :
    CanonicalMemory (pldmMessage s inst ty cmd data) :=
  .ite hs.mgmtReply (.ite hs.mgmtReply (.ite
    (.ite hs.mgmtReply (.ite hs.mgmtReply (.ite hs.mgmtReply hs.mgmtReply)))
    (.ite (.ite hs.mgmtReply hs.mgmtReply) (.ite (.ite hs.mgmtReply hs.mgmtReply) (.ite hs.mgmtReply hs.mgmtReply)))))

protected theorem CanonicalMemory.execMctpMessage (hs : CanonicalMemory s) : NextCanonical (execMctpMessage bytes s) := by
  unfold execMctpMessage
  with_reducible refine .next ?_
  split
  · with_reducible refine .ite hs ?_
    split
    · with_reducible exact hs.mctpControl
    · with_reducible exact hs.pldmMessage
    · exact hs
  · exact hs

end

/-! ### The rigging loader: applying images (R81, R82, R86–R89, R238, R346), and the commands of RIG_CMD with the states of a partition
(R83–R85, R90, R291, R294, R365, R466). -/

section
variable {s : State} {p n at_ line l : Nat} {resume readBackOk guardKnot : Bool} {id v : Word} {who : Requester} {f : State → State} {x1 :
  Option RigFail} {has : Nat → Bool} {digest : List Byte}

protected theorem CanonicalMemory.routesWrite {l : List RouteRec} (hs : CanonicalMemory s) : CanonicalMemory (routesWrite s l) := by
  unfold routesWrite
  with_reducible refine hs.foldS fun _ _ hx => ?_
  split
  · with_reducible exact hx.setR
  · exact hx

protected theorem CanonicalMemory.rigApply {g : Rig} (hs : CanonicalMemory s) : CanonicalMemory (rigApply s g) :=
  .foldS
    (.foldS
      (.updR (.foldS
        (.foldS (.foldS (hs.update.routesWrite.foldS fun _ _ hx => hx.setR) fun _ _ hx => hx.updR) fun _ _ hx => hx.setDom)
        fun _ _ hx => hx.updPrun))
      fun _ _ hx => hx.manifestRebuild)
    fun _ _ hx => hx.hawsRetrain

protected theorem CanonicalMemory.secureReady (hs : CanonicalMemory s) : CanonicalMemory (secureReady s p) :=
  hs.foldS fun _ _ hx => hx.updThr

protected theorem CanonicalMemory.enterRunning (hs : CanonicalMemory s) : CanonicalMemory (enterRunning s p resume) := by
  unfold enterRunning
  with_reducible refine .secureReady (.ite (hs.updPrun.foldS fun _ _ hx => hx.updThr) ?_)
  split
  · with_reducible exact hs.updPrun.updThr
  · with_reducible exact hs.updPrun

protected theorem CanonicalMemory.rigCommand (hs : CanonicalMemory s) (hf : ∀ s, CanonicalMemory s → CanonicalMemory (f s)) :
    CanonicalMemory (rigCommand s who f) := hs.regCmd fun _ hx => .ite (hf _ hx) hx.refuseReg

protected theorem CanonicalMemory.rigEnd (hs : CanonicalMemory s) : CanonicalMemory (rigEnd s x1) := by
  unfold rigEnd
  split
  · with_reducible exact hs.rigDone
  · with_reducible exact hs.rigDone

protected theorem CanonicalMemory.verifyOp (hs : CanonicalMemory s) : CanonicalMemory (verifyOp s) := .ite hs.cmdDone hs.rigEnd

protected theorem CanonicalMemory.rigStoreOp (hs : CanonicalMemory s) : CanonicalMemory (rigStoreOp who n readBackOk s) := by
  unfold rigStoreOp
  dsimp only
  with_reducible refine .ite hs.cmdDone (.ite hs.cmdDone ?_)
  split
  · with_reducible exact hs.rigEnd
  · with_reducible exact .ite hs.update.rigEnd hs.update.freeW.cmdDone

protected theorem CanonicalMemory.selectOp (hs : CanonicalMemory s) : CanonicalMemory (selectOp who n s) := by
  unfold selectOp
  with_reducible refine .ite hs.cmdDone (.ite hs.cmdDone ?_)
  split
  · with_reducible exact hs.rigEnd
  · with_reducible exact hs.update.rigEnd

protected theorem CanonicalMemory.startOp (hs : CanonicalMemory s) : CanonicalMemory (startOp who p s) :=
  .ite hs.cmdDone (.ite hs.cmdDone (.ite hs.cmdDone (.ite hs.cmdDone hs.enterRunning.cmdDone)))

protected theorem CanonicalMemory.drainBegin (hs : CanonicalMemory s) : CanonicalMemory (drainBegin s p at_) :=
  .foldS (hs.updPrun.foldS fun _ _ hx => hx.updThr) fun _ _ hx => .ite hx.updDma hx

protected theorem CanonicalMemory.parkOp (hs : CanonicalMemory s) : CanonicalMemory (parkOp who p s) := by
  unfold parkOp
  with_reducible refine .ite hs.cmdDone (.ite hs.cmdDone (.ite hs.cmdDone (.ite hs ?_)))
  split
  · with_reducible exact hs.updPrun
  · with_reducible exact hs.drainBegin

protected theorem CanonicalMemory.untest (hs : CanonicalMemory s) : CanonicalMemory (untest s p) := hs.frame

protected theorem CanonicalMemory.resumeOp (hs : CanonicalMemory s) : CanonicalMemory (resumeOp who p s) :=
  .ite hs.cmdDone (.ite hs.cmdDone (.ite hs.cmdDone (.ite hs.cmdDone hs.enterRunning.cmdDone)))

protected theorem CanonicalMemory.resetOp (hs : CanonicalMemory s) : CanonicalMemory (resetOp who p s) :=
  .ite hs.cmdDone (.ite hs.cmdDone (.ite hs.cmdDone hs.partReset.untest.cmdDone))

protected theorem CanonicalMemory.rewireOp (hs : CanonicalMemory s) : CanonicalMemory (rewireOp who s) := by
  unfold rewireOp
  with_reducible refine .ite hs.cmdDone ?_
  split
  · with_reducible exact hs.rigEnd
  · with_reducible refine .ite hs.rigEnd ?_
    split
    · with_reducible exact hs.rigEnd
    · with_reducible exact .ite hs.cmdDone (.ite hs.cmdDone hs.updPrun.updR.update)

protected theorem CanonicalMemory.lineFlush (hs : CanonicalMemory s) : CanonicalMemory (lineFlush s line) := by
  unfold lineFlush
  with_reducible
    exact .dropPkts (.update (.updSlice (.setLlc (.foldS (.ite hs.cohPeek.sendMsg hs.cohPeek) fun _ _ hx => hx.quadPurge.setL2.setTrack))))

protected theorem CanonicalMemory.writesSettle (hs : CanonicalMemory s) : CanonicalMemory (writesSettle s line) :=
  .dropPkts (hs.update.updChan.foldS fun _ _ hx => hx.ctlWrite)

protected theorem CanonicalMemory.homesFlush {old : List (Nat × Nat)} (hs : CanonicalMemory s) : CanonicalMemory (homesFlush s old) :=
  hs.foldS fun _ _ hx => hx.lineFlush.writesSettle

protected theorem CanonicalMemory.pointsFlush (hs : CanonicalMemory s) : CanonicalMemory (pointsFlush s) := by
  unfold pointsFlush
  with_reducible refine hs.foldS fun _ _ hx => hx.foldS fun _ _ hy => ?_
  split
  · with_reducible exact hy.setPointLine.setLlc
  · exact hy

protected theorem CanonicalMemory.pointsRewire {old : Nat → Word} (hs : CanonicalMemory s) : CanonicalMemory (pointsRewire s old) :=
  hs.foldS fun _ _ hx => .ite hx.setPointLine hx.setPointLine

protected theorem CanonicalMemory.portFresh (hs : CanonicalMemory s) : CanonicalMemory (portFresh s l) := hs.frame

protected theorem CanonicalMemory.stoppersRewire {old : PartKnots} (hs : CanonicalMemory s) :
    CanonicalMemory (stoppersRewire s p old guardKnot) :=
  .foldS (.update (hs.foldS fun _ _ hx => .ite hx hx.updStop)) fun _ _ hx => .ite hx.updStop hx.updStop

protected theorem CanonicalMemory.portsRewire {old new : List PortRec} (hs : CanonicalMemory s) : CanonicalMemory (portsRewire s old new) :=
  .foldS (.update (hs.foldS fun _ _ hx => hx.portFresh.updPort)) fun _ _ hx => .ite hx hx.portFresh.updPort

protected theorem CanonicalMemory.rewireApply {k : PartKnots} (hs : CanonicalMemory s) :
    CanonicalMemory (rewireApply s p k has id digest) := by
  unfold rewireApply
  extract_lets old fresh grid removed s1 s2 s3 s4 word6 s5 src s6 s7 s8 out s9 s10 s11 s12 s13 s14 s15
  have h1 : CanonicalMemory s1 := .ite hs.homesFlush hs
  have h2 : CanonicalMemory s2 := .ite h1 h1.partReset
  have h4 : CanonicalMemory s4 := .untest (.pointsFlush (h2.foldS fun _ _ hx => hx.quadReset))
  have h5 : CanonicalMemory s5 := h4.foldS fun s r hx => by
    split
    · exact hx.setR
    · exact hx
  have h8 : CanonicalMemory s8 := h5.update.routesWrite.pointsRewire
  have h11 : CanonicalMemory s11 := h8.update.stoppersRewire.portsRewire
  have h12 : CanonicalMemory s12 := h11.foldS fun _ _ hx => .ite hx.sliceCut hx
  have h14 : CanonicalMemory s14 := .updPrun (h12.foldS fun _ _ hx => .ite hx.setR hx)
  have h15 : CanonicalMemory s15 := by
    dsimp only [s15]
    split
    · exact .ite h14.updPrun h14
    · exact h14
  exact h15.foldS fun _ _ hx => hx.manifestRebuild

protected theorem CanonicalMemory.execRewireComplete (hs : CanonicalMemory s) : NextCanonical (execRewireComplete s) := by
  unfold execRewireComplete
  with_reducible refine .next ?_
  split
  · exact hs
  · with_reducible refine .ite hs ?_
    split
    · with_reducible exact hs.update.rewireApply.rigDone
    · exact hs

protected theorem CanonicalMemory.execRewireTimeout (hs : CanonicalMemory s) : NextCanonical (execRewireTimeout s) := by
  unfold execRewireTimeout
  with_reducible refine .next ?_
  split
  · exact hs
  · with_reducible exact .ite hs.update.updPrun.rigDone hs

protected theorem CanonicalMemory.rigCmdWrite (hs : CanonicalMemory s) : CanonicalMemory (rigCmdWrite s who v) := by
  unfold rigCmdWrite
  refine hs.rigCommand fun s hx => ?_
  generalize fieldN v 3 0 = code
  match code with
  | 1 => exact hx.verifyOp
  | 2 => exact hx.rewireOp
  | 3 => exact hx.rigStoreOp
  | 4 => exact hx.selectOp
  | 5 => exact hx.startOp
  | 6 => exact hx.parkOp
  | 7 => exact hx.resumeOp
  | 8 => exact hx.resetOp
  | 0 | _ + 9 => exact hx

end

/-! ### Service calls of Bowline (R370, R371): splice calls (R374–R378), ownership, firmware and debug (R383–R388), and the limit of a
secure call (R366). -/

section
variable {s : State} {status a b k code rb rc : Nat} {ok sigOk : Bool} {who : Requester} {f : State → State} {arg0 : Option Nat} {resp :
  List Byte}

protected theorem CanonicalMemory.svcEnd (hs : CanonicalMemory s) : CanonicalMemory (svcEnd s who status) := by
  unfold svcEnd
  split
  · with_reducible exact hs.setB.msixAssert
  · with_reducible exact hs.setB

protected theorem CanonicalMemory.svcPending (hs : CanonicalMemory s) : CanonicalMemory (svcPending s who) := hs.frame

protected theorem CanonicalMemory.svcCall (hs : CanonicalMemory s) (hf : ∀ s, CanonicalMemory s → CanonicalMemory (f s)) :
    CanonicalMemory (svcCall s who f) := hs.regCmd fun _ hx => .ite hx.refuseReg (.ite hx.setB (hf _ hx))

protected theorem CanonicalMemory.bufWrite {l : List Byte} (hs : CanonicalMemory s) : CanonicalMemory (bufWrite s a l) :=
  .ite hs.update hs.agentWriteBytes

protected theorem CanonicalMemory.acquireOp (hs : CanonicalMemory s) : CanonicalMemory (acquireOp who s) :=
  .ite hs.svcEnd (.ite hs.svcEnd (.ite hs.svcEnd hs.updR.ownerChanged.svcEnd))

protected theorem CanonicalMemory.releaseOp (hs : CanonicalMemory s) : CanonicalMemory (releaseOp who s) :=
  .ite hs.svcEnd (.ite hs.svcEnd (.ite hs.svcEnd hs.releaseBegin.svcEnd))

protected theorem CanonicalMemory.demandNotice (hs : CanonicalMemory s) : CanonicalMemory (demandNotice s b) := by
  unfold demandNotice
  dsimp only
  split
  · with_reducible exact hs.updR.irqByDest
  · with_reducible exact hs.mgmtSet
  · with_reducible exact hs.bowlSet
  · with_reducible exact hs.qpPost

protected theorem CanonicalMemory.demandOp (hs : CanonicalMemory s) : CanonicalMemory (demandOp who s) :=
  .ite hs.svcEnd (.ite hs.svcEnd (.ite hs.svcEnd (.svcEnd (.ite
    hs.updR.updSplice.demandNotice.msixAssert.manifestRebuild
    hs.updR.updSplice.demandNotice))))

protected theorem CanonicalMemory.blkCommand {b : BitVec 5} {f : Nat → State} (hf : ∀ a0, CanonicalMemory (f a0)) :
    NextCanonical (blkCommand b f) := .ite .fault (.next (hf _))

protected theorem CanonicalMemory.resetBegin (hs : CanonicalMemory s) : CanonicalMemory (resetBegin s b) := hs.updR.blockReset
protected theorem CanonicalMemory.setOwner {x : OwnerSlot} (hs : CanonicalMemory s) : CanonicalMemory (setOwner s k x) := hs.frame

protected theorem CanonicalMemory.awaitPress {p : SvcPend} (hs : CanonicalMemory s) : CanonicalMemory (awaitPress s who p code) :=
  hs.update.alm.svcPending

protected theorem CanonicalMemory.commissionOp (hs : CanonicalMemory s) : CanonicalMemory (commissionOp who s) := by
  unfold commissionOp
  with_reducible refine .ite hs.svcEnd (.ite hs.svcEnd ?_)
  split
  · with_reducible exact hs.svcEnd
  · with_reducible exact .ite hs.svcEnd (.ite hs.svcEnd hs.awaitPress)

protected theorem CanonicalMemory.revokeOwnerOp (hs : CanonicalMemory s) : CanonicalMemory (revokeOwnerOp who s) :=
  .ite hs.svcEnd (.ite hs.svcEnd (.ite hs.svcEnd (.ite hs.svcEnd hs.awaitPress)))

protected theorem CanonicalMemory.pendEnd {p : SvcPend} (hs : CanonicalMemory s) : CanonicalMemory (pendEnd s p status arg0) := by
  unfold pendEnd
  with_reducible refine .ite hs.update (.svcEnd ?_)
  split
  · with_reducible exact hs.update.setB
  · with_reducible exact hs.update

protected theorem CanonicalMemory.execPresenceTimeout (hs : CanonicalMemory s) : NextCanonical (execPresenceTimeout s) := by
  unfold execPresenceTimeout
  with_reducible refine .next ?_
  split
  · with_reducible exact hs.pendEnd
  · exact hs

protected theorem CanonicalMemory.execSlotProgrammingComplete (hs : CanonicalMemory s) :
    NextCanonical (execSlotProgrammingComplete ok s) := by
  unfold execSlotProgrammingComplete
  with_reducible refine .next ?_
  split
  · exact hs
  · with_reducible refine .ite hs.setOwner.pendEnd ?_
    split
    · with_reducible exact hs.pendEnd
    · with_reducible exact .ite hs.setOwner.pendEnd hs.setOwner.pendEnd

protected theorem CanonicalMemory.advanceOp (hs : CanonicalMemory s) : CanonicalMemory (advanceOp who s) :=
  .ite hs.svcEnd (.ite hs.svcEnd (.ite hs.svcEnd hs.update.setB.svcEnd))

protected theorem CanonicalMemory.nonceOp (hs : CanonicalMemory s) : CanonicalMemory (nonceOp who s) :=
  .ite hs.svcEnd hs.freeW.freeW.update.setB.setB.svcEnd

protected theorem CanonicalMemory.unlockOp (hs : CanonicalMemory s) : CanonicalMemory (unlockOp who s) := by
  unfold unlockOp
  with_reducible refine .ite hs.svcEnd ?_
  split
  · with_reducible exact hs.svcEnd
  · with_reducible exact .ite hs.svcEnd (.ite hs.svcEnd hs.update.alm.svcEnd)

protected theorem CanonicalMemory.fwOp (hs : CanonicalMemory s) : CanonicalMemory (fwOp who sigOk rb rc s) := by
  unfold fwOp
  with_reducible refine .ite hs.svcEnd ?_
  split
  · with_reducible exact hs.svcEnd
  · with_reducible exact hs.svcEnd
  · with_reducible exact .ite hs.svcEnd (.ite hs.svcEnd hs.update.svcPending)

protected theorem CanonicalMemory.execFwInstallComplete (hs : CanonicalMemory s) : NextCanonical (execFwInstallComplete s) := by
  unfold execFwInstallComplete
  with_reducible refine .next ?_
  split
  · exact hs
  · with_reducible exact hs.update.svcEnd

protected theorem CanonicalMemory.relayOp (hs : CanonicalMemory s) : CanonicalMemory (relayOp who resp s) := by
  unfold relayOp
  with_reducible refine .ite hs.svcEnd ?_
  split
  · with_reducible exact .ite hs.svcEnd hs.bufWrite.setB.svcEnd
  · with_reducible exact hs.svcEnd

protected theorem CanonicalMemory.execSecureCallLimit {t : BitVec 10} (hs : CanonicalMemory s) :
    NextCanonical (execSecureCallLimit t s) := by
  unfold execSecureCallLimit
  with_reducible refine .next ?_
  split
  · with_reducible exact .ite hs.alm.endSecureCall.trapNormal hs
  · exact hs

end

/-! ### Reads of registers: the value of every register with the fields that other parts of the state drive, the access rule of every block,
and the two byte-addressed windows (R2–R9, R59–R61). -/

section
variable {s : State} {v mask : Word} {who : Requester} {r : RegRef} {addr : Nat}

protected theorem CanonicalMemory.storeReg (hs : CanonicalMemory s) : CanonicalMemory (storeReg s who r v) := .ite hs.setB hs.setR

protected theorem CanonicalMemory.readReg (hs : CanonicalMemory s) : CanonicalMemory (readReg s who addr mask).2 := by
  unfold readReg
  dsimp only
  split
  · exact hs
  · with_reducible refine .ite_snd hs (.ite_snd (.ite_snd hs hs.refusalNotice) ?_)
    split
    · with_reducible exact .ite_snd hs hs.refusalNotice
    · split
      · exact hs
      · with_reducible exact .ite_snd hs.refusalNotice (.ite hs hs.storeReg)

end

/-! ### Writes of registers (R4, R7), the effects of the fields that have one, and the commands that access registers: by address, over the
mesh (R59), and through the BARs of a host port (R396, R397, R401). -/

section
variable {s : State} {n code off addr t cause a h cls src stop o : Nat} {x mask v val hdr0 hdr1 : Word} {ep write : Bool} {who : Requester}
  {r : RegRef} {f : State → State}

protected theorem CanonicalMemory.freeBytes (hs : CanonicalMemory s) : CanonicalMemory (freeBytes s n).2 := by
  induction n with
  | zero => exact hs
  | succ n ih =>
    unfold freeBytes
    dsimp only
    with_reducible exact ih.freeW

protected theorem CanonicalMemory.svcByCode (hs : CanonicalMemory s) : CanonicalMemory (svcByCode who code s) := by
  unfold svcByCode
  split
  · with_reducible exact hs.acquireOp
  · with_reducible exact hs.releaseOp
  · with_reducible exact hs.demandOp
  · with_reducible exact hs.commissionOp
  · with_reducible exact hs.revokeOwnerOp
  · with_reducible exact hs.advanceOp
  · with_reducible exact hs.nonceOp
  · with_reducible exact hs.unlockOp
  · with_reducible exact hs.freeB.freeW.freeW.fwOp
  · with_reducible exact hs.freeW.freeBytes.relayOp
  · with_reducible exact hs.svcEnd

protected theorem CanonicalMemory.plainWrite (hs : CanonicalMemory s) : CanonicalMemory (plainWrite s who r x) := hs.storeReg

protected theorem CanonicalMemory.rigWrite (hs : CanonicalMemory s) : CanonicalMemory (rigWrite s who r x mask) := by
  unfold rigWrite
  split
  · with_reducible exact .ite hs.rigCmdWrite hs
  · with_reducible exact .ite (hs.svcCall fun _ hx => hx.svcByCode) hs
  · split
    · with_reducible exact .ite hs.plainWrite.msixDeassert hs.plainWrite
    · with_reducible exact hs.plainWrite
  · with_reducible exact hs.plainWrite.irqByDest
  · with_reducible exact hs.plainWrite

protected theorem CanonicalMemory.coreRegWrite (hs : CanonicalMemory s) : CanonicalMemory (coreRegWrite s who r x mask) := by
  unfold coreRegWrite
  split
  · with_reducible exact .ite hs.bootWrite hs
  · with_reducible exact hs.coreCtlWrite
  · with_reducible exact hs.tallyInjWrite
  · with_reducible exact .ite hs.ctxidWrite hs
  · with_reducible exact hs.thstartWrite
  · with_reducible exact .ite hs.l0ctlWrite hs
  · with_reducible exact hs.plainWrite
  · with_reducible exact hs.plainWrite

protected theorem CanonicalMemory.cerrIrq (hs : CanonicalMemory s) : CanonicalMemory (cerrIrq s r) := by
  unfold cerrIrq
  split
  · with_reducible exact hs.irqByDest
  · with_reducible exact hs.irqByDest
  · with_reducible exact hs.irqByDest
  · with_reducible exact hs.irqByDest
  · exact hs

protected theorem CanonicalMemory.mchRegWrite (hs : CanonicalMemory s) : CanonicalMemory (mchRegWrite s who r x) := by
  unfold mchRegWrite
  split
  · with_reducible exact hs.plainWrite
  · with_reducible exact hs.mchDiagWrite
  · with_reducible exact hs.splitWrite
  · with_reducible exact .ite hs.plainWrite.mgmtSet hs.plainWrite
  · with_reducible exact hs.plainWrite

protected theorem CanonicalMemory.pwrRegWrite (hs : CanonicalMemory s) : CanonicalMemory (pwrRegWrite s who r x mask) := by
  unfold pwrRegWrite
  split
  · with_reducible exact hs.epochCtlWrite
  · with_reducible exact .ite hs.powRequest hs
  · with_reducible exact hs.solCmd
  · with_reducible exact hs.plainWrite

protected theorem CanonicalMemory.bayRegWrite (hs : CanonicalMemory s) : CanonicalMemory (bayRegWrite s who r x) := by
  unfold bayRegWrite
  split
  · with_reducible exact hs.plainWrite
  · with_reducible exact hs.plainWrite.portIrq
  · with_reducible exact .ite (.ite hs hs.rawTail) (.rawTail (.ite hs hs.rawTail))
  · with_reducible exact hs.rawCtl
  · with_reducible exact hs.plainWrite

protected theorem CanonicalMemory.pstRegWrite (hs : CanonicalMemory s) : CanonicalMemory (pstRegWrite s who r x) := by
  unfold pstRegWrite
  split
  · with_reducible exact hs.pstCmd
  · with_reducible exact hs.plainWrite.nqIrq
  · with_reducible exact hs.plainWrite.nqIrq
  · with_reducible exact hs.nqTail
  · with_reducible exact hs.plainWrite

protected theorem CanonicalMemory.hostRegWrite (hs : CanonicalMemory s) : CanonicalMemory (hostRegWrite s who r x) := by
  unfold hostRegWrite
  split
  · with_reducible exact hs.plainWrite
  · with_reducible exact .ite hs.plainWrite.msixDeassert hs.plainWrite
  · with_reducible exact hs.plainWrite

protected theorem CanonicalMemory.dmaRegWrite (hs : CanonicalMemory s) : CanonicalMemory (dmaRegWrite s who r x mask) := by
  unfold dmaRegWrite
  split
  · with_reducible exact hs.chCtl
  · with_reducible exact hs.plainWrite.dmaIrq
  · with_reducible
      exact .ite (.msixDeassert (.ite hs.plainWrite.msixDeassert hs.plainWrite)) (.ite hs.plainWrite.msixDeassert hs.plainWrite)
  · with_reducible exact hs.bindWrite
  · with_reducible exact hs.grantWrite
  · with_reducible exact hs.winWrite
  · with_reducible exact .ite hs.postWrite hs
  · with_reducible exact .ite hs.sliceCtl hs
  · with_reducible exact hs.plainWrite

protected theorem CanonicalMemory.pageRegWrite (hs : CanonicalMemory s) : CanonicalMemory (pageRegWrite s who r x mask) := by
  unfold pageRegWrite
  split
  · with_reducible exact .ite hs hs.plainWrite
  · with_reducible exact .ite hs hs.plainWrite
  · with_reducible exact hs.plainWrite.qpBegin.sliceMsix
  · with_reducible exact .ite hs.sqTail hs
  · with_reducible exact .ite hs.cqHead hs
  · with_reducible exact hs.qpCtl
  · with_reducible exact hs.plainWrite

protected theorem CanonicalMemory.vigRegWrite (hs : CanonicalMemory s) : CanonicalMemory (vigRegWrite s who r x) := by
  unfold vigRegWrite
  split
  · with_reducible refine .ite hs.vigStart (.ite ?_ hs)
    split
    · with_reducible exact hs.vigReleasing ‹_›
    · with_reducible exact .ite hs.vigAbort hs.refuseReg
  · with_reducible exact hs.plainWrite

protected theorem CanonicalMemory.writeEffect {b : Blk} (hs : CanonicalMemory s) : CanonicalMemory (writeEffect s who b r x mask) := by
  unfold writeEffect
  split
  · with_reducible exact hs.rigWrite
  · with_reducible exact .ite (.ite hs.ipiWrite hs) hs.coreRegWrite
  · with_reducible exact hs.plainWrite.cerrIrq
  · with_reducible exact hs.plainWrite.cerrIrq
  · with_reducible exact hs.mchRegWrite
  · with_reducible exact hs.pwrRegWrite
  · with_reducible exact hs.bayRegWrite
  · with_reducible exact hs.pstRegWrite
  · with_reducible exact hs.hostRegWrite
  · with_reducible exact hs.dmaRegWrite
  · with_reducible exact hs.pageRegWrite
  · with_reducible exact .ite (.ite hs.windowCommit hs) hs.plainWrite
  · with_reducible exact .ite (.ite hs.almSeek hs) hs.plainWrite
  · with_reducible exact hs.vigRegWrite
  · with_reducible exact hs.plainWrite
  · with_reducible exact hs.plainWrite

protected theorem CanonicalMemory.stageWrite (hs : CanonicalMemory s) : CanonicalMemory (stageWrite s off v mask) := .ite hs.update hs

protected theorem CanonicalMemory.writeReg (hs : CanonicalMemory s) : CanonicalMemory (writeReg s who addr v mask) := by
  unfold writeReg
  dsimp only
  split
  · exact hs
  · with_reducible refine .ite hs (.ite (.ite hs.stageWrite hs.refusalNotice) (.ite (.ite hs hs.refusalNotice) ?_))
    split
    · exact hs
    · with_reducible exact .ite (.ite hs hs.refusalNotice) hs.writeEffect

protected theorem CanonicalMemory.strayTrap (hs : CanonicalMemory s) : CanonicalMemory (strayTrap s t cause a) :=
  .ite (.applyAct (.trap hs)) hs

protected theorem CanonicalMemory.strayHost {x : Stray} (hs : CanonicalMemory s) : CanonicalMemory (strayHost s h a x) := by
  unfold strayHost
  dsimp only
  with_reducible refine .ite hs ?_
  split
  · with_reducible exact hs.freeW.freeW.unsupported
  · with_reducible exact hs.freeW.freeW.hostDenied
  · with_reducible exact hs.freeW.freeW.recordUnmapped.unsupported

protected theorem CanonicalMemory.strayWrite {x : Stray} (hs : CanonicalMemory s) : CanonicalMemory (strayWrite s who a x) := by
  unfold strayWrite
  split
  · split
    · with_reducible exact hs.strayTrap
    · with_reducible exact hs.threadWorldRefusal.strayTrap
    · with_reducible exact hs.threadUnmapped
  · split
    · exact hs
    · with_reducible exact hs.unitWorldRefusal
    · with_reducible exact hs.recordUnmapped
  · split
    · with_reducible exact hs.recordUnmapped
    · exact hs
  · with_reducible exact hs.strayHost
  · with_reducible exact hs.strayHost
  · with_reducible exact hs.strayHost

protected theorem CanonicalMemory.execRegisterWrite {addr : BitVec 52} (hs : CanonicalMemory s) :
    NextCanonical (execRegisterWrite who addr val s) := by
  unfold execRegisterWrite
  with_reducible refine .next ?_
  split
  · with_reducible exact hs.txClear.strayWrite
  · with_reducible exact hs.txClear.writeReg

protected theorem CanonicalMemory.regAnswer {m : RegMsg} {w : TWord} (hs : CanonicalMemory s) : CanonicalMemory (regAnswer s m w) :=
  hs.update.ejectPkt.creditDone.mkPkt.update

protected theorem CanonicalMemory.execRegRead {t : BitVec 10} (hs : CanonicalMemory s) : NextCanonical (execRegRead t s) := by
  unfold execRegRead
  with_reducible refine .next ?_
  split
  · exact hs
  · with_reducible exact hs.readReg.regAnswer

protected theorem CanonicalMemory.regDiscarded (hs : CanonicalMemory s) : CanonicalMemory (regDiscarded s cls src addr stop) := hs.alm

protected theorem CanonicalMemory.execRegWrite {t : BitVec 10} (hs : CanonicalMemory s) : NextCanonical (execRegWrite t s) := by
  unfold execRegWrite
  with_reducible refine .next ?_
  split
  · exact hs
  · with_reducible exact .regAnswer (.ite hs.txClear.regDiscarded hs.txClear.writeReg)

protected theorem CanonicalMemory.msixWrite (hs : CanonicalMemory s) : CanonicalMemory (msixWrite s h off v mask) :=
  .ite (.ite hs.setMsix hs.setMsix.msixUnblock) hs

protected theorem CanonicalMemory.barWrite (hs : CanonicalMemory s) (hf : ∀ s, CanonicalMemory s → CanonicalMemory (f s)) :
    CanonicalMemory (barWrite s h addr ep hdr0 hdr1 f) := .ite hs.hostError.regDiscarded (hf _ hs)

protected theorem CanonicalMemory.execHostBar0Access {h : BitVec 1} {off : BitVec 26} {size : BitVec 4} (hs : CanonicalMemory s) :
    NextCanonical (execHostBar0Access h write off size val ep hdr0 hdr1 s) := by
  unfold execHostBar0Access
  with_reducible refine .next (.ite hs.txClear (.ite hs.txClear.linkWake.unsupported ?_))
  split
  · with_reducible exact .ite hs.txClear.linkWake hs.txClear.linkWake.tx
  · with_reducible exact .ite (hs.txClear.linkWake.barWrite fun _ hx => hx.msixWrite) hs.txClear.linkWake.tx
  · with_reducible
      exact .ite
        hs.txClear.linkWake.recordUnmapped.unsupported
        (.ite
          (.ite hs.txClear.linkWake.hostDenied hs.txClear.linkWake.hostDenied.tx)
          (.ite (hs.txClear.linkWake.barWrite fun _ hx => hx.writeReg) hs.txClear.linkWake.readReg.tx))

protected theorem CanonicalMemory.barRefused (hs : CanonicalMemory s) : CanonicalMemory (barRefused s h n) :=
  .ite hs.updR hs.updR.updTenant.alm

protected theorem CanonicalMemory.pageWrite {h : BitVec 1} (hs : CanonicalMemory s) : CanonicalMemory (pageWrite s n h o v mask) := by
  unfold pageWrite
  split
  · with_reducible exact .ite hs hs.writeEffect
  · exact hs

protected theorem CanonicalMemory.execHostBar2Access {h : BitVec 1} {off : BitVec 28} {size : BitVec 4} {pasid : Option (BitVec 20)}
    (hs : CanonicalMemory s) :
    NextCanonical (execHostBar2Access h write off size val pasid ep hdr0 hdr1 s) :=
  .next (.ite hs.txClear (.ite
    hs.txClear.linkWake.unsupported
    (.ite
      (.ite hs.txClear.linkWake.barRefused hs.txClear.linkWake.barRefused.tx)
      (.ite (hs.txClear.linkWake.barWrite fun _ hx => hx.pageWrite) hs.txClear.linkWake.tx))))

end

/-! ### Power, pins and start-up (R19–R21, R34–R41, R277, R281, R369, R463–R467). -/

section
variable {s : State} {n m : Nat} {bankA bankB : Option (BitVec 7)} {marginOk ok : Bool} {sigs : List (BitVec 64)} {patFail : BitVec 16}

protected theorem CanonicalMemory.startBegin (hs : CanonicalMemory s) : CanonicalMemory (startBegin s) := .ite hs.update hs

protected theorem CanonicalMemory.resetTaken {ns : Nat} (hs : CanonicalMemory s) : CanonicalMemory (resetTaken ns s).2 :=
  .ite_snd hs (.ite_snd hs hs.freeB)

protected theorem CanonicalMemory.stepNext (hs : CanonicalMemory s) : CanonicalMemory (stepNext s n) := hs.frame
protected theorem CanonicalMemory.stepStop (hs : CanonicalMemory s) : CanonicalMemory (stepStop s) := hs.frame

protected theorem CanonicalMemory.execStartupBowlineImage (hs : CanonicalMemory s) :
    NextCanonical (execStartupBowlineImage bankA bankB s) := by
  unfold execStartupBowlineImage
  with_reducible refine .next (.ite hs ?_)
  split
  · with_reducible exact hs.alm.stepStop
  · with_reducible exact hs.update.alm

protected theorem CanonicalMemory.marginsLost (hs : CanonicalMemory s) : CanonicalMemory (marginsLost s) :=
  .alm (.update (hs.foldS fun _ _ hx => hx.freeW.freeB.setMargin))

protected theorem CanonicalMemory.execStartupRigging (hs : CanonicalMemory s) : NextCanonical (execStartupRigging marginOk s) := by
  unfold execStartupRigging
  with_reducible refine .next (.ite hs ?_)
  extract_lets s1 active apply other s2 s3 s4
  have h1 : CanonicalMemory s1 := .ite hs.alm hs
  have h2 : CanonicalMemory s2 := by
    dsimp only [s2]
    split
    · exact h1.update.rigApply
    · split
      · exact h1.update.rigApply.alm
      · exact h1.update.rigApply.alm
  have h3 : CanonicalMemory s3 := .ite h2 h2.marginsLost
  exact .stepNext (.update (h3.foldS fun _ _ hx => hx.updChan))

protected theorem CanonicalMemory.execStartupVigil (hs : CanonicalMemory s) : NextCanonical (execStartupVigil sigs s) :=
  .ite .fault (.next (.ite hs (.ite
    (.vigStop (.updR (.foldS (hs.foldS fun _ _ hx => hx.vigStore) fun _ _ hx => hx.alm.vigFence)))
    (.stepNext (.updR (.foldS (hs.foldS fun _ _ hx => hx.vigStore) fun _ _ hx => hx.alm.vigFence))))))

protected theorem CanonicalMemory.journalRedo (hs : CanonicalMemory s) : CanonicalMemory (journalRedo s m) :=
  .updChan (hs.foldS fun _ _ hx => .ite hx.putCheck.markStale hx.putCheck.markStale.queuePage)

protected theorem CanonicalMemory.unscrub (hs : CanonicalMemory s) : CanonicalMemory (unscrub s) := hs.frame

protected theorem CanonicalMemory.fieldStart (hs : CanonicalMemory s) : CanonicalMemory (fieldStart s) := by
  unfold fieldStart
  with_reducible refine hs.stoppersStart.foldS fun _ _ hx => .foldS ?_ fun _ _ hy => hy.updPort
  split
  · with_reducible exact hx.updPrun
  · exact hx

protected theorem CanonicalMemory.execStartupDramTraining (hs : CanonicalMemory s) : NextCanonical (execStartupDramTraining ok patFail s) :=
  .next (.ite hs (.ite hs.alm.stepStop (.stepNext (.fieldStart (.foldS
    (hs.unscrub.foldS fun _ _ hx => hx.journalRedo)
    fun _ _ hx => hx.patternEnd)))))

protected theorem CanonicalMemory.execStartupCordageLoad (hs : CanonicalMemory s) :
    NextCanonical (execStartupCordageLoad bankA bankB s) := by
  unfold execStartupCordageLoad
  with_reducible refine .next (.ite hs ?_)
  split
  · with_reducible exact hs.alm.stepStop
  · with_reducible exact hs.update

end

/-! ### What the module does while no command waits: one cycle of EPOCHCLK (R281, R282). -/

section
variable {s : State}

protected theorem CanonicalMemory.idleTick (hs : CanonicalMemory s) : CanonicalMemory (idleTick s) :=
  .ite hs (.ite hs.epochTick.windowsSettle.dayTick hs.epochTick.windowsSettle)

end

/-! ### The commands and the step -/

/-- Every command keeps the canonical form: one line for each kind of body a command has. -/
theorem nextCanonical_exec {s : State} (hs : CanonicalMemory s) (c : Instr) : NextCanonical (exec c s) := by
  unfold exec
  cases c
  all_goals dsimp only
  case pwrEnRise | housekeepingOn => exact .next (.ite hs hs.update.startBegin)
  case pwrEnFall | housekeepingOff | tripFlushComplete | clkRootRelockTimeout => exact .next (.ite CanonicalMemory.powerOff.update hs)
  case supplyTrip => exact .next hs.tripBegin
  case overvoltageShutdown => exact .next CanonicalMemory.powerOff.update
  case resetNAssert => exact .next (.ite (.update (.ite CanonicalMemory.moduleReset hs.resetTaken)) hs.resetTaken)
  case resetNRelease | debugTapInstruction => exact .next hs.update
  case moduleReset => exact .next (.ite CanonicalMemory.moduleReset hs)
  case commissionPress | smbusAlertResponse => exact .next (.ite hs.update hs)
  case refclkLoss => exact .next (.ite hs.txClear.linkDown.updHost hs)
  case perstAssert => exact .next (.ite hs.txClear.updR.portReset hs.txClear.updR)
  case perstDeassert => exact .next (.ite hs (.ite hs.updR.updHost.updHost.updR hs.updR.updHost))
  case fieldImmunityEvent => exact .next (.ite hs (.ite hs.portLoses.portLoses hs.portLoses.portLoses.bayErr))
  case startupRails => exact .next (.ite hs (.ite hs.update.evalSource CanonicalMemory.powerOff.update))
  case startupBowlineRom => exact .next (.ite hs hs.update.evalSource)
  case startupBowlineImage => exact hs.execStartupBowlineImage
  case startupRigging => exact hs.execStartupRigging
  case startupVigil => exact hs.execStartupVigil
  case startupDramTraining => exact hs.execStartupDramTraining
  case startupCordageLoad => exact hs.execStartupCordageLoad
  case startupCordageInit => exact .next (.ite hs (hs.stepNext.snapshotNow.foldS fun _ _ hx => .ite hx.enterRunning hx))
  case verify => exact .next (hs.rigCommand fun _ hx => hx.verifyOp)
  case rewire => exact .next (hs.rigCommand fun _ hx => hx.rewireOp)
  case rewireComplete => exact hs.execRewireComplete
  case rewireTimeout => exact hs.execRewireTimeout
  case store => exact .next (hs.rigCommand fun _ hx => hx.rigStoreOp)
  case select => exact .next (hs.rigCommand fun _ hx => hx.selectOp)
  case startPart => exact .next (hs.rigCommand fun _ hx => hx.startOp)
  case park => exact .next (hs.rigCommand fun _ hx => hx.parkOp)
  case parkDrainStart => exact .next (.ite hs.drainBegin hs)
  case parkComplete => exact .next (.ite hs.updPrun.haltThreads.cmdDone hs)
  case parkDrainTimeout => exact .next (.ite hs.alm.faultPartition hs)
  case resume => exact .next (hs.rigCommand fun _ hx => hx.resumeOp)
  case reset => exact .next (hs.rigCommand fun _ hx => hx.resetOp)
  case registerWrite => exact hs.execRegisterWrite
  case add | sub | sll | immh | pcadd | mul | madd => exact .next (hs.runInstr fun _ hx => hx.residueOp)
  case and | or | xor | andn | srl | sra | clt | cltu | min | max | minu | maxu => exact hs.aluShadow
  case clz | popc => exact hs.aluUnary
  case addi => exact .next (hs.runInstr fun _ hx => .ite (.done hx.wg) hx.residueOp)
  case andi | ori | xori | clti | cltiu => exact hs.immShadow
  case slli => exact hs.shiftImm fun _ _ _ hx => hx.residueOp
  case srli | srai => exact hs.shiftImm fun _ _ _ hx => hx.shadowOp
  case luh => exact .next (hs.runInstr fun _ hx => hx.shadowOp)
  case mulhi | mulhiu | mulhix => exact hs.mulHi
  case div | divu | rem | remu => exact hs.divide
  case ld | lw | lwu | lh | lhu | lb | lbu | lda => exact hs.loadOp
  case sd | sw | sh | sb | sdr => exact hs.storeOp
  case ll => exact .next (hs.runInstr fun _ hx => .ite (.wait hx) (hx.loadBody fun _ _ hy => hy.updThr))
  case sc => exact hs.execSc
  case atomSwap | atomAdd | atomAnd | atomOr | atomXor | atomMax | atomMin | atomMaxu | atomMinu => exact hs.atomicOp
  case fence => exact .next (hs.runInstr fun _ hx => .ite (.trap hx) (.ite (.wait hx) (.done hx)))
  case syncI => exact .next (hs.runInstr fun _ hx => .ite (.wait hx) (.done hx.loopEnd.sideClear))
  case xlsync => exact hs.execXlsync
  case beq | bne | blt | bge | bltu | bgeu => exact hs.branch
  case j => exact .next (hs.runInstr fun _ hx => .xfer hx.xferCommit)
  case jlnk => exact .next (hs.runInstr fun _ hx => .xfer hx.xferCommit.wg)
  case jind => exact .next (hs.runInstr fun _ hx => .ite (.trap hx) (.ite (.trap hx) (.ite (.trap hx) (.xfer hx.xferCommit.wg))))
  case fadd | fsub | fmul | fdiv | fsqrt | fmin | fmax | feq | flt | fle | itof | utof | ftoi | ftou | fcps | fcpsn => exact hs.fpOp
  case fmadd | fmsub | fnmadd | fnmsub => exact hs.fmaOp
  case vadd | vsub | vsll | vmul => exact hs.vecResidue
  case vand | vor | vxor | vsrl | vsra | vfadd | vfsub | vfmul | vfdiv | vfmin | vfmax | vfeq | vflt => exact hs.vecShadow
  case vfmadd | vfmsub | vfnmadd | vfnmsub => exact hs.vfmaOp
  case vld => exact hs.execVld
  case vst => exact hs.execVst
  case vins => exact .next (hs.runInstr fun _ hx => hx.vgMove fun _ hy => hy.wv)
  case vext => exact .next (hs.runInstr fun _ hx => hx.vgMove fun _ hy => hy.wg)
  case vbcast => exact .next (hs.runInstr fun _ hx => hx.vgMove fun _ hy => hy.wvAll)
  case psrd | pswr | pscw | pssub => exact .next (hs.runInstr fun _ hx => hx.pointOp)
  case tallyGen => exact hs.execTallyGen
  case tallyChk | tallyPsn => exact .next (hs.runInstr fun _ hx => .ite (.trap hx) (.done hx.wg))
  case l0inv => exact hs.cacheOpAll fun _ hx => hx.sideClear.updThr.updR
  case l1dClean => exact hs.cacheOp fun _ _ hx => hx.opClean1
  case l1dCleanInvalidate => exact hs.cacheOp fun _ _ hx => hx.opCleanInv1
  case l1dInvalidate => exact hs.cacheOp fun _ _ hx => hx.l1dRemove
  case l2Clean => exact hs.execL2Clean
  case l2CleanInvalidate => exact hs.execL2CleanInvalidate
  case llcClean => exact hs.execLlcClean
  case l1iInvalidate => exact hs.cacheOp fun _ _ hx => hx.setL1i
  case l1dCleanInvalidateAll => exact hs.cacheOpAll fun _ hx => hx.foldS fun _ _ hy => hy.opCleanInv1
  case prefetchL1d => exact hs.execPrefetchL1d
  case prefetchL2 => exact hs.execPrefetchL2
  case guardTighten => exact hs.execGuardTighten
  case waitslot => exact hs.execWaitslot
  case wcall => exact hs.execWcall
  case wret => exact .next (hs.runInstr fun _ hx => .ite (.trap hx) (.jump hx.jumpCount.leaveSecure))
  case crrd | crwr | crset | crclr => exact hs.crOp
  case syscall => exact .next (hs.runInstr fun _ hx => .ite (.trap hx) (.trap hx))
  case rftS | rftM => exact .next (hs.runInstr fun _ hx => .ite (.trap hx) (.jump hx.jumpCount.trapReturn))
  case wfi => exact .next (hs.runInstr fun _ hx => .ite (.trap hx) (.ite (.done hx) (.park hx)))
  case interruptTaken => exact .next hs.takeInterrupt
  case deadlineTrap => exact .next hs.takeDeadline
  case storeDrain => exact .next hs.drainOne.wakeIf
  case loadFill => exact .next (.sideUpd (.wakeIf (hs.foldS fun _ _ hx => .ite hx hx.fillEntry)))
  case waitTableClear => exact .next hs.updCore
  case coreCtxidWrite => exact .next (hs.coreWrite fun _ hx => hx.ctxidWrite)
  case coreIpiWrite => exact .next (hs.regCmd fun _ hx => hx.ipiWrite)
  case coreThstartGo => exact .next (hs.coreWrite fun _ hx => hx.thstartWrite)
  case coreModeBootWrite => exact .next (hs.coreWrite fun _ hx => hx.bootWrite)
  case coreCtlWrite => exact .next (hs.coreWrite fun _ hx => hx.coreCtlWrite)
  case coreL0ctlWrite => exact .next (hs.coreWrite fun _ hx => hx.l0ctlWrite)
  case tallyInjectArm => exact .next (hs.coreWrite fun _ hx => hx.tallyInjWrite)
  case bucketLeak => exact hs.execBucketLeak
  case flitHcrcFail => exact .ite .fault (.ite (.next hs) (.next (.ite CanonicalMemory.linkFailed hs.updR)))
  case malformedFlit => exact .ite .fault (.next (.ite CanonicalMemory.linkFailed hs))
  case credit => exact .ite .fault (.next hs.creditReturn)
  case creditReturnTimeout => exact .ite .fault (.next hs.creditReturnAll)
  case rdShared | rdOwn | upgrade => exact hs.requestCmd
  case rdOnce => exact .ite .fault (.next (.deliverReq (.ite hs.sendMsg hs)))
  case wrFull => exact .ite .fault (.next hs.sendMsg.deliverReq)
  case wrPartial => exact .ite .fault (.ite (.next hs.deliverReq) (.next hs.sendMsg.deliverReq))
  case wrBack | evictClean | cleanLine | flushLine => exact hs.holderMsg
  case snpShared | snpInv | snpRead | snpClean => exact hs.snoopCmd
  case memRead | memWrite => exact .next hs.memCmd
  case pcNote => exact hs.execPcNote
  case pcGather => exact hs.execPcGather
  case pcData => exact hs.execPcData
  case pcWrite => exact hs.execPcWrite
  case pcRepairRequest => exact hs.execPcRepairRequest
  case pcRelease => exact hs.execPcRelease
  case pcAck => exact hs.execPcAck
  case pageRebuildStart => exact .next (.ite hs.updChan.sendGather hs)
  case noteFilterExpire => exact .next hs.updChan
  case rowSparing => exact .next (.ite hs (.ite hs.updChan.degrade (.updChan (hs.updChan.foldS fun _ _ hx => hx.memReadLine))))
  case backgroundZeroing => exact hs.execBackgroundZeroing
  case patrolScrub => exact hs.execPatrolScrub
  case bankRefresh => exact .next hs
  case calibrationWindowStart => exact .next (.ite hs.windowSettle.updChan.updR hs.windowSettle)
  case calibrationWindowEnd => exact .next (.ite hs.windowEnd hs)
  case patternTestStart => exact .next (hs.regCmd fun _ hx => .ite hx.mchDiagWrite hx.refuseReg)
  case patternTestDone => exact .next (.ite hs.patternEnd hs)
  case splitWrite | splitRead => exact .next (hs.regCmd fun _ hx => .ite hx.splitWrite hx.refuseReg)
  case regRead => exact hs.execRegRead
  case regWrite => exact hs.execRegWrite
  case irqSet => exact .next (.ite hs.irqAssert hs.irqClear)
  case gntS | gntE | gntM | gntSUe | gntEUe | gntMUe => exact hs.grantCmd
  case gntUpg => exact hs.execGntUpg
  case dataOnce | dataOnceUe => exact hs.dataOnce
  case refused => exact hs.execRefused
  case denied => exact hs.execDenied
  case missNote => exact hs.execMissNote
  case compAck => exact hs.execCompAck
  case wrAck => exact hs.execWrAck
  case snpRspI | snpRspS | snpRspDataI | snpRspDataKeep | snpRspEvictC | snpRspEvictD => exact hs.snoopRsp
  case memData | memDataUe => exact hs.memData
  case memAck => exact hs.execMemAck
  case regData => exact hs.execRegData
  case regAck => exact hs.execRegAck
  case psRsp => exact hs.execPsRsp
  case transactionTimeout => exact hs.execTransactionTimeout
  case engineRead | engineWrite | engineCw | engineSub => exact .next hs.ptArrive
  case exchangeRead => exact hs.execExchangeRead
  case exchangeWrite => exact .next (.ite hs hs.ptUnitWrite)
  case mirrorWrite => exact .next (.ite hs.ptMirror hs)
  case entryFetchComplete => exact .next (.ite hs.ptSettle hs)
  case notificationRecord => exact hs.execNotificationRecord
  case setDeadband | peek => exact .next (hs.regCmd fun _ hx => hx.pstCmd)
  case nqTailWrite => exact .next (hs.regCmd fun _ hx => hx.nqTail)
  case todMessage => exact hs.execTodMessage
  case time1ppsEdge => exact hs.execTime1ppsEdge
  case alignmentHoldover => exact .next (.ite hs.updR.update.alm hs)
  case epochStepArm | timeSourceEnable => exact .next (hs.regCmd fun _ hx => hx.epochCtlWrite)
  case slotRelease => exact hs.execSlotRelease
  case slotStart => exact hs.execSlotStart
  case slotExchange => exact hs.execSlotExchange
  case slotDeadline => exact hs.execSlotDeadline
  case calendarStartRunning => exact hs.execCalendarStartRunning
  case lanyardCycleStart => exact hs.execLanyardCycleStart
  case callTransmit => exact hs.execCallTransmit
  case replyFrame => exact hs.execReplyFrame
  case plcaBeacon => exact .next (.ite hs (.ite hs.updPort (.ite hs.updPort.updR.alm hs.updPort.updR)))
  case plcaLost => exact .next (.ite hs hs.updPort.updR.alm.portCause.bayErr)
  case rawRxFrame => exact hs.execRawRxFrame
  case rawTxFrame => exact hs.execRawTxFrame
  case rawTailWrite => exact .next (hs.portWrite fun _ hx => hx.rawTail)
  case rawResume | rawEnable => exact .next (hs.portWrite fun _ hx => hx.rawCtl)
  case tightenRequest => exact hs.execTightenRequest
  case spliceAcquire => exact .next (hs.svcCall fun _ hx => hx.acquireOp)
  case spliceRelease => exact .next (hs.svcCall fun _ hx => hx.releaseOp)
  case spliceDemand => exact .next (hs.svcCall fun _ hx => hx.demandOp)
  case spliceRevoke => exact CanonicalMemory.blkCommand fun _ => .ite hs.revokeBlock hs
  case spliceDrainComplete =>
    exact CanonicalMemory.blkCommand fun _ => .ite hs (.ite (.resetBegin (.ite hs.vigAbort hs)) (.ite hs.vigAbort hs))
  case spliceDrainTimeout => exact CanonicalMemory.blkCommand fun _ => .ite (.resetBegin (.alm (.ite hs.vigAbort hs))) hs
  case spliceResetComplete => exact CanonicalMemory.blkCommand fun _ => .ite hs.releaseEnd hs
  case commission => exact .next (hs.svcCall fun _ hx => hx.commissionOp)
  case revokeOwner => exact .next (hs.svcCall fun _ hx => hx.revokeOwnerOp)
  case presenceTimeout => exact hs.execPresenceTimeout
  case slotProgrammingComplete => exact hs.execSlotProgrammingComplete
  case advanceRollback => exact .next (hs.svcCall fun _ hx => hx.advanceOp)
  case debugNonce => exact .next (hs.svcCall fun _ hx => hx.nonceOp)
  case debugUnlock => exact .next (hs.svcCall fun _ hx => hx.unlockOp)
  case fwInstall => exact .next (hs.svcCall fun _ hx => hx.fwOp)
  case fwInstallComplete => exact hs.execFwInstallComplete
  case spdmRelay => exact .next (hs.svcCall fun _ hx => hx.relayOp)
  case secureCallLimit => exact hs.execSecureCallLimit
  case hostConfigRequest => exact .next (.ite hs.txClear (.ite hs.txClear.tx (.ite hs.txClear.tx.cfgWrite hs.txClear.tx)))
  case bmeClear => exact .next (.ite hs.txClear.setBme hs)
  case flr | hotReset => exact .next (.ite hs.txClear.portReset hs)
  case hostResetComplete => exact .next (.ite hs (.ite hs.txClear.portItems.updHost hs.txClear.portItems.updHost.updR))
  case hostBar0Access => exact hs.execHostBar0Access
  case hostBar2Access => exact hs.execHostBar2Access
  case hostRomRead => exact .next (.ite hs.txClear (.ite hs.txClear.unsupported hs.txClear.tx))
  case hostMemoryWrite => exact hs.execHostMemoryWrite
  case hostMemoryRead => exact hs.execHostMemoryRead
  case hostUnsupportedRequest => exact .next (.ite hs.txClear.linkWake.unsupported hs.txClear)
  case hostCompletion => exact hs.execHostCompletion
  case completionTimeout => exact hs.execCompletionTimeout
  case msixSend => exact .ite .fault (.next hs.txClear.msixSend)
  case doeRequest => exact .next (.ite hs.doeTake hs)
  case doeAbort => exact .next (.ite hs.doeAbort hs)
  case doeResponse => exact .next (.ite hs.updHost hs)
  case l0sEntry | l1Entry => exact .next (.ite hs.updR hs)
  case sliceBind | sliceUnbind => exact .next (hs.txClear.regCmd fun _ hx => hx.bindWrite)
  case sliceGrant => exact .next (hs.txClear.regCmd fun _ hx => hx.grantWrite)
  case windowWrite => exact .next (hs.txClear.regCmd fun _ hx => hx.winWrite)
  case slicePost => exact .next (hs.txClear.regCmd fun _ hx => hx.postWrite)
  case sliceQuiesce | sliceReset => exact .next (hs.txClear.regCmd fun _ hx => hx.sliceCtl)
  case sliceQuiesced => exact .next (.ite hs.txClear.sliceQuiesced hs)
  case sqTailWrite => exact .next (.ite hs.sqTail hs)
  case cqHeadWrite => exact .next (.ite hs.txClear.cqHead hs)
  case qpResume | qpAbort => exact .next (.ite hs.txClear.qpCtl hs)
  case sqFetch => exact hs.execSqFetch
  case copyIn | copyOut => exact .next hs.txClear.copyStart
  case psRead => exact hs.execPsRead
  case psWrite => exact hs.execPsWrite
  case psCw => exact hs.execPsCw
  case dmaGo | dmaResume | dmaAbort => exact .next (hs.txClear.regCmd fun _ hx => hx.chCtl)
  case descriptorFetch => exact .next hs.txClear.descFetch
  case dmaBurstBoundary => exact .next hs.txClear.dmaBoundary
  case dmaRetry => exact hs.execDmaRetry
  case hcprsChange => exact .next (.ite (.ite hs.updHaws hs.updHaws.hawsDown) hs.updHaws.hawsRetrain)
  case hawserTrained => exact .next (.ite hs.hawsSet hs)
  case hawserTrainingTimeout => exact .next (.ite hs.hawsSet.hawsRetrain hs)
  case hawserHello => exact hs.execHawserHello
  case hawserLinkLoss => exact .next (.ite hs.hawsDown.hawsRetrain hs)
  case hawserReplay => exact .next (.ite hs (.ite hs.hawsDown.alm.hawsRetrain hs.updR.updHaws))
  case hawserInboundRequest => exact hs.execHawserInboundRequest
  case hawserResponse => exact hs.execHawserResponse
  case staleWindow => exact hs.execStaleWindow
  case windowCommit => exact .next (hs.regCmd fun _ hx => .ite hx.windowCommit hx.refuseReg)
  case announce => exact hs.execAnnounce
  case announceAck => exact .next (.ite hs.commitEnd hs)
  case announceTimeout => exact hs.execAnnounceTimeout
  case hawserTimeRequest | peerTimeRequest => exact .next (.ite hs.updHaws hs)
  case hawserTimeAnswer => exact .next (.ite hs (.ite hs.updHaws.updR.acceptMark hs.updHaws.updR))
  case mirroredWrite => exact hs.execMirroredWrite
  case domainOn | domainOff | clkStop | clkRun | step => exact hs.powCommand
  case domainSwitchComplete => exact hs.execDomainSwitchComplete
  case coreGate => exact .next (.ite (.updCore (hs.domWriteback.foldS fun _ _ hx => hx.updThr.sideClear)) hs)
  case coreUngate => exact .next (.ite hs.ungate hs)
  case sensorSample => exact hs.execSensorSample
  case throttleStep => exact hs.execThrottleStep
  case tripDomainsOff => exact hs.execTripDomainsOff
  case clkRootLockLoss => exact .next (.ite CanonicalMemory.moduleReset.update hs)
  case solsticePassStart => exact .next (.ite hs.solStart hs)
  case solCmdStart => exact .next (hs.regCmd fun _ hx => hx.solCmd)
  case solsticeHold => exact hs.execSolsticeHold
  case solsticeMeasure => exact hs.execSolsticeMeasure
  case solsticeSkip => exact hs.execSolsticeSkip
  case managementSnapshot => exact .next (.ite hs.snapshotNow hs)
  case mctpMessage => exact hs.execMctpMessage
  case getView => exact hs.execGetView
  case powerRequest => exact hs.execPowerRequest
  case solsticeStart => exact hs.execSolsticeStart
  case vigilStart => exact .next (hs.regCmd fun _ hx => hx.vigStart)
  case vigilAbort => exact hs.execVigilAbort
  case vigilRunComplete => exact hs.execVigilRunComplete
  case recordAccept => exact .next (.ite hs (.ite hs hs.recordAcceptOp))
  case almanacMirrorRecord => exact hs.execAlmanacMirrorRecord
  case almSeekWrite => exact .next (hs.regCmd fun _ hx => hx.almSeek)
  case epochCompareMatch => exact .next (.ite hs.runAheadEnd.wfiCheck hs)
  case hostLinkUp => exact .ite .fault (.next (.ite hs hs.txClear.updR.msixAssert.msixUnblock))
  case electricalIdleExit => exact .next hs.linkWake
  -- BREAK, whose constructor's name is a keyword and names no case.
  exact .next (hs.runInstr fun _ hx => .ite (.trap hx) (.trap hx))

/-- Settles O60: the idle tick and every command keep the canonical form. -/
theorem stepKeepsMemoryCanonical : Obligations.StepKeepsMemoryCanonical := by
  intro s s' hs hstep
  unfold step at hstep
  split at hstep
  case h_1 =>
    obtain rfl := Host.Outcome.next.inj hstep
    exact hs.idleTick
  case h_2 c r _ =>
    have hnext : NextCanonical (exec c { s with pending := r }) := nextCanonical_exec hs.update c
    rw [hstep] at hnext
    exact hnext

end Sys2Proof.Machine
end
